-- ==== Sys2Proof/Word.lean ====
section
/-! DEFINITION. The words of the AZ-PV6820 (R1–R3, R92): bytes, scalar words, lines, vector registers, masks,
and the sparse map that holds anything the machine keeps by number. -/

namespace Sys2Proof

/-- One byte. -/
abbrev Byte := BitVec 8
/-- A scalar register, a pointer, a system register (R92). -/
abbrev Word := BitVec 64
/-- A line of 64 B (R3). -/
abbrev Line := BitVec 512
/-- A vector register, 512 B (R92). -/
abbrev VReg := BitVec 4096
/-- A mask register, 1,024 bits (R92). -/
abbrev Mask := BitVec 1024
/-- An F32 bit pattern (R109). -/
abbrev F32 := BitVec 32

/-- A sparse map from numbers: key and value pairs, keys strictly rising. A key that is not listed reads as the
default that the accessor names. -/
abbrev SMap (β : Type) := List (Nat × β)

/-- KiB, MiB (R3). -/
def kib : Nat := 1024
def mib : Nat := 1024 * 1024

end Sys2Proof
end

