-- ==== Sys2Proof/Config.lean ====
section
/-! DEFINITION. What an implementation fixes, and the free values: constants without a body, so that nothing can be
proved about their values. Each free value is named in the assumption log. -/

namespace Sys2Proof.Config

/-- A value the spec leaves open, drawn at a counter of State (`State.fresh`): 64 bits (log 5). -/
opaque freeWord : Nat → BitVec 64

/-- A byte the spec leaves open (encoder output, syndromes, the far side of a faulted copy), drawn at a counter (log 5). -/
opaque freeByte : Nat → BitVec 8

/-- How far a special-function result lies from the correctly rounded one, in units in the last place: a fixed
function of the instruction (its opcode) and the F32 input (R148). The model clamps it to the bound of R148 (log 7). -/
opaque sfuOffset : Nat → BitVec 32 → Int

/-- By how many picoseconds a die reads the GTC late: below 250 (R56; log 3). -/
opaque gtcSkew : Nat → Nat

/-- The signature of an attestation report (R262), a function of the signed words (log 8). -/
opaque signature : List (BitVec 64) → BitVec 512

/-- The device identity public key of a package, an SM2 key (R261), and the part number as a report codes it (R262; log 8). -/
opaque deviceKey : Nat → BitVec 512
opaque partNumber : BitVec 64

/-- The size in bytes of a coded frame, drawn at a counter (R312): the codecs fix it, not the spec (log 8). -/
opaque codedSize : Nat → Nat

/-- The watts of demand that a die measures are an input; PMAX is set by the board (R264): 3,800 W (log 10). -/
def pmax : Nat := 3800

/-- Late tolerance that the root gives a region (T2.2). -/
def rootTguard : Nat := 64
/-- Wait limit that the root gives a region (T2.2). -/
def rootWaitlim : Nat := 2000000
/-- Priority that the root gives a region (T2.2). -/
def rootPrio : Nat := 128
/-- Default band quantum in ticks (R45). -/
def rootQuantum : Nat := 100000
/-- Default SLIPMAX in units of 0.01% (R60). -/
def slipmax : Nat := 600
/-- Shortest and longest die cycle in picoseconds (R54). -/
def cycleMin : Nat := 500
def cycleMax : Nat := 625
/-- Tick of the GTC in picoseconds (R4). -/
def tickPs : Nat := 1000

end Sys2Proof.Config
end

