-- ==== Sys2Proof/Syntax.lean ====
section
/-! DEFINITION. The syntax of the steps: one constructor for each row of spec/opcode_table.json.

A step is either a slot instruction of a bundle (its fields are those of the slot's field map, 15_encoding T15.5,
T15.6, T15.8), or an event of another part of the machine (its operands say where it happens, and carry what the
outside world or an unspecified instant of the hardware chooses; log 2, log 6). The events without operands, listed
last, happen on the die in focus (`State.cur`). -/

namespace Sys2Proof

/-- The seven slots of a bundle (R269, R270), in slot order. -/
inductive SlotName where
  | s | v0 | v1 | m | c0 | c1 | x
  deriving DecidableEq, Repr

/-- Fields of an S-slot instruction (T15.5). `long` is the long immediate of FM 10 (R274). -/
structure SF where
  fm   : BitVec 2
  pg   : BitVec 4
  pn   : BitVec 1
  d    : BitVec 6
  a    : BitVec 6
  b    : BitVec 6
  imm  : BitVec 21
  mod  : BitVec 10
  long : Option Word
  deriving DecidableEq, Repr

/-- Fields of a V-slot instruction (T15.6). `v1` tells V1 from V0; `long` is the long immediate of TMPL 3 (R274). -/
structure VF where
  v1   : Bool
  fm   : BitVec 1
  km   : BitVec 4
  sp   : BitVec 3
  ty   : BitVec 4
  d    : BitVec 11
  a    : BitVec 11
  b    : BitVec 11
  c    : BitVec 11
  long : Option Word
  deriving DecidableEq, Repr

/-- Fields of an M-slot instruction (T15.8). `long` is the configuration word of TMPL 5 (R274). -/
structure MF where
  bt   : BitVec 3
  ac   : BitVec 6
  ta   : BitVec 8
  tb   : BitVec 8
  tc   : BitVec 8
  lv   : BitVec 6
  imm  : BitVec 17
  long : Option Word
  deriving DecidableEq, Repr

/-- Fields of a C-slot instruction (T15.8). `c1` tells C1 from C0; `long` stands for SS (R274). -/
structure CF where
  c1   : Bool
  tag  : BitVec 6
  te   : BitVec 1
  sd   : BitVec 6
  ss   : BitVec 6
  sn   : BitVec 6
  tid  : BitVec 8
  qh   : BitVec 5
  mod  : BitVec 10
  imm8 : BitVec 8
  long : Option Word
  deriving DecidableEq, Repr

/-- Fields of an X-slot instruction (T15.8). -/
structure XF where
  oc  : BitVec 8
  v   : BitVec 11
  off : BitVec 9
  deriving DecidableEq, Repr

/-- One step of the machine. -/
inductive Instr where
  /-- LAUNCH_PORT_STORE (R30). -/
  | launchPortStore (pkg : Nat) (ptr : Nat)
  /-- LAUNCH_VALIDATE (R26). -/
  | launchValidate (pkg : Nat)
  /-- GANG_START (R36). -/
  | gangStart (rid : Nat) (choice : Nat)
  /-- START_TICK (R37). -/
  | startTick (rid : Nat) (choice : Nat)
  /-- START_LATE (R37). -/
  | startLate (rid : Nat)
  /-- REGION_DONE (R33). -/
  | regionDone (rid : Nat)
  /-- PERIOD_START (R42). -/
  | periodStart (rid : Nat)
  /-- BUDGET_EXHAUSTED (R43). -/
  | budgetExhausted (rid : Nat)
  /-- DEADLINE_MISS (R43). -/
  | deadlineMiss (rid : Nat)
  /-- QUANTUM_EXPIRY (R44). -/
  | quantumExpiry (rid : Nat)
  /-- DISPATCH (R45). -/
  | dispatch (pkg : Nat) (choice : Nat)
  /-- PREEMPT_STOP (R252). -/
  | preemptStop (rid : Nat)
  /-- WINDOW_OVERRUN (R46). -/
  | windowOverrun (rid : Nat)
  /-- RESUME (R253). -/
  | resume (rid : Nat) (choice : Nat)
  /-- CANCEL_OBSERVED (R53). -/
  | cancelObserved (rid : Nat)
  /-- CANCEL_COMPLETE (R53). -/
  | cancelComplete (rid : Nat)
  /-- MILLINER_TAKEOVER (R52). -/
  | millinerTakeover (pkg : Nat)
  /-- PTP_SYNC (R58). -/
  | ptpSync (pkg : Nat) (offset : Nat)
  /-- SYNC_TIMEOUT (R58). -/
  | syncTimeout (pkg : Nat)
  /-- HOLDOVER_TIMEOUT (R58). -/
  | holdoverTimeout (pkg : Nat)
  /-- SPINE_LINE_TRANSFER (R72). -/
  | spineLineTransfer (die : Nat) (chan : Nat)
  /-- PEER_BANK_ACCESS (R72). -/
  | peerBankAccess (die : Nat) (req : Nat)
  /-- CUFF_LANDING (R87). -/
  | cuffLanding (die : Nat) (cuff : Nat)
  /-- COPY_COMPLETE (R178). -/
  | copyComplete (die : Nat) (chan : Nat)
  /-- CGATH_ENTRY_WRITE (R174). -/
  | cgathEntryWrite (die : Nat) (chan : Nat)
  /-- CPUTF_FLAG_INCREMENT (R172). -/
  | cputfFlagIncrement (die : Nat) (chan : Nat)
  /-- PAGE_WALK (R165). -/
  | pageWalk (die : Nat) (part : Nat) (space : Nat) (vpage : Nat)
  /-- HOME_ACCESS (R182). -/
  | homeAccess (die : Nat) (chan : Nat) (item : Nat)
  /-- LOAD_RETURN (R169). -/
  | loadReturn (req : Nat)
  /-- STORE_ACK (R169). -/
  | storeAck (req : Nat)
  /-- ATOMIC_RESEND (R228). -/
  | atomicResend (req : Nat)
  /-- ATOMIC_TIMEOUT (R228). -/
  | atomicTimeout (req : Nat)
  /-- RESULT_CACHE_EXPIRY (R228). -/
  | resultCacheExpiry (pkg : Nat) (src : Nat) (seq : Nat)
  /-- ROUTER_CRED_RECEIVE (R230). -/
  | routerCredReceive (pkg : Nat) (req : Nat)
  /-- MERGE_FORWARD (R230). -/
  | mergeForward (pkg : Nat) (merge : Nat)
  /-- MERGE_ANSWER (R230). -/
  | mergeAnswer (pkg : Nat) (merge : Nat)
  /-- MIRROR_ACK (R206). -/
  | mirrorAck (req : Nat)
  /-- CROWN_ALLOCATOR_ANSWER (R202). -/
  | crownAllocatorAnswer (slot : Nat)
  /-- FABRIC_DIE_FAILED (R207). -/
  | fabricDieFailed (pkg : Nat) (fd : Nat)
  /-- FAILOVER_COMPLETE (R207). -/
  | failoverComplete (pkg : Nat) (fd : Nat)
  /-- BARRIER_ARRIVAL (R221). -/
  | barrierArrival (part : Nat) (entry : Nat) (writer : Nat)
  /-- PLANE_MERGE (R215). -/
  | planeMerge (part : Nat) (group : Nat) (home : Nat)
  /-- PHASE_FLIP (R215). -/
  | phaseFlip (part : Nat) (entry : Nat)
  /-- FLIT_RECEIVE (R225). -/
  | flitReceive (pkg : Nat) (link : Nat) (seq : Nat) (good : Nat)
  /-- LOSS_OF_LIGHT (R226). -/
  | lossOfLight (pkg : Nat) (link : Nat)
  /-- OPTICAL_LOCK (R226). -/
  | opticalLock (pkg : Nat) (link : Nat)
  /-- AUTH_ATTEMPT (R226). -/
  | authAttempt (pkg : Nat) (link : Nat) (good : Nat)
  /-- AUTH_TIMEOUT (R226). -/
  | authTimeout (pkg : Nat) (link : Nat)
  /-- DRAIN_MARKER (R224). -/
  | drainMarker (pkg : Nat) (src : Nat)
  /-- BIAS_LIMIT (R232). -/
  | biasLimit (pkg : Nat) (port : Nat) (plane : Nat) (mzm : Nat) (high : Nat)
  /-- HEATER_APPLY (R233). -/
  | heaterApply (pkg : Nat) (port : Nat) (plane : Nat) (ring : Nat)
  /-- MON_UPDATE (R233). -/
  | monUpdate (pkg : Nat) (port : Nat) (plane : Nat) (ring : Nat) (reading : Nat)
  /-- COLOUR_TAKEOVER (R236). -/
  | colourTakeover (pkg : Nat) (port : Nat) (plane : Nat) (ring : Nat)
  /-- CIRCUIT_UP (R237). -/
  | circuitUp (pkg : Nat) (src : Nat) (dst : Nat)
  /-- CIRCUIT_WAIT_TIMEOUT (R237). -/
  | circuitWaitTimeout (req : Nat)
  /-- XSEND_LAUNCH (R241). -/
  | xsendLaunch (circ : Nat)
  /-- UNIT_LANDING (R239). -/
  | unitLanding (circ : Nat)
  /-- WINDOW_END (R239). -/
  | windowEnd (circ : Nat)
  /-- HOST_ACCESS (R258). -/
  | hostAccess (pkg : Nat) (write : Nat) (ptr : Nat) (size : Nat) (data : Nat)
  /-- RESET (R261). -/
  | reset (pkg : Nat) (outcome : Nat)
  /-- READY_TIMEOUT (R263). -/
  | readyTimeout (pkg : Nat)
  /-- ATTESTATION_REQUEST (R262). -/
  | attestationRequest (pkg : Nat) (nonce : Nat)
  /-- INSTALL_RANGE_ENTRY (R164). -/
  | installRangeEntry (pkg : Nat) (part : Nat) (index : Nat) (w0 : Nat) (w1 : Nat) (w2 : Nat) (w3 : Nat)
  /-- INVALIDATE_TRANSLATION (R168). -/
  | invalidateTranslation (pkg : Nat) (part : Nat) (space : Nat) (first : Nat) (last : Nat)
  /-- INSTALL_PLANE_DESCRIPTOR (R210). -/
  | installPlaneDescriptor (pkg : Nat) (part : Nat) (index : Nat) (w0 : Nat) (w1 : Nat) (w2 : Nat) (w3 : Nat) (w4 : Nat) (w5 : Nat) (w6 : Nat) (w7 : Nat)
  /-- INSTALL_BARRIER_ENTRY (R220). -/
  | installBarrierEntry (pkg : Nat) (part : Nat) (index : Nat) (members : List Nat)
  /-- INSTALL_REDUCTION_WINDOW (R229). -/
  | installReductionWindow (pkg : Nat) (part : Nat) (index : Nat) (base : Nat) (size : Nat) (ty : Nat) (op : Nat)
  /-- INSTALL_CIRCUIT_DESCRIPTOR (R238). -/
  | installCircuitDescriptor (pkg : Nat) (part : Nat) (slot : Nat) (index : Nat) (w0 : Nat) (w1 : Nat) (w2 : Nat) (w3 : Nat)
  /-- ROUTING_UPDATE (R224). -/
  | routingUpdate (pkg : Nat) (dest : Nat) (entry : Nat)
  /-- ROUTING_FLIP (R224). -/
  | routingFlip (pkg : Nat)
  /-- CONNECTION_TABLE_ENTRY (R237). -/
  | connectionTableEntry (pkg : Nat) (src : Nat) (dst : Nat) (count : Nat)
  /-- SET_BAND_QUANTUM (R45). -/
  | setBandQuantum (pkg : Nat) (band : Nat) (value : Nat)
  /-- LINK_ENABLE (R226). -/
  | linkEnable (pkg : Nat) (link : Nat)
  /-- POWER_GRANT (R264). -/
  | powerGrant (pkg : Nat) (demands : List Nat)
  /-- STACK_FAILURE (R266). -/
  | stackFailure (pkg : Nat) (stack : Nat)
  /-- BANK_RETIRE (R69). -/
  | bankRetire (die : Nat) (bank : Nat)
  /-- RING_FAILURE (R266). -/
  | ringFailure (pkg : Nat) (port : Nat) (plane : Nat) (ring : Nat)
  /-- TSTAT_READ (R60). -/
  | tstatRead (f : SF)
  /-- MSTAT_READ (R142). -/
  | mstatRead (f : SF)
  /-- XSTAT_WRITE (R106). -/
  | xstatWrite (f : SF)
  /-- VFLAGS_WRITE (R118). -/
  | vflagsWrite (f : SF)
  /-- RRB_WRITE (R97). -/
  | rrbWrite (f : SF)
  /-- GRB_WRITE (R97). -/
  | grbWrite (f : SF)
  /-- TGUARD_WRITE (R61). -/
  | tguardWrite (f : SF)
  /-- FSR_WRITE (R246). -/
  | fsrWrite (f : SF)
  /-- WAITLIM_WRITE (R381). -/
  | waitlimWrite (f : SF)
  /-- OPSEL_WRITE (R235). -/
  | opselWrite (f : SF)
  /-- RING_WRITE (R236). -/
  | ringWrite (f : SF)
  /-- MZM_WRITE (R235). -/
  | mzmWrite (f : SF)
  /-- ELOGSTAT_WRITE (R256). -/
  | elogstatWrite (f : SF)
  /-- INJCTL_WRITE (R257). -/
  | injctlWrite (f : SF)
  /-- INTSTAT_WRITE (R259). -/
  | intstatWrite (pkg : Nat) (bits : Nat)
  /-- NOP (R355). -/
  | nop (slot : SlotName)
  /-- ADD (R294). -/
  | add (f : SF)
  /-- SUB (R379). -/
  | sub (f : SF)
  /-- MUL (R352). -/
  | mul (f : SF)
  /-- MULH (R352). -/
  | mulh (f : SF)
  /-- DIV (R327). -/
  | div (f : SF)
  /-- REM (R367). -/
  | rem (f : SF)
  /-- AND (R294). -/
  | and_ (f : SF)
  /-- ANDN (R294). -/
  | andn (f : SF)
  /-- OR (R356). -/
  | or_ (f : SF)
  /-- XOR (R427). -/
  | xor (f : SF)
  /-- SHL (R369). -/
  | shl (f : SF)
  /-- SHR (R369). -/
  | shr (f : SF)
  /-- SRA (R369). -/
  | sra (f : SF)
  /-- ROL (R369). -/
  | rol (f : SF)
  /-- MIN (R342). -/
  | min (f : SF)
  /-- MAX (R342). -/
  | max (f : SF)
  /-- CLZ (R317). -/
  | clz (f : SF)
  /-- POPC (R358). -/
  | popc (f : SF)
  /-- SEL (R373). -/
  | sel (f : SF)
  /-- MOV (R349). -/
  | mov (f : SF)
  /-- LI (R338). -/
  | li (f : SF)
  /-- CMP (R318). -/
  | cmp (f : SF)
  /-- PAND (R357). -/
  | pand (f : SF)
  /-- POR (R357). -/
  | por (f : SF)
  /-- PXOR (R357). -/
  | pxor (f : SF)
  /-- PNOT (R357). -/
  | pnot (f : SF)
  /-- KPOP (R333). -/
  | kpop (f : SF)
  /-- KPOP_N (R333). -/
  | kpopN (f : SF)
  /-- LD (R336). -/
  | ld (f : SF)
  /-- ST (R377). -/
  | st (f : SF)
  /-- ATOM (R298). -/
  | atom (f : SF)
  /-- ATOM_CAS (R297). -/
  | atomCas (f : SF)
  /-- RED (R366). -/
  | red (f : SF)
  /-- LQPOP (R341). -/
  | lqpop (f : SF)
  /-- APUSH (R177). -/
  | apush (f : SF)
  /-- FENCE (R191). -/
  | fence (f : SF)
  /-- WAITW (R425). -/
  | waitw (f : SF)
  /-- BR_REL (R303). -/
  | brRel (f : SF)
  /-- BR_REG (R303). -/
  | brReg (f : SF)
  /-- JMP_IMM (R331). -/
  | jmpImm (f : SF)
  /-- JMP_REG (R331). -/
  | jmpReg (f : SF)
  /-- JMP_LONG (R331). -/
  | jmpLong (f : SF)
  /-- CALL_REL (R303). -/
  | callRel (f : SF)
  /-- CALL_REG (R303). -/
  | callReg (f : SF)
  /-- RET (R368). -/
  | ret (f : SF)
  /-- LOOP (R155). -/
  | loop (f : SF)
  /-- TRAP (R250). -/
  | trap (f : SF)
  /-- TRET (R250). -/
  | tret (f : SF)
  /-- END (R33). -/
  | end_ (f : SF)
  /-- YIELD (R34). -/
  | yield (f : SF)
  /-- LAUNCH (R32). -/
  | launch (f : SF)
  /-- TWAIT (R388). -/
  | twait (f : SF)
  /-- TWAIT_ABS (R388). -/
  | twaitAbs (f : SF)
  /-- WTAGALL (R426). -/
  | wtagall (f : SF)
  /-- WTAGANY (R426). -/
  | wtagany (f : SF)
  /-- TAGFF (R382). -/
  | tagff (f : SF)
  /-- TAGCLR (R382). -/
  | tagclr (f : SF)
  /-- QWAIT (R364). -/
  | qwait (f : SF)
  /-- QADV (R361). -/
  | qadv (f : SF)
  /-- QSET (R363). -/
  | qset (f : SF)
  /-- BARA (R221). -/
  | bara (f : SF)
  /-- BARW (R221). -/
  | barw (f : SF)
  /-- STEP (R217). -/
  | step (f : SF)
  /-- PSTAT (R219). -/
  | pstat (f : SF)
  /-- SYSRD (R381). -/
  | sysrd (f : SF)
  /-- SYSWR (R380). -/
  | syswr (f : SF)
  /-- TIDSET (R385). -/
  | tidset (f : SF)
  /-- FALLOC (R203). -/
  | falloc (f : SF)
  /-- FALLOC_AT (R203). -/
  | fallocAt (f : SF)
  /-- FALLOC_QUERY (R204). -/
  | fallocQuery (f : SF)
  /-- FFREE (R205). -/
  | ffree (f : SF)
  /-- VADD (R391). -/
  | vadd (f : VF)
  /-- VSUB (R423). -/
  | vsub (f : VF)
  /-- VMUL (R408). -/
  | vmul (f : VF)
  /-- VFMA (R402). -/
  | vfma (f : VF)
  /-- VFMS (R402). -/
  | vfms (f : VF)
  /-- VMIN (R406). -/
  | vmin (f : VF)
  /-- VMAX (R406). -/
  | vmax (f : VF)
  /-- VABS (R390). -/
  | vabs (f : VF)
  /-- VNEG (R411). -/
  | vneg (f : VF)
  /-- VAND (R393). -/
  | vand (f : VF)
  /-- VOR (R413). -/
  | vor (f : VF)
  /-- VXOR (R413). -/
  | vxor (f : VF)
  /-- VNOT (R412). -/
  | vnot (f : VF)
  /-- VSHL (R420). -/
  | vshl (f : VF)
  /-- VSHR (R420). -/
  | vshr (f : VF)
  /-- VSRA (R420). -/
  | vsra (f : VF)
  /-- VCMP (R395). -/
  | vcmp (f : VF)
  /-- VSEL (R419). -/
  | vsel (f : VF)
  /-- VMOV (R407). -/
  | vmov (f : VF)
  /-- VBCAST_IDX (R394). -/
  | vbcastIdx (f : VF)
  /-- VBCAST_FIRST (R394). -/
  | vbcastFirst (f : VF)
  /-- VIOTA (R403). -/
  | viota (f : VF)
  /-- VEXT (R401). -/
  | vext (f : VF)
  /-- VDOT (R154). -/
  | vdot (f : VF)
  /-- VRED (R418). -/
  | vred (f : VF)
  /-- VAMAX (R392). -/
  | vamax (f : VF)
  /-- VCVT (R397). -/
  | vcvt (f : VF)
  /-- VWID (R409). -/
  | vwid (f : VF)
  /-- VNAR (R409). -/
  | vnar (f : VF)
  /-- VQUANT (R415). -/
  | vquant (f : VF)
  /-- VPERM (R414). -/
  | vperm (f : VF)
  /-- VCOMPACT (R396). -/
  | vcompact (f : VF)
  /-- VLD (R404). -/
  | vld (f : VF)
  /-- VST (R422). -/
  | vst (f : VF)
  /-- KAND (R332). -/
  | kand (f : VF)
  /-- KOR (R332). -/
  | kor (f : VF)
  /-- KXOR (R332). -/
  | kxor (f : VF)
  /-- KNOT (R332). -/
  | knot (f : VF)
  /-- VEXP2 (R400). -/
  | vexp2 (f : VF)
  /-- VLOG2 (R400). -/
  | vlog2 (f : VF)
  /-- VRCP (R417). -/
  | vrcp (f : VF)
  /-- VRSQ (R417). -/
  | vrsq (f : VF)
  /-- VSQRT (R417). -/
  | vsqrt (f : VF)
  /-- VTANH (R417). -/
  | vtanh (f : VF)
  /-- SCAN (R149). -/
  | scan (f : VF)
  /-- SELK (R150). -/
  | selk (f : VF)
  /-- SORTK (R151). -/
  | sortk (f : VF)
  /-- RSOLVE (R371). -/
  | rsolve (f : VF)
  /-- MCFG_HEAD (R130). -/
  | mcfgHead (f : MF)
  /-- MCFG_LEVEL (R131). -/
  | mcfgLevel (f : MF)
  /-- MROUTE (R350). -/
  | mroute (f : MF)
  /-- MGATH (R135). -/
  | mgath (f : MF)
  /-- MGO (R132). -/
  | mgo (f : MF)
  /-- MCOMMIT (R344). -/
  | mcommit (f : MF)
  /-- MWAITB (R136). -/
  | mwaitb (f : MF)
  /-- MDRAIN (R140). -/
  | mdrain (f : MF)
  /-- MZERO (R354). -/
  | mzero (f : MF)
  /-- MLDA (R139). -/
  | mlda (f : MF)
  /-- MSTOP (R141). -/
  | mstop (f : MF)
  /-- CGET (R172). -/
  | cget (f : CF)
  /-- CPUT (R319). -/
  | cput (f : CF)
  /-- CPUTF (R320). -/
  | cputf (f : CF)
  /-- CGATH (R174). -/
  | cgath (f : CF)
  /-- CSCAT (R175). -/
  | cscat (f : CF)
  /-- CATOM (R306). -/
  | catom (f : CF)
  /-- CRED (R322). -/
  | cred (f : CF)
  /-- CFENCE (R187). -/
  | cfence (f : CF)
  /-- CZERO (R176). -/
  | czero (f : CF)
  /-- CROUTE (R323). -/
  | croute (f : CF)
  /-- CBUND (R308). -/
  | cbund (f : CF)
  /-- CENC_OPEN (R312). -/
  | cencOpen (f : CF)
  /-- CENC_FRAME (R312). -/
  | cencFrame (f : CF)
  /-- CENC_CLOSE (R312). -/
  | cencClose (f : CF)
  /-- XSEND (R241). -/
  | xsend (f : XF)
  /-- XRECV (R242). -/
  | xrecv (f : XF)
  /-- LIGHT_PRESENT (R226). -/
  | lightPresent (pkg : Nat) (link : Nat)
  /-- PTP_PORT_ENABLE (R58). -/
  | ptpPortEnable (pkg : Nat) (port : Nat) (enable : Nat)
  /-- BARRIER_ROOT_ANSWER (R219). -/
  | barrierRootAnswer (slot : Nat)
  /-- TAKEOVER_COMPLETE (R52). -/
  | takeoverComplete (pkg : Nat)
  /-- UNKNOWN_COMMAND (R445). -/
  | unknownCommand (pkg : Nat) (code : Nat)
  /-- BUNDLE_ISSUE (R29). -/
  | bundleIssue
  /-- ANCHORED_BUNDLE_ISSUE (R62). -/
  | anchoredBundleIssue
  /-- LATE_TICK_EXPIRY (R62). -/
  | lateTickExpiry
  /-- RESULT_LANDING (R146). -/
  | resultLanding
  /-- WAIT_LIMIT (R50). -/
  | waitLimit
  /-- SLIP_EXCEEDED (R55). -/
  | slipExceeded
  /-- CONTEXT_EVICT (R254). -/
  | contextEvict
  /-- CUFF_OVERRUN (R89). -/
  | cuffOverrun
  /-- MATRIX_STEP_START (R133). -/
  | matrixStepStart
  /-- MATRIX_STEP_COMPLETE (R125). -/
  | matrixStepComplete
  /-- TABLE_MOVE (R347). -/
  | tableMove
  /-- XRECV_TAKE (R242). -/
  | xrecvTake
  /-- WAITW_REREAD (R425). -/
  | waitwReread
  /-- COMPUTE_DIE_FAILURE (R266). -/
  | computeDieFailure
  /-- ENCODE_COMPLETE (R312). -/
  | encodeComplete
  deriving DecidableEq, Repr

end Sys2Proof
end

