-- ==== Sys2Proof/Machine/State.lean ====
section
/-! DEFINITION. Everything the spec gives the machine, as plain data (INVENTORY.md '## State' lists it with its rules
and reset values), and the machine right after reset. -/

namespace Sys2Proof.Machine

/-- Names of the parts: a package number (R18), a die (8 × package + physical index, R9), a region identifier (R23), a
die slot of a region (8,192 × region identifier + 8 × package + slot; package within its row is not enough: the low
13 bits hold 8 × package + slot). -/
abbrev PkgId := Nat
abbrev DieId := Nat
abbrev Rid := Nat
abbrev SlotKey := Nat

/-- Memory: every byte of every home (T10.1), by flat address (`homeAddr`), sorted, no byte equal to 0 listed (log 1). -/
abbrev Memory := List Host.Cell

/-- Why the machine stops: no instruction of this hardware stops it (every trap is a next state, R249, R251). -/
inductive Fault where
  /-- raised by `step` when no package is present, so that no time can pass; safe (no claim is about such a state). -/
  | noPackage
  deriving DecidableEq, Repr

/-- Why a step has no meaning. -/
inductive Refusal where
  /-- an instruction that the model gives no meaning yet, by its mnemonic; safe (it only stops). -/
  | notModelled (mnemonic : String)
  /-- raised by `step` for an agenda record that is not of the model's form (log 6); safe: it is no bits of the
  hardware, and a bundle's bits are never refused (they trap, R283). -/
  | badRecord
  deriving DecidableEq, Repr

/-! ## Traps (T13.1) -/

inductive Cause where
  | lateTick | anchorLate | queueUnderrun | queueOverrun | loadQueueEmpty | cuffOverrun | spanOverrun | waitLimit
  | illegalBundle | illegalAnchor | illegalSlot | reservedField | accumulatorBusy | misalignment | software
  | translation | permission | space | crownLost | checkMismatch
  | lateArrival | circuitDown | peerUnauthenticated | planeCollision | machine | predecessorLate | startLate
  deriving DecidableEq, Repr

/-- The kinds of R244. -/
inductive TrapKind where
  | atBundle | after | engine | deferred
  deriving DecidableEq, Repr

/-- A trap: what FSR, FAR and the fault record hold of it (T13.2, T13.3). -/
structure Trap where
  cause  : Cause
  kind   : TrapKind
  slot   : Nat
  detail : Nat
  unit   : Nat
  addr   : Nat
  aux    : Nat
  count  : Nat
  deriving DecidableEq, Repr

/-- A fault of an access or an engine: cause, pointer, detail (R248). -/
structure EngFault where
  cause  : Cause
  ptr    : Word
  detail : Nat
  deriving DecidableEq, Repr

/-! ## Routes (R78–R80) -/

/-- A route entry: idle, a loaded image (switches, offsets, enables; T4.4), or a solver result: lane, bank, full row. -/
inductive Route where
  | idle
  | image (switches : BitVec 21504) (offsets : BitVec 8192) (enables : BitVec 2048)
  | solved (lanes : List (Nat × Nat × Nat))
  deriving DecidableEq, Repr

/-! ## Operand queues, load, store and address queues -/

/-- An operand queue: base offset ÷ 512, depth, pointers (R98). -/
structure Queue where
  qb    : Nat
  depth : Nat
  rp    : Nat
  wp    : Nat
  deriving DecidableEq, Repr

/-- A load-queue entry: waiting, returned, or holding a fault (R103). -/
inductive LqState where
  | waiting
  | value (v : Word)
  | fault (f : EngFault)
  deriving DecidableEq, Repr

structure LqEntry where
  id : Nat
  st : LqState
  deriving DecidableEq, Repr

/-- A deferred store fault: its fault and the bundle-memory offset of the store (R162). -/
structure DeferredFault where
  fault : EngFault
  pc    : Nat
  deriving DecidableEq, Repr

/-! ## The bundle being issued -/

/-- What holds at the issue of the current bundle: position, tick, header, names' bases, gauntlet word. -/
structure Issue where
  pos      : Nat
  tick     : Nat
  pc       : Nat
  elastic  : Bool
  anchored : Bool
  target   : Nat
  idle     : Nat
  rrb      : Nat
  grb      : Nat
  alast    : Int            -- ALAST as the bundle's issue finds it
  lastS    : Option Nat     -- the start of the last matrix step scheduled before the bundle, of an engine at work
  mstat    : Word           -- MSTAT as the bundle's issue finds it
  rrt      : Nat
  rrow     : Nat
  wrt      : Nat
  wrow     : Nat
  deriving DecidableEq, Repr

/-- What a bundle waiting at the issue stage has done and kept (R50, R62, R329, R378, R388). -/
structure Wait where
  active   : Bool
  pos      : Nat
  tick     : Nat
  arrived  : Option Nat     -- barrier phase of its arrival
  sent     : Bool           -- a FALLOC, FFREE, PSTAT or LAUNCH request has left the slot
  answer   : Option Word    -- the kept answer
  word     : Option Word    -- WAITW: the satisfying word
  lastRead : Nat            -- WAITW: tick of its last read
  fault    : Option EngFault
  operand  : Word           -- TWAIT: b at the first arrival
  lock     : Nat            -- WAITW.lock: the owner that its last read reported (R425)
  lockAt   : Nat            -- and the flat address of the lock word
  deriving DecidableEq, Repr

/-! ## The loop buffer (R155–R158) -/

structure LoopDelta where
  isTid : Bool
  num   : Nat
  delta : Word
  deriving DecidableEq, Repr

structure LoopLevel where
  count  : Nat
  deltas : List LoopDelta
  deriving DecidableEq, Repr

structure Loop where
  pc     : Nat              -- offset of the first body bundle
  body   : List Line        -- the copies taken at LOOP's issue
  stages : Nat
  codes  : List Word        -- stage words of the body bundles
  levels : List LoopLevel
  idx    : List Nat
  total  : Nat              -- T
  pass   : Nat
  at_    : Nat              -- body bundle next to issue
  grb    : Nat              -- GRB of LOOP's issue, which names the stage predicates that it writes (R97)
  len    : Nat              -- PL
  ready  : Bool             -- descriptor read and checked
  counts : List Nat         -- s0–s63 as LOOP's issue read them
  desc   : Nat              -- descriptor offset
  deriving DecidableEq, Repr

/-! ## The matrix engine (07_matrix) -/

structure MHead where
  bt    : Nat
  h     : Nat
  dual  : Bool
  op    : Nat
  m     : Nat
  n     : Nat
  row0  : Nat
  k     : Nat
  umask : BitVec 32
  ta    : Nat
  tb    : Nat
  tc    : Nat
  deriving DecidableEq, Repr

structure MLevel where
  count : Nat
  astr  : Int
  bstr  : Int
  cstr  : Nat
  route : Nat
  deriving DecidableEq, Repr

/-- A table: head, six levels with their routes, and after MGO the copied tensor identifiers (R132). -/
structure MTable where
  head   : MHead
  levels : List MLevel
  tidA   : BitVec 512
  tidB   : BitVec 512
  tidC   : BitVec 512
  start  : Nat              -- S0
  idx    : List Nat         -- index vector of the next step
  isLoad : Bool             -- an MLDA in place of a nest
  acc    : Nat              -- MLDA's accumulator
  dead   : Bool             -- its batch met a fault: its steps keep their places and do nothing (R138)
  deriving DecidableEq, Repr

/-- A step in flight: its start, read cycles, completion, batch, latches by unit, side, port and cycle. -/
structure MStep where
  start   : Nat
  reads   : Nat
  done    : Nat
  batch   : Nat
  head    : MHead
  tidA    : BitVec 512
  tidB    : BitVec 512
  tidC    : BitVec 512
  rowA    : Int
  rowB    : Int
  rowC    : Int
  route   : Nat
  half    : Nat
  isLoad  : Bool
  acc     : Nat
  latches : SMap Line
  seen    : SMap Route      -- the route that each read cycle has used
  applied : Bool            -- its result stands in the accumulators
  deriving DecidableEq, Repr

inductive BatchState where
  | idle | opened | committed
  deriving DecidableEq, Repr

structure Batch where
  st     : BatchState
  accs   : BitVec 64        -- accumulators the batch uses (R137)
  left   : Nat              -- steps scheduled and not complete, started or not
  err    : Bool
  killed : Bool             -- a fault cancelled its remaining steps (R138)
  deriving DecidableEq, Repr

structure Matrix where
  shadow  : MTable
  pending : Option MTable
  active  : Option MTable
  freeAt  : Nat             -- when the active table is released
  steps   : List MStep
  lastS   : Nat             -- start of the last step scheduled
  lastP   : Nat             -- its period
  batches : SMap Batch
  abort   : Bool
  mnan    : Bool
  minf    : Bool
  deriving DecidableEq, Repr

/-! ## Results in flight -/

/-- Captured operands of a V instruction. -/
structure VOps where
  a    : List VReg
  b    : List VReg
  c    : List VReg
  km   : Mask
  aq   : List Nat           -- bank offsets of the entries that A, B and C name, and that D names, as queues
  bq   : List Nat
  cq   : List Nat
  dq   : List Nat
  ftz  : Bool
  tid  : BitVec 512
  deriving DecidableEq, Repr

/-- What lands (R146, R284, T4.7). -/
inductive Effect where
  | scalar (r : Nat) (v : Word)
  | pred (r : Nat) (v : Bool)
  | mask (r : Nat) (v : Mask) (en : Mask)
  | vec (r : Nat) (v : VReg) (en : VReg)
  | flags (v : Word)
  | vlate (i : Instr) (iss : Issue) (ops : VOps)
  | vldRead (v1 : Bool) (regs : List Nat) (en : List VReg) (route : Nat) (row : Nat)
  | wLines (ports : List (Nat × Line)) (route : Option Nat) (row : Nat)
  | qLines (ports : List (Nat × Nat × Line))
  | ldRead (off : Nat) (size : Nat) (signed : Bool) (d : Nat)
  | bankBytes (off : Nat) (bytes : List Byte)
  | bankWrite (off : Nat) (bytes : List Byte)
  | bankAtom (off : Nat) (size : Nat) (op : Nat) (b : Word) (c : Word) (lq : Option Nat)
  | lqFill (id : Nat) (v : Word)
  | qadv (q : Nat) (wp : Bool) (n : Nat)
  | qset (q : Nat) (qb : Nat) (depth : Nat)
  | tidWord (t : Nat) (w : Nat) (v : Word)
  | mhead (h : MHead)
  | mlevel (l : Nat) (count : Nat) (astr : Int) (bstr : Int) (cstr : Nat)
  | mroute (l : Nat) (route : Nat)
  | accZero (first : Nat) (count : Nat)
  | drainRead (acc : Nat) (tid : Nat) (entry : BitVec 512)
  | amax (tid : Nat) (m : Nat)
  | matRead (step : Nat) (c : Nat)
  | solver (gaunt : Nat) (slot : Nat) (r : Route)
  | sysReg (num : Nat) (v : Word)
  | tstatClear
  | mstatClear
  | loopRead
  | loopCheck (t : Option Trap) (l : Loop)
  | cuffSend (route : Nat) (row : Nat) (served : List Nat)
  | loopDelta (d : LoopDelta)
  | peer (ref : Nat)
  | spineRead (ch : Nat) (op : Nat) (k : Nat)
  | spineWrite (ch : Nat) (op : Nat) (k : Nat)
  | routesLoad (ch : Nat) (op : Nat)
  | encRead (cmd : Nat) (k : Nat)
  | encWrite (cmd : Nat) (k : Nat)
  deriving DecidableEq, Repr

structure Landing where
  due : Nat
  ph  : Nat
  seq : Nat
  eff : Effect
  deriving DecidableEq, Repr

/-! ## Die slot context (R254) -/

/-- A send held in a cuff landing buffer or in flight to it (R87, R88). -/
structure CuffSend where
  tick  : Nat               -- its landing tick L
  lines : SMap Line
  told  : Bool              -- its overrun has been raised
  deriving DecidableEq, Repr

/-- What a die slot is doing. -/
inductive Mode where
  | idle        -- not started
  | run         -- issuing, or waiting at an elastic point
  | ended       -- END performed
  | yielded     -- YIELD performed, waiting for the gang
  | stopped     -- pre-empted, context saved
  | halted      -- its gang stopped by a trap or a cancellation
  deriving DecidableEq, Repr

structure Ctx where
  mode     : Mode
  rid      : Nat
  slot     : Nat
  pkg      : Nat
  phys     : Nat
  sregs    : SMap Word
  pregs    : SMap Bool
  vregs    : SMap VReg
  masks    : SMap Mask
  stage    : SMap Bool
  queues   : SMap Queue
  accs     : SMap F32
  tids     : SMap (BitVec 512)
  tags     : Word
  xstat    : Word
  pc       : Nat
  rrb      : Nat
  grb      : Nat
  vflags   : Word
  fsr      : Word
  far      : Word
  tbase    : Nat
  alast    : Int
  tguard   : Nat
  waitlim  : Nat
  progress : Nat            -- tick of the last progress event
  opsel    : Nat
  placegen : Nat
  startAt  : Nat            -- its die cycles count from this tick on (R39, R47)
  slipSeen : Bool           -- SLIPX of this region's TSTAT
  lq       : List LqEntry
  nextLq   : Nat
  sq       : List Nat       -- request identifiers in the store queue
  aq       : List (BitVec 32)
  deferred : List DeferredFault
  engine   : SMap EngFault  -- tags 0–63, batches 64–71
  loop     : Option Loop
  loopHeld : Bool           -- a handler runs: the loop buffer issues nothing (R158)
  matrix   : Matrix
  solvers  : SMap Route     -- 16 × gauntlet + slot
  land     : List Landing
  nextSeq  : Nat
  cuffs    : SMap (List CuffSend)
  lost     : List Nat       -- cuffs whose full landing buffer has discarded a send (R89)
  pos      : Nat
  origin   : Int            -- issue position minus STAMP of the current span
  spanAt   : Nat            -- position the span began at
  earliest : Nat            -- first position the next bundle may issue at
  stamp    : Nat            -- STAMP of the last bundle of the span
  fresh    : Bool           -- the next bundle begins a span (entry, handler, TRET or branch target)
  tried    : Nat            -- position + 1 at which the issue stage was last looked at
  anchorOk : Bool           -- the current span began at an anchored bundle (R88)
  iss      : Issue
  nhist    : List Issue     -- recent bundles, newest first (R81)
  vclass   : SMap Nat       -- position + 1 of the last issue of an interval-limited class of a V slot (T8.1)
  wait     : Wait
  acqUntil : List Nat       -- what an acquire holds later bundles for (R192): 0 own-bank LDs and ATOMs, 1 + 2 × load-queue
                            -- entry number, 2 + 2 × request, 2⁶⁴ an own-bank RED; 2⁶⁴ + 1 says that a FENCE holds
  performed : Nat           -- position + 1 of the last bank access that performed (R330)
  ownRead  : Nat            -- position + 1 of the last LD or ATOM of the own banks that performed
  ownRed   : Nat            -- position + 1 of the last RED of the own banks that performed
  pending  : Option Trap    -- a trap of kind after or engine to take before the next bundle
  phases   : SMap Nat       -- recorded phase + 1 of the last arrival by barrier (R221)
  kept     : SMap (Nat × Nat) -- arrivals (by barrier) and a post (64) of a bundle that has not issued: phase, bundle (R50, R334, R378)
  aside    : List (Nat × Nat × Nat) -- those of other bundles, set aside while a later one has its own: number, phase, bundle (R62)
  drainEnd : Nat            -- position after the last drain cycle of the last MDRAIN (R140)
  shadowed : Bool           -- context lies in shadow storage (else device memory) when stopped
  stopPos  : Nat
  stopTick : Nat
  atYield  : Bool           -- it was stopped at a YIELD that it had executed and the gang had not (R429)
  rows     : List Nat       -- row table: physical row of each region row (R69)
  routes   : SMap Route     -- 2,048 × gauntlet + route number, loadable routes
  bmem     : Nat            -- physical base of the region's bundle memory
  bound    : List Nat       -- circuits bound by this slot
  xrecvs   : List (Nat × Nat × Nat × Nat)   -- XRECVs under way: circuit, register, T, order of the write
  late     : List Trap      -- traps of XRECVs that found no unit at T, to raise at the next bundle (R242)
  deriving DecidableEq, Repr

/-! ## Copy channels and the encoder -/

inductive CopyKind where
  | get | put | putf | gath | scat | zero | atom | red | fence | route | bund
  deriving DecidableEq, Repr

structure CopyOp where
  id      : Nat
  kind    : CopyKind
  key     : SlotKey
  tag     : Nat
  te      : Bool
  dst     : Word
  src     : Word
  n       : Nat
  tid     : Nat
  entry   : BitVec 512      -- the tensor identifier as it stood at issue
  bfmt    : Nat
  flag    : Word
  q       : Nat
  idx     : List (BitVec 32)
  rowsIn  : List VReg       -- CSCAT: the entries as they stood at issue
  aop     : Nat             -- operation of CATOM or CRED, JOIN of CFENCE, FIRST of CROUTE
  size    : Nat             -- CATOM: bytes; CRED: type
  ord     : Bool
  opb     : Word
  opc     : Word
  preds   : List (Nat × Nat)  -- CFENCE: (queue, id) still to complete; queue 0 C0, 1 C1, 2 matrix, 3 encoder
  issued  : Nat             -- die cycle of issue
  tick    : Nat             -- tick of issue
  buf     : SMap Nat        -- source bytes that have returned, plus 1, by index
  farDone : List Nat        -- far-side pieces that have performed
  bankAt  : Nat             -- next bank-side piece to read
  wseq    : Nat             -- next bank-side piece, queue line or bundle to write
  seq     : Nat             -- CGATH: entries that WP has passed
  stage   : Nat             -- CATOM, CRED, CPUTF's flag, CROUTE: how far the operation is
  fault   : Option (Nat × EngFault)  -- the first faulting byte, as an index of the source
  starved : Bool            -- it waits for a request while its region is pre-empted (R179)
  deriving DecidableEq, Repr

inductive EncKind where
  | opened | frame | close
  deriving DecidableEq, Repr

structure EncCmd where
  id     : Nat
  kind   : EncKind
  key    : SlotKey
  tag    : Nat
  te     : Bool
  stream : Nat
  ptr    : Word
  out    : Word
  cap    : Nat
  issued : Nat
  tick   : Nat              -- tick of issue
  lines  : Nat
  readAt : Nat
  frame  : List Line
  coded  : Option (List Byte)   -- the coded bytes, once the frame is coded; none fit within CAP: the empty list
  outAt  : Nat              -- pieces of the output that have been written, then of the count word
  bad    : Option EngFault
  deriving DecidableEq, Repr

/-- A stream context (T16.7). -/
structure EncStream where
  params : BitVec 512
  key    : SlotKey
  frames : Nat
  keyDue : Bool
  deriving DecidableEq, Repr

/-! ## Translation (R163–R168) -/

structure TcEntry where
  part   : Nat
  space  : Nat
  vbase  : Nat
  pbase  : Nat
  size   : Nat
  perm   : BitVec 3         -- RD, W, A
  deriving DecidableEq, Repr

/-- A page walk under way and the accesses that wait for it (R168): references as in `Ref`. -/
structure Walk where
  part   : Nat
  space  : Nat
  page   : Nat
  waiters : List Nat
  deriving DecidableEq, Repr

/-! ## Dies -/

structure ErrLog where
  addr : Word
  synd : Word
  ctx  : Word
  ce   : Nat
  uec  : Nat
  ovf  : Bool
  valid : Bool
  deriving DecidableEq, Repr

structure Inject where
  ctl  : Word
  addr : Word
  deriving DecidableEq, Repr

structure Die where
  service : Bool            -- in service
  run     : Option SlotKey  -- the slot that issues or drains here
  cyc     : Nat
  edge    : Nat             -- time of the next cycle, ps
  period  : Nat
  tick    : Nat             -- GTC sampled at the start of the cycle (R56)
  slipmax : Nat
  slip    : Int             -- excess of a run of cycles over SLIPMAX, in ps ÷ 20 (R55)
  slewed  : Int             -- what rate corrections of the GTC add to it, in 10⁻⁶ of that unit
  chan0   : List CopyOp
  chan1   : List CopyOp
  c1First : Bool
  encQ    : List EncCmd
  streams : SMap EncStream
  spine   : List Landing
  nextSeq : Nat
  tcache  : List TcEntry
  walks   : List Walk
  logs    : SMap ErrLog
  inject  : SMap Inject
  badLines : SMap Bool      -- locations stored with flipped bits, by array and location (`errKey`, `otherKey`): uncorrectable or not (R257)
  peers   : List Nat        -- peer-bank accesses that wait for a spine lane, in order of arrival (R72)
  solveAt : Nat             -- the die cycle in which the last solve of its Mitten started, plus 1 (R86)
  claims  : SMap Nat        -- lines that channel 0, channel 1 and the encoder (2) claim in this cycle
  grant   : Nat
  demand  : Nat
  short   : Bool
  shadow  : List SlotKey    -- contexts in shadow storage, least recently stopped first (R254)
  retired : List Nat        -- retired banks
  spares  : Nat
  dead    : List Nat        -- banks without a spare: every access raises machine (R266)
  cuffIn  : List (Nat × CuffSend)    -- sends in flight to this die: 4 × receiving slot + cuff
  bundOld : List (Nat × Line)        -- bundle-memory lines that CBUND has replaced in this die cycle, as they stood (R157)
  deriving DecidableEq, Repr

/-! ## Packages -/

structure Link where
  state    : Nat            -- T12.1
  replays  : Nat
  attempts : Nat
  since    : Nat
  expect   : Nat            -- next sequence number the receiver accepts
  again    : Nat            -- replays of one flit in a row
  held     : List Nat       -- requests held for the link
  egress   : Nat            -- threshold of its egress queue, set by the driver; 0 none (R223)
  deriving DecidableEq, Repr

structure Ring where
  cv      : Bool
  colour  : Nat
  mon     : Nat
  heat    : Nat
  applied : Nat             -- code at the heater
  drops   : Bool            -- data of the colour taken from this ring (R236)
  failed  : Bool
  deriving DecidableEq, Repr
/-- A write of a ring: the end of its writer's die cycle (0 for the processor's), plane, ring, value (R236, R440). -/
structure RingSet where
  till  : Nat
  plane : Nat
  ring  : Nat
  value : Nat
  deriving DecidableEq, Repr

structure Mzm where
  qalarm : Bool
  auto   : Bool
  bias   : Nat
  deriving DecidableEq, Repr

/-- A crown allocation on one fabric die (R201). -/
structure Alloc where
  part     : Nat
  bank     : Nat
  units    : Nat
  home     : PkgId          -- the package whose crown banks hold it
  mirror   : Option PkgId   -- the package that holds the mirror
  isMirror : Option PkgId   -- this is the mirror of an allocation of that package
  degraded : Bool
  lost     : Bool
  failing  : Option PkgId   -- the package whose fabric die failed, as primary or mirror (R207)
  deriving DecidableEq, Repr

structure CacheEntry where
  src    : Nat
  seq    : Nat
  result : Word
  tick   : Nat
  lasting : Bool            -- it stood when a failover of its home ended, and stays for its 30 µs (R207)
  deriving DecidableEq, Repr

/-- A merge held by a router (R230). -/
structure Merge where
  id      : Nat
  addr    : Word
  part    : Nat
  op      : Nat
  ty      : Nat
  value   : Word
  opened  : Nat
  sent    : Bool
  answered : Option Nat
  folded  : List (Nat × Nat × DieId × Nat × Nat)  -- source, sequence number, die, channel, operation
  deriving DecidableEq, Repr

structure Launch where
  ptr     : Word
  fromKey : Option SlotKey  -- launcher; none for the host
  part    : Nat
  tbase   : Nat             -- launcher's TBASE at LAUNCH's issue
  hits    : List (Nat × Rid) -- what has befallen while it waits: 0 the fault of a domain, 1 a domain's cancellation, 2 a partition's (R51, R53)
  deriving DecidableEq, Repr

structure Conn where
  count : Nat
  state : Nat               -- 0 free, 1 setting up, 2 up, 3 tearing down
  since : Nat
  deriving DecidableEq, Repr

structure Pkg where
  present  : Bool
  gtc      : Nat
  tickAt   : Nat            -- time of the next local nanosecond, ps
  frac     : Int            -- slewing accumulator, in 10⁻⁶ ticks
  slew     : Int            -- ppm
  drift    : Int            -- by how much its counter lags in holdover, as a negative rate, ppm
  disc     : Nat            -- T3.1
  ofs      : Int
  inside   : Nat            -- consecutive intervals within ±10 ns
  outside  : Nat            -- consecutive intervals beyond ±20 ns
  before   : Nat            -- of these, those before the present interval
  lastSync : Nat
  holdAt   : Nat
  stepped  : Bool           -- the one forward step has been used, or the package has locked
  ptp      : BitVec 2       -- ports enabled
  intstat  : Word
  starting : Bool           -- a start is under way (R261)
  ready    : Bool
  minimal  : Bool
  fails    : Nat
  reason   : Nat
  health   : Word
  starts   : Nat
  resetAt  : Nat
  report   : Option (List Word × BitVec 512)
  digests  : List Word
  launchQ  : List Launch
  nextRid  : Nat
  quanta   : SMap Nat
  standby  : Bool           -- the standby Milliner schedules
  takeover : Bool           -- a takeover is in progress
  heldWork : List Instr     -- what fell during the takeover
  queue    : List Instr     -- service commands that wait, oldest first (R260)
  queueMem : SMap Byte      -- the service command queue as bytes: 256 entries of 64 B (R258, R445)
  cmdNo    : Nat            -- the entry of the command under way
  fdFailed : BitVec 2
  failover : BitVec 2       -- failovers in progress by fabric die
  failAt   : Nat
  allocs   : SMap (List Alloc)       -- by fabric die
  table0   : SMap Nat       -- routing table copies
  table1   : SMap Nat
  version  : Bool
  draining : List Nat       -- sources whose drain marker has not passed
  flipWait : Bool           -- a second flip waits for the release
  links    : SMap Link      -- 32 × port + position
  ringsWas : SMap Ring      -- the rings before the first of the writes `ringsSet` (R440)
  ringsSet : List RingSet
  rings    : SMap Ring      -- (72 × port + plane) × 17 + ring
  mzms     : SMap Mzm       -- (72 × port + plane) × 4 + n
  conns    : SMap Conn      -- 8 × source + destination
  cache    : List CacheEntry
  merges   : List Merge
  nextMerge : Nat
  hbmOut   : BitVec 12      -- retired stacks
  hostRead : Word           -- the last value a host read returned
  pmax     : Nat
  grantAt  : Nat            -- tick of the last power grant (R264)
  powDemand : List Nat      -- demands of the home stacks of the six dies and of the fabric dies, W
  powGrant : List Nat       -- their grants
  ptpPrio  : Nat            -- priority of its clock, set by the driver (R57)
  syncNo   : Nat            -- sync interval of the last sync (R58)
  failing  : BitVec 6       -- dies that fail the self-test of the start under way (R263)
  deriving DecidableEq, Repr

/-! ## Partitions -/

structure Range where
  w0 : Word
  w1 : Word
  w2 : Word
  w3 : Word
  deriving DecidableEq, Repr

structure Plane where
  base  : Word
  nbase : Word
  mbase : Word
  lines : Nat
  group : Nat
  rule  : Nat
  ty    : Nat
  frozen : Bool
  deriving DecidableEq, Repr

/-- A barrier table entry and its state (R220, R221, R219). -/
structure Barrier where
  members  : List Nat       -- writer form, R212
  arrived  : List Nat       -- members arrived in this phase
  moving   : List Nat       -- arrivals under way to the leaf and root
  phase    : Nat
  merging  : Option (List Nat)  -- homes that have still to merge
  mcoll    : Nat            -- of the merge under way: collided elements, the lowest, and the two marks below
  mfirst   : Word
  mfault   : Bool
  mfroze   : Bool
  coll     : Nat            -- collided elements of the last merge
  first    : Word           -- lowest collided element of the last merge
  faultColl : Bool          -- a FAULT region counted a collision
  frozeAt  : Bool           -- a region was frozen at the merge
  steps    : Nat
  deriving DecidableEq, Repr

structure Window where
  base : Word
  size : Nat
  ty   : Nat
  op   : Nat
  deriving DecidableEq, Repr

structure XUnit where
  data    : VReg
  good    : Bool
  arrival : Nat
  ends    : Nat             -- the end of its window, where the region that was bound to the circuit has stopped; 0 none
  deriving DecidableEq, Repr

/-- A timed circuit: descriptor, binding, buffer (R238, R239). -/
structure Circuit where
  desc     : BitVec 256
  bound    : Option SlotKey
  launch   : Option Nat     -- launch tick of the previous XSEND
  out      : List (Nat × XUnit)      -- to launch: T and unit
  flying   : List (Nat × XUnit)      -- launched: sender's tick of landing, unit
  buf      : List XUnit
  overflow : Bool
  badUnit  : Bool           -- a unit was discarded for its check
  deriving DecidableEq, Repr

/-! ## The region tree -/

inductive NodeKind where
  | part | inner | timetable
  deriving DecidableEq, Repr

structure Place where
  pkg  : PkgId
  slot : Nat
  phys : Nat
  deriving DecidableEq, Repr

structure Node where
  kind     : NodeKind
  st       : Nat            -- STATE (T2.1)
  done     : Nat            -- DONE
  rcb      : Nat            -- flat address of the RCB
  rcbPtr   : Word
  part     : Nat            -- partition (its Rid)
  parent   : Nat
  fdom     : Bool
  service  : Bool
  pkgs     : List PkgId      -- PKGMASK; none when it is 0
  slots    : Nat
  topo     : Nat
  dmask    : BitVec 6
  band     : Nat
  prio     : Nat
  pclass   : Nat
  bmem     : Nat
  tids     : Nat
  queues   : Nat
  routes   : Nat
  brows    : Nat
  hbmq     : Nat
  crownq   : Nat
  crownUse : Nat
  handler  : Option Nat
  tguard   : Nat
  waitlim  : Nat
  cwmax    : Nat
  period   : Nat
  budget   : Nat
  deadline : Nat
  server   : Option Nat     -- the node whose contract it runs under (R25)
  start    : Nat            -- start tick, 0 none
  due      : Bool           -- its start tick has come with every predecessor done (R37)
  preds    : List Nat       -- flat addresses of the predecessors' RCBs
  image    : Nat            -- flat address of the image
  entries  : List (BitVec 256)  -- image slot headers
  dieSets  : SMap (BitVec 6)    -- a partition's dies by package
  placed   : List Place
  tbase    : Nat
  endedS   : List (Nat × Nat)   -- (package, slot) that performed END
  yieldS   : List (Nat × Nat)
  stopping : Option Nat     -- stop tick ordered
  stopWin  : Bool           -- the stop is deferred for an open window
  forced   : Bool           -- the stop is a window overrun
  yieldAt  : Nat            -- when the last slot of the gang came to its YIELD
  stopTick : Nat            -- when it was stopped
  fault    : Option (Trap × Nat × Nat × Nat)  -- earliest unhandled trap: trap, tick, package, slot
  halting  : Bool           -- its gang has been stopped and its copies run on
  haltAt   : Nat            -- the instant at which it was stopped, ps
  admitted : List DieId     -- dies on which validation admitted its contract, until it starts (R41)
  cancel   : Bool
  fnotice  : Nat
  bover    : Nat
  dmiss    : Nat
  wover    : Nat
  readyAt  : Nat            -- when it became ready (age, R45)
  quantumAt : Nat           -- when its quantum began
  used     : SMap Nat       -- budget ticks used in the period, by die (R42)
  dueAt    : Nat            -- deadline of the activation
  nextAt   : Nat            -- the next period start; 0 before the contract's first start
  active   : Bool           -- an activation is running
  spent    : Bool           -- it has exhausted its budget
  missed   : Bool
  newAct   : Bool           -- an activation begins, whose first bundle has not issued (R43)
  expired  : Bool           -- its quantum has expired: pre-empted at its next elastic point
  deriving DecidableEq, Repr

/-! ## Requests in flight (R169, R182, R228) -/

inductive ReqKind where
  | load (size : Nat) (signed : Bool)
  | store (size : Nat) (data : Word)
  | atom (op : Nat) (size : Nat) (b : Word) (c : Word)
  | red (op : Nat) (size : Nat) (b : Word)
  | cred (op : Nat) (ty : Nat) (v : Word) (ord : Bool)
  | alloc (size : Word) (at_ : Option Nat) (fd : Nat) (mirror : Bool)
  | query (ptr : Word)
  | free (ptr : Word)
  | pstat (g : Nat) (sel : Bool)
  deriving DecidableEq, Repr

inductive ReqState where
  | flying
  | mirror (result : Word)     -- applied at the primary, waiting for the mirror (R206)
  | performed (result : Word)
  | failed (f : EngFault)
  deriving DecidableEq, Repr

structure Req where
  id      : Nat
  key     : SlotKey
  die     : DieId
  part    : Nat
  kind    : ReqKind
  ptr     : Word
  pc      : Nat
  lq      : Option Nat
  src     : Nat             -- source identifier (R228)
  seq     : Nat
  sent    : Nat             -- tick
  issued  : Nat
  resends : Nat
  owner   : Option (Nat × Nat)  -- the copy operation it belongs to: channel, operation
  way     : Option (List (PkgId × Nat × Nat × PkgId))  -- hops fixed at injection: package, port, position, next (R223)
  stamp   : Bool            -- the version bit it was stamped with (R224)
  st      : ReqState
  deriving DecidableEq, Repr

/-! ## The machine -/

/-- An event due at a tick of a package's GTC. -/
structure Timer where
  pkg  : PkgId
  tick : Nat
  ev   : Instr
  deriving DecidableEq, Repr

/-- What the environment, or a part whose timing the spec leaves open, does next: from an instant (ps) on, on a die or on
the one in focus, as a record of bytes that the decoder reads (log 6). -/
structure Event where
  at_   : Nat
  die   : Option DieId
  bytes : List Byte
  deriving DecidableEq, Repr

/-- A write that a primary holds invisible until its mirror acknowledges it (R206): reference, address, bytes; and of a piece
of a copy or of coded output, which no request stands for, the packet: source queue, pointer, way, version (R223, R224). -/
structure Hidden where
  ref   : Nat
  a     : Nat
  n     : Nat
  src   : Nat := 0
  ptr   : Word := 0
  way   : Option (List (PkgId × Nat × Nat × PkgId)) := none
  stamp : Bool := false
  deriving DecidableEq, Repr

structure State where
  mem      : Memory
  hidden   : List Hidden
  pkgs     : SMap Pkg
  dies     : SMap Die
  slots    : SMap Ctx
  nodes    : SMap Node
  ranges   : SMap Range     -- (1,024 × partition + package) × 256 + entry
  roots    : SMap Word      -- (1,024 × partition + package) × 2 + space (0 device, 1 host): the root table's address word
  planes   : SMap Plane     -- 64 × partition + index
  barriers : SMap Barrier   -- 64 × partition + index
  windows  : SMap Window    -- 16 × partition + index
  circuits : SMap Circuit   -- ((1,024 × partition + package) × 8 + slot) × 256 + circuit
  reqs     : List Req
  nextReq  : Nat
  seqs     : SMap Nat       -- next sequence number by source identifier
  now      : Nat            -- ps
  timers   : List Timer
  micro    : List Instr
  agenda   : List Event     -- what the environment and unspecified timing do next
  fresh    : Nat            -- where the next free value is drawn (log 5)
  cur      : DieId          -- the die in focus
  deriving DecidableEq, Repr

/-! ## Blank parts and reset -/

def Issue.blank : Issue :=
  { pos := 0, tick := 0, pc := 0, elastic := false, anchored := false, target := 0, idle := 0, rrb := 0, grb := 0,
    alast := -1, lastS := none, mstat := 0, rrt := 0, rrow := 0, wrt := 0, wrow := 0 }

def Wait.blank : Wait :=
  { active := false, pos := 0, tick := 0, arrived := none, sent := false, answer := none, word := none, lastRead := 0,
    fault := none, operand := 0, lock := 0, lockAt := 0 }

def Queue.blank : Queue := { qb := 0, depth := 0, rp := 0, wp := 0 }

def MHead.blank : MHead :=
  { bt := 0, h := 0, dual := false, op := 0, m := 1, n := 1, row0 := 0, k := 1, umask := 0, ta := 0, tb := 0, tc := 0 }
def MLevel.blank : MLevel := { count := 1, astr := 0, bstr := 0, cstr := 0, route := 0 }
/-- The shadow table at region start (R132). -/
def MTable.blank : MTable :=
  { head := .blank, levels := List.replicate 6 .blank, tidA := 0, tidB := 0, tidC := 0, start := 0,
    idx := List.replicate 6 0, isLoad := false, acc := 0, dead := false }
def Batch.blank : Batch := { st := .idle, accs := 0, left := 0, err := false, killed := false }
def Matrix.blank : Matrix :=
  { shadow := .blank, pending := none, active := none, freeAt := 0, steps := [], lastS := 0, lastP := 0, batches := [],
    abort := false, mnan := false, minf := false }

/-- A die slot before its region starts: the initial values of T5.1 and R94. -/
def Ctx.blank : Ctx :=
  { mode := .idle, rid := 0, slot := 0, pkg := 0, phys := 0, sregs := [], pregs := [], vregs := [], masks := [],
    stage := [], queues := [], accs := [], tids := [], tags := BitVec.allOnes 64, xstat := 0, pc := 0, rrb := 0,
    grb := 0, vflags := 0, fsr := 0, far := 0, tbase := 0, alast := -1, tguard := 0, waitlim := 0, progress := 0,
    opsel := 0, placegen := 0, startAt := 0, slipSeen := false, lq := [], nextLq := 0, sq := [], aq := [], deferred := [],
    engine := [], loop := none, loopHeld := false, matrix := .blank, solvers := [], land := [], nextSeq := 0, cuffs := [],
    lost := [], pos := 0, origin := 0, spanAt := 0, earliest := 0, stamp := 0, fresh := true, tried := 0,
    anchorOk := false, iss := .blank, nhist := [], vclass := [], wait := .blank, acqUntil := [], performed := 0, ownRead := 0, ownRed := 0, pending := none,
    phases := [], kept := [], aside := [], drainEnd := 0, shadowed := true, stopPos := 0, stopTick := 0, atYield := false, rows := [],
    routes := [], bmem := 0, bound := [], xrecvs := [], late := [] }

def ErrLog.blank : ErrLog := { addr := 0, synd := 0, ctx := 0, ce := 0, uec := 0, ovf := false, valid := false }
def Inject.blank : Inject := { ctl := 0, addr := 0 }

/-- A compute die after reset. -/
def Die.blank : Die :=
  { service := true, run := none, cyc := 0, edge := 0, period := Config.cycleMin, tick := 0, slipmax := Config.slipmax,
    slip := 0, slewed := 0, chan0 := [], chan1 := [], c1First := false, encQ := [], streams := [], spine := [],
    nextSeq := 0, tcache := [], walks := [], logs := [], inject := [], badLines := [], peers := [], solveAt := 0, claims := [], grant := 0, demand := 0,
    short := false, shadow := [], retired := [], spares := 0, dead := [], cuffIn := [], bundOld := [] }

def Link.blank : Link :=
  { state := 0, replays := 0, attempts := 0, since := 0, expect := 0, again := 0, held := [], egress := 0 }
def Ring.blank : Ring :=
  { cv := false, colour := 0, mon := 0, heat := 0, applied := 0, drops := false, failed := false }
def Mzm.blank : Mzm := { qalarm := false, auto := false, bias := 0 }
def Conn.blank : Conn := { count := 0, state := 0, since := 0 }

/-- A package number at which no package stands. -/
def Pkg.blank : Pkg :=
  { present := false, gtc := 0, tickAt := Config.tickPs, frac := 0, slew := 0, drift := 0, disc := 0, ofs := 0, inside := 0,
    outside := 0, before := 0, lastSync := 0, holdAt := 0, stepped := false, ptp := 0, intstat := 0, starting := false, ready := false,
    minimal := false, fails := 0, reason := 0, health := 0, starts := 0, resetAt := 0, report := none, digests := [],
    launchQ := [], nextRid := 1, quanta := [], standby := false, takeover := false, heldWork := [], queue := [], queueMem := [], cmdNo := 0,
    fdFailed := 0, failover := 0, failAt := 0, allocs := [], table0 := [], table1 := [], version := false,
    draining := [], flipWait := false, links := [], ringsWas := [], ringsSet := [], rings := [], mzms := [], conns := [], cache := [], merges := [],
    nextMerge := 0, hbmOut := 0, hostRead := 0, pmax := Config.pmax, grantAt := 0, powDemand := [],
    powGrant := [], ptpPrio := 128, syncNo := 0, failing := 0 }

def Range.blank : Range := { w0 := 0, w1 := 0, w2 := 0, w3 := 0 }
def Plane.blank : Plane :=
  { base := 0, nbase := 0, mbase := 0, lines := 0, group := 0, rule := 0, ty := 0, frozen := false }
def Barrier.blank : Barrier :=
  { members := [], arrived := [], moving := [], phase := 0, merging := none, mcoll := 0, mfirst := 0,
    mfault := false, mfroze := false, coll := 0, first := 0, faultColl := false,
    frozeAt := false, steps := 0 }
def Window.blank : Window := { base := 0, size := 0, ty := 0, op := 0 }
def Circuit.blank : Circuit :=
  { desc := 0, bound := none, launch := none, out := [], flying := [], buf := [], overflow := false, badUnit := false }

/-- A number that names no node. -/
def Node.blank : Node :=
  { kind := .inner, st := 0, done := 0, rcb := 0, rcbPtr := 0, part := 0, parent := 0, fdom := false, service := false,
    pkgs := [], slots := 0, topo := 0, dmask := 0, band := 0, prio := 0, pclass := 0, bmem := 0, tids := 0, queues := 0,
    routes := 0, brows := 0, hbmq := 0, crownq := 0, crownUse := 0, handler := none, tguard := 0, waitlim := 0,
    cwmax := 0, period := 0, budget := 0, deadline := 0, server := none, start := 0, due := false, preds := [],
    image := 0, entries := [], dieSets := [], placed := [], tbase := 0, endedS := [], yieldS := [],
    stopping := none, stopWin := false, forced := false, yieldAt := 0, stopTick := 0, fault := none, halting := false, haltAt := 0, admitted := [], cancel := false, fnotice := 0,
    bover := 0, dmiss := 0, wover := 0, readyAt := 0, quantumAt := 0, used := [], dueAt := 0, nextAt := 0,
    active := false, spent := false, missed := false, newAct := false, expired := false }

/-- Right after reset: package 0 stands (log 3), nothing is placed or listed, and the 2 s of R263 run. -/
def State.reset : State :=
  { mem := [], hidden := [], pkgs := [(0, { Pkg.blank with present := true, starting := true })], dies := (List.range 6).map fun d => (d, Die.blank), slots := [], nodes := [], ranges := [],
    roots := [], planes := [], barriers := [], windows := [], circuits := [], reqs := [], nextReq := 0, seqs := [],
    now := 0, timers := [{ pkg := 0, tick := 2000000000, ev := .readyTimeout 0 }], micro := [], agenda := [],
    fresh := 0, cur := 0 }

end Sys2Proof.Machine
end

