-- ==== Sys2Proof/Machine/Maps.lean ====
section
/-! DEFINITION. Sparse maps, memory in its canonical form, and the byte and bit helpers that the meanings share. -/

namespace Sys2Proof.Machine

/-! ## Sparse maps -/

/-- The entry of a key, if listed. -/
def mfind {β : Type} (k : Nat) : SMap β → Option β
  | [] => none
  | (j, v) :: m => if j == k then some v else if j < k then mfind k m else none

/-- The value of a key; a key that is not listed reads as `d`. -/
def mget {β : Type} (m : SMap β) (k : Nat) (d : β) : β := (mfind k m).getD d

/-- Sets a key, keeping the keys rising. -/
def mput {β : Type} (k : Nat) (v : β) : SMap β → SMap β
  | [] => [(k, v)]
  | (j, w) :: m => if j == k then (k, v) :: m else if j < k then (j, w) :: mput k v m else (k, v) :: (j, w) :: m

/-- Removes a key. -/
def mdel {β : Type} (k : Nat) (m : SMap β) : SMap β := m.filter fun e => e.1 != k

/-- Changes the value of a key, from `d` where none is listed. -/
def mmod {β : Type} (m : SMap β) (k : Nat) (d : β) (f : β → β) : SMap β := mput k (f (mget m k d)) m

/-- Keys rise strictly from `lo` up. -/
def keysFrom {β : Type} (lo : Nat) : SMap β → Bool
  | [] => true
  | (k, _) :: m => lo <= k && keysFrom (k + 1) m

/-! ## Memory -/

/-- A byte of memory; an address that is not listed reads 0 (log 1). -/
def memByte (m : Memory) (a : Nat) : Byte := mget m a 0

/-- Writes one byte and keeps the canonical form: no byte of value 0 is listed. -/
def memSet (a : Nat) (b : Byte) : Memory → Memory
  | [] => if b == 0 then [] else [(a, b)]
  | (j, w) :: m =>
    if j == a then (if b == 0 then m else (a, b) :: m)
    else if j < a then (j, w) :: memSet a b m
    else if b == 0 then (j, w) :: m else (a, b) :: (j, w) :: m

/-- Writes consecutive bytes from address `a` up. -/
def memWrite (a : Nat) : List Byte → Memory → Memory
  | [], m => m
  | b :: bs, m => memWrite (a + 1) bs (memSet a b m)

/-- Zero is written to the `n` bytes from address `a` up. -/
def memClear (a n : Nat) (m : Memory) : Memory := m.filter fun e => e.1 < a || a + n <= e.1

/-- The `n` bytes from address `a` up. -/
def memRead (m : Memory) (a n : Nat) : List Byte := (List.range n).map fun i => memByte m (a + i)

/-- Addresses rise strictly from `lo` up and no listed byte is 0. -/
def memFrom (lo : Nat) : Memory → Bool
  | [] => true
  | (a, b) :: m => lo <= a && b != 0 && memFrom (a + 1) m

/-- The canonical form of memory. -/
def Memory.wf (m : Memory) : Bool := memFrom 0 m

/-! ## Bytes and bits (R2) -/

/-- A little-endian number of bytes. -/
def ofBytes : List Byte → Nat
  | [] => 0
  | b :: bs => b.toNat + 256 * ofBytes bs

/-- The `n` low bytes of a number, little-endian. -/
def toBytes : Nat → Nat → List Byte
  | 0, _ => []
  | n + 1, w => BitVec.ofNat 8 w :: toBytes n (w / 256)

/-- Bits [hi:lo] of a number. -/
def bits (w hi lo : Nat) : Nat := w / 2 ^ lo % 2 ^ (hi - lo + 1)
/-- Bit i of a number. -/
def bit (w i : Nat) : Bool := w / 2 ^ i % 2 == 1

/-- A two's-complement reading of the low `n` bits. -/
def signed (n w : Nat) : Int := if w % 2 ^ n < 2 ^ (n - 1) then (w % 2 ^ n : Nat) else (w % 2 ^ n : Nat) - 2 ^ n
/-- The low `n` bits of an integer. -/
def wrap (n : Nat) (z : Int) : Nat := (z % 2 ^ n).toNat

/-- 64 bits of a number or an integer. -/
def word (n : Nat) : Word := BitVec.ofNat 64 n
def wordI (z : Int) : Word := BitVec.ofInt 64 z

/-- Element e of width w bits of a wide value. -/
def elem {n : Nat} (x : BitVec n) (w e : Nat) : Nat := (x.toNat >>> (w * e)) % 2 ^ w

/-- A value of `n` bits built from elements of width w, element 0 lowest. -/
def ofElems (n w : Nat) (l : List Nat) : BitVec n :=
  BitVec.ofNat n (l.foldr (fun e acc => e % 2 ^ w + 2 ^ w * acc) 0)

/-- Line k of a vector register, and a register built from eight lines. -/
def lineOf (v : VReg) (k : Nat) : Line := v.extractLsb' (512 * k) 512
def ofLines (l : List Line) : VReg := ofElems 4096 512 (l.map BitVec.toNat)

/-- A line of 64 bytes, and its bytes. -/
def lineOfBytes (l : List Byte) : Line := BitVec.ofNat 512 (ofBytes l)
def bytesOfLine (l : Line) : List Byte := toBytes 64 l.toNat

/-- A write under an enable: the bits set in `en` take `v`, the others stay. -/
def blend {n : Nat} (old v en : BitVec n) : BitVec n := (v &&& en) ||| (old &&& ~~~en)

/-- Counts of leading zeros and of ones. -/
def clz64 (w : Nat) : Nat := 64 - (if w == 0 then 0 else Nat.log2 w + 1)
def popcount (n w : Nat) : Nat := (List.range n).countP fun i => bit w i

/-- The list with element i changed. -/
def setAt {α : Type} (l : List α) (i : Nat) (v : α) : List α := l.set i v
/-- An element of a list, with a default. -/
def at0 {α : Type} (l : List α) (i : Nat) (d : α) : α := l.getD i d

/-- The smaller and the larger of two numbers that stand as integers. -/
def clampInt (lo hi z : Int) : Int := if z < lo then lo else if hi < z then hi else z

end Sys2Proof.Machine
end

