-- ==== Sys2Proof/WellFormed.lean ====
section
/-! DEFINITION. Which slot instructions the encoding admits: the field rules of each instruction's entry
(R129, R171, R240, R277–R283, R292, R389, R405 and the entries), and for an event that its operands fit the record
form (log 6). An encoding that fails these rules is an illegal slot encoding (R283). -/

namespace Sys2Proof

/-- Widths of the element types of T6.1 in bits; 0 for a code that names none. -/
def width : Nat → Nat
  | 0 => 32 | 1 => 16 | 2 => 16 | 3 => 8 | 4 => 8 | 5 => 4 | 6 => 4 | 7 => 8 | 8 => 8 | 9 => 16 | 10 => 16
  | 11 => 32 | 12 => 32 | 13 => 64 | 14 => 64 | _ => 0

/-- All element types (T6.1). -/
def allTys : List Nat := [0, 1, 2, 3, 4, 5, 6, 7, 8, 9, 10, 11, 12, 13, 14]
/-- The integer types of T6.1. -/
def intTys : List Nat := [5, 6, 7, 8, 9, 10, 11, 12, 13, 14]

/-- A vector operand: a register (0–1,535) or a queue (1,536–1,567) (R95, R278). -/
def vop (x : BitVec 11) : Bool := x.toNat < 1568

/-- The system registers whose write has a behaviour of its own (T18.5), each a row of the opcode table. -/
inductive SysOwn where
  | tguard | rrb | grb | vflags | fsr | xstat | waitlim | opsel | ring | mzm | elogstat | injctl
  deriving DecidableEq, Repr

/-- Which write a system register number selects (T5.3, T12.2, R256, R257); none for a plain write. -/
def sysOwn (n : Nat) : Option SysOwn :=
  if n == 0x002 then some .tguard
  else if n == 0x008 then some .rrb
  else if n == 0x009 then some .grb
  else if n == 0x00A then some .vflags
  else if n == 0x010 then some .fsr
  else if n == 0x022 then some .xstat
  else if n == 0x024 then some .waitlim
  else if n == 0x100 then some .opsel
  else if 0x110 <= n && n <= 0x120 then some .ring
  else if 0x130 <= n && n <= 0x133 then some .mzm
  else if 0x800 <= n && n < 0x840 && n % 4 == 3 then some .elogstat
  else if 0x900 <= n && n < 0x940 && n % 4 == 0 then some .injctl
  else none

/-- The numbers that T5.3, T12.2, R256 and R257 list; any other raises the illegal-slot-encoding trap (R105). -/
def sysListed (n : Nat) : Bool :=
  n <= 0x005 || (0x008 <= n && n <= 0x00A) || n == 0x010 || n == 0x011 || (0x018 <= n && n <= 0x01B) ||
  (0x020 <= n && n <= 0x024) || (0x030 <= n && n <= 0x04F) || n == 0x100 || (0x110 <= n && n <= 0x120) ||
  (0x130 <= n && n <= 0x133) || (0x140 <= n && n <= 0x17F) || n == 0x180 || (0x800 <= n && n < 0x840) ||
  (0x900 <= n && n < 0x940 && n % 4 < 2)

/-- Operand b of R292: FM 00 a register with C 0, FM 01 an immediate, FM 10 the long immediate. -/
def SF.opb (f : SF) : Bool :=
  (f.fm == 0 && f.imm == 0 && f.long == none) || (f.fm == 1 && f.b == 0 && f.long == none) ||
  (f.fm == 2 && f.b == 0 && f.imm == 0 && f.long != none)
/-- Operand b of WAITW: as `opb`, with a C register under FM 00 (R424). -/
def SF.opbc (f : SF) : Bool := f.opb || (f.fm == 0 && f.imm.toNat < 64 && f.long == none)
/-- FM 00 only. -/
def SF.regs (f : SF) : Bool := f.fm == 0 && f.long == none
/-- FM 01 only, B 0. -/
def SF.imms (f : SF) : Bool := f.fm == 1 && f.b == 0 && f.long == none
/-- FM 10 only, B and [53:33] 0. -/
def SF.longs (f : SF) : Bool := f.fm == 2 && f.b == 0 && f.imm == 0 && f.long != none
/-- FM 00 and every other field 0. -/
def SF.bare (f : SF) : Bool := f.regs && f.d == 0 && f.a == 0 && f.b == 0 && f.imm == 0 && f.mod == 0
/-- OP of ATOM and RED (T16.3). -/
def SF.atomOp (f : SF) : Nat := f.mod.toNat % 16
/-- SIZE, ORD and SCOPE of ATOM and RED (T16.3). -/
def SF.atomW (f : SF) : Bool := f.mod.getLsbD 4
def SF.ord (f : SF) : Nat := f.mod.toNat / 32 % 4
def SF.scopeA (f : SF) : Nat := f.mod.toNat / 128
/-- The rules on MOD that ATOM and RED share (R296, R297, R365). -/
def SF.atomMod (f : SF) : Bool :=
  f.atomOp < 11 && (f.atomOp != 10 || f.atomW) && f.scopeA < 5 && (f.ord != 0 || f.scopeA == 0)
/-- Fields of the QADV and QWAIT immediate (T18.2), and of QSET (R362). -/
def SF.qn (f : SF) : Nat := f.imm.toNat / 64 % 512
def SF.qwhich (f : SF) : Bool := f.imm.getLsbD 5
def SF.qnum (f : SF) : Nat := f.imm.toNat % 32
def SF.qdepth (f : SF) : Nat := f.imm.toNat / 32 % 512
/-- The system register number of SYSRD and SYSWR (R380). -/
def SF.sysnum (f : SF) : Nat := f.imm.toNat % 4096
def SF.sysr (f : SF) : Bool :=
  f.imms && f.a == 0 && f.mod == 0 && f.imm.toNat < 4096 && sysListed f.sysnum
def SF.sysw (f : SF) : Bool :=
  f.imms && f.d == 0 && f.mod == 0 && f.imm.toNat < 4096 && sysListed f.sysnum

/-- The span s that SP gives (R144). -/
def VF.span (f : VF) : Nat := 2 ^ f.sp.toNat
/-- Elements per register of TY (T6.1). -/
def VF.elems (f : VF) : Nat := 4096 / width f.ty.toNat
def VF.tyIn (f : VF) (l : List Nat) : Bool := l.contains f.ty.toNat
def VF.isInt (f : VF) : Bool := 5 <= f.ty.toNat && f.ty.toNat <= 14
def VF.isSigned (f : VF) : Bool := f.isInt && f.ty.toNat % 2 == 1
/-- SP at most `m`, that is a span of at most 2^m. -/
def VF.spanOk (f : VF) (m : Nat) : Bool := f.sp.toNat <= m
/-- A, B and D are vector operands. -/
def VF.ok3 (f : VF) : Bool := vop f.a && vop f.b && vop f.d
/-- A long immediate stands for B in V0 only, with FM 0 and B 0 (R274, R389). -/
def VF.longB (f : VF) : Bool := f.long == none || (!f.v1 && f.fm == 0 && f.b == 0)
/-- D, A span; B 0; no long immediate. -/
def VF.ops1 (f : VF) : Bool := f.spanOk 4 && vop f.a && vop f.d && f.b == 0 && f.long == none
/-- D, A span; B operand b of R389. -/
def VF.ops2 (f : VF) : Bool :=
  f.spanOk 4 && f.ok3 && (f.fm == 0 || f.b == 0) && f.longB
/-- C of an entry that marks it "imm, for b" without SAT. -/
def VF.immB (f : VF) : Bool := f.fm == 1 || f.c == 0
/-- C of an entry with a SAT bit: C [0] with FM 0 (and an immediate when `imm`), SAT only where the type allows it. -/
def VF.satC (f : VF) (imm : Bool) (ok : Bool) : Bool :=
  (f.fm == 1 && imm) || (f.fm == 0 && (f.c == 0 || (f.c == 1 && ok)))
/-- Destination type, mode and SAT of VCVT, VWID and VNAR (R397). -/
def VF.dst (f : VF) : Nat := f.c.toNat % 16
def VF.rmode (f : VF) : Nat := f.c.toNat / 16 % 8
def VF.cvtSat (f : VF) : Bool := f.c.getLsbD 7
def VF.cvtC (f : VF) : Bool :=
  f.c.toNat < 256 && f.rmode < 5 && f.dst < 15 &&
  (!f.cvtSat || (f.isInt && 5 <= f.dst))
/-- k, R and the destination span of SELK (R150, R374). -/
def VF.selK (f : VF) : Nat := f.c.toNat % 16 + 1
def VF.selR (f : VF) : Nat := 2 ^ (f.c.toNat / 16 % 16)
def VF.selSpan (f : VF) : Nat := (f.span * f.elems / f.selR * f.selK + 255) / 256
def VF.selkC (f : VF) : Bool :=
  f.c.toNat < 256 && 1 <= f.c.toNat / 16 && f.c.toNat / 16 <= 10 && f.span * f.elems <= 1024 &&
  f.selR <= f.span * f.elems && f.selK <= f.selR && f.d.toNat + f.selSpan <= 1536
/-- G of SORTK (R151). -/
def VF.sortG (f : VF) : Nat := 2 ^ (f.c.toNat % 16)
def VF.sortkC (f : VF) : Bool :=
  f.c.toNat < 32 && 1 <= f.c.toNat % 16 && f.c.toNat % 16 <= 10 && f.span * f.elems <= 1024 &&
  f.sortG <= f.span * f.elems
/-- The form of the mask instructions (R332), B aside. -/
def VF.kform (f : VF) : Bool :=
  f.fm == 0 && f.km == 0 && f.sp == 0 && f.ty == 0 && f.c == 0 && f.d.toNat < 16 && f.a.toNat < 16 && f.long == none

/-- TAG is 0 when TE is 0 (R171). -/
def CF.tagOk (f : CF) : Bool := f.te == 1 || f.tag == 0
/-- SS names a register, or a long immediate stands for it in C0 (R171, R274). -/
def CF.ssOk (f : CF) : Bool := (f.ss != 0 && f.long == none) || (f.ss == 0 && f.long != none && !f.c1)
/-- What the three CENC forms share (R310). -/
def CF.cenc (f : CF) : Bool := f.tagOk && f.tid == 0 && f.qh == 0 && f.imm8.toNat < 96

/-- An event operand fits the record form: 64 bits (log 6). -/
def u64 (n : Nat) : Bool := n < 2 ^ 64
def u64s (l : List Nat) : Bool := l.length < 248 && l.all u64

/-- The encoding admits the instruction. -/
def Instr.wf : Instr → Bool
  | .bundleIssue => true
  | .anchoredBundleIssue => true
  | .lateTickExpiry => true
  | .resultLanding => true
  | .waitLimit => true
  | .slipExceeded => true
  | .launchPortStore pkg ptr => u64 pkg && u64 ptr
  | .launchValidate pkg => u64 pkg
  | .gangStart rid choice => u64 rid && u64 choice
  | .startTick rid choice => u64 rid && u64 choice
  | .startLate rid => u64 rid
  | .regionDone rid => u64 rid
  | .periodStart rid => u64 rid
  | .budgetExhausted rid => u64 rid
  | .deadlineMiss rid => u64 rid
  | .quantumExpiry rid => u64 rid
  | .dispatch pkg choice => u64 pkg && u64 choice
  | .preemptStop rid => u64 rid
  | .windowOverrun rid => u64 rid
  | .resume rid choice => u64 rid && u64 choice
  | .contextEvict => true
  | .cancelObserved rid => u64 rid
  | .cancelComplete rid => u64 rid
  | .millinerTakeover pkg => u64 pkg
  | .ptpSync pkg offset => u64 pkg && u64 offset
  | .syncTimeout pkg => u64 pkg
  | .holdoverTimeout pkg => u64 pkg
  | .spineLineTransfer die chan => u64 die && u64 chan
  | .peerBankAccess die req => u64 die && u64 req
  | .cuffLanding die cuff => u64 die && u64 cuff
  | .cuffOverrun => true
  | .matrixStepStart => true
  | .matrixStepComplete => true
  | .tableMove => true
  | .copyComplete die chan => u64 die && u64 chan
  | .cgathEntryWrite die chan => u64 die && u64 chan
  | .cputfFlagIncrement die chan => u64 die && u64 chan
  | .pageWalk die part space vpage => u64 die && u64 part && u64 space && u64 vpage
  | .homeAccess die chan item => u64 die && u64 chan && u64 item
  | .loadReturn req => u64 req
  | .storeAck req => u64 req
  | .atomicResend req => u64 req
  | .atomicTimeout req => u64 req
  | .resultCacheExpiry pkg src seq => u64 pkg && u64 src && u64 seq
  | .routerCredReceive pkg req => u64 pkg && u64 req
  | .mergeForward pkg merge => u64 pkg && u64 merge
  | .mergeAnswer pkg merge => u64 pkg && u64 merge
  | .mirrorAck req => u64 req
  | .crownAllocatorAnswer slot => u64 slot
  | .fabricDieFailed pkg fd => u64 pkg && u64 fd
  | .failoverComplete pkg fd => u64 pkg && u64 fd
  | .barrierArrival part entry writer => u64 part && u64 entry && u64 writer
  | .planeMerge part group home => u64 part && u64 group && u64 home
  | .phaseFlip part entry => u64 part && u64 entry
  | .flitReceive pkg link seq good => u64 pkg && u64 link && u64 seq && u64 good
  | .lossOfLight pkg link => u64 pkg && u64 link
  | .opticalLock pkg link => u64 pkg && u64 link
  | .authAttempt pkg link good => u64 pkg && u64 link && u64 good
  | .authTimeout pkg link => u64 pkg && u64 link
  | .drainMarker pkg src => u64 pkg && u64 src
  | .biasLimit pkg port plane mzm high => u64 pkg && u64 port && u64 plane && u64 mzm && u64 high
  | .heaterApply pkg port plane ring => u64 pkg && u64 port && u64 plane && u64 ring
  | .monUpdate pkg port plane ring reading => u64 pkg && u64 port && u64 plane && u64 ring && u64 reading
  | .colourTakeover pkg port plane ring => u64 pkg && u64 port && u64 plane && u64 ring
  | .circuitUp pkg src dst => u64 pkg && u64 src && u64 dst
  | .circuitWaitTimeout req => u64 req
  | .xsendLaunch circ => u64 circ
  | .unitLanding circ => u64 circ
  | .windowEnd circ => u64 circ
  | .xrecvTake => true
  | .waitwReread => true
  | .hostAccess pkg write ptr size data => u64 pkg && u64 write && u64 ptr && u64 size && u64 data
  | .reset pkg outcome => u64 pkg && u64 outcome
  | .readyTimeout pkg => u64 pkg
  | .attestationRequest pkg nonce => u64 pkg && u64 nonce
  | .installRangeEntry pkg part index w0 w1 w2 w3 => u64 pkg && u64 part && u64 index && u64 w0 && u64 w1 && u64 w2 && u64 w3
  | .invalidateTranslation pkg part space first last => u64 pkg && u64 part && u64 space && u64 first && u64 last
  | .installPlaneDescriptor pkg part index w0 w1 w2 w3 w4 w5 w6 w7 => u64 pkg && u64 part && u64 index && u64 w0 && u64 w1 && u64 w2 && u64 w3 && u64 w4 && u64 w5 && u64 w6 && u64 w7
  | .installBarrierEntry pkg part index members => u64 pkg && u64 part && u64 index && u64s members
  | .installReductionWindow pkg part index base size ty op => u64 pkg && u64 part && u64 index && u64 base && u64 size && u64 ty && u64 op
  | .installCircuitDescriptor pkg part slot index w0 w1 w2 w3 => u64 pkg && u64 part && u64 slot && u64 index && u64 w0 && u64 w1 && u64 w2 && u64 w3
  | .routingUpdate pkg dest entry => u64 pkg && u64 dest && u64 entry
  | .routingFlip pkg => u64 pkg
  | .connectionTableEntry pkg src dst count => u64 pkg && u64 src && u64 dst && u64 count
  | .setBandQuantum pkg band value => u64 pkg && u64 band && u64 value
  | .linkEnable pkg link => u64 pkg && u64 link
  | .powerGrant pkg demands => u64 pkg && u64s demands
  | .computeDieFailure => true
  | .stackFailure pkg stack => u64 pkg && u64 stack
  | .bankRetire die bank => u64 die && u64 bank
  | .ringFailure pkg port plane ring => u64 pkg && u64 port && u64 plane && u64 ring
  | .encodeComplete => true
  | .tstatRead f => f.sysr && f.sysnum == 0x005
  | .mstatRead f => f.sysr && f.sysnum == 0x021
  | .xstatWrite f => f.sysw && sysOwn f.sysnum == some .xstat
  | .vflagsWrite f => f.sysw && sysOwn f.sysnum == some .vflags
  | .rrbWrite f => f.sysw && sysOwn f.sysnum == some .rrb
  | .grbWrite f => f.sysw && sysOwn f.sysnum == some .grb
  | .tguardWrite f => f.sysw && sysOwn f.sysnum == some .tguard
  | .fsrWrite f => f.sysw && sysOwn f.sysnum == some .fsr
  | .waitlimWrite f => f.sysw && sysOwn f.sysnum == some .waitlim
  | .opselWrite f => f.sysw && sysOwn f.sysnum == some .opsel
  | .ringWrite f => f.sysw && sysOwn f.sysnum == some .ring
  | .mzmWrite f => f.sysw && sysOwn f.sysnum == some .mzm
  | .elogstatWrite f => f.sysw && sysOwn f.sysnum == some .elogstat
  | .injctlWrite f => f.sysw && sysOwn f.sysnum == some .injctl
  | .intstatWrite pkg bits => u64 pkg && u64 bits
  | .nop _ => true
  | .add f => f.opb && (f.mod == 0 || f.mod == 1 || f.mod == 3)
  | .sub f => f.opb && (f.mod == 0 || f.mod == 1 || f.mod == 3)
  | .mul f => f.opb && (f.mod == 0 || f.mod == 1 || f.mod == 3)
  | .mulh f => f.opb && (f.mod == 0 || f.mod == 2)
  | .div f => f.opb && (f.mod == 0 || f.mod == 2)
  | .rem f => f.opb && (f.mod == 0 || f.mod == 2)
  | .and_ f => f.opb && f.mod == 0
  | .andn f => f.opb && f.mod == 0
  | .or_ f => f.opb && f.mod == 0
  | .xor f => f.opb && f.mod == 0
  | .shl f => f.opb && f.mod == 0
  | .shr f => f.opb && f.mod == 0
  | .sra f => f.opb && f.mod == 0
  | .rol f => f.opb && f.mod == 0
  | .min f => f.opb && (f.mod == 0 || f.mod == 2)
  | .max f => f.opb && (f.mod == 0 || f.mod == 2)
  | .clz f => f.regs && f.b == 0 && f.imm == 0 && f.mod == 0
  | .popc f => f.regs && f.b == 0 && f.imm == 0 && f.mod == 0
  | .sel f => f.opb && f.mod.toNat < 32
  | .mov f => f.regs && f.b == 0 && f.imm == 0 && f.mod == 0
  | .li f => f.fm != 0 && f.opb && f.a == 0 && f.mod == 0
  | .cmp f => f.opb && f.d.toNat < 16 && f.mod.toNat < 10
  | .pand f => f.regs && f.d.toNat < 16 && f.a.toNat < 16 && f.b.toNat < 16 && f.imm == 0 && f.mod == 0
  | .por f => f.regs && f.d.toNat < 16 && f.a.toNat < 16 && f.b.toNat < 16 && f.imm == 0 && f.mod == 0
  | .pxor f => f.regs && f.d.toNat < 16 && f.a.toNat < 16 && f.b.toNat < 16 && f.imm == 0 && f.mod == 0
  | .pnot f => f.regs && f.d.toNat < 16 && f.a.toNat < 16 && f.b == 0 && f.imm == 0 && f.mod == 0
  | .kpop f => f.regs && f.a.toNat < 16 && f.b == 0 && f.imm == 0 && f.mod == 0
  | .kpopN f => f.imms && f.a.toNat < 16 && f.mod == 0 && 1 <= f.imm.toNat && f.imm.toNat <= 1024
  | .ld f => f.opb && f.a != 0 && (f.mod.toNat % 8 < 4) && f.mod.toNat < 16
  | .st f => f.opb && f.a != 0 && f.mod.toNat < 4
  | .atom f => f.opb && f.d == 0 && f.a != 0 && f.atomMod && f.atomOp != 1
  | .atomCas f => f.fm == 0 && f.long == none && f.imm.toNat < 64 && f.d == 0 && f.a != 0 && f.atomMod && f.atomOp == 1
  | .red f => f.opb && f.d == 0 && f.a != 0 && f.atomMod && 2 <= f.atomOp
  | .lqpop f => f.regs && f.a == 0 && f.b == 0 && f.imm == 0 && f.mod == 0
  | .apush f => f.regs && f.d == 0 && f.b == 0 && f.imm == 0 && f.mod == 0
  | .fence f => f.regs && f.d == 0 && f.a == 0 && f.b == 0 && f.imm == 0 && f.mod.toNat % 4 != 0 && f.mod.toNat / 4 < 5
  | .waitw f => f.opbc && f.a != 0 && (f.mod.toNat / 8) % 16 == 0 && f.mod.toNat / 128 < 5
  | .brRel f => f.imms && f.d == 0 && f.a == 0 && f.mod == 0
  | .brReg f => f.regs && f.d == 0 && f.a != 0 && f.b == 0 && f.imm == 0 && f.mod == 0
  | .jmpImm f => f.imms && f.d == 0 && f.a == 0 && f.mod == 0 && f.imm.toNat < 1048576
  | .jmpReg f => f.regs && f.d == 0 && f.a != 0 && f.b == 0 && f.imm == 0 && f.mod == 0
  | .jmpLong f => f.longs && f.d == 0 && f.a == 0 && f.mod == 0
  | .callRel f => f.imms && f.d == 0 && f.a == 0 && f.mod == 0
  | .callReg f => f.regs && f.d == 0 && f.a != 0 && f.b == 0 && f.imm == 0 && f.mod == 0
  | .ret f => f.bare
  | .loop f => f.imms && f.d == 0 && f.a != 0 && f.mod == 0 && 1 <= f.imm.toNat && f.imm.toNat <= 64
  | .trap f => f.imms && f.d == 0 && f.a == 0 && f.mod == 0 && f.imm.toNat < 65536
  | .tret f => f.bare
  | .end_ f => f.bare
  | .yield f => f.bare
  | .launch f => f.regs && f.d == 0 && f.a != 0 && f.b == 0 && f.imm == 0 && f.mod == 0
  | .twait f => f.opb && f.d == 0 && f.a == 0 && f.mod == 0
  | .twaitAbs f => f.opb && f.d == 0 && f.a == 0 && f.mod == 1
  | .wtagall f => f.opb && f.d == 0 && f.a == 0 && f.mod == 0
  | .wtagany f => f.opb && f.a == 0 && f.mod == 0
  | .tagff f => f.opb && f.a == 0 && f.mod == 0
  | .tagclr f => f.opb && f.d == 0 && f.a == 0 && f.mod == 0
  | .qwait f => f.imms && f.d == 0 && f.a == 0 && f.mod == 0 && f.imm.toNat < 32768 && 1 <= f.qn && f.qn <= 256
  | .qadv f => f.imms && f.d == 0 && f.a == 0 && f.mod == 0 && f.imm.toNat < 32768 && 1 <= f.qn && f.qn <= 256
  | .qset f => f.imms && f.d == 0 && f.mod == 0 && f.imm.toNat < 16384 && f.qdepth != 1 && f.qdepth <= 256 && (f.qdepth != 0 || f.a == 0)
  | .bara f => f.imms && f.d == 0 && f.a == 0 && f.imm.toNat < 64 && f.mod.toNat % 4 == 0 && f.mod.toNat / 4 < 5
  | .barw f => f.imms && f.d == 0 && f.a == 0 && f.imm.toNat < 64 && f.mod.toNat % 4 == 0 && f.mod.toNat / 4 < 5
  | .step f => f.imms && f.a == 0 && f.imm.toNat < 16 && f.mod == 0
  | .pstat f => f.imms && f.d != 0 && f.a == 0 && f.imm.toNat < 32 && f.mod == 0
  | .sysrd f => f.sysr && f.sysnum != 0x005 && f.sysnum != 0x021
  | .syswr f => f.sysw && sysOwn f.sysnum == none
  | .tidset f => f.imms && f.d == 0 && f.mod == 0 && f.imm.toNat < 2048
  | .falloc f => f.regs && f.imm == 0 && f.d != 0 && f.a != 0 && f.b == 0 && f.mod.toNat < 16 && f.mod.toNat / 2 % 2 == 0 && f.mod.toNat / 4 < 3
  | .fallocAt f => f.regs && f.imm == 0 && f.d != 0 && f.a != 0 && f.b != 0 && f.mod.toNat < 16 && f.mod.toNat / 2 % 2 == 1 && f.mod.toNat / 4 < 3
  | .fallocQuery f => f.regs && f.imm == 0 && f.d != 0 && f.a != 0 && f.b == 0 && f.mod == 16
  | .ffree f => f.regs && f.imm == 0 && f.a != 0 && f.b == 0 && f.mod == 0
  | .vadd f => f.ops2 && f.tyIn allTys && f.satC true f.isInt
  | .vsub f => f.ops2 && f.tyIn allTys && f.satC true f.isInt
  | .vmul f => f.ops2 && f.tyIn allTys && f.satC true f.isInt
  | .vfma f => f.spanOk 4 && f.ok3 && f.tyIn [0, 1, 2, 3, 4] && (f.fm == 1 || vop f.c) && f.longB
  | .vfms f => f.spanOk 4 && f.ok3 && f.tyIn [0, 1, 2, 3, 4] && (f.fm == 1 || vop f.c) && f.longB
  | .vmin f => f.ops2 && f.tyIn allTys && f.immB
  | .vmax f => f.ops2 && f.tyIn allTys && f.immB
  | .vabs f => f.ops1 && f.tyIn allTys && f.fm == 0 && f.satC false f.isSigned
  | .vneg f => f.ops1 && f.tyIn allTys && f.fm == 0 && f.satC false f.isInt
  | .vand f => f.ops2 && f.tyIn allTys && f.immB
  | .vor f => f.ops2 && f.tyIn allTys && f.immB
  | .vxor f => f.ops2 && f.tyIn allTys && f.immB
  | .vnot f => f.ops1 && f.tyIn allTys && f.fm == 0 && f.c == 0
  | .vshl f => f.ops2 && f.tyIn intTys && f.immB
  | .vshr f => f.ops2 && f.tyIn intTys && f.immB
  | .vsra f => f.ops2 && f.tyIn intTys && f.immB
  | .vcmp f => f.spanOk 4 && f.tyIn allTys && f.fm == 1 && f.c.toNat < 7 && f.d.toNat < 16 && vop f.a && vop f.b && f.span * f.elems <= 1024 && (f.long == none || (!f.v1 && f.b == 0))
  | .vsel f => f.ops2 && f.tyIn allTys && f.immB
  | .vmov f => f.ops1 && f.tyIn allTys && f.fm == 0 && f.c == 0
  | .vbcastIdx f => f.spanOk 4 && f.tyIn allTys && f.fm == 1 && f.b == 0 && vop f.a && vop f.d && f.c.toNat < f.elems && f.long == none
  | .vbcastFirst f => f.spanOk 4 && f.tyIn allTys && f.fm == 0 && f.a == 0 && vop f.b && vop f.d && f.c == 0 && f.longB
  | .viota f => f.spanOk 4 && f.tyIn allTys && f.fm == 1 && f.a == 0 && f.b == 0 && vop f.d && f.long == none
  | .vext f => f.spanOk 4 && f.tyIn allTys && f.fm == 1 && f.ok3 && f.c.toNat <= f.span * f.elems && f.long == none
  | .vdot f => f.spanOk 4 && f.tyIn [1, 2, 3, 4, 5, 6, 7, 8, 9, 10] && f.fm == 0 && f.ok3 && vop f.c && f.long == none
  | .vred f => f.ops1 && f.tyIn [0, 1, 2, 11, 12, 13, 14] && f.fm == 1 && f.c.toNat < 3
  | .vamax f => f.ops1 && f.tyIn [0, 1, 2, 3, 4] && f.fm == 0 && f.c == 0
  | .vcvt f => f.ops1 && f.tyIn allTys && f.fm == 1 && f.cvtC && width f.dst == width f.ty.toNat
  | .vwid f => f.ops1 && f.tyIn allTys && f.fm == 1 && f.cvtC && (width f.dst == 2 * width f.ty.toNat || width f.dst == 4 * width f.ty.toNat) && f.span * (width f.dst / width f.ty.toNat) <= 16
  | .vnar f => f.ops1 && f.tyIn allTys && f.fm == 1 && f.cvtC && (width f.ty.toNat == 2 * width f.dst || width f.ty.toNat == 4 * width f.dst) && width f.ty.toNat / width f.dst <= f.span
  | .vquant f => f.spanOk 4 && f.tyIn [0, 1, 2] && f.fm == 1 && f.c.toNat < 256 && f.km == 0 && f.b == 0 && f.a.toNat < 1536 && vop f.d && f.long == none
  | .vperm f => f.spanOk 4 && f.tyIn [0, 1, 2, 3, 4, 7, 8, 9, 10, 11, 12, 13, 14] && f.fm == 0 && f.c == 0 && vop f.a && vop f.d && f.span * f.elems <= 4096 && f.b.toNat + (f.span * f.elems + 255) / 256 <= 1536 && f.long == none
  | .vcompact f => f.ops1 && f.tyIn allTys && f.fm == 0 && f.c == 0
  | .vld f => f.spanOk 4 && f.tyIn allTys && f.fm == 0 && f.a == 0 && f.b == 0 && f.c == 0 && f.d.toNat < 1536 && f.long == none
  | .vst f => f.spanOk 4 && f.ty == 0 && f.fm == 0 && f.d == 0 && f.b == 0 && f.c == 0 && f.km == 0 && f.a.toNat < 1536 && f.long == none
  | .kand f => f.kform && f.b.toNat < 16
  | .kor f => f.kform && f.b.toNat < 16
  | .kxor f => f.kform && f.b.toNat < 16
  | .knot f => f.kform && f.b == 0
  | .vexp2 f => f.v1 && f.spanOk 2 && f.tyIn [0, 1, 2] && f.fm == 0 && f.b == 0 && f.c == 0 && vop f.a && vop f.d && f.long == none
  | .vlog2 f => f.v1 && f.spanOk 2 && f.tyIn [0, 1, 2] && f.fm == 0 && f.b == 0 && f.c == 0 && vop f.a && vop f.d && f.long == none
  | .vrcp f => f.v1 && f.spanOk 2 && f.tyIn [0, 1, 2] && f.fm == 0 && f.b == 0 && f.c == 0 && vop f.a && vop f.d && f.long == none
  | .vrsq f => f.v1 && f.spanOk 2 && f.tyIn [0, 1, 2] && f.fm == 0 && f.b == 0 && f.c == 0 && vop f.a && vop f.d && f.long == none
  | .vsqrt f => f.v1 && f.spanOk 2 && f.tyIn [0, 1, 2] && f.fm == 0 && f.b == 0 && f.c == 0 && vop f.a && vop f.d && f.long == none
  | .vtanh f => f.v1 && f.spanOk 2 && f.tyIn [0, 1, 2] && f.fm == 0 && f.b == 0 && f.c == 0 && vop f.a && vop f.d && f.long == none
  | .scan f => f.v1 && f.spanOk 4 && f.tyIn [0, 1, 2, 11, 12, 13, 14] && f.fm == 1 && f.b == 0 && f.c.toNat < 16 && f.c.toNat % 4 != 3 && (f.c.toNat / 8 == 1 || f.km == 0) && vop f.a && vop f.d && f.long == none
  | .selk f => f.v1 && f.spanOk 4 && f.tyIn [0, 1, 2, 7, 8, 9, 10, 11, 12] && f.fm == 1 && f.b == 0 && f.selkC && f.a.toNat < 1536 && f.long == none
  | .sortk f => f.v1 && f.spanOk 3 && f.tyIn [0, 1, 2, 9, 10, 11, 12] && f.fm == 1 && f.km == 0 && f.sortkC && f.a.toNat < 1536 && f.b.toNat < 1536 && f.d.toNat + 2 * f.span <= 1536 && f.long == none
  | .rsolve f => f.v1 && f.spanOk 4 && f.ty == 12 && f.fm == 1 && f.d.toNat < 64 && f.a.toNat + f.span <= 1536 && f.b == 0 && f.c.toNat < 32 && (f.sp != 4 || f.km.toNat < 15) && f.long == none
  | .mcfgHead f => f.imm.toNat / 65536 == 0 && f.imm.toNat / 16384 % 4 != 3 && f.ac.toNat < 4 && (f.long == none || f.lv == 0)
  | .mcfgLevel f => f.imm.toNat / 65536 == 1 && f.imm.toNat % 65536 < 6 && f.bt == 0 && f.ac == 0 && f.ta == 0 && f.tb == 0 && f.tc == 0 && (f.long == none || f.lv == 0)
  | .mroute f => f.bt == 0 && f.ac == 0 && f.ta == 0 && f.tb == 0 && f.tc == 0 && f.lv == 0 && f.imm.toNat < 16384 && f.imm.toNat % 8 < 6 && f.long == none
  | .mgath f => f.bt == 0 && f.ac == 0 && f.ta == 0 && f.tb == 0 && f.tc.toNat < 15 && f.imm.toNat < 32768 && f.imm.toNat % 2048 + 15 <= 1535 && f.long == none
  | .mgo f => f.ac == 0 && f.ta == 0 && f.tb == 0 && f.tc == 0 && f.lv == 0 && f.imm == 0 && f.long == none
  | .mcommit f => f.ac == 0 && f.ta == 0 && f.tb == 0 && f.tc == 0 && f.lv == 0 && f.imm == 0 && f.long == none
  | .mwaitb f => f.ac == 0 && f.ta == 0 && f.tb == 0 && f.tc == 0 && f.lv == 0 && f.imm == 0 && f.long == none
  | .mdrain f => f.bt == 0 && f.ta == 0 && f.tb == 0 && f.lv == 0 && f.imm == 0 && f.long == none
  | .mzero f => f.bt == 0 && f.ta == 0 && f.tb == 0 && f.tc == 0 && f.lv == 0 && f.imm.toNat < 64 && f.ac.toNat + f.imm.toNat + 1 <= 64 && f.long == none
  | .mlda f => f.ta == 0 && f.tb == 0 && f.lv == 0 && f.imm.toNat < 2048 && f.long == none
  | .mstop f => f.bt == 0 && f.ac == 0 && f.ta == 0 && f.tb == 0 && f.tc == 0 && f.lv == 0 && f.imm == 0 && f.long == none
  | .cget f => f.tagOk && f.sd != 0 && f.ssOk && f.sn != 0 && f.qh == 0 && f.imm8 == 0 && (if f.tid == 0 then f.mod == 0 else f.mod.toNat < 32)
  | .cput f => f.tagOk && f.sd != 0 && f.ssOk && f.sn != 0 && f.qh == 0 && f.imm8 == 0 && (if f.tid == 0 then f.mod == 0 else f.mod.toNat < 32)
  | .cputf f => f.tagOk && f.sd != 0 && f.ssOk && f.sn != 0 && f.tid == 0 && f.qh == 0 && f.imm8 == 0 && f.mod != 0 && f.mod.toNat < 64
  | .cgath f => f.tagOk && f.sd == 0 && f.ssOk && f.sn != 0 && f.tid != 0 && f.imm8 == 0 && f.mod == 0
  | .cscat f => f.tagOk && f.sd != 0 && f.ss == 0 && f.long == none && f.sn != 0 && f.tid != 0 && f.imm8 == 0 && f.mod == 0
  | .catom f => f.tagOk && f.sd != 0 && f.ssOk && f.sn == 0 && f.tid == 0 && f.qh == 0 && f.imm8 == 0 && f.mod.toNat < 32 && f.mod.toNat % 16 < 11 && (f.mod.toNat % 16 != 10 || f.mod.toNat / 16 == 1)
  | .cred f => f.tagOk && f.sd != 0 && f.ssOk && f.sn == 0 && f.tid == 0 && f.qh == 0 && f.imm8 == 0 && f.mod.toNat < 128 && f.mod.toNat / 16 % 4 != 3 && [0, 1, 11, 12, 13, 14].contains (f.mod.toNat % 16)
  | .cfence f => f.tagOk && f.sd == 0 && f.ss == 0 && f.sn == 0 && f.long == none && f.tid == 0 && f.qh == 0 && f.imm8 == 0 && f.mod.toNat < 16 && f.mod.getLsbD (if f.c1 then 1 else 0)
  | .czero f => f.tagOk && f.sd != 0 && f.ssOk && f.sn != 0 && f.tid == 0 && f.qh == 0 && f.imm8 == 0 && f.mod == 0
  | .croute f => f.tagOk && f.sd != 0 && f.ssOk && f.sn != 0 && f.tid == 0 && f.qh == 0 && f.imm8 == 0 && f.mod == 0
  | .cbund f => f.tagOk && f.sd != 0 && f.ssOk && f.sn != 0 && f.tid == 0 && f.qh == 0 && f.imm8 == 0 && f.mod == 0
  | .cencOpen f => f.cenc && f.mod == 0 && f.sd == 0 && f.ssOk && f.sn == 0
  | .cencFrame f => f.cenc && f.mod == 1 && f.sd != 0 && f.ssOk && f.sn != 0
  | .cencClose f => f.cenc && f.mod == 2 && f.sd == 0 && f.ss == 0 && f.long == none && f.sn == 0
  | .xsend f => f.v.toNat < 1536
  | .xrecv f => f.v.toNat < 1536
  | .lightPresent pkg link => u64 pkg && u64 link
  | .ptpPortEnable pkg port enable => u64 pkg && u64 port && u64 enable
  | .barrierRootAnswer slot => u64 slot
  | .takeoverComplete pkg => u64 pkg
  | .unknownCommand pkg code => u64 pkg && u64 code

end Sys2Proof
end

