-- ==== Sys2Proof/Machine/Numbers.lean ====
section
/-! DEFINITION. Number formats and arithmetic (R107–R124): every floating-point operation computes an exact value and
rounds it once; integers are computed exactly and wrapped or clamped. -/

namespace Sys2Proof.Machine

/-! ## Flags (T6.6): NX 1, UF 2, OF 4, DZ 8, IV 16, SAT 32 -/

def flNX : Nat := 1
def flUF : Nat := 2
def flOF : Nat := 4
def flDZ : Nat := 8
def flIV : Nat := 16
def flSAT : Nat := 32

/-! ## Values -/

/-- A floating-point datum: NaN (signalling or not), infinity, or sign, magnitude m × 2^e. -/
inductive FVal where
  | nan (sig : Bool)
  | inf (neg : Bool)
  | fin (neg : Bool) (m : Nat) (e : Int)
  deriving DecidableEq, Repr

/-- A floating-point format (T6.2). `ieee` is false for the F8 formats. -/
structure FFmt where
  w    : Nat
  f    : Nat
  bias : Int
  ieee : Bool
  deriving DecidableEq, Repr

/-- The formats of codes 0–4. -/
def ffmt : Nat → FFmt
  | 0 => ⟨32, 23, 127, true⟩
  | 1 => ⟨16, 7, 127, true⟩
  | 2 => ⟨16, 10, 15, true⟩
  | 3 => ⟨8, 3, 8, false⟩
  | _ => ⟨8, 2, 16, false⟩

/-- Code of the largest finite magnitude. -/
def FFmt.maxCode (t : FFmt) : Nat := if t.ieee then 2 ^ (t.w - 1) - 2 ^ t.f - 1 else 2 ^ (t.w - 1) - 1
/-- The canonical NaN (T6.2). -/
def FFmt.nanCode (t : FFmt) : Nat := if t.ieee then 2 ^ (t.w - 1) - 2 ^ t.f + 2 ^ (t.f - 1) else 0x80
/-- The code of a sign and a magnitude; F8 has no negative zero. -/
def FFmt.signed (t : FFmt) (neg : Bool) (code : Nat) : Nat :=
  if neg && (t.ieee || code != 0) then 2 ^ (t.w - 1) + code else code
/-- The exponent of the lowest bit of a subnormal. -/
def FFmt.low (t : FFmt) : Int := 1 - t.bias - t.f

/-- The value of a code (R109). -/
def FFmt.val (t : FFmt) (x : Nat) : FVal :=
  let neg := bit x (t.w - 1)
  let mag := x % 2 ^ (t.w - 1)
  let ex := mag / 2 ^ t.f
  let fr := mag % 2 ^ t.f
  if !t.ieee && x == 0x80 then .nan false
  else if t.ieee && t.maxCode < mag then (if fr == 0 then .inf neg else .nan (!bit fr (t.f - 1)))
  else if ex == 0 then .fin neg fr t.low
  else .fin neg (2 ^ t.f + fr) (t.low + (ex - 1 : Nat))

/-- A subnormal non-zero code of a format that FTZ flushes (R119). -/
def FFmt.isSub (t : FFmt) (x : Nat) : Bool :=
  let mag := x % 2 ^ (t.w - 1)
  t.ieee && 0 < mag && mag < 2 ^ t.f

/-- An operand as an operation reads it: with FTZ a subnormal is a zero of its sign (R119). -/
def FFmt.read (t : FFmt) (ftz : Bool) (x : Nat) : FVal :=
  if ftz && t.isSub x then .fin (bit x (t.w - 1)) 0 0 else t.val x

/-! ## Rounding (R110) -/

/-- The integer nearest to q + r / d (0 ≤ r < d) in a mode, for a magnitude of sign `neg`. -/
def roundQ (mode : Nat) (neg : Bool) (q r d : Nat) : Nat :=
  let up := match mode with
    | 0 => d < 2 * r || (2 * r == d && q % 2 == 1)
    | 1 => false
    | 2 => !neg && r != 0
    | 3 => neg && r != 0
    | _ => d <= 2 * r && r != 0
  if up then q + 1 else q

/-- m × 2^sh rounded to an integer, and whether it was inexact. -/
def roundShift (mode : Nat) (neg : Bool) (m : Nat) (sh : Int) : Nat × Bool :=
  if 0 <= sh then (m * 2 ^ sh.toNat, false)
  else
    let d := 2 ^ (-sh).toNat
    (roundQ mode neg (m / d) (m % d) d, m % d != 0)

/-- A finite value rounded to a format: code and flags (R110, R116, R119). -/
def FFmt.roundFin (t : FFmt) (mode : Nat) (ftz neg : Bool) (m : Nat) (e : Int) : Nat × Nat :=
  if m == 0 then (t.signed neg 0, 0)
  else
    let top : Int := Nat.log2 m + e
    let q := max (top - t.f) t.low
    let r := roundShift mode neg m (e - q)
    let code := r.1 + (q - t.low).toNat * 2 ^ t.f
    let free := roundShift mode neg m (e - (top - t.f))
    let tiny := top < t.low + t.f && !(top + 1 == t.low + t.f && free.1 == 2 ^ (t.f + 1))
    if t.maxCode < code then
      let toMax := !t.ieee || mode == 1 || (mode == 2 && neg) || (mode == 3 && !neg)
      (t.signed neg (if toMax then t.maxCode else t.maxCode + 1), flOF + flNX)
    else if ftz && t.ieee && 0 < code && code < 2 ^ t.f then (t.signed neg 0, flUF + flNX)
    else (t.signed neg code, if r.2 then (if tiny then flUF + flNX else flNX) else 0)

/-- A value rounded to a format (R110): F8 saturates an infinity, and sets OF for it. -/
def FFmt.round (t : FFmt) (mode : Nat) (ftz : Bool) : FVal → Nat × Nat
  | .nan _ => (t.nanCode, 0)
  | .inf neg => if t.ieee then (t.signed neg (t.maxCode + 1), 0) else (t.signed neg t.maxCode, flOF)
  | .fin neg m e => t.roundFin mode ftz neg m e

/-! ## Exact arithmetic -/

/-- IV of signalling operands (R116). -/
def sigFlag : FVal → Nat
  | .nan true => flIV
  | _ => 0

def FVal.isNan : FVal → Bool
  | .nan _ => true
  | _ => false
def FVal.neg : FVal → FVal
  | .nan s => .nan s
  | .inf n => .inf (!n)
  | .fin n m e => .fin (!n) m e
def FVal.abs : FVal → FVal
  | .nan s => .nan s
  | .inf _ => .inf false
  | .fin _ m e => .fin false m e
def FVal.isNeg : FVal → Bool
  | .nan _ => false
  | .inf n => n
  | .fin n _ _ => n

/-- m × 2^e with its sign as an integer multiple of 2^k, for k ≤ e. -/
def scaled (neg : Bool) (m : Nat) (e k : Int) : Int :=
  let z : Int := m * 2 ^ (e - k).toNat
  if neg then -z else z

/-- The exact sum; a sum of opposite infinities is invalid; an exact zero of mixed signs is +0 (R116). -/
def FVal.add : FVal → FVal → FVal × Nat
  | .nan a, .nan b => (.nan false, if a || b then flIV else 0)
  | .nan a, _ => (.nan false, if a then flIV else 0)
  | _, .nan b => (.nan false, if b then flIV else 0)
  | .inf a, .inf b => if a == b then (.inf a, 0) else (.nan false, flIV)
  | .inf a, _ => (.inf a, 0)
  | _, .inf b => (.inf b, 0)
  | .fin na ma ea, .fin nb mb eb =>
    let k := min ea eb
    let z := scaled na ma ea k + scaled nb mb eb k
    (.fin (if z == 0 then na && nb else z < 0) z.natAbs k, 0)

/-- The exact product; infinity × 0 is invalid. -/
def FVal.mul : FVal → FVal → FVal × Nat
  | .nan a, .nan b => (.nan false, if a || b then flIV else 0)
  | .nan a, _ => (.nan false, if a then flIV else 0)
  | _, .nan b => (.nan false, if b then flIV else 0)
  | .inf a, .inf b => (.inf (a != b), 0)
  | .inf a, .fin nb mb _ => if mb == 0 then (.nan false, flIV) else (.inf (a != nb), 0)
  | .fin na ma _, .inf b => if ma == 0 then (.nan false, flIV) else (.inf (na != b), 0)
  | .fin na ma ea, .fin nb mb eb => (.fin (na != nb) (ma * mb) (ea + eb), 0)

/-- a × b + c exactly; infinity × 0 is invalid whatever c is (R402). -/
def FVal.fma (a b c : FVal) : FVal × Nat :=
  let p := a.mul b
  let z := p.1.add c
  (z.1, p.2 ||| z.2)

/-- -1, 0 or 1 as a is below, equal to or above b, for values that are not NaN; the zeros are equal. -/
def FVal.cmp : FVal → FVal → Int
  | .inf a, .inf b => if a == b then 0 else if a then -1 else 1
  | .inf a, _ => if a then -1 else 1
  | _, .inf b => if b then 1 else -1
  | .fin na ma ea, .fin nb mb eb =>
    let k := min ea eb
    let x := scaled na ma ea k
    let y := scaled nb mb eb k
    if x < y then -1 else if x == y then 0 else 1
  | _, _ => 0

/-- Order of minimum and maximum: -0 below +0 (R116). -/
def FVal.below (a b : FVal) : Bool :=
  let c := a.cmp b
  c < 0 || (c == 0 && a.isNeg && !b.isNeg)

/-- IEEE 754-2019 minimum and maximum (R116). -/
def FVal.minmax (isMax : Bool) (a b : FVal) : FVal × Nat :=
  if a.isNan || b.isNan then (.nan false, sigFlag a ||| sigFlag b)
  else (if isMax then (if a.below b then b else a) else (if b.below a then b else a), 0)

/-! ## Integers (R120–R122) -/

/-- Integer codes of T6.1. -/
def isIntTy (ty : Nat) : Bool := 5 <= ty && ty <= 14
def isSignedTy (ty : Nat) : Bool := isIntTy ty && ty % 2 == 1
def tyMin (ty : Nat) : Int := if isSignedTy ty then -(2 ^ (width ty - 1)) else 0
def tyMax (ty : Nat) : Int := if isSignedTy ty then 2 ^ (width ty - 1) - 1 else 2 ^ width ty - 1
/-- The integer value of an element. -/
def intVal (ty x : Nat) : Int := if isSignedTy ty then signed (width ty) x else (x % 2 ^ width ty : Nat)
/-- An exact integer wrapped, or clamped with SAT (R120). -/
def intRes (ty : Nat) (sat : Bool) (z : Int) : Nat × Nat :=
  if sat then
    let c := clampInt (tyMin ty) (tyMax ty) z
    (wrap (width ty) c, if c == z then 0 else flSAT)
  else (wrap (width ty) z, 0)

/-- Shift amounts and shifts at width b (R122). -/
def shiftAmt (b x : Nat) : Nat := if b == 4 then x % 16 else x % 256
def shl (b x n : Nat) : Nat := if b <= n then 0 else x * 2 ^ n % 2 ^ b
def shr (b x n : Nat) : Nat := if b <= n then 0 else x % 2 ^ b / 2 ^ n
def sra (b x n : Nat) : Nat := if b <= n then (if bit x (b - 1) then 2 ^ b - 1 else 0) else wrap b (signed b x / 2 ^ n)
def rol (b x n : Nat) : Nat :=
  let k := n % b
  (x * 2 ^ k + x % 2 ^ b / 2 ^ (b - k)) % 2 ^ b

/-- Division that truncates toward zero, with the limits of T6.7: quotient and remainder of b-bit values. -/
def divRem (b : Nat) (sgn : Bool) (x y : Nat) : Nat × Nat :=
  if y % 2 ^ b == 0 then (2 ^ b - 1, x % 2 ^ b)
  else if sgn then (wrap b (Int.tdiv (signed b x) (signed b y)), wrap b (Int.tmod (signed b x) (signed b y)))
  else (x % 2 ^ b / (y % 2 ^ b), x % 2 ^ b % (y % 2 ^ b))

/-! ## Conversions (R111) -/

/-- A finite value rounded to an integer. -/
def FVal.toInt (mode : Nat) (neg : Bool) (m : Nat) (e : Int) : Int × Bool :=
  let r := roundShift mode neg m e
  (if neg then -(r.1 : Int) else r.1, r.2)

/-- A value as an integer type: NaN gives 0, out of range gives the nearest limit; the flags are those of R398. -/
def toIntTy (ty mode : Nat) : FVal → Nat × Nat
  | .nan _ => (0, flIV)
  | .inf n => (wrap (width ty) (if n then tyMin ty else tyMax ty), flIV)
  | .fin n m e =>
    let r := FVal.toInt mode n m e
    if r.1 < tyMin ty then (wrap (width ty) (tyMin ty), flIV)
    else if tyMax ty < r.1 then (wrap (width ty) (tyMax ty), flIV)
    else (wrap (width ty) r.1, if r.2 then flNX else 0)

/-- An integer as an exact value. -/
def ofIntVal (z : Int) : FVal := .fin (z < 0) z.natAbs 0

/-- An element converted from type `src` to type `dst` (T6.4). -/
def convert (src dst mode : Nat) (sat ftz : Bool) (x : Nat) : Nat × Nat :=
  if isIntTy src then
    if isIntTy dst then intRes dst sat (intVal src x)
    else (ffmt dst).round mode ftz (ofIntVal (intVal src x))
  else
    let v := (ffmt src).read ftz x
    if isIntTy dst then toIntTy dst mode v
    else
      let r := (ffmt dst).round mode ftz v
      (r.1, r.2 ||| sigFlag v)

/-! ## KB blocks (R112–R115) -/

/-- Magnitude width of a KB format: 0 KB4, 1 KB6, 2 KB8. -/
def kbW : Nat → Nat
  | 0 => 2 | 1 => 4 | _ => 6

/-- The value of a KB code in a block with exponents EA and EB (R113). -/
def kbVal (fmt ea eb code : Nat) : FVal :=
  let w := kbW fmt
  if ea == 255 || eb == 255 then .nan false
  else .fin (bit code (w + 1)) (code % 2 ^ w) ((if bit code w then eb else ea : Nat) - 127 - w)

/-- floor(log2) of a positive value; an infinity counts as 2^128. -/
def FVal.log : FVal → Int
  | .fin _ m e => Nat.log2 m + e
  | _ => 128

/-- The element of a finite or infinite magnitude at an exponent: round(|x| × 2^(w + 127 - E)). -/
def kbMag (w ex : Nat) : FVal → Nat
  | .fin _ m e => (roundShift 0 false m (e + w + 127 - ex)).1
  | _ => 2 ^ 400

/-- VQUANT's block (R115): EA, EB, codes, flags. -/
def kbQuant (fmt kgap : Nat) (xs : List FVal) : Nat × Nat × List Nat × Nat :=
  let w := kbW fmt
  let g := if kgap == 0 then w else kgap
  let sig := xs.foldl (fun a x => a ||| sigFlag x) 0
  if xs.any FVal.isNan then (255, 255, xs.map fun _ => 0, sig)
  else
    let mx := xs.foldl (fun a x => if a.cmp x.abs < 0 then x.abs else a) (.fin false 0 0)
    let ea : Nat := if mx.cmp (.fin false 0 0) == 0 then 0 else (clampInt 0 254 (mx.log + 128)).toNat
    let eb := ea - g
    let one := fun (x : FVal) =>
      let mB := kbMag w eb x
      let inB := mB <= 2 ^ w - 1
      let m := if inB then mB else min (kbMag w ea x) (2 ^ w - 1)
      let code := (if x.isNeg then 2 ^ (w + 1) else 0) + (if inB then 2 ^ w else 0) + m
      let stored := kbVal fmt ea eb code
      let fl := match x with
        | .inf _ => flOF
        | _ => (if stored.cmp x != 0 then flNX else 0) |||
               (if x.abs.cmp (.fin false (2 ^ w - 1) (127 - w)) > 0 then flOF else 0)
      (code, fl)
    let rs := xs.map one
    (ea, eb, rs.map (·.1), sig ||| rs.foldl (fun a r => a ||| r.2) 0)

/-! ## Special functions (R148) -/

/-- Integer square root by bits, from bit `n` down: the largest r with r² ≤ x. -/
def isqrtFrom (x : Nat) : Nat → Nat → Nat
  | 0, r => r
  | n + 1, r => let c := r + 2 ^ n; if c * c <= x then isqrtFrom x n c else isqrtFrom x n r
def isqrt (x : Nat) : Nat := isqrtFrom x (Nat.log2 x / 2 + 1) 0

/-- Fraction bits that the reference computations carry. -/
def sfBits : Nat := 192

/-- The binary digits of log2 of x / 2^sfBits in [1, 2), n of them. -/
def log2Digits : Nat → Nat → Nat → Nat
  | 0, _, acc => acc
  | n + 1, x, acc =>
    let y := x * x / 2 ^ sfBits
    if 2 ^ (sfBits + 1) <= y then log2Digits n (y / 2) (2 * acc + 1) else log2Digits n y (2 * acc)

/-- 2^(f / 2^96) in units of 2^-sfBits, for f below 2^96: a product of repeated square roots of 2. -/
def exp2Frac (f : Nat) : Nat → Nat → Nat → Nat
  | 0, _, acc => acc
  | n + 1, root, acc =>
    let root' := isqrt (root * 2 ^ sfBits)
    let acc' := if bit f n then acc * root' / 2 ^ sfBits else acc
    exp2Frac f n root' acc'
def exp2Of (f : Nat) : Nat := exp2Frac f 96 (2 ^ (sfBits + 1)) (2 ^ sfBits)

/-- log2(e) in units of 2^-128. -/
def log2e : Nat := 0x171547652B82FE1777D0FFDA0D23A7D12

/-- 2 to the power z / 2^96, as magnitude and exponent. -/
def exp2Fix (z : Int) : Nat × Int :=
  let n := z / 2 ^ 96
  (exp2Of (z - n * 2 ^ 96).toNat, n - sfBits)

/-- A finite positive value in units of 2^-96, truncated. -/
def fix96 (m : Nat) (e : Int) : Nat := if 0 <= e + 96 then m * 2 ^ (e + 96).toNat else m / 2 ^ (-(e + 96)).toNat

/-- The functions of the special-function unit. -/
inductive SfOp where
  | exp2 | log2 | rcp | rsq | sqrt | tanh
  deriving DecidableEq, Repr

/-- The opcode that the free offset of R148 depends on (T15.7). -/
def SfOp.code : SfOp → Nat
  | .exp2 => 0x40 | .log2 => 0x41 | .rcp => 0x42 | .rsq => 0x43 | .sqrt => 0x44 | .tanh => 0x45

/-- The exact result of a special function at a finite non-zero argument, to sfBits bits (a last bit of 1 stands for
the rest), and whether it is exact. -/
def sfExact (op : SfOp) (neg : Bool) (m : Nat) (e : Int) : FVal × Bool :=
  match op with
  | .rcp =>
    let d := 2 ^ (Nat.log2 m + sfBits)
    (.fin neg (2 * (d / m) + (if d % m == 0 then 0 else 1)) (-(e + (Nat.log2 m + sfBits + 1 : Nat))), d % m == 0)
  | .sqrt =>
    let k : Nat := if e % 2 == 0 then 2 * sfBits else 2 * sfBits + 1
    let x := m * 2 ^ k
    let r := isqrt x
    (.fin false (2 * r + (if r * r == x then 0 else 1)) ((e - k) / 2 - 1), r * r == x)
  | .rsq =>
    let k : Nat := if e % 2 == 0 then 0 else 1
    let x := 2 ^ (2 * sfBits + 2 * Nat.log2 m + 2) / (m * 2 ^ k)
    let r := isqrt x
    let exact := r * r * (m * 2 ^ k) == 2 ^ (2 * sfBits + 2 * Nat.log2 m + 2)
    (.fin false (2 * r + (if exact then 0 else 1)) (-((e - k) / 2) - (sfBits + Nat.log2 m + 1 : Nat) - 1), exact)
  | .log2 =>
    let l := Nat.log2 m
    let int : Int := e + l
    let frac := if l <= sfBits then log2Digits 120 (m * 2 ^ (sfBits - l)) 0 else 0
    let z : Int := int * 2 ^ 120 + frac
    let exact := m == 2 ^ l
    (if exact then ofIntVal int else .fin (z < 0) (2 * z.natAbs + 1) (-121), exact)
  | .exp2 =>
    let mag := fix96 m e
    let z : Int := if neg then -(mag : Int) else mag
    let big := 1 <= Nat.log2 m + e && 12 <= Nat.log2 m + e
    if big then (if neg then .fin false 1 (-4000) else .fin false 1 4000, false)
    else
      let r := exp2Fix z
      let exact := mag % 2 ^ 96 == 0 && (0 <= e || m % 2 ^ (-e).toNat == 0)
      (.fin false (2 * r.1 + (if exact then 0 else 1)) (r.2 - 1), exact)
  | .tanh =>
    let top : Int := Nat.log2 m + e
    if top < -40 then (.fin neg (m * 2 ^ 100 - 1) (e - 100), false)
    else if 6 <= top then (.fin neg (2 ^ 100 - 1) (-100), false)
    else
      let r := exp2Fix ((2 * fix96 m e * log2e / 2 ^ 128 : Nat) : Int)
      let big : Nat := r.1 * 2 ^ (r.2 + sfBits).toNat
      let num := big - 2 ^ sfBits
      let den := big + 2 ^ sfBits
      (.fin neg (2 * (num * 2 ^ sfBits / den) + 1) (-(sfBits + 1 : Nat)), false)

/-- The F32 code of a result within 2 ulp of the exact value (R148): the correctly rounded code moved by the free
offset where the bound allows it. An ulp is that of the rounded result's binade, also where the exact result rounds up to a
power of two (DESIGN CHOICE, log 16). VSQRT is correctly rounded. -/
def sfRound (op : SfOp) (bits : Nat) (v : FVal) (exact : Bool) : Nat × Nat :=
  let t := ffmt 0
  let r := t.round 0 false v
  let mag : Nat := r.1 % 2 ^ 31
  let off : Int := clampInt (-2) 2 (Config.sfuOffset op.code (BitVec.ofNat 32 bits))
  let c : Int := (mag : Int) + off
  let inside := match v, t.val c.toNat with
    | .fin _ m e, .fin _ m' e' =>
      let ulp := t.low + ((mag / 2 ^ 23 - 1 : Nat) : Int)
      let k := min (min e e') ulp
      let d := scaled false m e k - scaled false m' e' k
      decide ((d.natAbs : Int) <= scaled false 2 ulp k)
    | _, _ => false
  let normal := 2 ^ 23 <= mag
  let moved := !exact && op != .sqrt && 0 < c && c <= (t.maxCode : Int) && mag <= t.maxCode && 0 < mag && inside &&
    normal == decide ((2 ^ 23 : Int) <= c) && (normal || op != .exp2)
  ((if moved then r.1 - mag + c.toNat else r.1), r.2 ||| (if exact then 0 else flNX))

/-- The F32 result and flags of a special function (T8.2). -/
def sfF32 (op : SfOp) (bits : Nat) (v : FVal) : Nat × Nat :=
  let t := ffmt 0
  let nan := t.nanCode
  let inf (n : Bool) := t.signed n (t.maxCode + 1)
  match op, v with
  | _, .nan s => (nan, if s then flIV else 0)
  | .exp2, .inf n => (if n then 0 else inf false, 0)
  | .log2, .inf n => if n then (nan, flIV) else (inf false, 0)
  | .rcp, .inf n => (t.signed n 0, 0)
  | .rsq, .inf n => if n then (nan, flIV) else (0, 0)
  | .sqrt, .inf n => if n then (nan, flIV) else (inf false, 0)
  | .tanh, .inf n => (t.signed n 0x3F800000, 0)
  | op, .fin n m e =>
    if m == 0 then
      match op with
      | .exp2 => (0x3F800000, 0)
      | .log2 => (inf true, flDZ)
      | .rcp => (inf n, flDZ)
      | .rsq => (inf n, flDZ)
      | .sqrt => (t.signed n 0, 0)
      | .tanh => (t.signed n 0, 0)
    else if n && (op == .log2 || op == .rsq || op == .sqrt) then (nan, flIV)
    else
      let x := sfExact op n m e
      sfRound op bits x.1 x.2

/-- A special function on an element of type 0, 1 or 2: computed in F32 and rounded once to the type. -/
def special (op : SfOp) (ty : Nat) (ftz : Bool) (x : Nat) : Nat × Nat :=
  let t := ffmt ty
  let v := t.read ftz x
  let wide := ((ffmt 0).round 0 false v).1
  let r := sfF32 op wide v
  let y := t.round 0 ftz ((ffmt 0).val r.1)
  let fl := r.2 ||| y.2
  let plain := (y.1, if op == .tanh && !ftz then fl - (fl &&& flUF)
    else if t.isSub y.1 && (fl &&& flNX) != 0 then fl ||| flUF else fl)
  match op, v with
  | .exp2, .fin n m e =>
    -- a tiny result of VEXP2 is the correctly rounded one (R400)
    let ex := (sfExact .exp2 n m e).1
    if m != 0 && ex.cmp (.fin false 1 (t.low + t.f)) < 0 then t.round 0 ftz ex else plain
  | _, _ => plain

/-! ## The matrix sum (R124) -/

/-- A chunk: the exact sum of products, -0 while every product is -0. -/
def chunkSum (ps : List (FVal × FVal)) : FVal :=
  ps.foldl (fun acc p => (acc.add (p.1.mul p.2).1).1) (.fin true 0 0)

/-- A chunk sum added to an F32 accumulator: two roundings under RNE. -/
def accAdd (acc : Nat) (sum : FVal) : Nat :=
  let t := ffmt 0
  let s := t.val (t.round 0 false sum).1
  (t.round 0 false ((t.val acc).add s).1).1
/-- One chunk of products. -/
def accStep (acc : Nat) (ps : List (FVal × FVal)) : Nat := accAdd acc (chunkSum ps)
/-- One chunk of integer products: their sum is an exact integer, whose zero is +0.0. -/
def accStepInt (acc : Nat) (ps : List (Int × Int)) : Nat := accAdd acc (ofIntVal (ps.foldl (fun z p => z + p.1 * p.2) 0))

end Sys2Proof.Machine
end

