-- ==== Sys2Proof/Machine/Ops.lean ====
section
/-! DEFINITION. The named operations over the state: reading the parts, changing them (`Upd`, `State.commit`), memory,
registers, results in flight, taking a trap (R244–R251) and returning from one (R250).

Every meaning is a list of changes applied by `State.commit`, so that what a step can do to memory is said once: only
`Upd.mem` and `Upd.zero` touch it, and they keep the canonical form. -/

namespace Sys2Proof.Machine

/-! ## Reading the state -/

def slotKey (r : Rid) (pkg slot : Nat) : SlotKey := 8192 * r + 8 * pkg + slot
def keyRid (k : SlotKey) : Rid := k / 8192
def keyPkg (k : SlotKey) : PkgId := k % 8192 / 8
def keySlot (k : SlotKey) : Nat := k % 8
def dieId (pkg phys : Nat) : DieId := 8 * pkg + phys
def diePkg (d : DieId) : PkgId := d / 8
def diePhys (d : DieId) : Nat := d % 8

def State.slot (s : State) (k : SlotKey) : Ctx := mget s.slots k .blank
def State.die (s : State) (d : DieId) : Die := mget s.dies d .blank
def State.pkg (s : State) (p : PkgId) : Pkg := mget s.pkgs p .blank
def State.node (s : State) (r : Rid) : Node := mget s.nodes r .blank
def State.req? (s : State) (i : Nat) : Option Req := s.reqs.find? fun r => r.id == i

/-- The slot that issues on the die in focus, and its context. -/
def State.curKey (s : State) : SlotKey := (s.die s.cur).run.getD 0
def State.curCtx (s : State) : Ctx := s.slot s.curKey

def Ctx.key (c : Ctx) : SlotKey := slotKey c.rid c.pkg c.slot
def Ctx.die (c : Ctx) : DieId := dieId c.pkg c.phys

/-- The tick sampled at the start of a die's cycle (R56). -/
def State.dieTick (s : State) (d : DieId) : Nat := (s.die d).tick
def State.gtc (s : State) (p : PkgId) : Nat := (s.pkg p).gtc

/-- The nodes of the tree. -/
def State.rids (s : State) : List Rid := s.nodes.map fun e => e.1
/-- The node a slot belongs to. -/
def State.nodeOf (s : State) (c : Ctx) : Node := s.node c.rid

/-! ## Changing the state -/

/-- One change of one part of the machine. -/
inductive Upd where
  | slot (k : SlotKey) (f : Ctx → Ctx)
  | die (d : DieId) (f : Die → Die)
  | pkg (p : PkgId) (f : Pkg → Pkg)
  | node (r : Rid) (f : Node → Node)
  | range (k : Nat) (v : Option Range)
  | root (k : Nat) (v : Option Word)
  | plane (k : Nat) (f : Option Plane → Option Plane)
  | barrier (k : Nat) (f : Option Barrier → Option Barrier)
  | window (k : Nat) (v : Option Window)
  | circuit (k : Nat) (f : Option Circuit → Option Circuit)
  | addReq (f : Nat → Req)
  | req (i : Nat) (f : Req → Req)
  | dropReq (i : Nat)
  | seqNo (src n : Nat)
  | hide (h : Hidden)
  | unhide (ref : Nat)
  | addTimer (t : Timer)
  | dropTimer (ev : Instr)
  | micro (l : List Instr)
  | drawn (n : Nat)
  | focus (d : DieId)
  | mem (a : Nat) (bs : List Byte)
  | zero (a n : Nat)

/-- Changes the entry of an optional map: `none` removes it. -/
def mupd {β : Type} (m : SMap β) (k : Nat) (f : Option β → Option β) : SMap β :=
  match f (mfind k m) with
  | some v => mput k v m
  | none => mdel k m

def State.apply (s : State) : Upd → State
  | .slot k f => { s with slots := mmod s.slots k .blank f }
  | .die d f => { s with dies := mmod s.dies d .blank f }
  | .pkg p f => { s with pkgs := mmod s.pkgs p .blank f }
  | .node r f => { s with nodes := mmod s.nodes r .blank f }
  | .range k v => { s with ranges := mupd s.ranges k fun _ => v }
  | .root k v => { s with roots := mupd s.roots k fun _ => v }
  | .plane k f => { s with planes := mupd s.planes k f }
  | .barrier k f => { s with barriers := mupd s.barriers k f }
  | .window k v => { s with windows := mupd s.windows k fun _ => v }
  | .circuit k f => { s with circuits := mupd s.circuits k f }
  | .addReq f => { s with reqs := s.reqs ++ [f s.nextReq], nextReq := s.nextReq + 1 }
  | .req i f => { s with reqs := s.reqs.map fun r => if r.id == i then f r else r }
  | .dropReq i => { s with reqs := s.reqs.filter fun r => r.id != i }
  | .seqNo src n => { s with seqs := mput src n s.seqs }
  | .hide h => { s with hidden := s.hidden ++ [h] }
  | .unhide ref => { s with hidden := s.hidden.filter fun h => h.ref != ref }
  | .addTimer t => { s with timers := s.timers ++ [t] }
  | .dropTimer ev => { s with timers := s.timers.filter fun t => t.ev != ev }
  | .micro l => { s with micro := l ++ s.micro }
  | .drawn n => { s with fresh := s.fresh + n }
  | .focus d => { s with cur := d }
  | .mem a bs => { s with mem := memWrite a bs s.mem }
  | .zero a n => { s with mem := memClear a n s.mem }

/-- Applies changes in order. -/
def State.commit (s : State) (us : List Upd) : State := us.foldl State.apply s

/-- Applies the changes that a rule computes from the state. -/
def State.also (s : State) (f : State → List Upd) : State := s.commit (f s)

/-! ## Flat addresses of the homes (T10.1; log 2) -/

/-- Kinds of home: bank wall, HBM, crown bank, host memory, bundle memory. -/
def homeAddr (kind pkg unit off : Nat) : Nat := ((kind * 1024 + pkg) * 8 + unit) * 2 ^ 64 + off

/-- A byte of a bank of a die: physical row, bank, byte in the line. -/
def bankAddr (d : DieId) (row bank byte : Nat) : Nat :=
  homeAddr 0 (diePkg d) (diePhys d) (row * 2 ^ 17 + bank * 64 + byte)
def bundleAddr (d : DieId) (base off : Nat) : Nat := homeAddr 4 (diePkg d) (diePhys d) (base + off)

/-- The physical row of a region row (R69). -/
def Ctx.physRow (c : Ctx) (row : Nat) : Nat := at0 c.rows row 0
/-- The flat address of a bank-space offset (R68). -/
def Ctx.bankAt (c : Ctx) (off : Nat) : Nat :=
  bankAddr c.die (c.physRow (off / 2 ^ 17)) (off / 64 % 2048) (off % 64)

/-- Where a die keeps the error of a location of an array: the words of its home stacks stand above its bank lines. -/
def errKey (arr loc : Nat) : Nat := if arr == 12 then 2 ^ 40 + loc else loc
/-- A write of a location of an array (R257): an armed injection that names it flips the stored bits, and a write of the
whole location otherwise replaces what was stored wrong (log 20). -/
def Die.wrote (arr line : Nat) (whole : Bool) (k : Die) : Die :=
  let j := mget k.inject arr .blank
  if j.ctl.getLsbD 0 && j.addr.toNat == line then
    { k with inject := mput arr { j with ctl := j.ctl &&& ~~~1#64 } k.inject,
             badLines := mput (errKey arr line) (j.ctl.getLsbD 1) k.badLines }
  else if whole then { k with badLines := mdel (errKey arr line) k.badLines }
  else k

/-- The crown banks of a package keep their errors, their log and their injection with FD0 (log 20). -/
def crownDie (p : PkgId) : DieId := dieId p 6
/-- The number of an 8-byte word of the crown banks: its fabric die, then the word. -/
def crownWord (fd off : Nat) : Nat := fd * 2 ^ 26 + off / 8
/-- The 8-byte words that `n` bytes from an offset touch. -/
def wordsAt (off n : Nat) : List Nat := (List.range ((off + n + 7) / 8 - off / 8)).map fun i => off / 8 + i
/-- A write of `n` bytes from an offset, in words of an array numbered from `base`. -/
def Die.wroteWords (arr base off n : Nat) (k : Die) : Die :=
  (wordsAt off n).foldl (fun k w => k.wrote arr (base + w) (off <= 8 * w && 8 * w + 8 <= off + n)) k
/-- Where the errors of a flat address of HBM or crown memory stand: die, array, number of the first word, offset (log 20).
The words of a die's home stacks are numbered from its first byte. -/
def errPlace (a : Nat) : Option (DieId × Nat × Nat × Nat) :=
  let home := a / 2 ^ 64
  let off := a % 2 ^ 64
  if 8192 <= home && home < 16384 then some (dieId (home / 8 % 1024) (off / 2 ^ 37), 12, 0, off % 2 ^ 37)
  else if 16384 <= home && home < 24576 then some (crownDie (home / 8 % 1024), 13, crownWord (home % 8) 0, off)
  else none
/-- Zeros are written to the whole lines or words lo … hi − 1 of an array. -/
def Die.zeroed (arr lo hi : Nat) (k : Die) : Die :=
  let k := { k with badLines := k.badLines.filter fun e => e.1 < errKey arr lo || errKey arr hi <= e.1 }
  let a := (mget k.inject arr .blank).addr.toNat
  if lo <= a && a < hi then k.wrote arr a true else k
/-- Zeros are written to `n` bytes of whole words. -/
def Die.zeroedCrown (fd off n : Nat) (k : Die) : Die := k.zeroed 13 (crownWord fd off) (crownWord fd off + n / 8)
/-- A write of bytes at a flat address, within one line, is a write of array 0, 12 or 13 where it reaches a bank, HBM or a
crown bank. -/
def writeBytes (a : Nat) (bs : List Byte) : List Upd :=
  .mem a bs ::
  (if a / 2 ^ 64 < 8192 then [.die (a / 2 ^ 64) (Die.wrote 0 (a % 2 ^ 64 / 64) (64 <= bs.length))]
   else match errPlace a with
     | some (d, arr, base, off) => [.die d (Die.wroteWords arr base off bs.length)]
     | none => [])

/-- Zeros are written to `n` bytes of whole words at a flat address of HBM. -/
def zeroBytes (a n : Nat) : List Upd :=
  .zero a n :: (match errPlace a with
    | some (d, arr, base, off) => [.die d (Die.zeroed arr (base + off / 8) (base + off / 8 + n / 8))]
    | none => [])

def State.bytes (s : State) (a n : Nat) : List Byte := memRead s.mem a n
def State.num (s : State) (a n : Nat) : Nat := ofBytes (s.bytes a n)
/-- `n` bytes of bank space of a slot; they lie in one line. -/
def State.bankBytes (s : State) (c : Ctx) (off n : Nat) : List Byte := s.bytes (c.bankAt off) n
def State.bankLine (s : State) (c : Ctx) (row bank : Nat) : Line :=
  lineOfBytes (s.bytes (bankAddr c.die (c.physRow row) bank 0) 64)
def State.bundleLine (s : State) (c : Ctx) (off : Nat) : Line :=
  lineOfBytes (s.bytes (bundleAddr c.die c.bmem off) 64)

/-! ## Registers (R92, R93, R97) -/

/-- s0 reads 0. -/
def Ctx.s (c : Ctx) (n : Nat) : Word := if n == 0 then 0 else mget c.sregs n 0
def Ctx.setS (c : Ctx) (n : Nat) (v : Word) : Ctx := if n == 0 then c else { c with sregs := mput n v c.sregs }
/-- p0 reads 1. -/
def Ctx.p (c : Ctx) (n : Nat) : Bool := if n == 0 then true else mget c.pregs n false
def Ctx.setP (c : Ctx) (n : Nat) (v : Bool) : Ctx := if n == 0 then c else { c with pregs := mput n v c.pregs }
/-- k0 reads all ones. -/
def Ctx.k (c : Ctx) (n : Nat) : Mask := if n == 0 then BitVec.allOnes 1024 else mget c.masks n 0
def Ctx.setK (c : Ctx) (n : Nat) (v : Mask) : Ctx := if n == 0 then c else { c with masks := mput n v c.masks }
/-- A vector register by physical number. -/
def Ctx.v (c : Ctx) (n : Nat) : VReg := mget c.vregs n 0
def Ctx.setV (c : Ctx) (n : Nat) (v : VReg) : Ctx := { c with vregs := mput n v c.vregs }
def Ctx.g (c : Ctx) (n : Nat) : Bool := mget c.stage n false
def Ctx.setG (c : Ctx) (n : Nat) (v : Bool) : Ctx := { c with stage := mput n v c.stage }
def Ctx.tid (c : Ctx) (n : Nat) : BitVec 512 := mget c.tids n 0
def Ctx.setTid (c : Ctx) (n : Nat) (v : BitVec 512) : Ctx := { c with tids := mput n v c.tids }
def Ctx.q (c : Ctx) (n : Nat) : Queue := mget c.queues n .blank
/-- Element (i, j) of an accumulator (R100). -/
def accIdx (a i j : Nat) : Nat := (a * 128 + i) * 128 + j
def Ctx.acc (c : Ctx) (a i j : Nat) : F32 := mget c.accs (accIdx a i j) 0
def Ctx.tag (c : Ctx) (n : Nat) : Bool := c.tags.getLsbD n

/-- The physical names of R97, with the bases of a bundle. -/
def physV (rrb n : Nat) : Nat := if n < 1024 then n else 1024 + (n - 1024 + rrb) % 512
def physG (grb n : Nat) : Nat := if n < 32 then n else 32 + (n - 32 + grb) % 32
/-- Register i of a span that starts at name n: a span that crosses v1535 continues at v1024 (R97). -/
def spanName (n i : Nat) : Nat := if n + i < 1536 then n + i else 1024 + (n + i - 1536)
def spanPhys (rrb n i : Nat) : Nat := physV rrb (spanName n i)

/-! ## Operand queues (R98) -/

def Queue.count (q : Queue) : Nat := if q.depth == 0 then 0 else (q.wp + 2 * q.depth - q.rp) % (2 * q.depth)
def Queue.head (q : Queue) : Nat := q.rp % q.depth
def Queue.tail (q : Queue) : Nat := q.wp % q.depth
def Queue.empty (q : Queue) : Bool := q.depth == 0 || q.count == 0
def Queue.full (q : Queue) : Bool := q.depth == 0 || q.count == q.depth
/-- The bank-space offset of entry e. -/
def Queue.entry (q : Queue) (e : Nat) : Nat := 512 * q.qb + 512 * e

/-! ## Results in flight (R146) -/

def Ctx.push (c : Ctx) (due ph : Nat) (eff : Effect) : Ctx :=
  { c with land := c.land ++ [{ due := due, ph := ph, seq := c.nextSeq, eff := eff }], nextSeq := c.nextSeq + 1 }
def Ctx.pushAll (c : Ctx) (l : List (Nat × Nat × Effect)) : Ctx := l.foldl (fun c e => c.push e.1 e.2.1 e.2.2) c
/-- A result of the bundle being issued, `lat` die cycles after its issue. -/
def Ctx.later (c : Ctx) (lat ph : Nat) (eff : Effect) : Ctx := c.push (c.iss.pos + lat) ph eff

/-- A progress event (R50): the count of ticks starts again. -/
def Ctx.progressed (c : Ctx) (tick : Nat) : Ctx := { c with progress := tick }

/-! ## Requests of R103 and R162 -/

/-- Load-queue entries returned in allocation order from the oldest (R106). -/
def lqReady : List LqEntry → Nat
  | [] => 0
  | e :: l => if e.st == .waiting then 0 else 1 + lqReady l

def Ctx.fillLq (c : Ctx) (i : Nat) (st : LqState) : Ctx :=
  { c with lq := c.lq.map fun e => if e.id == i then { e with st := st } else e }

/-- Records a fault against tag or batch `n` (64 + batch) while its bit is clear (R248). -/
def Ctx.recordEngine (c : Ctx) (n : Nat) (already : Bool) (f : EngFault) : Ctx :=
  if already then c else { c with engine := mput n f c.engine }
/-- An error completion of a copy (R102, R248). -/
def Ctx.tagError (c : Ctx) (tag : Nat) (f : EngFault) : Ctx :=
  { c.recordEngine tag (c.xstat.getLsbD tag) f with xstat := c.xstat ||| (1#64 <<< tag) }
def Ctx.setTag (c : Ctx) (tag : Nat) : Ctx := { c with tags := c.tags ||| (1#64 <<< tag) }
def Ctx.clearTag (c : Ctx) (tag : Nat) : Ctx := { c with tags := c.tags &&& ~~~(1#64 <<< tag) }

/-! ## Free values -/

def State.freeWord (s : State) (i : Nat) : Word := Config.freeWord (s.fresh + i)
def State.freeBytes (s : State) (n : Nat) : List Byte := (List.range n).map fun i => Config.freeByte (s.fresh + i)

/-! ## The region tree (R22, R24) -/

/-- The node that opens the fault domain of a node: a partition, or the nearest with FDOM. -/
def State.domainFrom (s : State) : Nat → Rid → Rid
  | 0, r => r
  | n + 1, r =>
    let nd := s.node r
    if nd.kind == .part || nd.fdom then r else s.domainFrom n nd.parent
def State.domainOf (s : State) (r : Rid) : Rid := s.domainFrom (s.nodes.length + 1) r

/-- Timetable regions that R51 stops with their domain: queued, held, running or pre-empted. -/
def Node.live (n : Node) : Bool := n.kind == .timetable && 1 <= n.st && n.st <= 4
def State.domainRegions (s : State) (dom : Rid) : List Rid :=
  (s.nodes.filter fun e => e.2.live && s.domainOf e.1 == dom).map fun e => e.1

/-! ## Words of an RCB (T2.1) -/

/-- The word at 0x008: ID, REASON, STATE. -/
def rcbState (r : Rid) (reason st : Nat) : List Byte := toBytes 8 (r * 2 ^ 32 + reason * 256 + st)
/-- Sets STATE and then DONE of a node, in its fields and in its RCB. -/
def setDone (s : State) (r : Rid) (reason st done : Nat) : List Upd :=
  let a := (s.node r).rcb
  .node r (fun n => { n with st := st, done := done }) ::
  (writeBytes (a + 0x008) (rcbState r reason st) ++ writeBytes (a + 0x010) (toBytes 8 done))
/-- Sets STATE alone. -/
def setState (s : State) (r : Rid) (st : Nat) : List Upd :=
  .node r (fun n => { n with st := st }) :: writeBytes ((s.node r).rcb + 0x008) (rcbState r 0 st)

/-- Raises an interrupt of T14.1 (R259). -/
def interrupt (p : PkgId) (b : Nat) : Upd := .pkg p fun k => { k with intstat := k.intstat ||| (1#64 <<< b) }

/-- A change of a field of HEALTH raises the health interrupt (R259, R265). -/
def Pkg.setHealth (k : Pkg) (f : Word → Word) : Pkg :=
  if f k.health == k.health then k else { k with health := f k.health, intstat := k.intstat ||| 8 }
/-- Bits [hi:lo] of a register replaced. -/
def setBits (hi lo v : Nat) (w : Word) : Word :=
  word (w.toNat - bits w.toNat hi lo * 2 ^ lo + v % 2 ^ (hi - lo + 1) * 2 ^ lo)

/-- A notice to the owner of a fault domain (R51): FNOTICE counts, and the fault interrupt when the host owns it. -/
def notice (s : State) (dom : Rid) : List Upd :=
  let n := s.node dom
  .node dom (fun n => { n with fnotice := n.fnotice + 1 }) :: writeBytes (n.rcb + 0x0C8) (toBytes 8 (n.fnotice + 1)) ++
  (if n.kind == .part then [interrupt (dom / 2 ^ 22) 0] else [])

/-! ## Traps (R244–R251) -/

/-- CAUSE codes of T13.1. -/
def Cause.code : Cause → Nat
  | .lateTick => 0x10 | .anchorLate => 0x11 | .queueUnderrun => 0x12 | .queueOverrun => 0x13
  | .loadQueueEmpty => 0x14 | .cuffOverrun => 0x15 | .spanOverrun => 0x16 | .waitLimit => 0x17
  | .illegalBundle => 0x20 | .illegalAnchor => 0x20 | .illegalSlot => 0x21 | .reservedField => 0x22 | .accumulatorBusy => 0x23
  | .misalignment => 0x24 | .software => 0x25
  | .translation => 0x30 | .permission => 0x31 | .space => 0x32 | .crownLost => 0x33 | .checkMismatch => 0x34
  | .lateArrival => 0x40 | .circuitDown => 0x41 | .peerUnauthenticated => 0x42
  | .planeCollision => 0x50 | .machine => 0x60 | .predecessorLate => 0x70 | .startLate => 0x71
/-- CLASS of T13.1: the high nibble of the code; but R64 puts the illegal-bundle trap of a header with A = 1 and E = 0
(`Cause.illegalAnchor`) in the timetable class, which R64 says of this trap alone (log 44). -/
def Cause.class_ : Cause → Nat
  | .illegalAnchor => 1
  | c => c.code / 16
/-- KIND of R244. -/
def TrapKind.code : TrapKind → Nat
  | .atBundle => 0 | .after => 1 | .engine => 2 | .deferred => 3

/-- A trap precise at the bundle. -/
def trapAt (slot : Nat) (cause : Cause) (addr : Nat) (detail : Nat := 0) (aux : Nat := 0) : Trap :=
  { cause := cause, kind := .atBundle, slot := slot, detail := detail, unit := 0, addr := addr, aux := aux, count := 0 }
/-- A trap with after-semantics. -/
def trapAfter (slot : Nat) (cause : Cause) (addr : Nat) (detail : Nat := 0) : Trap :=
  { trapAt slot cause addr detail with kind := .after }
/-- The trap that reports an engine fault (R248). -/
def trapEngine (slot unit : Nat) (f : EngFault) : Trap :=
  { cause := f.cause, kind := .engine, slot := slot, detail := f.detail, unit := unit, addr := f.ptr.toNat, aux := 0,
    count := 0 }

/-- FSR of a trap (T13.2). -/
def Trap.fsr (t : Trap) (rpc : Nat) (inHandler : Bool) : Word :=
  word (rpc % 2 ^ 17 * 2 ^ 47 + min t.count 127 * 2 ^ 40 + t.detail % 2 ^ 16 * 2 ^ 24 + t.slot % 8 * 2 ^ 20 +
    t.kind.code * 2 ^ 18 + t.unit % 64 * 2 ^ 12 + (if inHandler then 1 else 0) * 2 ^ 11 + t.cause.class_ * 2 ^ 8 +
    t.cause.code)

/-- FSR.IN. -/
def Ctx.inHandler (c : Ctx) : Bool := c.fsr.getLsbD 11
/-- RPC of FSR. -/
def fsrRpc (w : Word) : Nat := bits w.toNat 63 47

/-- Whether a trap's RPC is the bundle after the trapping one. -/
def TrapKind.isAfter : TrapKind → Bool
  | .atBundle => false | .after => true | .engine => true | .deferred => false
/-- The trapping bundle's offset, and the bundle that RPC names (R246). -/
def Ctx.trapPc (c : Ctx) (t : Trap) : Nat := if t.kind.isAfter then c.iss.pc else c.pc
/-- The die cycle d of R249. -/
def Ctx.trapPos (c : Ctx) (t : Trap) : Nat := if t.kind.isAfter then c.iss.pos + c.iss.idle else c.pos

/-- Handler entry (R249): FSR, FAR and PC; the handler begins a rigid span no earlier than d + 3. -/
def Ctx.enterHandler (h : Nat) (t : Trap) (c : Ctx) : Ctx :=
  { c with
    fsr := t.fsr (c.pc / 64) true
    far := word t.addr
    pc := h
    loopHeld := true
    earliest := c.trapPos t + 3
    fresh := true
    tried := 0
    wait := .blank
    pending := none }

/-- The fault record of T13.3. -/
def faultRecord (c : Ctx) (t : Trap) (tick : Nat) : List Byte :=
  toBytes 8 (t.fsr (c.pc / 64) false).toNat ++ toBytes 8 t.addr ++ toBytes 8 (c.trapPc t) ++ toBytes 8 tick ++
  toBytes 8 t.aux ++ toBytes 8 (c.phys * 2 ^ 46 + c.pkg * 2 ^ 36 + c.slot * 2 ^ 32 + c.tguard)

/-- The slots of a gang. -/
def Node.keys (n : Node) (r : Rid) : List SlotKey := n.placed.map fun p => slotKey r p.pkg p.slot

/-- A trap of kind after or engine is pending; one that is pending already stays (R245). -/
def Ctx.raise (t : Option Trap) (c : Ctx) : Ctx := { c with pending := c.pending <|> t }
/-- The pending trap that another trap of its bundle leaves standing: any but that of TRAP (R386). -/
def Ctx.firmTrap (c : Ctx) : Option Trap := c.pending.filter fun t => t.cause != .software
/-- A slot stops at a bundle boundary and its results in flight land (R251, R53). A trap that it has taken in a die cycle
before this one stays, for the order of R251. -/
def Ctx.halt (c : Ctx) : Ctx :=
  if c.mode == .halted then c else { c with mode := .halted, wait := .blank, late := [], stopPos := c.pos }
/-- A trap of kind after or engine that a slot took before it halted, and that has not been looked at. -/
def Ctx.haltTrap (c : Ctx) : Option Trap :=
  if c.mode == .halted then c.pending.filter fun t => c.trapPos t < c.stopPos else none

/-- A slot issues or waits on its die. -/
def State.onDie (s : State) (k : SlotKey) : Bool := (s.die (s.slot k).die).run == some k
/-- Stops the gang of a region (R251): a slot that runs halts as its next die cycle begins (`State.halts`), any other at
once, and the budgets are freed when its copies have completed. -/
def stopGang (s : State) (r : Rid) : List Upd :=
  (((s.node r).keys r).filter fun k => !s.onDie k).map (fun k => Upd.slot k Ctx.halt) ++
  [.node r fun n => { n with halting := true, haltAt := if n.halting then n.haltAt else s.now }]
/-- A slot of a stopped gang has come to its next bundle boundary. -/
def State.halts (s : State) (k : SlotKey) : Bool :=
  let n := s.node (keyRid k)
  n.halting && n.haltAt < s.now && (s.slot k).mode != .halted

/-- What a fault or a cancellation of a domain leaves with the launches that are queued (R51, R53): they are never started,
as `State.validate` finds. -/
def hitQueues (s : State) (h : Nat × Rid) : List Upd :=
  (s.pkgs.filter fun e => !e.2.launchQ.isEmpty).map fun e =>
    .pkg e.1 fun k => { k with launchQ := k.launchQ.map fun l => { l with hits := l.hits ++ [h] } }
/-- STATE 6 and DONE 2 for the regions of a domain, whose gangs stop (R51). -/
def stopDomain (s : State) (dom : Rid) : List Upd :=
  (s.domainRegions dom).flatMap (fun r => stopGang s r ++ setDone s r 0 6 2) ++ hitQueues s (0, dom)

/-- The tick of the die cycle d in which a trap is taken (R247, R249), looked at in a cycle of tick `now`. -/
def Ctx.trapTick (c : Ctx) (t : Trap) (now : Nat) : Nat :=
  if t.kind.isAfter && c.iss.idle == 0 then c.iss.tick else now
/-- The order of unhandled traps (R251): TICK, package, die slot. -/
def earlierTrap (tick pkg slot : Nat) : Option (Trap × Nat × Nat × Nat) → Bool
  | none => true
  | some (_, t, p, q) => tick < t || (tick == t && (pkg < p || (pkg == p && slot < q)))
/-- An unhandled fault of a slot (R251, R51): the record of the earliest one, the slot's halt, and, unless the gang is
stopping already, a notice and the stop of its fault domain. A slot that has halted may still have such a fault from the
die cycles before. -/
def unhandled (s : State) (k : SlotKey) (t : Trap) : List Upd :=
  let c := s.slot k
  let n := s.node c.rid
  let tick := c.trapTick t (s.dieTick c.die)
  let dom := s.domainOf c.rid
  (if !n.cancel && earlierTrap tick c.pkg c.slot n.fault then
    .node c.rid (fun n => { n with fault := some (t, tick, c.pkg, c.slot) }) ::
    writeBytes (n.rcb + 0x0D0) (faultRecord c t tick)
   else []) ++
  .slot k Ctx.halt :: (if n.halting then [] else stopDomain s dom ++ notice s dom)
/-- A slot has a handler for its traps, and none runs (R251). -/
def State.handles (s : State) (k : SlotKey) : Bool := (s.node (keyRid k)).handler.isSome && !(s.slot k).inHandler
/-- The trap that a halted slot took before it halted counts for the record of R251, unless it was handled. -/
def haltedUpds (s : State) (k : SlotKey) : List Upd :=
  match (s.slot k).haltTrap with
  | some t => .slot k (fun c => { c with pending := none }) :: (if s.handles k then [] else unhandled s k t)
  | none => []

/-- Takes a trap (R249, R251): handler entry, or the stop of the gang. -/
def takeTrap (s : State) (k : SlotKey) (t : Trap) : List Upd :=
  match (s.node (keyRid k)).handler, (s.slot k).inHandler with
  | some h, false => [.slot k (Ctx.enterHandler h t)]
  | _, _ => unhandled s k t

/-- The offset of a loop's exit bundle (R157). -/
def Loop.exit (l : Loop) : Nat := l.pc + 64 * l.body.length
/-- A loop that has been checked and has no passes. -/
def Loop.void (l : Loop) : Bool := l.ready && l.total == 0
/-- The return from a trap (R250): IN cleared, PC from RPC, no earlier than 3 die cycles after the bundle and its IDLE;
the loop state resumes if RPC still names its bundle, and is discarded otherwise. A loop without passes proceeds to its
exit (R157). -/
def Ctx.leaveHandler (c : Ctx) : Ctx :=
  let pc := fsrRpc c.fsr * 64
  let loop := c.loop.filter fun l => l.pc + 64 * l.at_ == pc
  { c with
    fsr := c.fsr &&& ~~~(1#64 <<< 11)
    pc := ((loop.filter Loop.void).map Loop.exit).getD pc
    earliest := c.iss.pos + c.iss.idle + 3
    fresh := true
    loopHeld := false
    loop := loop.filter fun l => !l.void }

/-- An event without effect: its condition does not hold. -/
def State.same (s : State) : Host.Outcome State Fault Refusal := .next s
/-- A step by changes. -/
def State.by_ (s : State) (us : List Upd) : Host.Outcome State Fault Refusal := .next (s.commit us)

end Sys2Proof.Machine
end

