-- ==== Sys2Proof/Machine/Operands.lean ====
section
/-! DEFINITION. Operand forms of the slots (R92–R97, R277, R278, R292), and the die cycles' phases in which results
land. -/

namespace Sys2Proof.Machine

/-! ## Phases of a die cycle: what lands before what (R71, R86, R101, R118, R157) -/

/-- System registers, tensor identifiers, route entries and solver slots: they serve the cycle they are written in. -/
def phSys : Nat := 0
/-- Route entries that C1 replaces: they prevail over C0's of the same cycle (R324). -/
def phSysLate : Nat := 5
/-- Register, mask and predicate results, flags. -/
def phReg : Nat := 10
/-- Bank reads, which see the start of the cycle. -/
def phRead : Nat := 20
/-- Writes of the spine lane, of the S-slot lane, of the W port. -/
def phSpine : Nat := 30
def phSlotWrite : Nat := 40
def phPort : Nat := 50
/-- Everything else of the cycle. -/
def phOther : Nat := 60
/-- Loop deltas, after every write of the cycle (R157). -/
def phDelta : Nat := 80

end Sys2Proof.Machine

namespace Sys2Proof
open Sys2Proof.Machine

/-! ## S slot -/

/-- The instruction executes when p(PG) xor PN is 1 (R277). -/
def SF.on (f : SF) (c : Ctx) : Bool := c.p f.pg.toNat != f.pn.getLsbD 0

/-- Operand A. -/
def SF.av (f : SF) (c : Ctx) : Word := c.s f.a.toNat
/-- IMM21 sign-extended. -/
def SF.simm (f : SF) : Word := f.imm.signExtend 64
/-- Operand b of T16.1. -/
def SF.bv (f : SF) (c : Ctx) : Word :=
  if f.fm == 0 then c.s f.b.toNat else if f.fm == 1 then f.simm else f.long.getD 0
/-- The C register of FM 00. -/
def SF.cv (f : SF) (c : Ctx) : Word := c.s (f.imm.toNat % 64)

/-! ## V slots -/

/-- The slot number of a V slot: 0 V0, 1 V1. -/
def VF.vslot (f : VF) : Nat := if f.v1 then 1 else 0
/-- FSR.SLOT of a V slot. -/
def VF.fslot (f : VF) : Nat := if f.v1 then 2 else 1

end Sys2Proof

namespace Sys2Proof.Machine

/-- Changes the running slot of the die in focus. -/
def State.onSlot (s : State) (f : Ctx → Ctx) : Host.Outcome State Fault Refusal := s.by_ [.slot s.curKey f]

/-- An S-slot instruction that writes sD at issue + lat, unless its predicate is false (R277, R284). -/
def scalarOp (f : SF) (lat : Nat) (v : Ctx → Word) (s : State) : Host.Outcome State Fault Refusal :=
  s.onSlot fun c => if f.on c then c.later lat phReg (.scalar f.d.toNat (v c)) else c

/-- An S-slot instruction that writes p(D) at issue + 1. -/
def predOp (f : SF) (v : Ctx → Bool) (s : State) : Host.Outcome State Fault Refusal :=
  s.onSlot fun c => if f.on c then c.later 1 phReg (.pred f.d.toNat (v c)) else c

/-! ## V slots -/

/-- An operand names a queue (R278). -/
def isQ (n : Nat) : Bool := 1536 <= n
/-- The registers of a span, as they stand, under the names of a bundle. -/
def Ctx.vspan (c : Ctx) (rrb n count : Nat) : List VReg :=
  (List.range count).map fun i => c.v (spanPhys rrb n i)
/-- The long immediate's low bits in every element (R274). -/
def splat (w : Nat) (x : Word) : VReg := ofElems 4096 w (List.replicate (4096 / w) x.toNat)
/-- Elements of a list of registers at width w (R96, R108). -/
def elemsOf (w : Nat) (l : List VReg) : List Nat :=
  l.flatMap fun v => (List.range (4096 / w)).map fun e => elem v w e
/-- Registers from elements at width w. -/
def regsOf (w : Nat) : Nat → List Nat → List VReg
  | 0, _ => []
  | n + 1, l => ofElems 4096 w (l.take (4096 / w)) :: regsOf w n (l.drop (4096 / w))
/-- The bits of register i of a span that a mask enables at element width w (R96). -/
def enables (w : Nat) (m : Mask) (i : Nat) : VReg :=
  let e := 4096 / w
  ofElems 4096 w ((List.range e).map fun j => if m.getLsbD ((i * e + j) % 1024) then 2 ^ w - 1 else 0)
/-- Mask bit of element e (R96). -/
def maskBit (m : Mask) (e : Nat) : Bool := m.getLsbD (e % 1024)

/-! ## Pointers (R6, T9.1) -/

/-- The space of a pointer, bits [63:60]. -/
def spaceOf (p : Word) : Nat := bits p.toNat 63 60

end Sys2Proof.Machine
end

