-- ==== Sys2Proof/Machine/Flags.lean ====
section
/-! DEFINITION. The status bits that instructions set or read: VFLAGS (R118, R119) and the conditions of CMP (T16.8). -/

namespace Sys2Proof.Machine

/-- FTZ. -/
def Ctx.ftz (c : Ctx) : Bool := c.vflags.getLsbD 8
/-- Flags of results that land are ORed onto VFLAGS. -/
def Ctx.mergeFlags (c : Ctx) (fl : Nat) : Ctx := { c with vflags := c.vflags ||| word (fl % 64) }

/-- The conditions of T16.8. -/
def cmpCond (cond : Nat) (a b : Word) : Bool :=
  match cond with
  | 0 => a == b
  | 1 => a != b
  | 2 => BitVec.slt a b
  | 3 => BitVec.sle a b
  | 4 => BitVec.slt b a
  | 5 => BitVec.sle b a
  | 6 => BitVec.ult a b
  | 7 => BitVec.ule a b
  | 8 => BitVec.ult b a
  | _ => BitVec.ule b a

/-- A scalar sum, difference or product with the SAT and UNS bits of MOD (R294, R352, R379). -/
def satScalar (f : SF) (op : Int → Int → Int) (a b : Word) : Word :=
  if f.mod == 3 then word (clampInt 0 (2 ^ 64 - 1) (op a.toNat b.toNat)).toNat
  else if f.mod == 1 then wordI (clampInt (-(2 ^ 63)) (2 ^ 63 - 1) (op a.toInt b.toInt))
  else wordI (op a.toInt b.toInt)

end Sys2Proof.Machine

namespace Sys2Proof

/-- UNS of MOD. -/
def SF.uns (f : SF) : Bool := f.mod.getLsbD 1

end Sys2Proof
end

