-- ==== Sys2Proof/Machine/Access.lean ====
section
/-! DEFINITION. How an access reaches its home: pointers (R159), translation (R163–R168), crown memory (R199, R200),
paths (R222, R223, R226, R237), the homes of bytes (R182), and the
error log (R74, R256). -/

namespace Sys2Proof.Machine

/-! ## Pointers (T9.1) -/

/-- POL of a pointer. -/
def polOf (p : Word) : Nat := if spaceOf p == 4 then bits p.toNat 59 58 else bits p.toNat 55 54
/-- The offset of a pointer: 48 bits in space 0x4, else 54. -/
def offsetBits (p : Word) : Nat := if spaceOf p == 4 then p.toNat % 2 ^ 48 else p.toNat % 2 ^ 54
/-- The package number of a space-0x4 pointer, and of a crown pointer (T11.1). -/
def ptrPkg (p : Word) : Nat := if spaceOf p == 3 then bits p.toNat 53 44 else bits p.toNat 57 48
/-- SLOT or HINT. -/
def ptrSlot (p : Word) : Nat := bits p.toNat 59 56
/-- A pointer moved by bytes. -/
def ptrAdd (p : Word) (n : Nat) : Word := p + word n

/-- The space check of R159, for a region of `slots` die slots. -/
def ptrOk (slots : Nat) (p : Word) : Bool :=
  polOf p != 3 &&
  match spaceOf p with
  | 0 => ptrSlot p == 0
  | 1 => ptrSlot p < slots
  | 2 => ptrSlot p < 6 || ptrSlot p == 15
  | 3 => ptrSlot p == 0 && bits p.toNat 43 30 == 0
  | 4 => true
  | 5 => ptrSlot p == 0
  | _ => false

/-- A pointer without POL and HINT, which name the same bytes (R160). -/
def ptrPlain (p : Word) : Nat :=
  match spaceOf p with
  | 1 => p.toNat / 2 ^ 56 * 2 ^ 56 + p.toNat % 2 ^ 54
  | 3 => 3 * 2 ^ 60 + p.toNat % 2 ^ 54
  | 4 => 4 * 2 ^ 60 + p.toNat % 2 ^ 58
  | n => n * 2 ^ 60 + p.toNat % 2 ^ 54

/-! ## Parties -/

/-- The party of an access: a slot of a region, on a die; `src` is 0 sequencer, 1 C0, 2 C1 (R212). `way` is the path that
the access's packet took at its injection, if it has been injected (R223). -/
structure Party where
  key  : SlotKey
  die  : DieId
  part : Nat
  src  : Nat
  way  : Option (List (PkgId × Nat × Nat × PkgId)) := none
  issued : Option Nat := none   -- the tick at which its access or operation issued
  deriving DecidableEq, Repr

/-- What an access does to its bytes (R167). -/
inductive Need where
  | read | write | atomic
  deriving DecidableEq, Repr

def State.party (s : State) (k : SlotKey) (src : Nat) : Party :=
  { key := k, die := (s.slot k).die, part := (s.node (keyRid k)).part, src := src }

/-- Where the bytes of an access are, or why not. -/
inductive Reach where
  | ready (a : Nat) (mirror : Option Nat)
  | fault (c : Cause)
  | wait
  | walk (d : DieId) (space page : Nat)
  deriving DecidableEq, Repr

/-! ## Translation -/

def Range.valid (r : Range) : Bool := r.w3.getLsbD 7
def Range.spc (r : Range) : Nat := bits r.w3.toNat 6 5
def Range.vbase (r : Range) : Nat := bits r.w0.toNat 53 12
def Range.vlast (r : Range) : Nat := bits r.w1.toNat 53 12
def Range.pbase (r : Range) : Nat := bits r.w2.toNat 51 12
/-- RD, W and A as bits 0, 1, 2. -/
def Range.perm (r : Range) : Nat := bits r.w3.toNat 4 2

/-- A permission set allows an access (R167). -/
def permits (perm : Nat) : Need → Bool
  | .read => bit perm 0
  | .write => bit perm 1
  | .atomic => bit perm 0 && bit perm 1 && bit perm 2

/-- The range entry that matches an offset: the lowest-numbered one (R164). -/
def State.range? (s : State) (part pkg space off : Nat) : Option Range :=
  let base := (1024 * part + pkg) * 256
  let page := off / 4096
  (s.ranges.find? fun e =>
    base <= e.1 && e.1 < base + 256 && e.2.valid && e.2.spc == space && e.2.vbase <= page && page <= e.2.vlast).map
    fun e => e.2

/-- A device physical address names an existing stack (R163). -/
def devOk (pa : Nat) : Bool := pa < 2 ^ 40 && pa / 2 ^ 36 < 12
/-- Flat address of a device physical address of a package. -/
def devAddr (pkg pa : Nat) : Nat := homeAddr 1 pkg 0 pa
def hostAddr (pkg pa : Nat) : Nat := homeAddr 3 pkg 0 pa

/-- The leaf page size at a level (T9.5), and with CONT. -/
def pageSize (level : Nat) (cont : Bool) : Nat :=
  match level, cont with
  | 1, false => 2 ^ 30
  | 1, true => 2 ^ 34
  | 2, _ => 2 ^ 21
  | _, false => 2 ^ 12
  | _, true => 2 ^ 16

/-- What an entry says at a level of a walk. -/
inductive WalkStep where
  | fault
  | leaf (addr size perm : Nat)
  | next (table perm : Nat)
  deriving DecidableEq, Repr
/-- The entry of an offset in a table at a level (R165, R166). CONT of an entry of level 1 that names a table and is not the
first of its group counts for nothing, as R166's last sentence has it, where the first entry's CONT is 0; the bullet on CONT
would make it a fault (DESIGN CHOICE, log 18). -/
def walkStep (s : State) (pkg off level table : Nat) : WalkStep :=
  let idx := off / 2 ^ (39 - 9 * level) % 512
  let pte := fun i => s.num (devAddr pkg (table + 8 * i)) 8
  let first := pte (idx / 16 * 16)
  let group := (level == 1 || level == 3) && bit first 5
  let e := if group then first else pte idx
  let cont := group || (level != 1 && level != 3 && bit e 5)
  let leaf := bit e 1
  let addr := bits e 51 12 * 4096
  if !devOk table || !bit e 0 || bits e 63 52 != 0 || bits e 11 6 != 0 then .fault
  else if leaf then
    let size := pageSize level group
    if level == 0 || (level == 2 && cont) || addr % size != 0 then .fault else .leaf addr size (bits e 4 2)
  else if level == 3 || cont then .fault
  else .next addr (bits e 4 2)
/-- A page walk from a table (R165, R166): base of the page, size, permissions; `none` is a translation fault. `n` levels
remain. -/
def walkFrom (s : State) (pkg off : Nat) : Nat → Nat → Nat → Option (Nat × Nat × Nat)
  | 0, _, _ => none
  | n + 1, table, perm =>
    match walkStep s pkg off (3 - n) table with
    | .fault => none
    | .leaf addr size q => some (addr, size, perm &&& q)
    | .next t q => walkFrom s pkg off n t (perm &&& q)
/-- The tables that the walk reads, in order. -/
def walkTables (s : State) (pkg off : Nat) : Nat → Nat → List Nat
  | 0, _ => []
  | n + 1, table =>
    table :: match walkStep s pkg off (3 - n) table with
      | .next t _ => walkTables s pkg off n t
      | _ => []

/-- The root table of a partition in a package and space. -/
def State.rootTable (s : State) (part pkg space : Nat) : Option Nat :=
  (mfind ((1024 * part + pkg) * 2 + space) s.roots).map fun r => r.toNat / 4096 * 4096
/-- The walk of an offset in a partition's tables: physical base, size, permissions. -/
def State.walkNow (s : State) (part pkg space off : Nat) : Option (Nat × Nat × Nat) :=
  if off / 2 ^ 48 != 0 then none else (s.rootTable part pkg space).bind fun t => walkFrom s pkg off 4 t 7
/-- The stacks whose tables the walk of an offset reads. -/
def State.walkStacks (s : State) (part pkg space off : Nat) : List Nat :=
  match s.rootTable part pkg space with
  | some t => (walkTables s pkg off 4 t).map fun x => x / 2 ^ 36
  | none => []

/-- A translation: physical address and permissions, a fault, or a miss. -/
inductive Trans where
  | ok (pa perm : Nat)
  | fault
  | miss
  deriving DecidableEq, Repr

/-- A physical address of a space: device addresses are checked (R163). -/
def transOk (space pa perm : Nat) : Trans := if space == 1 || devOk pa then .ok pa perm else .fault

/-- Translation by range entries, then the translation cache of a die (R164, R165, R168). -/
def State.translate (s : State) (d : DieId) (part pkg space off : Nat) : Trans :=
  match s.range? part pkg space off with
  | some r => transOk space (r.pbase * 4096 + (off - r.vbase * 4096)) r.perm
  | none =>
    if off / 2 ^ 48 != 0 then .fault
    else
      match (s.die d).tcache.find? fun e =>
        e.part == part && e.space == space && e.vbase <= off && off < e.vbase + e.size with
      | some e => transOk space (e.pbase + (off - e.vbase)) e.perm.toNat
      | none => .miss

/-- The translation that the Milliner and the host's window use at once (R30, R258): no permission bit limits it. -/
def State.translateNow (s : State) (part pkg space off : Nat) : Option Nat :=
  match s.range? part pkg space off with
  | some r => let pa := r.pbase * 4096 + (off - r.vbase * 4096); if space == 1 || devOk pa then some pa else none
  | none =>
    if (s.walkStacks part pkg space off).any (s.pkg pkg).hbmOut.getLsbD then none
    else (s.walkNow part pkg space off).bind fun w =>
      let pa := w.1 + off % w.2.1; if space == 1 || devOk pa then some pa else none

/-! ## Paths (R222, R223, R226, R237) -/

/-- Row and column of a package (R18). -/
def rowOf (p : PkgId) : Nat := p / 32
def colOf (p : PkgId) : Nat := p % 32

/-- A link of a package: port 0 row, 1 column; n the position. -/
def State.link (s : State) (p port n : Nat) : Link := mget (s.pkg p).links (32 * port + n) .blank

/-- A hop: sending package, port, position, next package. -/
abbrev Hop := PkgId × Nat × Nat × PkgId
/-- The position of a hop's link at its next package, and the state of that end. -/
def farPos (h : Hop) : Nat := if h.2.1 == 0 then colOf h.1 else rowOf h.1
def State.farEnd (s : State) (h : Hop) : Nat := (s.link h.2.2.2 h.2.1 (farPos h)).state
/-- The hops of the minimal path (R222). -/
def hops (p q : PkgId) : List Hop :=
  (if colOf p == colOf q then [] else [(p, 0, colOf q, 32 * rowOf p + colOf q)]) ++
  (if rowOf p == rowOf q then [] else [(32 * rowOf p + colOf q, 1, rowOf q, q)])

/-- The fabric die at which the packets of a package are injected and its router merges: FD0 while it is in service (log
27). -/
def Pkg.router (k : Pkg) : Nat := if k.fdFailed.getLsbD 0 then 7 else 6
/-- The place of an entry in a copy of the routing tables: fabric die, destination (R224). -/
def routeKey (phys : Nat) (q : PkgId) : Nat := 1024 * (phys - 6) + q
/-- The routing entry that new packets of a package use for a destination: bits [9:0] the detour intermediate, [10]
a detour is named, [42:11] link enables, [43] the first-hop port is not the one of the minimal path; an entry never written
enables every link and names no detour (log 6). -/
def Pkg.routeTo (k : Pkg) (q : PkgId) : Nat :=
  mget (if k.version then k.table1 else k.table0) (routeKey k.router q) ((2 ^ 32 - 1) * 2 ^ 11)

/-- A fabric die of the package routes (R13), and its optical ports are in service (R263). -/
def Pkg.routes (k : Pkg) : Bool := k.present && k.fdFailed != 3 && !k.minimal
/-- The state of a hop's link: that of its sending end, and where that one is up that of the other (R226: both peers
authenticate, and a link that one of them has down or in quarantine carries nothing); a hop to a package that routes nothing
carries nothing. -/
def State.hopState (s : State) (h : Hop) : Nat :=
  let near := (s.link h.1 h.2.1 h.2.2.1).state
  if !(s.pkg h.2.2.2).routes then 0 else if near == 3 then s.farEnd h else near
/-- A hop that carries traffic. -/
def State.hopUp (s : State) (h : Hop) : Bool := s.hopState h == 3
/-- Packets that have been injected into a link and are not acknowledged. -/
def State.egress (s : State) (h : Hop) : Nat :=
  (s.reqs.filter fun r => r.way.any fun w => w.head? == some h).length +
  (s.hidden.filter fun x => x.way.any fun w => w.head? == some h).length
/-- The egress queue of a link exceeds the threshold that the driver has set (R223). -/
def State.crowded (s : State) (h : Hop) : Bool :=
  let e := (s.link h.1 h.2.1 h.2.2.1).egress
  e != 0 && e < s.egress h

/-- The detour of R223: the first hop replaced by two of its dimension through the intermediate package, where the entry
enables its first link (R224). -/
def State.detour (s : State) (p q : PkgId) : Option (List Hop) :=
  let e := (s.pkg p).routeTo q
  match hops p q with
  | (_, port, n, m) :: rest =>
    let i := e % 1024
    let first := if port == 0 then colOf i else rowOf i
    if bit e 10 && bit e (11 + first) && i != p && i != m && (if port == 0 then rowOf i == rowOf p else colOf i == colOf p) then
      some ((p, port, first, i) :: (i, port, n, m) :: rest)
    else none
  | [] => none

/-- Whether traffic is carried, held for a link, listed at the end that is not up, or cut off. -/
inductive Path where
  | carried
  | held (p port n : Nat)
  | cut
  deriving DecidableEq, Repr

/-- What becomes of traffic on a list of hops (T12.1): the first link that is not up decides. -/
def State.along (s : State) (way : List Hop) : Path :=
  match way.find? fun h => !s.hopUp h with
  | none => .carried
  | some h =>
    if s.hopState h == 1 || s.hopState h == 2 then
      if (s.link h.1 h.2.1 h.2.2.1).state == 3 then .held h.2.2.2 h.2.1 (farPos h) else .held h.1 h.2.1 h.2.2.1
    else .cut
/-- The routing entry of a destination carries the minimal path's first hop. -/
def Pkg.takes (k : Pkg) (q : PkgId) (h : Hop) : Bool := bit (k.routeTo q) (11 + h.2.2.1) && !bit (k.routeTo q) 43
/-- The hops that a new packet takes (R223): the minimal path, or, when its first link is not up or is crowded, a detour
that is not cut off. -/
def State.wayOf (s : State) (p q : PkgId) : List Hop :=
  let direct := hops p q
  match direct with
  | [] => []
  | h :: _ =>
    if (s.pkg p).takes q h && s.hopUp h && !s.crowded h then direct
    else match s.detour p q with
      | some l => if s.along l == .cut then direct else l
      | none => direct
def State.path (s : State) (p q : PkgId) : Path :=
  if p == q then .carried
  else if !(s.pkg q).present || (s.pkg p).minimal || (s.pkg q).minimal then .cut
  else
    let way := s.wayOf p q
    if way == hops p q && !(way.head?.all ((s.pkg p).takes q)) then .cut else s.along way
/-- A message to a package and its answer: the first of the two paths that is not carried decides (R222). -/
def State.roundTrip (s : State) (p q : PkgId) : Path :=
  match s.path p q with
  | .carried => s.path q p
  | h => h
/-- The path of a party's access: the one fixed at injection, or the one that a new packet takes. -/
def State.pathOf (s : State) (pt : Party) (q : PkgId) : Path :=
  match pt.way with
  | some w => s.along w
  | none => s.path (diePkg pt.die) q

/-- The photonic circuit between two dies of a package carries an access that issued at a tick, or a new one: it is up, or
it is being torn down and waits for the accesses issued before (R237). -/
def State.connected (s : State) (p src dst : Nat) (issued : Option Nat := none) : Bool :=
  let c := mget (s.pkg p).conns (8 * src + dst) .blank
  src == dst || c.state == 2 || (c.state == 3 && issued.any fun t => t <= c.since)
/-- A pair of dies is connected both ways: for a request and for its answer (R12, R237). -/
def State.linked (s : State) (p a b : Nat) (issued : Option Nat := none) : Bool :=
  s.connected p a b issued && s.connected p b a issued
/-- Accesses that go by the optics: between a die and either fabric die in service (R13). -/
def State.portLinked (s : State) (p a : Nat) (issued : Option Nat := none) : Bool :=
  [6, 7].any fun f => s.linked p a f issued && !(s.pkg p).fdFailed.getLsbD (f - 6)
/-- A compute die reaches an optical port through either fabric die in service (R13). -/
def State.toPort (s : State) (p src : Nat) (issued : Option Nat := none) : Bool :=
  (s.connected p src 6 issued && !(s.pkg p).fdFailed.getLsbD 0) ||
  (s.connected p src 7 issued && !(s.pkg p).fdFailed.getLsbD 1)

/-! ## Homes -/

/-- The number of a bank-wall line: physical row × 2,048 + bank (T13.5). -/
def Ctx.lineNo (c : Ctx) (row bank : Nat) : Nat := 2048 * c.physRow row + bank
/-- A read of a line meets an uncorrectable error (R74, R257), or the bank has no spare left (R266). -/
def Die.lineBad (k : Die) (line : Nat) (reads : Bool) : Bool :=
  k.dead.contains (line % 2048) || (reads && mget k.badLines line false)

/-- An offset of bank space: its fault, under the row budget of a region (R68), or the flat address in a slot.
`whole` says that the access writes the whole line, so that it reads nothing. -/
def State.bankReach (s : State) (c : Ctx) (off : Nat) (whole : Bool := false) : Reach :=
  if off / 2 ^ 28 != 0 then .fault .space
  else if (s.node c.rid).brows <= off / 2 ^ 17 then .fault .permission
  else if (s.die c.die).lineBad (c.lineNo (off / 2 ^ 17) (off / 64 % 2048)) (!whole) then .fault .machine
  else .ready (c.bankAt off) none

/-- The allocation that holds a crown byte of a partition (R200). -/
def State.alloc? (s : State) (part pkg fd off : Nat) : Option Alloc :=
  (mget (s.pkg pkg).allocs fd []).find? fun a =>
    a.part == part && a.isMirror == none && a.bank <= off / 65536 && off / 65536 < a.bank + a.units

/-- A crown access (R199, R200, R207, R208); `reads` says that it reads what is stored. -/
def State.crownReach (s : State) (part : Nat) (from_ : PkgId) (p : Word) (reads : Bool := false) : Reach :=
  let q := ptrPkg p
  let fd := if p.getLsbD 29 then 1 else 0
  let off := p.toNat % 2 ^ 29
  let k := s.pkg q
  if !k.present || (s.pkg from_).minimal || k.minimal then .fault .permission
  else
    match s.alloc? part q fd off with
    | none => .fault .permission
    | some a =>
      if a.lost then .fault .crownLost
      else if a.failing.any fun f => (s.pkg f).failover.getLsbD fd then .wait
      else if reads && mget (s.die (crownDie a.home)).badLines (crownWord fd off) false then .fault .machine
      else .ready (homeAddr 2 a.home fd off) (a.mirror.map fun m => homeAddr 2 m fd off)

/-- Waits that end in a circuit-down fault when the circuit or the path is cut. -/
def pathThen (pth : Path) (up : Bool) (r : Reach) : Reach :=
  match pth with
  | .cut => .fault .circuitDown
  | .held _ _ _ => .wait
  | .carried => if up then r else .wait

/-- Device memory of package q, for an access of package p. An access from another package is translated by the cache and
the walkers of die 0 there: the spec does not say whose (DESIGN CHOICE, log 18). -/
def State.devReach (s : State) (pt : Party) (q : PkgId) (off : Nat) (need : Need) : Reach :=
  let p := diePkg pt.die
  let local_ := p == q
  let cacheDie := if local_ then pt.die else dieId q 0
  let pth := s.pathOf pt q
  match s.translate cacheDie pt.part q 0 off with
  | .fault => pathThen pth true (.fault .translation)
  | .miss => pathThen pth true (.walk cacheDie 0 (off / 4096))
  | .ok pa perm =>
    let homeDie := pa / 2 ^ 36 / 2
    let up := if local_ then s.linked p (diePhys pt.die) homeDie pt.issued
      else s.portLinked p (diePhys pt.die) pt.issued && s.portLinked q homeDie pt.issued
    pathThen pth up
      (if !permits perm need then .fault .permission
       else if (s.pkg q).hbmOut.getLsbD (pa / 2 ^ 36) then .fault .machine
       else .ready (devAddr q pa) none)

/-- Where the byte at a pointer is (T10.1), for bytes that do not cross a line. -/
def State.reach (s : State) (pt : Party) (ptr : Word) (need : Need) (whole : Bool := false) : Reach :=
  let p := diePkg pt.die
  let me := diePhys pt.die
  let off := offsetBits ptr
  match spaceOf ptr with
  | 0 => s.bankReach (s.slot pt.key) off whole
  | 1 =>
    let c := s.slot (slotKey (keyRid pt.key) (keyPkg pt.key) (ptrSlot ptr))
    pathThen .carried (s.linked p me c.phys pt.issued) (s.bankReach c off whole)
  | 2 => s.devReach pt p off need
  | 3 =>
    match s.crownReach pt.part p ptr (need != .write) with
    | .ready a m =>
      let q := a / 2 ^ 64 / 8 % 1024
      if p == q then pathThen .carried (s.linked p me (if ptr.getLsbD 29 then 7 else 6) pt.issued) (.ready a m)
      else pathThen (s.pathOf pt q) (s.portLinked p me pt.issued) (.ready a m)
    | r => r
  | 4 => s.devReach pt (ptrPkg ptr) off need
  | _ =>
    match s.translate pt.die pt.part p 1 off with
    | .fault => .fault .translation
    | .miss => .walk pt.die 1 (off / 4096)
    | .ok pa perm =>
      pathThen .carried (s.linked p me 7 pt.issued)
        (if !permits perm need then .fault .permission else .ready (hostAddr p pa) none)

/-! ## Error logs (R74, R256) -/

/-- Records an error of an array. -/
def ErrLog.add (l : ErrLog) (addr : Nat) (ue : Bool) (synd : Nat) (ctx : Nat) : ErrLog :=
  let keep := l.valid && (!ue || l.synd.getLsbD 16)
  { addr := if keep then l.addr else word addr
    synd := if keep then l.synd else word ((if ue then 2 ^ 16 else 0) + synd % 2 ^ 16)
    ctx := if keep then l.ctx else word ctx
    ce := if ue then l.ce else min (l.ce + 1) (2 ^ 32 - 1)
    uec := if ue then min (l.uec + 1) 65535 else l.uec
    ovf := l.ovf || l.valid
    valid := true }

/-- A read of a line whose stored bits are wrong is logged with the slot and region that met it; the syndrome is a free
value (log 20). -/
def eccLog (s : State) (c : Ctx) (d : DieId) (arr line : Nat) : List Upd :=
  match mfind (errKey arr line) (s.die d).badLines with
  | some ue =>
    let ctx := c.slot * 2 ^ 32 + c.rid % 2 ^ 32
    let add := fun (l : ErrLog) => l.add line ue (s.freeWord 0).toNat ctx
    [.die d (fun k => { k with logs := mmod k.logs arr .blank add }), .drawn 1]
  | none => []
/-- Where a die keeps the error of a location of an array whose coding the spec does not give: above its lines and words. -/
def otherKey (arr : Nat) (loc : Word) : Nat := (arr + 1) * 2 ^ 64 + loc.toNat
/-- What a die cycle brings to the arrays of R256 other than the bank wall, HBM and crown memory. The spec does not say how
INJADDR names a location of them, so whether a write of this die cycle meets an armed injection, and whether a read or a
whole write meets a location that is stored wrong, are free values (log 20). A write that does stores wrong bits and clears
ARM, a read logs the error (R257). -/
def State.arrayErrors (s : State) (d : DieId) : List Upd :=
  let k := s.die d
  let armed := k.inject.filter fun e => e.2.ctl.getLsbD 0 && !([0, 12, 13].contains e.1)
  let bad := k.badLines.filter fun e => 2 ^ 64 <= e.1
  if armed.isEmpty && bad.isEmpty then []
  else
    let ctx := match k.run with
      | some j => (s.slot j).slot * 2 ^ 32 + (s.slot j).rid % 2 ^ 32
      | none => 0
    let hit := fun (e : Nat × Inject) (k : Die) =>
      { k with inject := mput e.1 { e.2 with ctl := e.2.ctl &&& ~~~1#64 } k.inject,
               badLines := mput (otherKey e.1 e.2.addr) (e.2.ctl.getLsbD 1) k.badLines }
    let log := fun (e : Nat × Bool) (w : Word) (k : Die) =>
      let add := fun (l : ErrLog) => l.add (e.1 % 2 ^ 64) e.2 (w.toNat / 2 ^ 16) ctx
      { k with logs := mmod k.logs (e.1 / 2 ^ 64 - 1) .blank add }
    (armed.zipIdx.flatMap fun x => if (s.freeWord x.2).getLsbD 0 then [.die d (hit x.1)] else []) ++
    (bad.zipIdx.flatMap fun x =>
      let w := s.freeWord (armed.length + x.2)
      (if w.getLsbD 0 then [.die d (log x.1 w)] else []) ++
      (if w.getLsbD 1 then [.die d fun k => { k with badLines := mdel x.1.1 k.badLines }] else [])) ++
    [.drawn (armed.length + bad.length)]
/-- A read of a bank line. -/
def eccNote (s : State) (c : Ctx) (row bank : Nat) : List Upd := eccLog s c c.die 0 (c.lineNo row bank)
/-- A read of `n` bytes of a home, within one line: of a bank, of HBM, or of a crown bank. -/
def homeNote (s : State) (c : Ctx) (a n : Nat) : List Upd :=
  if a / 2 ^ 64 < 8192 then eccLog s c (a / 2 ^ 64) 0 (a % 2 ^ 64 / 64)
  else match errPlace a with
    | some (d, arr, base, off) => (wordsAt off n).flatMap fun w => eccLog s c d arr (base + w)
    | none => []
/-- A word of HBM or crown memory among these bytes has an uncorrectable error (R74, R200). -/
def State.unsound (s : State) (a n : Nat) : Bool :=
  match errPlace a with
  | some (d, arr, base, off) => (wordsAt off n).any fun w => mget (s.die d).badLines (errKey arr (base + w)) false
  | none => false

/-! ## Which bytes an access touches, whatever it waits for (R185, R186) -/

/-- The flat address that a pointer names: not known yet (`error true`: its page waits for a walk), or none. -/
def State.homeAt (s : State) (pt : Party) (ptr : Word) : Except Bool Nat :=
  let p := diePkg pt.die
  let off := offsetBits ptr
  let at_ := fun (d : DieId) (q space : Nat) (f : Nat → Nat) => match s.translate d pt.part q space off with
    | .ok pa _ => Except.ok (f pa)
    | .fault => .error false
    | .miss => .error true
  let dev := fun q => at_ (if p == q then pt.die else dieId q 0) q 0 (devAddr q)
  match spaceOf ptr with
  | 0 => .ok ((s.slot pt.key).bankAt off)
  | 1 => .ok ((s.slot (slotKey (keyRid pt.key) (keyPkg pt.key) (ptrSlot ptr))).bankAt off)
  | 2 => dev p
  | 3 =>
    let fd := if ptr.getLsbD 29 then 1 else 0
    match s.alloc? pt.part (ptrPkg ptr) fd (ptr.toNat % 2 ^ 29) with
    | some a => .ok (homeAddr 2 a.home fd (ptr.toNat % 2 ^ 29))
    | none => .error false
  | 4 => dev (ptrPkg ptr)
  | _ => at_ pt.die p 1 (hostAddr p)

/-- The pairs of dies between which an access and its answer go over circuits: package and dies (R12, R13). -/
def State.circuitPairs (s : State) (pt : Party) (ptr : Word) : List (PkgId × Nat × Nat) :=
  let p := diePkg pt.die
  let me := diePhys pt.die
  match s.homeAt pt ptr with
  | .error _ => []
  | .ok a =>
    let home := a / 2 ^ 64
    let q := home / 8 % 1024
    let die := match home / 8192 with
      | 1 => a % 2 ^ 64 / 2 ^ 36 / 2
      | 2 => 6 + home % 8
      | 3 => 7
      | _ => home % 8
    if q != p then [(p, me, 6), (p, me, 7)] ++ (if die < 6 then [(q, die, 6), (q, die, 7)] else []) else [(p, me, die)]

/-- Bytes of an access: their home, their pointer, their number. -/
structure Spot where
  home : Except Bool Nat
  ptr  : Word
  n    : Nat
def State.spot (s : State) (pt : Party) (p : Word) (n : Nat) : Spot := { home := s.homeAt pt p, ptr := p, n := n }
def Spot.bank (a n : Nat) : Spot := { home := .ok a, ptr := 0, n := n }
/-- A byte range overlaps an area. -/
def overlaps (a n b m : Nat) : Bool := a < b + m && b < a + n && 0 < n && 0 < m
/-- The kind of home that a pointer names, and for device memory of a package named outright, that package. -/
def homeKind (p : Word) : Nat := match spaceOf p with
  | 4 => 2
  | n => n
/-- Two accesses may touch a common byte (R185, R186): they do by their homes, or a page of one of them is not translated
yet and the same page, or another one of that kind of memory, may name the other's bytes. -/
def Spot.meets (x y : Spot) : Bool :=
  match x.home, y.home with
  | .ok a, .ok b => overlaps a x.n b y.n
  | .error false, _ => false
  | _, .error false => false
  | _, _ =>
    if spaceOf x.ptr == spaceOf y.ptr && ptrPlain x.ptr / 4096 == ptrPlain y.ptr / 4096 then
      overlaps (ptrPlain x.ptr) x.n (ptrPlain y.ptr) y.n
    else homeKind x.ptr == homeKind y.ptr && 0 < x.n && 0 < y.n

/-! ## Sizes and formats of tensor identifiers (T5.2) -/

def tidBase (t : BitVec 512) : Word := t.extractLsb' 0 64
def tidScale (t : BitVec 512) : Word := t.extractLsb' 64 64
def tidRows (t : BitVec 512) : Nat := (t.extractLsb' 128 32).toNat
def tidCols (t : BitVec 512) : Nat := (t.extractLsb' 160 32).toNat
def tidPitch (t : BitVec 512) : Nat := (t.extractLsb' 192 48).toNat
def tidFmt (t : BitVec 512) : Nat := (t.extractLsb' 256 5).toNat
def tidOfmt (t : BitVec 512) : Nat := (t.extractLsb' 264 5).toNat
def tidRnd (t : BitVec 512) : Nat := (t.extractLsb' 272 3).toNat
def tidKgap (t : BitVec 512) : Nat := (t.extractLsb' 280 4).toNat
def tidAmax (t : BitVec 512) : Nat := (t.extractLsb' 320 32).toNat
def tidOfs (t : BitVec 512) : Word := t.extractLsb' 384 64
def tidPlane2 (t : BitVec 512) : Word := t.extractLsb' 448 64
/-- Word w of an entry replaced. -/
def tidPut (t : BitVec 512) (w : Nat) (v : Word) : BitVec 512 :=
  blend t (BitVec.ofNat 512 (v.toNat * 2 ^ (64 * w))) (BitVec.ofNat 512 ((2 ^ 64 - 1) * 2 ^ (64 * w)))

/-- A format code of a tensor identifier: an element type, or 16–18 (R101). -/
def fmtOk (f : Nat) : Bool := f <= 14 || (16 <= f && f <= 18)
def isKb (f : Nat) : Bool := 16 <= f && f <= 18
/-- Bits of a format's code. -/
def fmtWidth (f : Nat) : Nat := if f == 16 then 4 else if f == 17 then 6 else if f == 18 then 8 else width f

end Sys2Proof.Machine
end

