-- ==== Sys2Proof/Machine/Planes.lean ====
section
/-! DEFINITION. Plane regions at their homes (R209–R215, R444): which lines are planes, plane stores, merges; and the
new values of atomic operations (T16.4) and reductions (R322). -/

namespace Sys2Proof.Machine

/-- Applies rules one after another and collects their changes. -/
def seqUpds (s : State) (fs : List (State → List Upd)) : List Upd :=
  (fs.foldl (fun (acc : State × List Upd) f => let u := f acc.1; (acc.1.commit u, acc.2 ++ u)) (s, [])).2

/-! ## Atomic operations -/

/-- The new value of an atomic operation at a size in bytes (T16.4). -/
def atomNew (op size old b c : Nat) : Nat :=
  let w := 8 * size
  let o := old % 2 ^ w
  let x := b % 2 ^ w
  match op with
  | 0 => x
  | 1 => if o == c % 2 ^ w then x else o
  | 2 => (o + x) % 2 ^ w
  | 3 => o &&& x
  | 4 => o ||| x
  | 5 => o ^^^ x
  | 6 => if signed w o <= signed w x then o else x
  | 7 => if signed w o <= signed w x then x else o
  | 8 => min o x
  | 9 => max o x
  | _ => let t := ffmt 0; (t.round 0 false ((t.val o).add (t.val x)).1).1

/-- Bytes of a CRED type. -/
def credSize (ty : Nat) : Nat := width ty / 8
/-- home op v for a CRED: 0 add, 1 max, 2 min (R322). -/
def credNew (op ty old v : Nat) : Nat :=
  if isIntTy ty then
    let a := intVal ty old
    let b := intVal ty v
    wrap (width ty) (if op == 0 then a + b else if op == 1 then max a b else min a b)
  else
    let t := ffmt ty
    let a := t.val (old % 2 ^ width ty)
    let b := t.val (v % 2 ^ width ty)
    (t.round 0 false (if op == 0 then (a.add b).1 else (FVal.minmax (op == 1) a b).1)).1

/-! ## Plane regions -/

/-- Bytes of the mark area: 16 for each element. -/
def Plane.markBytes (p : Plane) : Nat := p.lines * 512 / width p.ty * 16
def Plane.elems (p : Plane) : Nat := p.lines * 512 / width p.ty

/-- What an access through space 0x1 or 0x3 meets (T11.5). -/
inductive PlaneHit where
  | none
  | present (idx : Nat) (p : Plane) (off : Nat)
  | hidden
  deriving DecidableEq, Repr

/-- The plane region that the bytes of an access touch, in descriptor order (R211). The mark lines are the bytes of the mark
area: where MBASE is not a multiple of 64, which the spec does not ask for, the other bytes of its first and last line are
no part of the region (DESIGN CHOICE, log 26). -/
def State.planeHit (s : State) (part : Nat) (ptr : Word) (n : Nat) : PlaneHit :=
  if spaceOf ptr != 1 && spaceOf ptr != 3 then .none
  else
    let x := ptrPlain ptr
    let mine := s.planes.filter fun e => e.1 / 64 == part
    match mine.find? fun e =>
        overlaps x n (ptrPlain e.2.nbase) (64 * e.2.lines) || overlaps x n (ptrPlain e.2.mbase) e.2.markBytes with
    | some _ => .hidden
    | none =>
      match mine.find? fun e => overlaps x n (ptrPlain e.2.base) (64 * e.2.lines) with
      | some e => .present (e.1 % 64) e.2 (x - ptrPlain e.2.base)
      | none => .none

/-- The flat address of a byte of a plane area, and of its mirror, or the fault of reaching it: bank areas under the BROWS
of the region (R210), crown areas under their allocation. `reads` says that a wrong stored bit is met, in any of the
words of its `n` bytes. -/
def State.areaAt (s : State) (pt : Party) (base : Word) (off : Nat) (reads : Bool) (n : Nat := 1) :
    Except Cause (Nat × Option Nat) :=
  let ptr := ptrAdd base off
  if spaceOf ptr == 1 then
    let c := s.slot (slotKey (keyRid pt.key) (keyPkg pt.key) (ptrSlot ptr))
    match s.bankReach c (offsetBits ptr) (!reads) with
    | .fault c => .error c
    | _ => .ok (c.bankAt (offsetBits ptr), none)
  else
    let fd := if ptr.getLsbD 29 then 1 else 0
    match s.alloc? pt.part (ptrPkg ptr) fd (ptr.toNat % 2 ^ 29) with
    | none => .error .permission
    | some a =>
      if a.lost then .error .crownLost
      else if reads && (List.range n).any fun i => s.crownReach pt.part (ptrPkg ptr) (ptrAdd ptr i) true == .fault .machine then
        .error .machine
      else .ok (homeAddr 2 a.home fd (ptr.toNat % 2 ^ 29), a.mirror.map fun m => homeAddr 2 m fd (ptr.toNat % 2 ^ 29))
/-- The failover of an allocation holds an area (R207). -/
def State.areaHeld (s : State) (part : Nat) (base : Word) : Bool :=
  spaceOf base == 3 && s.crownReach part (ptrPkg base) base == .wait
/-- The runs of a mark in one line each (R444): address and length. -/
def State.markRuns (s : State) (pt : Party) (mbase : Word) (e : Nat) (reads : Bool) :
    Except Cause (List ((Nat × Option Nat) × Nat)) :=
  let n := min 16 (64 - (mbase.toNat + 16 * e) % 64)
  ([(0, n), (n, 16 - n)].filter fun x => x.2 != 0).mapM fun x =>
    (s.areaAt pt mbase (16 * e + x.1) reads x.2).map fun a => (a, x.2)

/-- A write at a home and at its mirror (R206). -/
def writeHome (a : Nat × Option Nat) (bs : List Byte) : List Upd :=
  writeBytes a.1 bs ++ match a.2 with
    | some m => writeBytes m bs
    | none => []

/-- An element of width w at an address: a nibble for 4-bit types (R108). -/
def State.elemAt (s : State) (w : Nat) (a : Nat) (hi : Bool) : Nat :=
  if w == 4 then (s.num a 1 / (if hi then 16 else 1)) % 16 else s.num a (w / 8)
/-- Writes such an element. -/
def putElem (s : State) (w : Nat) (a : Nat × Option Nat) (hi : Bool) (v : Nat) : List Upd :=
  if w == 4 then
    let old := s.num a.1 1
    writeHome a (toBytes 1 (if hi then old % 16 + v % 16 * 16 else old / 16 * 16 + v % 16))
  else writeHome a (toBytes (w / 8) v)

/-- The mark of an element (R444): v0, w0, X, W. -/
structure Mark where
  v0 : Nat
  w0 : Nat
  x  : Bool
  w  : Bool
  deriving DecidableEq, Repr
def Mark.ofBytes (b : List Byte) : Mark :=
  let n := Machine.ofBytes b
  { v0 := n % 2 ^ 64, w0 := bits n 79 64, x := bit n 81, w := bit n 80 }
def Mark.bytes (m : Mark) : List Byte :=
  toBytes 16 (m.v0 % 2 ^ 64 + m.w0 % 2 ^ 16 * 2 ^ 64 + (if m.w then 2 ^ 80 else 0) + (if m.x then 2 ^ 81 else 0))

/-- A writer identity (R212). -/
def writerOf (pt : Party) : Nat := pt.src * 2 ^ 14 + keySlot pt.key * 2 ^ 10 + keyPkg pt.key
/-- The place of a writer in a member list; members are in writer form with SRC 0 (R213). -/
def memberRank (members : List Nat) (w : Nat) : Option Nat := members.findIdx? fun m => m == w % 2 ^ 14
/-- Rank with the order of a slot's writers: sequencer, C0, C1. -/
def writerRank (members : List Nat) (w : Nat) : Nat := ((memberRank members w).getD 64) * 4 + w / 2 ^ 14

/-- A member's store to an element (R213): the new next value and mark. -/
def planeRule (members : List Nat) (rule w : Nat) (mk : Mark) (next v width_ : Nat) : Nat × Mark :=
  if !mk.w then (v, { v0 := v, w0 := w, x := false, w := true })
  else
    match rule with
    | 0 =>
      let wins := w == mk.w0 || writerRank members w < writerRank members mk.w0
      (if wins then v else next,
       { mk with x := mk.x || w != mk.w0, w0 := if wins then w else mk.w0 })
    | 1 =>
      if w == mk.w0 then (wrap width_ ((next : Int) - mk.v0 + v), { mk with v0 := v })
      else (wrap width_ ((next : Int) + v), { mk with x := true, w0 := w, v0 := v })
    | _ => if w == mk.w0 then (v, mk) else (next, { mk with x := true })

/-- The bytes of a mark, and its new bytes. -/
def State.markAt (s : State) (rs : List ((Nat × Option Nat) × Nat)) : Mark := .ofBytes (rs.flatMap fun x => s.bytes x.1.1 x.2)
def putMark : List ((Nat × Option Nat) × Nat) → List Byte → List Upd
  | [], _ => []
  | x :: l, bs => writeHome x.1 (bs.take x.2) ++ putMark l (bs.drop x.2)

/-- One element of a plane store, or the fault of reaching its next value or its mark. -/
def planeElem (pt : Party) (p : Plane) (members : List Nat) (e v : Nat) (s : State) : Except Cause (List Upd) :=
  let w := width p.ty
  match s.areaAt pt p.nbase (e * w / 8) true, s.markRuns pt p.mbase e true with
  | .error c, _ => .error c
  | _, .error c => .error c
  | .ok a, .ok m =>
    let hi := w == 4 && e % 2 == 1
    let r := planeRule members p.rule (writerOf pt) (s.markAt m) (s.elemAt w a.1 hi) v w
    .ok (putElem s w a hi r.1 ++ putMark m r.2.bytes)

/-- The barrier entry of a step group. -/
def State.members (s : State) (part g : Nat) : List Nat := ((mfind (64 * part + g) s.barriers).map (·.members)).getD []

/-- A plane store of whole elements at offset `off` of a region (R211, R213), or the fault it raises. -/
def State.planeStore (s : State) (pt : Party) (p : Plane) (off : Nat) (data : List Byte) : Except Cause (List Upd) :=
  let w := width p.ty
  let ms := s.members pt.part p.group
  if p.frozen then .error .crownLost
  else if (off * 8) % w != 0 || (data.length * 8) % w != 0 then .error .permission
  else if (memberRank ms (writerOf pt)).isNone then .error .permission
  else
    let n := ofBytes data
    (List.range (data.length * 8 / w)).foldl (fun (acc : Except Cause (List Upd)) i =>
      match acc with
      | .error c => .error c
      | .ok us => (planeElem pt p ms (off * 8 / w + i) (n / 2 ^ (w * i) % 2 ^ w) (s.commit us)).map fun u => us ++ u) (.ok [])

/-- One element of a merge (R215): changes, and whether it collided. An element that the region's rows do not hold has
no mark. A word of the planes or the marks with an uncorrectable error is taken as it is stored: the spec does not say what
a merge does there, and no party's access could bear the fault (DESIGN CHOICE, log 26). -/
def mergeElem (s : State) (pt : Party) (p : Plane) (e : Nat) : List Upd × Bool :=
  let w := width p.ty
  let off := e * w / 8
  match s.areaAt pt p.base off false, s.areaAt pt p.nbase off false, s.markRuns pt p.mbase e false with
  | .ok b, .ok n, .ok m =>
    let mk := s.markAt m
    let hi := w == 4 && e % 2 == 1
    if mk.w then
      ((if p.rule == 2 && mk.x then [] else putElem s w b hi (s.elemAt w n.1 hi)) ++ putMark m (toBytes 16 0), mk.x)
    else ([], false)
  | _, _, _ => ([], false)

/-- The merge of a region: changes, collided elements ascending. -/
def mergePlane (s : State) (pt : Party) (p : Plane) : List Upd × List Nat :=
  let r := (List.range p.elems).foldl
    (fun (acc : State × List Upd × List Nat) e =>
      let u := mergeElem acc.1 pt p e
      (acc.1.commit u.1, acc.2.1 ++ u.1, if u.2 then acc.2.2 ++ [e] else acc.2.2)) (s, [], [])
  r.2

end Sys2Proof.Machine
end

