-- ==== Sys2Proof/Machine/Requests.lean ====
section
/-! DEFINITION. Variable-latency requests (R169, R182–R185, R206, R227, R228): how one is made, performs at its home,
and is answered. -/

namespace Sys2Proof.Machine

/-! ## Check codes (R227) -/

/-- One bit of CRC-32C, reflected. -/
def crcBit (r : BitVec 32) : BitVec 32 := if r.getLsbD 0 then (r >>> 1) ^^^ 0x82F63B78#32 else r >>> 1
def crcByte (r : BitVec 32) (b : Byte) : BitVec 32 :=
  (List.range 8).foldl (fun x _ => crcBit x) (r ^^^ b.zeroExtend 32)
/-- CRC-32C of bytes. -/
def crc32c (bs : List Byte) : BitVec 32 := (bs.foldl crcByte 0xFFFFFFFF#32) ^^^ 0xFFFFFFFF#32
/-- The check code of a request or response. -/
def checkCode (ptr : Word) (src seq : Nat) (payload : List Byte) : BitVec 32 :=
  crc32c (toBytes 8 ptr.toNat ++ toBytes 2 src ++ toBytes 2 seq ++ payload)
/-- A code that arrives with `damage` fails the home's test when the damage is not 0. -/
def codePasses (code : BitVec 32) (damage : Nat) : Bool := (code ^^^ BitVec.ofNat 32 damage) == code

/-! ## References: a request by its number, or a line of a copy operation -/

/-- An access that waits: a request, the answer of one, or a piece of the operation `op` of a channel of a die (2: of the
encoder). -/
inductive Ref where
  | req (id : Nat)
  | answer (id : Nat)
  | item (d : DieId) (chan op piece : Nat)
  deriving DecidableEq, Repr

def Ref.code : Ref → Nat
  | .req i => 2 * i
  | .answer i => 2 * (2 ^ 160 + i)
  | .item d ch op i => 2 * (d + 2 ^ 16 * (ch + 4 * (i + 2 ^ 64 * op))) + 1
def Ref.ofCode (n : Nat) : Ref :=
  if n % 2 == 0 then (if n / 2 < 2 ^ 160 then .req (n / 2) else .answer (n / 2 - 2 ^ 160))
  else .item (n / 2 % 2 ^ 16) (n / 2 ^ 17 % 4) (n / 2 ^ 83) (n / 2 ^ 19 % 2 ^ 64)

/-! ## Requests -/

/-- Source identifier (R228): queue 0 S slot, 1 C0, 2 C1, 3 router merge. -/
def sourceId (d : DieId) (queue : Nat) : Nat := diePkg d * 64 + diePhys d * 8 + queue

def ReqKind.need : ReqKind → Need
  | .load _ _ => .read
  | .store _ _ => .write
  | _ => .atomic
def ReqKind.size : ReqKind → Nat
  | .load n _ => n
  | .store n _ => n
  | .atom _ n _ _ => n
  | .red _ n _ => n
  | .cred _ ty _ _ => credSize ty
  | _ => 8
/-- Requests that carry a source identifier and a sequence number. -/
def ReqKind.numbered : ReqKind → Bool
  | .atom _ _ _ _ => true
  | .red _ _ _ => true
  | .cred _ _ _ _ => true
  | _ => false
/-- The payload bytes. -/
def ReqKind.payload : ReqKind → List Byte
  | .load _ _ => []
  | .store n v => toBytes n v.toNat
  | .atom _ n b c => toBytes n b.toNat ++ toBytes n c.toNat
  | .red _ n b => toBytes n b.toNat
  | .cred _ ty v _ => toBytes (credSize ty) v.toNat
  | _ => []

/-- The package that a pointer names, for a party of package p. -/
def targetPkg (p : PkgId) (ptr : Word) : PkgId := if spaceOf ptr == 3 || spaceOf ptr == 4 then ptrPkg ptr else p
/-- The package to which an access of a partition goes: after a failover that of the surviving copy of its crown line
(R207). -/
def State.destPkg (s : State) (part : Nat) (p : PkgId) (ptr : Word) : PkgId :=
  if spaceOf ptr != 3 then targetPkg p ptr
  else ((s.alloc? part (ptrPkg ptr) (if ptr.getLsbD 29 then 1 else 0) (ptr.toNat % 2 ^ 29)).map fun a => a.home).getD
    (ptrPkg ptr)

/-- The latest unacknowledged packet of a source queue to a line, before a request (R223), by its way and its version: a
request, or a piece that waits for a mirror. -/
def State.ahead? (s : State) (src : Nat) (ptr : Word) (before : Nat) : Option (List Hop × Bool) :=
  let line := ptrPlain ptr / 64
  ((s.reqs.filterMap fun q =>
      if q.src == src && q.id < before && ptrPlain q.ptr / 64 == line then q.way.map fun w => (w, q.stamp) else none) ++
    s.hidden.filterMap fun h =>
      if h.src == src && ptrPlain h.ptr / 64 == line then h.way.map fun w => (w, h.stamp) else none).getLast?
/-- An older packet of the queue to the line has been stamped with the other version and is not acknowledged: the new
one waits (R224). -/
def State.behindOld (s : State) (src : Nat) (p : PkgId) (ptr : Word) (before : Nat) : Bool :=
  (s.ahead? src ptr before).any fun x => x.2 != (s.pkg p).version
/-- The path that a packet takes when it is injected now (R223): that of an unacknowledged packet of its queue to its line,
while that path is not cut off, or the one that a new packet takes. -/
def State.wayFor (s : State) (src : Nat) (p q : PkgId) (ptr : Word) (before : Nat) : Option (List Hop) :=
  let fresh := if s.path p q == .carried then some (s.wayOf p q) else none
  if p == q || s.behindOld src p ptr before then none
  else match (s.ahead? src ptr before).map (·.1) with
    | some w => if s.along w == .cut then fresh else some w
    | none => fresh

/-- A request of a party. `queue` is its source queue. -/
def State.newReq (s : State) (k : SlotKey) (queue : Nat) (kind : ReqKind) (ptr : Word) (pc : Nat) (lq : Option Nat)
    (owner : Option (Nat × Nat)) : List Upd :=
  let c := s.slot k
  let src := sourceId c.die queue
  let seq := mget s.seqs src 0
  let tick := s.gtc c.pkg
  .addReq (fun i => { id := i, key := k, die := c.die, part := (s.node c.rid).part, kind := kind, ptr := ptr, pc := pc,
                      lq := lq, src := src, seq := if kind.numbered then seq else 0, sent := tick, issued := tick,
                      resends := 0, owner := owner
                      way := s.wayFor src (diePkg c.die) (s.destPkg (s.node c.rid).part (diePkg c.die) ptr) ptr i,
                      stamp := (s.pkg c.pkg).version, st := .flying }) ::
  (if kind.numbered then [.seqNo src ((seq + 1) % 65536)] else [])

def Req.party (r : Req) : Party := { key := r.key, die := r.die, part := r.part, src := r.src % 8, way := r.way, issued := some r.issued }

/-! ## Outstanding requests (R169, R179) -/

/-- Pieces of copies that wait: for a walk, a mirror, a link, a peer's spine. -/
def State.waitingRefs (s : State) : List Nat :=
  ((s.dies.flatMap fun e => (e.2.walks.flatMap fun w => w.waiters) ++ e.2.peers) ++ (s.hidden.map fun h => h.ref) ++
    s.pkgs.flatMap fun e => e.2.links.flatMap fun l => l.2.held).eraseDups
/-- Requests of the copy channels of a die that are outstanding. -/
def State.copyOut (s : State) (d : DieId) : Nat :=
  (s.reqs.filter fun r => r.die == d && r.owner.any fun o => o.1 < 2).length +
  (s.waitingRefs.filter fun c => match Ref.ofCode c with
    | .item e ch _ _ => e == d && ch < 2
    | _ => false).length
/-- A copy of a die finds a free request: 512 of the 4,096 are kept for the S slot. -/
def State.copyRoom (s : State) (d : DieId) : Bool := s.copyOut d < 3584

/-- Answered requests are gone; 64 numbered ones of a source are out at once, and the rest wait (R228). -/
def State.sendable (s : State) (r : Req) : Bool :=
  !r.kind.numbered ||
  (s.reqs.filter fun q => q.kind.numbered && q.src == r.src && q.id < r.id).length < 64

/-- Not yet performed. -/
def Req.open_ (r : Req) : Bool :=
  match r.st with
  | .flying => true
  | .mirror _ => true
  | _ => false

def Reach.addr? : Reach → Option Nat
  | .ready a _ => some a
  | _ => none

/-- Two requests of a slot may touch a common byte (R185). -/
def State.sameBytes (s : State) (q r : Req) : Bool :=
  (s.spot q.party q.ptr q.kind.size).meets (s.spot r.party r.ptr r.kind.size)

/-- An earlier S-slot request of the slot to a common byte has not performed (R185). -/
def State.blocked (s : State) (r : Req) : Bool :=
  r.owner.isNone &&
  s.reqs.any fun q => q.key == r.key && q.owner.isNone && q.id < r.id && q.open_ && s.sameBytes q r

/-- Bytes that a primary holds invisible (R206). -/
def State.isHidden (s : State) (a n : Nat) : Bool := s.hidden.any fun h => overlaps h.a h.n a n

/-- The home result cache of the package that a flat address belongs to (R228). -/
def homePkg (a : Nat) : PkgId := a / 2 ^ 64 / 8 % 1024
def Pkg.cached (k : Pkg) (src seq : Nat) : Option Word :=
  (k.cache.find? fun e => e.src == src && e.seq == seq).map (·.result)
/-- A package holds the surviving copy of an allocation during its failover, and keeps the results it was given (R207). -/
def State.keepsCache (s : State) (p : PkgId) : Bool :=
  s.pkgs.any fun e => e.2.allocs.any fun l => l.2.any fun a =>
    a.isMirror.isNone && a.home == p && a.failing.any fun f => (s.pkg f).failover.getLsbD l.1
/-- Records a result: 64 for each source at most, the oldest dropped, but for those that a failover keeps (R207). -/
def Pkg.remember (keeps : Bool) (src seq : Nat) (v : Word) (k : Pkg) : Pkg :=
  let mine := k.cache.filter fun e => e.src == src && !e.lasting
  let old := if keeps || mine.length < 64 then none else mine.head?
  { k with cache := (k.cache.filter fun e => old != some e) ++
      [{ src := src, seq := seq, result := v, tick := k.gtc, lasting := false }] }

/-- Sets what has become of a request. -/
def setReq (i : Nat) (st : ReqState) : Upd := .req i fun q => { q with st := st }
def failReq (r : Req) (c : Cause) : List Upd := [setReq r.id (.failed { cause := c, ptr := r.ptr, detail := 0 })]

/-- The value a load returns. -/
def extendVal (size : Nat) (sgn : Bool) (v : Nat) : Word := if sgn then wordI (signed (8 * size) v) else word v

/-- What a request does at its home (R183, R211, R297, R322): the changes and its result, or a fault. -/
def State.applyReq (s : State) (r : Req) (a : Nat × Option Nat) : Except Cause (List Upd × Word) :=
  let n := r.kind.size
  let hit := s.planeHit r.part r.ptr n
  let old := s.num a.1 n
  match hit, r.kind with
  | .hidden, _ => .error .permission
  | .present _ p _, .load n sgn => if p.frozen then .error .crownLost else .ok ([], extendVal n sgn old)
  | .none, .load n sgn => .ok ([], extendVal n sgn old)
  | .present _ p off, .store n v => (s.planeStore r.party p off (toBytes n v.toNat)).map fun u => (u, 0)
  | .none, .store n v => .ok (writeHome a (toBytes n v.toNat), 0)
  | .none, .atom op n b c => .ok (writeHome a (toBytes n (atomNew op n old b.toNat c.toNat)), word old)
  | .none, .red op n b => .ok (writeHome a (toBytes n (atomNew op n old b.toNat 0)), word old)
  | .none, .cred op ty v _ => .ok (writeHome a (toBytes n (credNew op ty old v.toNat)), 0)
  | _, _ => .error .permission

/-- A request performs: its result, and the home result cache for a numbered one. -/
def State.performReq (s : State) (r : Req) (a : Nat × Option Nat) : List Upd :=
  match s.applyReq r a with
  | .error c => failReq r c
  | .ok (u, v) =>
    u ++ [setReq r.id (.performed v)] ++
    (if r.kind.numbered then
      .pkg (homePkg a.1) (Pkg.remember (s.keepsCache (homePkg a.1)) r.src r.seq v) ::
      match a.2 with
      | some m => [.pkg (homePkg m) (Pkg.remember (s.keepsCache (homePkg m)) r.src r.seq v)]
      | none => []
     else [])

/-- A walk that an access waits for (R168). -/
def joinWalk (s : State) (d : DieId) (part space page ref : Nat) : List Upd :=
  let ws := (s.die d).walks
  match ws.findIdx? fun w => w.part == part && w.space == space && w.page == page with
  | some i => [.die d fun k => { k with walks := k.walks.modify i fun w =>
      { w with waiters := if w.waiters.contains ref then w.waiters else w.waiters ++ [ref] } }]
  | none =>
    if 64 <= ws.length then []
    else [.die d fun k => { k with walks := k.walks ++
      [{ part := part, space := space, page := page, waiters := [ref] }] }]

/-- The link for which traffic is held, to be discarded with it (R226). -/
def holdOn (pth : Path) (ref : Nat) : List Upd :=
  match pth with
  | .held p port n => [.pkg p fun k => { k with links := mmod k.links (32 * port + n) .blank fun l =>
      { l with held := if l.held.contains ref then l.held else l.held ++ [ref] } }]
  | _ => []
def holdAt (s : State) (pt : Party) (q : PkgId) (ref : Nat) : List Upd := holdOn (s.pathOf pt q) ref
/-- The next plane or the marks of the region that an access meets wait for a failover (R207). -/
def State.planeHeld (s : State) (part : Nat) (ptr : Word) (n : Nat) : Bool :=
  match s.planeHit part ptr n with
  | .present _ p _ => s.areaHeld part p.nbase || s.areaHeld part p.mbase
  | _ => false
/-- What an access that reads logs (R74, R256). -/
def State.readNote (s : State) (pt : Party) (p : Word) (n : Nat) (need : Need) : List Upd :=
  match need, s.homeAt pt p with
  | .write, _ => []
  | _, .ok a => homeNote s (s.slot pt.key) a n
  | _, _ => []

/-- A request is injected with its path (R223), and then arrives on it. -/
def State.inject (s : State) (r : Req) : Req :=
  if r.way.isSome then r
  else
    let p := diePkg r.die
    { r with way := s.wayFor r.src p (s.destPkg r.part p r.ptr) r.ptr r.id, stamp := (s.pkg p).version }
/-- A packet that has not been injected waits for older packets to its line (R224). -/
def State.behind (s : State) (r : Req) : Bool :=
  let p := diePkg r.die
  p != s.destPkg r.part p r.ptr && r.way.isNone && s.behindOld r.src p r.ptr r.id

/-- A request arrives at its home (R182): nothing happens while it must wait; a damaged check code drops it (R227). A resend
of one that has performed, whose result 64 newer ones of its source have driven out of the cache, is applied again: R196
lets it apply once, R228 keeps but 64 results (DESIGN CHOICE, log 27). -/
def State.perform (s : State) (r : Req) (damage : Nat) : List Upd :=
  let ref := (Ref.req r.id).code
  match s.reach r.party r.ptr r.kind.need with
  | .wait => holdAt s r.party (s.destPkg r.part (diePkg r.die) r.ptr) ref
  | .walk d space page => joinWalk s d r.part space page ref
  | .fault c =>
    if r.open_ then (if c == .machine then s.readNote r.party r.ptr r.kind.size r.kind.need else []) ++ failReq r c else []
  | .ready a m =>
    if !codePasses (checkCode r.ptr r.src r.seq r.kind.payload) damage then
      if r.open_ || (r.kind.numbered && 0 < r.resends) then failReq r .checkMismatch else []
    else if s.isHidden a r.kind.size || s.planeHeld r.part r.ptr r.kind.size then []
    else
      match r.st with
      | .flying =>
        if r.kind.need != .write && s.unsound a r.kind.size then
          s.readNote r.party r.ptr r.kind.size r.kind.need ++ failReq r .machine
        else if m.isSome && r.kind.need != .read then [.hide { ref := ref, a := a, n := r.kind.size }, setReq r.id (.mirror 0)]
        else s.readNote r.party r.ptr r.kind.size r.kind.need ++ s.performReq r (a, m)
      | .performed _ =>
        if r.kind.numbered && 0 < r.resends && ((s.pkg (homePkg a)).cached r.src r.seq).isNone then s.performReq r (a, m)
        else []
      | _ => []
def State.arrive (s : State) (r : Req) (damage : Nat) : List Upd :=
  let x := s.inject r
  if s.behind x then []
  else (if r.way == x.way then [] else [.req r.id fun q => { q with way := x.way, stamp := x.stamp }]) ++ s.perform x damage

/-! ## Pieces of copies and of the encoder's output as packets (R222–R224, R227) -/

/-- How a piece at a pointer goes to its home for a party, behind the packets of its queue (R223). -/
def State.sendAs (s : State) (pt : Party) (ptr : Word) : Party :=
  let p := diePkg pt.die
  { pt with way := s.wayFor (sourceId pt.die pt.src) p (s.destPkg pt.part p ptr) ptr s.nextReq }
/-- It waits for packets of the other version (R224). -/
def State.pieceBehind (s : State) (pt : Party) (ptr : Word) : Bool :=
  let p := diePkg pt.die
  p != s.destPkg pt.part p ptr && s.behindOld (sourceId pt.die pt.src) p ptr s.nextReq
/-- A piece that its home holds for the mirror's acknowledgement, as the packet that it came in (R206). -/
def State.hides (s : State) (pt : Party) (ptr : Word) (ref a n : Nat) : Hidden :=
  { ref := ref, a := a, n := n, src := sourceId pt.die pt.src, ptr := ptr, way := (s.sendAs pt ptr).way
    stamp := (s.pkg (diePkg pt.die)).version }
/-- How its answer comes back from a home (R222). -/
def State.answerPath (s : State) (pt : Party) (a : Nat) : Path := s.path (homePkg a) (diePkg pt.die)
/-- A piece's code arrives as it was computed (R227); it carries the sequence number 0. -/
def pieceSound (pt : Party) (ptr : Word) (payload : List Byte) (damage : Nat) : Bool :=
  codePasses (checkCode ptr (sourceId pt.die pt.src) 0 payload) damage

/-- An answered request leaves; the next waiting one of its source is sent now (R228). -/
def State.answerReq (s : State) (r : Req) : List Upd :=
  .dropReq r.id ::
  (if r.kind.numbered then
    match (s.reqs.filter fun q => q.kind.numbered && q.src == r.src && q.id != r.id)[63]? with
    | some q => [.req q.id fun x => { x with sent := s.gtc (diePkg x.die), issued := s.gtc (diePkg x.die) }]
    | none => []
   else [])

end Sys2Proof.Machine
end

