-- ==== Sys2Proof/Machine/Routes.lean ====
section
/-! DEFINITION. The gauntlets: the connections that a route makes (R75–R80) and the Mitten's solve (R84, R85). -/

namespace Sys2Proof.Machine

/-- The index bit that stage s acts on (R75). -/
def stageBitNo (s : Nat) : Nat := if s <= 10 then 10 - s else s - 10
/-- The switch of stage s that line i passes. -/
def switchNo (s i : Nat) : Nat :=
  let d := stageBitNo s
  i / 2 ^ (d + 1) * 2 ^ d + i % 2 ^ d
/-- A line's index on the other side of stage s. -/
def throughStage (sw : BitVec 21504) (s i : Nat) : Nat :=
  if sw.getLsbD (1024 * s + switchNo s i) then i ^^^ 2 ^ stageBitNo s else i
/-- The input that a setting delivers to output p, and the output that input p reaches. -/
def inputOf (sw : BitVec 21504) (p : Nat) : Nat :=
  (List.range 21).foldr (fun s i => throughStage sw s i) p
def outputOf (sw : BitVec 21504) (p : Nat) : Nat :=
  (List.range 21).foldl (fun i s => throughStage sw s i) p

/-- The 4-bit row offset of a bank (T4.4). -/
def offsetOf (offs : BitVec 8192) (b : Nat) : Nat := (offs.extractLsb' (4 * b) 4).toNat

/-- On the read and matrix gauntlets: the bank and row offset that an enabled port receives (R78). -/
def Route.source (r : Route) (p : Nat) : Option (Nat × Nat) :=
  match r with
  | .idle => none
  | .image sw offs en =>
    if en.getLsbD p then let b := inputOf sw p; some (b, offsetOf offs b) else none
  | .solved lanes => (lanes.find? fun l => l.1 == p).map fun l => l.2

/-- On the write gauntlet: the bank and row offset that a source port writes. -/
def Route.sink (r : Route) (p : Nat) : Option (Nat × Nat) :=
  match r with
  | .idle => none
  | .image sw offs en =>
    if en.getLsbD p then let b := outputOf sw p; some (b, offsetOf offs b) else none
  | .solved lanes => (lanes.find? fun l => l.1 == p).map fun l => l.2

/-- The enabled ports of a route. -/
def Route.ports (r : Route) : List Nat :=
  match r with
  | .idle => []
  | .image _ _ en => (List.range 2048).filter fun p => en.getLsbD p
  | .solved lanes => lanes.map fun l => l.1

/-- Cuffs whose ports a route enables; `base` is 1,024 on the read and 1,280 on the write gauntlet (T4.3). -/
def Route.cuffs (r : Route) (base : Nat) : List Nat :=
  let ps := r.ports
  (List.range 3).filter fun c => ps.any fun p => base + 256 * c <= p && p < base + 256 * c + 256

/-- A route image of 4 KiB as a route entry (T4.4), and whether its reserved bytes are zero (R79). -/
def routeOfImage (b : List Byte) : Route × Bool :=
  (.image (BitVec.ofNat 21504 (ofBytes (b.take 0xA80))) (BitVec.ofNat 8192 (ofBytes ((b.drop 0xA80).take 0x400)))
    (BitVec.ofNat 2048 (ofBytes ((b.drop 0xE80).take 0x100))),
   (b.drop 0xF80).all (· == 0))

/-- Gauntlet numbers of R80: 0 read, 1 write, 2 matrix. The route a number names, with the solver slots; `none` for a
number that is not available. -/
def Ctx.route (c : Ctx) (loadable gaunt n : Nat) : Option Route :=
  if n == 0 then some .idle
  else if n <= loadable then some (mget c.routes (2048 * gaunt + n) .idle)
  else if 2032 <= n && n < 2048 then some (mget c.solvers (16 * gaunt + (n - 2032)) .idle)
  else none

/-- The route a number names where it has been checked. -/
def Ctx.routeOr (c : Ctx) (loadable gaunt n : Nat) : Route := (c.route loadable gaunt n).getD .idle

/-! ## Entries that a CROUTE replaces (R83) -/

def Die.chan (k : Die) (ch : Nat) : List CopyOp := if ch == 0 then k.chan0 else k.chan1
def State.op? (s : State) (d : DieId) (ch id : Nat) : Option CopyOp := ((s.die d).chan ch).find? fun o => o.id == id
/-- A byte of the source side that has returned. -/
def CopyOp.src_ (o : CopyOp) (i : Nat) : Nat := mget o.buf i 1 - 1
/-- The images of a CROUTE: entries, and whether a reserved byte is not zero (R79). -/
def CopyOp.images (o : CopyOp) : List (Route × Bool) :=
  (List.range o.n).map fun i => routeOfImage ((List.range 4096).map fun b => BitVec.ofNat 8 (o.src_ (4096 * i + b)))
/-- The entries of a slot's context once a CROUTE of it has replaced them (R324), if no image of it has a reserved byte. -/
def CopyOp.reroute (o : CopyOp) (m : SMap Route) : SMap Route :=
  if o.images.all fun x => x.2 then
    o.images.zipIdx.foldl (fun m (x : (Route × Bool) × Nat) => mput (2048 * o.q + o.aop + x.2) x.1.1 m) m
  else m
/-- A slot's routes `n` die cycles on: what CROUTEs of it whose images have been read replace by then (R83, R324), and what
has been solved and is written by then (R86). -/
def State.foresee (s : State) (n : Nat) (c : Ctx) : Ctx :=
  let k := s.die c.die
  let load := fun (m : SMap Route) (l : Landing) => match l.eff with
    | .routesLoad ch id => match s.op? c.die ch id with
      | some o => if (s.slot o.key).rid == c.rid && o.fault.isNone then o.reroute m else m
      | none => m
    | _ => m
  { c with
    routes := (k.spine.filter fun l => l.due <= k.cyc + n).foldl load c.routes
    solvers := (c.land.filter fun l => l.due <= c.pos + n).foldl (fun m l => match l.eff with
      | .solver g k r => mput (16 * g + k) r m
      | _ => m) c.solvers }
/-- The routes by which a bundle's accesses go: the read gauntlet serves it one die cycle after its issue, the write
gauntlet three (R81). -/
def State.readRoute (s : State) (c : Ctx) (n : Nat) : Route := (s.foresee 1 c).routeOr (s.node c.rid).routes 0 n
def State.writeRoute (s : State) (c : Ctx) (n : Nat) : Route := (s.foresee 3 c).routeOr (s.node c.rid).routes 1 n

/-! ## The Mitten -/

/-- The state of a solve over lane targets: connected lanes, loser lanes (R85). -/
def solveFrom (n : Nat) (lanes : List (Nat × Nat × Nat)) (losers : List Nat) :
    List Nat → List (Nat × Nat × Nat) × List Nat
  | [] => (lanes, losers)
  | t :: ts =>
    let b := t % 2048
    if !bit t 31 then solveFrom (n + 1) lanes losers ts
    else if lanes.any fun l => l.2.1 == b then solveFrom (n + 1) lanes (losers ++ [n]) ts
    else solveFrom (n + 1) (lanes ++ [(n, b, t / 2048 % 2048)]) losers ts

/-- A solve: the route and the loser lanes, ascending. -/
def solve (targets : List Nat) : Route × List Nat :=
  let r := solveFrom 0 [] [] targets
  (.solved r.1, r.2)

end Sys2Proof.Machine
end

