-- ==== Sys2Proof/Machine/Guards.lean ====
section
/-! DEFINITION. What an instruction checks at its issue: it goes, traps, or waits at an elastic point and traps in a
rigid span (R29, R103, R244, R245). -/

namespace Sys2Proof.Machine

/-! ## Guards -/

/-- The outcome of an instruction's checks. -/
inductive Guard where
  | go
  | trap (t : Trap)
  | wait (t : Trap)
  deriving DecidableEq, Repr

/-- The place of a trap in the order of R245: illegal bundle; illegal slot and reserved field, header and N word first,
then slot by slot; timetable; every other. -/
def Trap.rank (t : Trap) : Nat :=
  if t.kind == .deferred then 0
  else if t.cause == .illegalBundle || t.cause == .illegalAnchor then 1
  else if t.cause == .illegalSlot || t.cause == .reservedField then 2 + (t.slot + 1) % 8
  else if t.cause.class_ == 1 then 10
  else 11
/-- A wait stands where its trap in a rigid bundle stands, among the timetable traps. -/
def Guard.rank : Guard → Nat
  | .go => 12
  | .trap t => t.rank
  | .wait _ => 10
/-- The check that decides: the lowest in the order of R245, and among those the first. -/
def Guard.first : List Guard → Guard
  | [] => .go
  | g :: l => let h := Guard.first l; if g.rank <= h.rank then g else h

/-- The checks of one slot, in the order of its reference entry (R245): the first that fails, or that waits. -/
def Guard.seq : List Guard → Guard
  | [] => .go
  | .go :: l => Guard.seq l
  | g :: _ => g

/-- A check that raises a trap unless its condition holds. -/
def need (ok : Bool) (t : Trap) : Guard := if ok then .go else .trap t
/-- A condition that an elastic bundle waits for. -/
def await_ (ok : Bool) (t : Trap) : Guard := if ok then .go else .wait t

/-- Issues an instruction: the trap of its checks, or its effect. A waiting instruction leaves the state as it is. -/
def State.guarded (s : State) (g : Guard) (us : List Upd) : Host.Outcome State Fault Refusal :=
  match g with
  | .go => s.by_ us
  | .trap t => s.by_ (takeTrap s s.curKey t)
  | .wait t => if s.curCtx.iss.elastic then s.same else s.by_ (takeTrap s s.curKey t)

/-- An S-slot instruction whose checks and effect stand under its predicate (R277). -/
def scalarGuarded (f : SF) (g : State → Guard) (us : State → List Upd) (s : State) : Host.Outcome State Fault Refusal :=
  if f.on s.curCtx then s.guarded (g s) (us s) else s.same

/-- An instruction that must stand in an elastic bundle (R283). -/
def needElastic (s : State) (slot : Nat) : Guard := need s.curCtx.iss.elastic (trapAt slot .illegalBundle 0)

/-- An instruction that acts when its bundle reaches the elastic point, and then waits (R29, R62): its precise checks,
what it does on arrival, what it waits for, its effect at issue. -/
def waiting (f : SF) (check : State → Guard) (arrive : State → List Upd) (ready : State → Guard) (us : State → List Upd)
    (s : State) : Host.Outcome State Fault Refusal :=
  if !f.on s.curCtx then s.same
  else match check s with
    | .go => let s' := s.commit (arrive s); s'.guarded (ready s') (us s')
    | g => s.guarded g []

/-- What a bundle that has not issued has done already, by its offset (R50, R62). -/
def Ctx.keptAs (c : Ctx) (n : Nat) : Option Nat :=
  match (mfind n c.kept).filter fun x => x.2 == c.iss.pc with
  | some x => some x.1
  | none => (c.aside.find? fun x => x.1 == n && x.2.2 == c.iss.pc).map fun x => x.2.1
def Ctx.keeps (c : Ctx) (n : Nat) : Bool := (c.keptAs n).isSome
/-- What another bundle keeps under the same number, one that a handler has interrupted, is set aside for it. -/
def Ctx.keep (n phase : Nat) (c : Ctx) : Ctx :=
  { c with
    kept := mput n (phase, c.iss.pc) c.kept
    aside := c.aside ++ (((mfind n c.kept).filter fun x => x.2 != c.iss.pc).map fun x => (n, x)).toList }
/-- The bundle has issued. -/
def Ctx.unkeep (n : Nat) (c : Ctx) : Ctx :=
  { c with
    kept := if (mfind n c.kept).any fun x => x.2 == c.iss.pc then mdel n c.kept else c.kept
    aside := c.aside.filter fun x => !(x.1 == n && x.2.2 == c.iss.pc) }

/-- Queue numbers of FSR.DETAIL (T13.2). -/
def detailLq : Nat := 32
def detailSq : Nat := 33
def detailAq : Nat := 34
def detailChan (c1 : Bool) : Nat := if c1 then 36 else 35

end Sys2Proof.Machine
end

