-- ==== Sys2Proof/Machine/VectorCalc.lean ====
section
/-! DEFINITION. What V-slot instructions compute from their captured operands: results, enables and flags (R107–R123,
R148–R154, R389–R423). -/

namespace Sys2Proof.Machine

/-- Destination registers, the bits of each that are written, the flags, and a mask with the bits written. -/
structure VRes where
  vals  : List VReg
  ens   : List VReg
  flags : Nat
  mask  : Option (Nat × Mask × Mask)
  deriving DecidableEq, Repr

/-! ## Elements -/

def orFlags (l : List Nat) : Nat := l.foldl (fun a x => a ||| x) 0

/-- Results by element at width w in n registers, governed by the mask (R96). -/
def masked (w n : Nat) (km : Mask) (rs : List (Nat × Nat)) : VRes :=
  { vals := regsOf w n (rs.map (·.1))
    ens := (List.range n).map (enables w km)
    flags := orFlags ((rs.zipIdx.filter fun r => maskBit km r.2).map fun r => r.1.2)
    mask := none }
/-- Results of which every element is written. -/
def whole (w n : Nat) (rs : List Nat) (fl : Nat) : VRes :=
  { vals := regsOf w n rs, ens := List.replicate n (BitVec.allOnes 4096), flags := fl, mask := none }

def tyOf (f : VF) : Nat := f.ty.toNat
def wOf (f : VF) : Nat := width f.ty.toNat
/-- Elements of the span. -/
def nOf (f : VF) : Nat := f.span * (4096 / wOf f)

/-- The element that an FM = 1 immediate stands for (R389): bits for the logical instructions, else a value of TY. -/
def immElem (f : VF) (raw : Bool) : Nat :=
  let ty := tyOf f
  if raw || isIntTy ty then wrap (wOf f) f.c.toInt else ((ffmt ty).round 0 false (ofIntVal f.c.toInt)).1

/-- The elements of operand b. -/
def bElems (f : VF) (o : VOps) (raw : Bool := false) : List Nat :=
  match f.long with
  | some x => List.replicate (nOf f) (x.toNat % 2 ^ wOf f)
  | none => if f.fm == 1 then List.replicate (nOf f) (immElem f raw) else elemsOf (wOf f) o.b
def aElems (f : VF) (o : VOps) : List Nat := elemsOf (wOf f) o.a

/-- A two-operand instruction, element by element. -/
def lift2 (f : VF) (o : VOps) (raw : Bool) (op : Nat → Nat → Nat × Nat) : VRes :=
  masked (wOf f) f.span o.km (List.zipWith op (aElems f o) (bElems f o raw))
/-- A one-operand instruction. -/
def lift1 (f : VF) (o : VOps) (op : Nat → Nat × Nat) : VRes := masked (wOf f) f.span o.km ((aElems f o).map op)

/-- A floating-point operation of two operands: exact, rounded once (R116). -/
def fp2 (ty : Nat) (ftz : Bool) (op : FVal → FVal → FVal × Nat) (x y : Nat) : Nat × Nat :=
  let t := ffmt ty
  let r := op (t.read ftz x) (t.read ftz y)
  let z := t.round 0 ftz r.1
  (z.1, z.2 ||| r.2)
/-- An integer operation of two operands. -/
def int2 (ty : Nat) (sat : Bool) (op : Int → Int → Int) (x y : Nat) : Nat × Nat :=
  intRes ty sat (op (intVal ty x) (intVal ty y))
/-- An arithmetic instruction on either kind of type. -/
def arith (f : VF) (o : VOps) (iop : Int → Int → Int) (fop : FVal → FVal → FVal × Nat) : VRes :=
  let ty := tyOf f
  lift2 f o false (if isIntTy ty then int2 ty (f.fm == 0 && f.c.getLsbD 0) iop else fp2 ty o.ftz fop)

/-! ## Elementwise instructions -/

/-- VADD (R391). -/
def vaddRes (f : VF) (o : VOps) : VRes := arith f o (· + ·) FVal.add
/-- VSUB (R423). -/
def vsubRes (f : VF) (o : VOps) : VRes := arith f o (· - ·) fun a b => a.add b.neg
/-- VMUL (R408). -/
def vmulRes (f : VF) (o : VOps) : VRes := arith f o (· * ·) FVal.mul

/-- A fused multiply-add; `sub` negates the addend (R402). -/
def fused (f : VF) (o : VOps) (sub : Bool) : VRes :=
  let t := ffmt (tyOf f)
  let b := match f.long with
    | some x => List.replicate (nOf f) (x.toNat % 2 ^ wOf f)
    | none => elemsOf (wOf f) o.b
  let c := if f.fm == 1 then List.replicate (nOf f) (immElem f false) else elemsOf (wOf f) o.c
  let one := fun (x : Nat × Nat × Nat) =>
    let z := t.read o.ftz x.2.2
    let r := (t.read o.ftz x.1).fma (t.read o.ftz x.2.1) (if sub then z.neg else z)
    let y := t.round 0 o.ftz r.1
    (y.1, y.2 ||| r.2)
  masked (wOf f) f.span o.km (((aElems f o).zip (b.zip c)).map one)
/-- VFMA (R402). -/
def vfmaRes (f : VF) (o : VOps) : VRes := fused f o false
/-- VFMS (R402). -/
def vfmsRes (f : VF) (o : VOps) : VRes := fused f o true

/-- The larger or smaller of two elements (R406). -/
def pick (f : VF) (o : VOps) (isMax : Bool) : VRes :=
  let ty := tyOf f
  lift2 f o false (if isIntTy ty then int2 ty false (if isMax then max else min) else
    fun x y =>
      let t := ffmt ty
      let r := FVal.minmax isMax (t.read o.ftz x) (t.read o.ftz y)
      ((t.round 0 false r.1).1, r.2))
/-- VMIN (R406). -/
def vminRes (f : VF) (o : VOps) : VRes := pick f o false
/-- VMAX (R406). -/
def vmaxRes (f : VF) (o : VOps) : VRes := pick f o true

/-- An exact sign operation on a floating-point element: only a NaN is changed otherwise (R390, R411). -/
def signOp (ty : Nat) (ftz : Bool) (op : FVal → FVal) (x : Nat) : Nat × Nat :=
  let t := ffmt ty
  let v := t.read ftz x
  ((t.round 0 false (op v)).1, sigFlag v)
/-- VABS (R390). -/
def vabsRes (f : VF) (o : VOps) : VRes :=
  let ty := tyOf f
  lift1 f o (if isIntTy ty then fun x => intRes ty (f.c.getLsbD 0) (intVal ty x).natAbs
    else signOp ty o.ftz FVal.abs)
/-- VNEG (R411). -/
def vnegRes (f : VF) (o : VOps) : VRes :=
  let ty := tyOf f
  lift1 f o (if isIntTy ty then fun x => intRes ty (f.c.getLsbD 0) (-(intVal ty x)) else signOp ty o.ftz FVal.neg)

/-- VAND (R393). -/
def vandRes (f : VF) (o : VOps) : VRes := lift2 f o true fun x y => (x &&& y, 0)
/-- VOR (R413). -/
def vorRes (f : VF) (o : VOps) : VRes := lift2 f o true fun x y => (x ||| y, 0)
/-- VXOR (R413). -/
def vxorRes (f : VF) (o : VOps) : VRes := lift2 f o true fun x y => (x ^^^ y, 0)
/-- VNOT (R412). -/
def vnotRes (f : VF) (o : VOps) : VRes := lift1 f o fun x => (2 ^ wOf f - 1 - x, 0)
/-- VMOV (R407). -/
def vmovRes (f : VF) (o : VOps) : VRes := lift1 f o fun x => (x, 0)
/-- VSHL (R420). -/
def vshlRes (f : VF) (o : VOps) : VRes := lift2 f o false fun x y => (shl (wOf f) x (shiftAmt (wOf f) y), 0)
/-- VSHR (R420). -/
def vshrRes (f : VF) (o : VOps) : VRes := lift2 f o false fun x y => (shr (wOf f) x (shiftAmt (wOf f) y), 0)
/-- VSRA (R420). -/
def vsraRes (f : VF) (o : VOps) : VRes := lift2 f o false fun x y => (sra (wOf f) x (shiftAmt (wOf f) y), 0)

/-- A condition of T19.3 on a pair of elements, with IV for a signalling NaN. -/
def vcond (ty cond : Nat) (ftz : Bool) (x y : Nat) : Bool × Nat :=
  let c : Option Int × Nat :=
    if isIntTy ty then
      let a := intVal ty x
      let b := intVal ty y
      (some (if a < b then -1 else if a == b then 0 else 1), 0)
    else
      let t := ffmt ty
      let a := t.read ftz x
      let b := t.read ftz y
      (if a.isNan || b.isNan then none else some (a.cmp b), sigFlag a ||| sigFlag b)
  (match c.1, cond with
   | none, n => n == 1 || n == 6
   | some z, 0 => z == 0
   | some z, 1 => z != 0
   | some z, 2 => z < 0
   | some z, 3 => z <= 0
   | some z, 4 => 0 < z
   | some z, 5 => 0 <= z
   | some _, _ => false, c.2)
/-- A list of bits as a mask. -/
def maskOf (l : List Bool) : Mask := ofElems 1024 1 (l.map fun b => if b then 1 else 0)
/-- VCMP (R395): bits of elements that km disables keep their values, bits beyond the span are 0. -/
def vcmpRes (f : VF) (o : VOps) : VRes :=
  let b := match f.long with
    | some x => List.replicate (nOf f) (x.toNat % 2 ^ wOf f)
    | none => elemsOf (wOf f) o.b
  let rs := List.zipWith (vcond (tyOf f) (f.c.toNat % 16) o.ftz) (aElems f o) b
  let en := maskOf ((List.range 1024).map fun e => nOf f <= e || o.km.getLsbD e)
  { vals := [], ens := [], flags := orFlags ((rs.zipIdx.filter fun r => maskBit o.km r.2).map fun r => r.1.2)
    mask := some (f.d.toNat % 16, maskOf (rs.map (·.1)), en) }

/-- VSEL (R419): the mask selects, every element is written. -/
def vselRes (f : VF) (o : VOps) : VRes :=
  whole (wOf f) f.span
    (((aElems f o).zip (bElems f o)).zipIdx.map fun x => if maskBit o.km x.2 then x.1.1 else x.1.2) 0
/-- VBCAST of element idx of A (R394). -/
def vbcastIdxRes (f : VF) (o : VOps) : VRes :=
  masked (wOf f) f.span o.km (List.replicate (nOf f) (at0 (aElems f o) f.c.toNat 0, 0))
/-- VBCAST of element 0 of b (R394). -/
def vbcastFirstRes (f : VF) (o : VOps) : VRes :=
  masked (wOf f) f.span o.km (List.replicate (nOf f) ((bElems f o).headD 0, 0))
/-- VIOTA (R403). -/
def viotaRes (f : VF) (o : VOps) : VRes :=
  let ty := tyOf f
  masked (wOf f) f.span o.km ((List.range (nOf f)).map fun (e : Nat) =>
    let z : Int := f.c.toInt + e
    if isIntTy ty then (wrap (wOf f) z, 0) else (ffmt ty).round 0 o.ftz (ofIntVal z))
/-- VEXT (R401). -/
def vextRes (f : VF) (o : VOps) : VRes :=
  masked (wOf f) f.span o.km
    (((aElems f o ++ elemsOf (wOf f) o.b).drop f.c.toNat).take (nOf f) |>.map fun x => (x, 0))
/-- VPERM (R153). -/
def vpermRes (f : VF) (o : VOps) : VRes :=
  let a := (aElems f o).toArray
  masked (wOf f) f.span o.km (((elemsOf 16 o.b).take (nOf f)).map fun i => (if i < nOf f then a.getD i 0 else 0, 0))
/-- VCOMPACT (R152). -/
def vcompactRes (f : VF) (o : VOps) : VRes :=
  let kept := ((aElems f o).zipIdx.filter fun x => maskBit o.km x.2).map (·.1)
  whole (wOf f) f.span (kept ++ List.replicate (nOf f - kept.length) 0) 0

/-! ## Conversions -/

/-- VCVT, VWID and VNAR: element i becomes element i (R123, R397, R410). -/
def convertRes (f : VF) (o : VOps) (regs : Nat) : VRes :=
  masked (width f.dst) regs o.km ((aElems f o).map (convert (tyOf f) f.dst f.rmode f.cvtSat o.ftz))
def vcvtRes (f : VF) (o : VOps) : VRes := convertRes f o f.span
def widRegs (f : VF) : Nat := f.span * (width f.dst / wOf f)
def narRegs (f : VF) : Nat := f.span / (wOf f / width f.dst)
def vwidRes (f : VF) (o : VOps) : VRes := convertRes f o (widRegs f)
def vnarRes (f : VF) (o : VOps) : VRes := convertRes f o (narRegs f)

/-! ## Dot products and reductions -/

/-- VDOT (R154): group sums of products and the addend; integer sums wrap, floating-point sums are exact and rounded
once. -/
def vdotRes (f : VF) (o : VOps) : VRes :=
  let ty := tyOf f
  let g := 32 / wOf f
  let b := (elemsOf (wOf f) o.b).toArray
  let a := (aElems f o).toArray
  let t := ffmt ty
  let out := ffmt 0
  masked 32 f.span o.km ((elemsOf 32 o.c).zipIdx.map fun x =>
    let js := (List.range g).map fun i => (a.getD (g * x.2 + i) 0, b.getD (g * x.2 + i) 0)
    if isIntTy ty then (wrap 32 (js.foldl (fun acc p => acc + intVal ty p.1 * intVal ty p.2) (signed 32 x.1)), 0)
    else
      let c := out.read o.ftz x.1
      let r := js.foldl (fun (acc : FVal × Nat) p =>
        let m := (t.read o.ftz p.1).mul (t.read o.ftz p.2)
        let s := acc.1.add m.1
        (s.1, acc.2 ||| m.2 ||| s.2)) (c, sigFlag c)
      let y := out.round 0 o.ftz r.1
      (y.1, y.2 ||| r.2))

/-- The identity of a reduction: 0 add, 1 max, 2 min (R149). -/
def redIdentity (ty op : Nat) : Nat :=
  if op == 0 then 0
  else if isIntTy ty then wrap (width ty) (if op == 1 then tyMin ty else tyMax ty)
  else let t := ffmt ty; t.signed (op == 1) (t.maxCode + 1)
/-- One step of a reduction. -/
def redStep (ty op : Nat) (ftz : Bool) (acc x : Nat) : Nat × Nat :=
  if isIntTy ty then
    (wrap (width ty) (let a := intVal ty acc; let b := intVal ty x
      if op == 0 then a + b else if op == 1 then max a b else min a b), 0)
  else if op == 0 then fp2 ty ftz FVal.add acc x
  else
    let t := ffmt ty
    let r := FVal.minmax (op == 1) (t.read ftz acc) (t.read ftz x)
    ((t.round 0 false r.1).1, r.2)
/-- VRED (R418). -/
def vredRes (f : VF) (o : VOps) : VRes :=
  let ty := tyOf f
  let op := f.c.toNat % 4
  let xs := ((aElems f o).zipIdx.filter fun x => maskBit o.km x.2).map (·.1)
  let r := xs.foldl (fun (acc : Nat × Nat) x =>
    let s := redStep ty op o.ftz acc.1 x; (s.1, acc.2 ||| s.2)) (redIdentity ty op, 0)
  whole (wOf f) 1 [r.1] r.2
/-- VAMAX (R392). -/
def vamaxRes (f : VF) (o : VOps) : VRes :=
  let t := ffmt (tyOf f)
  let xs := ((aElems f o).zipIdx.filter fun x => maskBit o.km x.2).map fun x => t.read o.ftz x.1
  let m := xs.foldl (fun (a : FVal) x => if !x.isNan && a.cmp x.abs < 0 then x.abs else a) (.fin false 0 0)
  whole 32 1 [if xs.any FVal.isNan then 0x7FC00000 else ((ffmt 0).round 0 false m).1] (orFlags (xs.map sigFlag))

/-- VQUANT's blocks (R115, R416): codes, scale bytes, flags. -/
def quantBlocks (fmt kgap : Nat) : Nat → List FVal → List Nat × List Nat × Nat
  | 0, _ => ([], [], 0)
  | n + 1, xs =>
    let q := kbQuant fmt kgap (xs.take 32)
    let r := quantBlocks fmt kgap n (xs.drop 32)
    (q.2.2.1 ++ r.1, [q.1, q.2.1] ++ r.2.1, q.2.2.2 ||| r.2.2)
/-- Registers of VQUANT's parts: primary, 2-bit, scale. -/
def quantRegs (f : VF) (fmt : Nat) : Nat × Nat × Nat :=
  let n := nOf f
  ((n * (if fmt == 18 then 8 else 4) + 4095) / 4096, if fmt == 17 then (n + 2047) / 2048 else 0, 1)
/-- Bits [260:256] and [283:280] of a tensor identifier: FMT and KGAP (T5.2). -/
def vquantRes (f : VF) (o : VOps) : VRes :=
  let fmt := (o.tid.extractLsb' 256 5).toNat
  let kgap := (o.tid.extractLsb' 280 4).toNat
  let t := ffmt (tyOf f)
  let q := quantBlocks (fmt - 16) kgap (nOf f / 32) ((aElems f o).map (t.read o.ftz))
  let r := quantRegs f fmt
  let p := if fmt == 18 then regsOf 8 r.1 q.1
    else regsOf 4 r.1 (q.1.map fun c => if fmt == 17 then c / 4 else c)
  let q2 := regsOf 2 r.2.1 (q.1.map (· % 4))
  let vals := p ++ q2 ++ regsOf 8 1 q.2.1
  { vals := vals, ens := vals.map fun _ => BitVec.allOnes 4096, flags := q.2.2, mask := none }

/-! ## The special-function, scan and sort units -/

def sfRes (op : SfOp) (f : VF) (o : VOps) : VRes := lift1 f o (special op (tyOf f) o.ftz)

/-- SCAN (R149). -/
def scanRes (f : VF) (o : VOps) : VRes :=
  let ty := tyOf f
  let op := f.c.toNat % 4
  let excl := f.c.getLsbD 2
  let seg := f.c.getLsbD 3
  let r := ((aElems f o).zipIdx).foldl (fun (s : List Nat × Nat × Nat) x =>
    let acc := if x.2 == 0 || (seg && maskBit o.km x.2) then redIdentity ty op else s.2.1
    let n := redStep ty op o.ftz acc x.1
    ((if excl then acc else n.1) :: s.1, n.1, s.2.2 ||| n.2)) ([], 0, 0)
  whole (wOf f) f.span r.1.reverse r.2.2

/-- Insertion that keeps the order of equals: x goes before the first element that is not less. -/
def insertBy {α : Type} (lt : α → α → Bool) (x : α) : List α → List α
  | [] => [x]
  | y :: l => if lt y x then y :: insertBy lt x l else x :: y :: l
/-- A stable sort. -/
def sortBy {α : Type} (lt : α → α → Bool) (l : List α) : List α := l.foldr (insertBy lt) []

/-- x lies below y; a NaN lies below every number when `nanLow`, else above; the zeros are equal. -/
def keyBelow (ty : Nat) (ftz nanLow : Bool) (x y : Nat) : Bool :=
  if isIntTy ty then intVal ty x < intVal ty y
  else
    let a := (ffmt ty).read ftz x
    let b := (ffmt ty).read ftz y
    if a.isNan || b.isNan then (if nanLow then a.isNan && !b.isNan else !a.isNan && b.isNan) else a.cmp b < 0
def anySig (ty : Nat) (xs : List Nat) : Nat :=
  if isIntTy ty then 0 else orFlags (xs.map fun x => sigFlag ((ffmt ty).val x))

/-- SELK (R150): each column's rows ranked, largest first. -/
def selkRes (f : VF) (o : VOps) : VRes :=
  let ty := tyOf f
  let xs := aElems f o
  let rows := f.selR
  let cols := nOf f / rows
  let picks := (List.range cols).map fun j =>
    let col := ((xs.drop (j * rows)).take rows).zipIdx
    ((sortBy (fun a b => keyBelow ty o.ftz true b.1 a.1) col).take f.selK).map (·.2)
  let sel := picks.zipIdx.flatMap fun p => p.1.map fun r => p.2 * rows + r
  { whole 16 f.selSpan (picks.flatMap id) (anySig ty xs) with
    mask := some (f.km.toNat, maskOf ((List.range 1024).map sel.contains), BitVec.allOnes 1024) }

/-- The groups of a list, G elements each. -/
def groupsOf {α : Type} (g : Nat) : Nat → List α → List (List α)
  | 0, _ => []
  | n + 1, l => l.take g :: groupsOf g n (l.drop g)
/-- SORTK (R151): a NaN key is written as the canonical NaN, and with FTZ a subnormal key, read as a zero of its sign, is
written as that zero (R119). -/
def sortkRes (f : VF) (o : VOps) : VRes :=
  let ty := tyOf f
  let desc := f.c.getLsbD 4
  let ps := (aElems f o).zip (elemsOf (wOf f) o.b)
  let lt := fun (a b : Nat × Nat) => keyBelow ty o.ftz false a.1 b.1
  let sorted := (groupsOf f.sortG (nOf f / f.sortG) ps).flatMap (sortBy (if desc then fun a b => lt b a else lt))
  let key := fun (x : Nat) =>
    let t := ffmt ty
    if isIntTy ty then x
    else if (t.val x).isNan then t.nanCode
    else if o.ftz && t.isSub x then x / 2 ^ (t.w - 1) * 2 ^ (t.w - 1)
    else x
  let vals := regsOf (wOf f) f.span (sorted.map fun p => key p.1) ++ regsOf (wOf f) f.span (sorted.map (·.2))
  { vals := vals, ens := vals.map fun _ => BitVec.allOnes 4096, flags := anySig ty (aElems f o), mask := none }

/-- A mask instruction (R332). -/
def maskRes (f : VF) (v : Mask) : VRes :=
  { vals := [], ens := [], flags := 0, mask := some (f.d.toNat % 16, v, BitVec.allOnes 1024) }

end Sys2Proof.Machine
end

