-- ==== Sys2Proof/Machine/Vector.lean ====
section
/-! DEFINITION. V-slot instructions: operand capture at issue, queue operands through the read gauntlet at issue + 1,
results at issue + latency (R77, R81, R82, R99, R144–R147), VLD and VST (R404, R422), the mask instructions (R332) and
RSOLVE (R84–R86, R371). -/

namespace Sys2Proof.Machine

/-! ## Operand spans and latencies (T8.1, T15.11, T19.2, T20.1) -/

/-- Latency, and the registers that A, B, C and D span as register or queue operands (0: no such operand). -/
structure VInfo where
  f   : VF
  lat : Nat
  na  : Nat
  nb  : Nat
  nc  : Nat
  nd  : Nat
  deriving DecidableEq, Repr

/-- The span of operand b: none under an immediate. -/
def spanB (f : VF) : Nat := if f.long.isSome || f.fm == 1 then 0 else f.span
def spanBlong (f : VF) (n : Nat) : Nat := if f.long.isSome then 0 else n
def info2 (f : VF) : Option VInfo := some ⟨f, 4, f.span, spanB f, 0, f.span⟩
def info1 (f : VF) (lat : Nat) : Option VInfo := some ⟨f, lat, f.span, 0, 0, f.span⟩
def infoFused (f : VF) : Option VInfo :=
  some ⟨f, 6, f.span, spanBlong f f.span, if f.fm == 1 then 0 else f.span, f.span⟩

/-- FMT of the tensor identifier that VQUANT names. -/
def quantFmt (f : VF) (c : Ctx) : Nat := tidFmt (c.tid (f.c.toNat % 256))

def vinfo (i : Instr) (c : Ctx) : Option VInfo :=
  match i with
  | .vadd f => info2 f
  | .vsub f => info2 f
  | .vmul f => info2 f
  | .vmin f => info2 f
  | .vmax f => info2 f
  | .vand f => info2 f
  | .vor f => info2 f
  | .vxor f => info2 f
  | .vshl f => info2 f
  | .vshr f => info2 f
  | .vsra f => info2 f
  | .vsel f => info2 f
  | .vabs f => info1 f 4
  | .vneg f => info1 f 4
  | .vnot f => info1 f 4
  | .vmov f => info1 f 4
  | .vfma f => infoFused f
  | .vfms f => infoFused f
  | .vcmp f => some ⟨f, 4, f.span, spanBlong f f.span, 0, 0⟩
  | .vbcastIdx f => some ⟨f, 4, 1, 0, 0, f.span⟩
  | .vbcastFirst f => some ⟨f, 4, 0, spanBlong f 1, 0, f.span⟩
  | .viota f => some ⟨f, 4, 0, 0, 0, f.span⟩
  | .vext f => some ⟨f, 6, f.span, f.span, 0, f.span⟩
  | .vdot f => some ⟨f, 6, f.span, f.span, f.span, f.span⟩
  | .vred f => some ⟨f, 8, f.span, 0, 0, 1⟩
  | .vamax f => some ⟨f, 8, f.span, 0, 0, 1⟩
  | .vcvt f => info1 f 5
  | .vwid f => some ⟨f, 5, f.span, 0, 0, widRegs f⟩
  | .vnar f => some ⟨f, 5, f.span, 0, 0, narRegs f⟩
  | .vquant f =>
    let r := quantRegs f (quantFmt f c)
    some ⟨f, 10, f.span, 0, 0, r.1 + r.2.1 + r.2.2⟩
  | .vperm f => some ⟨f, 6, f.span, (nOf f + 255) / 256, 0, f.span⟩
  | .vcompact f => info1 f 6
  | .vexp2 f => info1 f 14
  | .vlog2 f => info1 f 14
  | .vrcp f => info1 f 10
  | .vrsq f => info1 f 10
  | .vsqrt f => info1 f 12
  | .vtanh f => info1 f 16
  | .scan f => info1 f 8
  | .selk f => some ⟨f, 24, f.span, 0, 0, f.selSpan⟩
  | .sortk f => some ⟨f, 32, f.span, f.span, 0, 2 * f.span⟩
  | .kand f => some ⟨f, 4, 0, 0, 0, 0⟩
  | .kor f => some ⟨f, 4, 0, 0, 0, 0⟩
  | .kxor f => some ⟨f, 4, 0, 0, 0, 0⟩
  | .knot f => some ⟨f, 4, 0, 0, 0, 0⟩
  | _ => none

/-- What an instruction computes; the mask instructions take their masks from the context. -/
def vresult (i : Instr) (o : VOps) (c : Ctx) : VRes :=
  match i with
  | .vadd f => vaddRes f o
  | .vsub f => vsubRes f o
  | .vmul f => vmulRes f o
  | .vmin f => vminRes f o
  | .vmax f => vmaxRes f o
  | .vand f => vandRes f o
  | .vor f => vorRes f o
  | .vxor f => vxorRes f o
  | .vshl f => vshlRes f o
  | .vshr f => vshrRes f o
  | .vsra f => vsraRes f o
  | .vsel f => vselRes f o
  | .vabs f => vabsRes f o
  | .vneg f => vnegRes f o
  | .vnot f => vnotRes f o
  | .vmov f => vmovRes f o
  | .vfma f => vfmaRes f o
  | .vfms f => vfmsRes f o
  | .vcmp f => vcmpRes f o
  | .vbcastIdx f => vbcastIdxRes f o
  | .vbcastFirst f => vbcastFirstRes f o
  | .viota f => viotaRes f o
  | .vext f => vextRes f o
  | .vdot f => vdotRes f o
  | .vred f => vredRes f o
  | .vamax f => vamaxRes f o
  | .vcvt f => vcvtRes f o
  | .vwid f => vwidRes f o
  | .vnar f => vnarRes f o
  | .vquant f => vquantRes f o
  | .vperm f => vpermRes f o
  | .vcompact f => vcompactRes f o
  | .vexp2 f => sfRes .exp2 f o
  | .vlog2 f => sfRes .log2 f o
  | .vrcp f => sfRes .rcp f o
  | .vrsq f => sfRes .rsq f o
  | .vsqrt f => sfRes .sqrt f o
  | .vtanh f => sfRes .tanh f o
  | .scan f => scanRes f o
  | .selk f => selkRes f o
  | .sortk f => sortkRes f o
  | .kand f => maskRes f (c.k f.a.toNat &&& c.k f.b.toNat)
  | .kor f => maskRes f (c.k f.a.toNat ||| c.k f.b.toNat)
  | .kxor f => maskRes f (c.k f.a.toNat ^^^ c.k f.b.toNat)
  | .knot f => maskRes f (~~~(c.k f.a.toNat))
  | _ => { vals := [], ens := [], flags := 0, mask := none }

/-! ## Capture and landing -/

/-- Bank offsets of the entries that an operand names: from the head for a source, from the tail for a destination. -/
def queueEntries (c : Ctx) (n count : Nat) (tail : Bool) : List Nat :=
  if isQ n then
    let q := c.q (n - 1536)
    (List.range count).map fun i => q.entry (((if tail then q.wp else q.rp) + i) % q.depth)
  else []
/-- Register operands at issue; a queue operand is read later. -/
def regSpan (c : Ctx) (n count : Nat) : List VReg := if isQ n then [] else c.vspan c.iss.rrb n count

def vcapture (v : VInfo) (c : Ctx) : VOps :=
  let f := v.f
  { a := regSpan c f.a.toNat v.na, b := regSpan c f.b.toNat v.nb, c := regSpan c f.c.toNat v.nc
    km := c.k f.km.toNat
    aq := if v.na == 0 then [] else queueEntries c f.a.toNat v.na false
    bq := if v.nb == 0 then [] else queueEntries c f.b.toNat v.nb false
    cq := if v.nc == 0 then [] else queueEntries c f.c.toNat v.nc false
    dq := if v.nd == 0 then [] else queueEntries c f.d.toNat v.nd true
    ftz := c.ftz
    tid := c.tid (f.c.toNat % 256) }

/-- The results as they land. -/
def vlandings (v : VInfo) (iss : Issue) (o : VOps) (r : VRes) : List (Nat × Nat × Effect) :=
  let f := v.f
  let due := iss.pos + v.lat
  let regs : List (Nat × Nat × Effect) :=
    if o.dq.isEmpty then
      (r.vals.zip r.ens).zipIdx.map fun x => (due, phReg, .vec (spanPhys iss.rrb f.d.toNat x.2) x.1.1 x.1.2)
    else
      [(due, phPort, .qLines ((o.dq.zip (r.vals.zip r.ens)).zipIdx.flatMap fun x =>
        (List.range 8).map fun k =>
          (512 * f.vslot + 128 + 8 * x.2 + k, (x.1.1 + 64 * k) / 2 ^ 17, lineOf (x.1.2.1 &&& x.1.2.2) k)))]
  regs ++
  (match r.mask with
   | some m => [(due, phReg, .mask m.1 m.2.1 m.2.2)]
   | none => []) ++
  (if r.flags == 0 then [] else [(due, phReg, .flags (word r.flags))])

/-! ## Lines that gauntlet accesses reach (R68, R74, R266) -/

/-- The bank lines that the ports of a route reach hold no uncorrectable error (R74, R266). -/
def linesGood (s : State) (c : Ctx) (lines : List (Nat × Nat)) (reads : Bool) : Option (Nat × Nat) :=
  lines.find? fun l => (s.die c.die).lineBad (c.lineNo l.1 l.2) reads
def machineGuard (s : State) (c : Ctx) (fslot : Nat) (lines : List (Nat × Nat)) (reads : Bool) : Guard :=
  match linesGood s c lines reads with
  | some l => .trap (trapAt fslot .machine (l.1 * 2 ^ 17 + l.2 * 64))
  | none => .go
/-- Rows beyond the budget (R68). -/
def rowsGuard (s : State) (c : Ctx) (fslot : Nat) (lines : List (Nat × Nat)) : Guard :=
  match lines.find? fun l => (s.node c.rid).brows <= l.1 with
  | some l => .trap (trapAt fslot .permission (l.1 * 2 ^ 17 + l.2 * 64))
  | none => .go

/-- An access in flight meets, in its die cycle, what its bundle's issue could not know, because later bundles have issued
by then: a line that a write granted since has stored wrong by an armed injection, or a row of a route that a CROUTE has
replaced during a pre-emption. The trap is raised with kind after, which Table 13.1 has for both causes, and the access
does nothing (DESIGN CHOICE, log 20, log 23). -/
def lateGuard (k : SlotKey) (g : Guard) (us : List Upd) : List Upd :=
  match g with
  | .trap t => [.slot k fun c => { c with pending := c.firmTrap <|> some { t with kind := .after } }]
  | _ => us

/-- A register read from a queue entry through the ports of a group (R77, R78, R82). -/
def queueReg (s : State) (c : Ctx) (route : Route) (slot group i off : Nat) : VReg :=
  ofLines ((List.range 8).map fun k =>
    match route.source (512 * slot + 128 * group + 8 * i + k) with
    | some b => s.bankLine c ((off + 64 * k) / 2 ^ 17) b.1
    | none => 0)
def queueRegs (s : State) (c : Ctx) (route : Route) (slot group : Nat) (offs : List Nat) : List VReg :=
  offs.zipIdx.map fun x => queueReg s c route slot group x.2 x.1
/-- The lines that a queue operand reads through its route: row and bank. -/
def queueLines (route : Route) (slot group : Nat) (offs : List Nat) : List (Nat × Nat) :=
  offs.zipIdx.flatMap fun x => (List.range 8).filterMap fun k =>
    (route.source (512 * slot + 128 * group + 8 * x.2 + k)).map fun b => ((x.1 + 64 * k) / 2 ^ 17, b.1)
/-- The lines of the queue operands of an instruction. -/
def operandLines (route : Route) (vslot : Nat) (o : VOps) : List (Nat × Nat) :=
  queueLines route vslot 1 o.aq ++ queueLines route vslot 2 o.bq ++ queueLines route vslot 3 o.cq

/-- Issue + 1 of an instruction with queue operands: they are read, and the results are on their way. -/
def vlateUpds (s : State) (k : SlotKey) (i : Instr) (iss : Issue) (o : VOps) : List Upd :=
  let c := s.slot k
  match vinfo i { c with iss := iss } with
  | none => []
  | some v =>
    let route := c.routeOr (s.node c.rid).routes 0 iss.rrt
    let read := fun g (regs : List VReg) offs =>
      if offs.isEmpty then regs else queueRegs s c route v.f.vslot g offs
    let o' := { o with a := read 1 o.a o.aq, b := read 2 o.b o.bq, c := read 3 o.c o.cq }
    lateGuard k (machineGuard s c v.f.fslot (operandLines route v.f.vslot o) true)
      [.slot k (Ctx.pushAll · (vlandings v iss o' (vresult i o' c)))]

/-! ## Checks -/

/-- Queue number and test of one operand (R95, R99, R144). -/
def queueGuard (s : State) (c : Ctx) (fslot n count : Nat) (tail : Bool) : Guard :=
  if !isQ n || count == 0 then .go
  else
    let q := n - 1536
    let x := c.q q
    if (s.node c.rid).queues <= q then .trap (trapAt fslot .permission 0 q)
    else if tail then await_ (x.depth != 0 && x.count + count <= x.depth) (trapAt fslot .queueOverrun 0 q)
    else await_ (x.depth != 0 && count <= x.count) (trapAt fslot .queueUnderrun 0 q)

/-- A queue destination of this slot already lands in that die cycle (R147). -/
def queueClash (c : Ctx) (vslot due : Nat) : Bool :=
  c.land.any fun l =>
    match l.eff with
    | .qLines ports => l.due == due && ports.any fun p => 512 * vslot + 128 <= p.1 && p.1 < 512 * vslot + 256
    | .vlate i iss o =>
      match vinfo i c with
      | some v => v.f.vslot == vslot && !o.dq.isEmpty && iss.pos + v.lat == due
      | none => false
    | _ => false

/-- SELK and SORTK, class 1 of a slot, have an initiation interval of 8 die cycles (T8.1). Whether a pre-emption between
two issues counts the spec does not say (DESIGN CHOICE, log 16): here the interval is counted in the slot's own positions,
which stand still while the slot is stopped, and each slot has its own. -/
def intervalGuard (c : Ctx) (fslot cls : Nat) : Guard :=
  let last := mget c.vclass cls 0
  need (last == 0 || last + 8 <= c.iss.pos + 1) (trapAt fslot .illegalBundle 0)
/-- The Mitten of a die takes a solve once in 8 die cycles (R86), counted in the die's own cycles, whatever slots ran in
them (log 16). -/
def solveGuard (s : State) (fslot : Nat) : Guard :=
  let d := s.die s.curCtx.die
  need (d.solveAt == 0 || d.solveAt + 8 <= d.cyc + 1) (trapAt fslot .illegalBundle 0)
/-- A solve starts in the present die cycle. -/
def solveStarts (s : State) : Upd := .die s.curCtx.die fun d => { d with solveAt := d.cyc + 1 }

/-- VQUANT's checks at issue (R415, R416). -/
def quantGuard (s : State) (c : Ctx) (f : VF) (nd : Nat) : Guard :=
  .seq [need (f.c.toNat % 256 < (s.node c.rid).tids) (trapAt f.fslot .permission 0),
          need (isKb (quantFmt f c)) (trapAt f.fslot .reservedField 0),
          need (isQ f.d.toNat || f.d.toNat + nd <= 1536) (trapAt f.fslot .illegalSlot 0)]

/-- The checks of a V-slot instruction that computes. -/
def vGuard (i : Instr) (v : VInfo) (s : State) : Guard :=
  let c := s.curCtx
  let f := v.f
  let o := vcapture v c
  let route := s.readRoute c c.iss.rrt
  let own : Guard := match i with
    | .vquant f => quantGuard s c f v.nd
    | .selk _ => intervalGuard c f.fslot 1
    | .sortk _ => intervalGuard c f.fslot 1
    | _ => .go
  .seq [own,
    need (o.dq.isEmpty || !queueClash c f.vslot (c.iss.pos + v.lat)) (trapAt f.fslot .illegalBundle 0),
    queueGuard s c f.fslot f.a.toNat v.na false, queueGuard s c f.fslot f.b.toNat v.nb false,
    queueGuard s c f.fslot f.c.toNat v.nc false, queueGuard s c f.fslot f.d.toNat v.nd true,
    machineGuard s c f.fslot (operandLines route f.vslot o) true]

/-- The effect at issue. -/
def vUpds (i : Instr) (v : VInfo) (s : State) : List Upd :=
  let c := s.curCtx
  let o := vcapture v c
  let cls := fun (c : Ctx) => match i with
    | .selk _ => { c with vclass := mput 1 (c.iss.pos + 1) c.vclass }
    | .sortk _ => { c with vclass := mput 1 (c.iss.pos + 1) c.vclass }
    | _ => c
  if o.aq.isEmpty && o.bq.isEmpty && o.cq.isEmpty then
    [.slot s.curKey fun x => (cls x).pushAll (vlandings v c.iss o (vresult i o c))]
  else [.slot s.curKey fun x => (cls x).later 1 phRead (.vlate i c.iss o)]

/-- A V-slot instruction that computes. -/
def vectorOp (i : Instr) (s : State) : Host.Outcome State Fault Refusal :=
  match vinfo i s.curCtx with
  | some v => s.guarded (vGuard i v s) (vUpds i v s)
  | none => s.same

/-- VADD (R391). -/
def execVadd (f : VF) (s : State) : Host.Outcome State Fault Refusal := vectorOp (.vadd f) s
/-- VSUB (R423). -/
def execVsub (f : VF) (s : State) : Host.Outcome State Fault Refusal := vectorOp (.vsub f) s
/-- VMUL (R408). -/
def execVmul (f : VF) (s : State) : Host.Outcome State Fault Refusal := vectorOp (.vmul f) s
/-- VFMA (R402). -/
def execVfma (f : VF) (s : State) : Host.Outcome State Fault Refusal := vectorOp (.vfma f) s
/-- VFMS (R402). -/
def execVfms (f : VF) (s : State) : Host.Outcome State Fault Refusal := vectorOp (.vfms f) s
/-- VMIN (R406). -/
def execVmin (f : VF) (s : State) : Host.Outcome State Fault Refusal := vectorOp (.vmin f) s
/-- VMAX (R406). -/
def execVmax (f : VF) (s : State) : Host.Outcome State Fault Refusal := vectorOp (.vmax f) s
/-- VABS (R390). -/
def execVabs (f : VF) (s : State) : Host.Outcome State Fault Refusal := vectorOp (.vabs f) s
/-- VNEG (R411). -/
def execVneg (f : VF) (s : State) : Host.Outcome State Fault Refusal := vectorOp (.vneg f) s
/-- VAND (R393). -/
def execVand (f : VF) (s : State) : Host.Outcome State Fault Refusal := vectorOp (.vand f) s
/-- VOR (R413). -/
def execVor (f : VF) (s : State) : Host.Outcome State Fault Refusal := vectorOp (.vor f) s
/-- VXOR (R413). -/
def execVxor (f : VF) (s : State) : Host.Outcome State Fault Refusal := vectorOp (.vxor f) s
/-- VNOT (R412). -/
def execVnot (f : VF) (s : State) : Host.Outcome State Fault Refusal := vectorOp (.vnot f) s
/-- VSHL (R420). -/
def execVshl (f : VF) (s : State) : Host.Outcome State Fault Refusal := vectorOp (.vshl f) s
/-- VSHR (R420). -/
def execVshr (f : VF) (s : State) : Host.Outcome State Fault Refusal := vectorOp (.vshr f) s
/-- VSRA (R420). -/
def execVsra (f : VF) (s : State) : Host.Outcome State Fault Refusal := vectorOp (.vsra f) s
/-- VCMP (R395). -/
def execVcmp (f : VF) (s : State) : Host.Outcome State Fault Refusal := vectorOp (.vcmp f) s
/-- VSEL (R419). -/
def execVsel (f : VF) (s : State) : Host.Outcome State Fault Refusal := vectorOp (.vsel f) s
/-- VMOV (R407). -/
def execVmov (f : VF) (s : State) : Host.Outcome State Fault Refusal := vectorOp (.vmov f) s
/-- VBCAST of an element by index (R394). -/
def execVbcastIdx (f : VF) (s : State) : Host.Outcome State Fault Refusal := vectorOp (.vbcastIdx f) s
/-- VBCAST of element 0 (R394). -/
def execVbcastFirst (f : VF) (s : State) : Host.Outcome State Fault Refusal := vectorOp (.vbcastFirst f) s
/-- VIOTA (R403). -/
def execViota (f : VF) (s : State) : Host.Outcome State Fault Refusal := vectorOp (.viota f) s
/-- VEXT (R401). -/
def execVext (f : VF) (s : State) : Host.Outcome State Fault Refusal := vectorOp (.vext f) s
/-- VDOT (R154). -/
def execVdot (f : VF) (s : State) : Host.Outcome State Fault Refusal := vectorOp (.vdot f) s
/-- VRED (R418). -/
def execVred (f : VF) (s : State) : Host.Outcome State Fault Refusal := vectorOp (.vred f) s
/-- VAMAX (R392). -/
def execVamax (f : VF) (s : State) : Host.Outcome State Fault Refusal := vectorOp (.vamax f) s
/-- VCVT (R397, R398). -/
def execVcvt (f : VF) (s : State) : Host.Outcome State Fault Refusal := vectorOp (.vcvt f) s
/-- VWID (R409, R410). -/
def execVwid (f : VF) (s : State) : Host.Outcome State Fault Refusal := vectorOp (.vwid f) s
/-- VNAR (R409, R410). -/
def execVnar (f : VF) (s : State) : Host.Outcome State Fault Refusal := vectorOp (.vnar f) s
/-- VQUANT (R415, R416). -/
def execVquant (f : VF) (s : State) : Host.Outcome State Fault Refusal := vectorOp (.vquant f) s
/-- VPERM (R153). -/
def execVperm (f : VF) (s : State) : Host.Outcome State Fault Refusal := vectorOp (.vperm f) s
/-- VCOMPACT (R152). -/
def execVcompact (f : VF) (s : State) : Host.Outcome State Fault Refusal := vectorOp (.vcompact f) s
/-- KAND (R332). -/
def execKand (f : VF) (s : State) : Host.Outcome State Fault Refusal := vectorOp (.kand f) s
/-- KOR (R332). -/
def execKor (f : VF) (s : State) : Host.Outcome State Fault Refusal := vectorOp (.kor f) s
/-- KXOR (R332). -/
def execKxor (f : VF) (s : State) : Host.Outcome State Fault Refusal := vectorOp (.kxor f) s
/-- KNOT (R332). -/
def execKnot (f : VF) (s : State) : Host.Outcome State Fault Refusal := vectorOp (.knot f) s
/-- VEXP2 (R400). -/
def execVexp2 (f : VF) (s : State) : Host.Outcome State Fault Refusal := vectorOp (.vexp2 f) s
/-- VLOG2 (R400). -/
def execVlog2 (f : VF) (s : State) : Host.Outcome State Fault Refusal := vectorOp (.vlog2 f) s
/-- VRCP (R417). -/
def execVrcp (f : VF) (s : State) : Host.Outcome State Fault Refusal := vectorOp (.vrcp f) s
/-- VRSQ (R417). -/
def execVrsq (f : VF) (s : State) : Host.Outcome State Fault Refusal := vectorOp (.vrsq f) s
/-- VSQRT (R417). -/
def execVsqrt (f : VF) (s : State) : Host.Outcome State Fault Refusal := vectorOp (.vsqrt f) s
/-- VTANH (R417). -/
def execVtanh (f : VF) (s : State) : Host.Outcome State Fault Refusal := vectorOp (.vtanh f) s
/-- SCAN (R149). -/
def execScan (f : VF) (s : State) : Host.Outcome State Fault Refusal := vectorOp (.scan f) s
/-- SELK (R150). -/
def execSelk (f : VF) (s : State) : Host.Outcome State Fault Refusal := vectorOp (.selk f) s
/-- SORTK (R151). -/
def execSortk (f : VF) (s : State) : Host.Outcome State Fault Refusal := vectorOp (.sortk f) s

/-! ## VLD and VST -/

/-- The lines of a slot's group 0 that a route reaches: row and bank. -/
def groupLines (ends : Nat → Option (Nat × Nat)) (vslot row : Nat) : List (Nat × Nat) :=
  (List.range 128).filterMap fun j => (ends (512 * vslot + j)).map fun b => (row + b.2, b.1)

/-- VLD's checks at issue (R404). -/
def vldGuard (f : VF) (s : State) : Guard :=
  let c := s.curCtx
  let lines := groupLines (s.readRoute c c.iss.rrt).source f.vslot c.iss.rrow
  .seq [rowsGuard s c f.fslot lines, machineGuard s c f.fslot lines true]
/-- VLD (R404). -/
def execVld (f : VF) (s : State) : Host.Outcome State Fault Refusal :=
  s.guarded (vldGuard f s) [.slot s.curKey fun c =>
    c.later 1 phRead (.vldRead f.v1 ((List.range f.span).map (spanPhys c.iss.rrb f.d.toNat))
      ((List.range f.span).map (enables (wOf f) (c.k f.km.toNat))) c.iss.rrt c.iss.rrow)]
/-- The bank read of a VLD; the registers are written three die cycles later. -/
def vldReadUpds (s : State) (k : SlotKey) (v1 : Bool) (regs : List Nat) (en : List VReg) (rt row due : Nat) : List Upd :=
  let c := s.slot k
  let route := c.routeOr (s.node c.rid).routes 0 rt
  let base := if v1 then 512 else 0
  let val := fun i => ofLines ((List.range 8).map fun j =>
    match route.source (base + 8 * i + j) with
    | some b => s.bankLine c (row + b.2) b.1
    | none => 0)
  let lines := groupLines route.source (if v1 then 1 else 0) row
  let fslot := if v1 then 2 else 1
  lateGuard k (.seq [rowsGuard s c fslot lines, machineGuard s c fslot lines true])
    [.slot k (Ctx.pushAll · ((regs.zip en).zipIdx.map fun x => (due + 3, phReg, .vec x.1.1 (val x.2) x.1.2)))]

/-- VST's checks at issue (R422). -/
def vstGuard (f : VF) (s : State) : Guard :=
  let c := s.curCtx
  let lines := groupLines (s.writeRoute c c.iss.wrt).sink f.vslot c.iss.wrow
  .seq [rowsGuard s c f.fslot lines, machineGuard s c f.fslot lines false]
/-- VST (R422). -/
def execVst (f : VF) (s : State) : Host.Outcome State Fault Refusal :=
  s.guarded (vstGuard f s) [.slot s.curKey fun c =>
    (c.later 3 phPort (.wLines ((c.vspan c.iss.rrb f.a.toNat f.span).zipIdx.flatMap fun x =>
      (List.range 8).map fun k => (512 * f.vslot + 8 * x.2 + k, lineOf x.1 k)) (some c.iss.wrt) c.iss.wrow)).progressed
      c.iss.tick]

/-- The bundle that issued at a position, among the recent ones: it sets the write gauntlet three die cycles later. -/
def Ctx.issuedAt (c : Ctx) (pos : Nat) : Option Issue := c.nhist.find? fun i => i.pos == pos
/-- The FSR.SLOT of a source port: a V slot's own, else the N word's. -/
def portSlot (own : Bool) (p : Nat) : Nat := if !own then 7 else if p < 512 then 1 else if p < 1024 then 2 else 7
/-- The write gauntlet writes lines: FSR.SLOT, row, bank, bytes. Rows and banks have been checked at the bundle whose route
it is; a line beyond the budget, or on a bank that is gone, because of what has happened since is not written and raises
its trap with kind after (log 23). -/
def gauntletWrites (s : State) (k : SlotKey) (lines : List (Nat × Nat × Nat × Line)) : List Upd :=
  let c := s.slot k
  let check := fun (x : Nat × Nat × Nat × Line) =>
    Guard.seq [rowsGuard s c x.1 [(x.2.1, x.2.2.1)], machineGuard s c x.1 [(x.2.1, x.2.2.1)] false]
  lines.flatMap (fun x => match check x with
    | .go => writeBytes (bankAddr c.die (c.physRow x.2.1) x.2.2.1 0) (bytesOfLine x.2.2.2)
    | _ => []) ++
  lateGuard k (((lines.map check).find? (· != .go)).getD .go) []
/-- Lines that source ports present in die cycle `due`: each enabled path writes its bank (R78). -/
def wLinesUpds (s : State) (k : SlotKey) (due : Nat) (ports : List (Nat × Line)) (rt : Option Nat) (row : Nat) : List Upd :=
  let c := s.slot k
  let n := match rt with
    | some r => (r, row)
    | none => match c.issuedAt (due - 3) with
      | some i => (i.wrt, i.wrow)
      | none => (0, 0)
  let route := c.routeOr (s.node c.rid).routes 1 n.1
  gauntletWrites s k (ports.filterMap fun p =>
    (route.sink p.1).map fun b => (portSlot rt.isSome p.1, n.2 + b.2, b.1, p.2))
/-- The same for queue entries, whose rows are those of the queue (R82). -/
def qLinesUpds (s : State) (k : SlotKey) (due : Nat) (ports : List (Nat × Nat × Line)) : List Upd :=
  let c := s.slot k
  let rt := match c.issuedAt (due - 3) with
    | some i => i.wrt
    | none => 0
  let route := c.routeOr (s.node c.rid).routes 1 rt
  gauntletWrites s k (ports.filterMap fun p => (route.sink p.1).map fun b => (7, p.2.1, b.1, p.2.2))

/-! ## RSOLVE (R371) -/

def rsolveGuard (f : VF) (s : State) : Guard := solveGuard s f.fslot
/-- The loser lanes from lane `lo` on, as a mask. -/
def loserMask (losers : List Nat) (lo : Nat) : Mask := maskOf ((List.range 1024).map fun i => losers.contains (lo + i))
/-- RSOLVE. -/
def execRsolve (f : VF) (s : State) : Host.Outcome State Fault Refusal :=
  s.guarded (rsolveGuard f s) [solveStarts s, .slot s.curKey fun c =>
    let r := solve (elemsOf 32 (c.vspan c.iss.rrb f.a.toNat f.span))
    let due := c.iss.pos + 40
    c.pushAll ([(due, phSys, .solver (if f.c.getLsbD 4 then 1 else 0) (f.c.toNat % 16) r.1),
        (due, phReg, .scalar (f.d.toNat % 64) (word r.2.length)),
        (due, phReg, .mask f.km.toNat (loserMask r.2 0) (BitVec.allOnes 1024))] ++
      (if f.sp == 4 then [(due, phReg, .mask (f.km.toNat + 1) (loserMask r.2 1024) (BitVec.allOnes 1024))] else []))]

/-! ## Ports that serve instructions (R77) -/

/-- The read groups, 4 × V slot + group, whose lines an instruction takes: its own checks and reads are theirs. -/
def servedGroups (i : Instr) (c : Ctx) : List Nat :=
  match vinfo i c with
  | some v =>
    let g := fun (n : Nat) (name count : Nat) => if isQ name && count != 0 then [4 * v.f.vslot + n] else []
    g 1 v.f.a.toNat v.na ++ g 2 v.f.b.toNat v.nb ++ g 3 v.f.c.toNat v.nc
  | none => match i with
    | .vld f => [4 * f.vslot]
    | _ => []
/-- The lines that the other enabled ports of a read route reach: row and bank (R78). A VLD reads and
checks all the enabled ports of its group itself. A group that serves a queue operand is left out as a whole: its enabled
ports past the operand's lines are neither read nor checked, because R82 forms no row for a port past the queue's entries
(DESIGN CHOICE, log 16). -/
def spareLines (route : Route) (row : Nat) (served : List Nat) : List (Nat × Nat) :=
  (route.ports.filter fun p => 1024 <= p || !served.contains (p / 128)).filterMap fun p =>
    (route.source p).map fun b => (row + b.2, b.1)

/-! ## Destinations that one bundle may not share (R147) -/

/-- Vector registers (physical) and masks (2,048 + n) that a V-slot instruction writes, and when. -/
def vdests (i : Instr) (c : Ctx) : List (Nat × Nat) :=
  match vinfo i c with
  | some v =>
    (if isQ v.f.d.toNat then [] else (List.range v.nd).map fun j => (spanPhys c.iss.rrb v.f.d.toNat j, v.lat)) ++
    (match i with
     | .vcmp f => [(2048 + f.d.toNat % 16, 4)]
     | .selk f => [(2048 + f.km.toNat, 24)]
     | .kand f => [(2048 + f.d.toNat % 16, 4)]
     | .kor f => [(2048 + f.d.toNat % 16, 4)]
     | .kxor f => [(2048 + f.d.toNat % 16, 4)]
     | .knot f => [(2048 + f.d.toNat % 16, 4)]
     | _ => []).filter fun d => d.1 != 2048
  | none =>
    match i with
    | .vld f => (List.range f.span).map fun j => (spanPhys c.iss.rrb f.d.toNat j, 4)
    | .rsolve f => ((2048 + f.km.toNat, 40) :: if f.sp == 4 then [(2048 + f.km.toNat + 1, 40)] else []).filter
        fun d => d.1 != 2048
    | _ => []

end Sys2Proof.Machine
end

