-- ==== Sys2Proof/Machine/Matrix.lean ====
section
/-! DEFINITION. The matrix engine: configuration, nests and their steps, batches, accumulators (R125–R143, R343–R354). -/

namespace Sys2Proof.Machine

/-- FSR.SLOT of the M slot. -/
def mSlot : Nat := 3

/-! ## Formats (T7.1, R127) -/

/-- Step length, K range and lines per panel row of a format; `none` for a format outside T7.1. -/
def matShape (fmt k : Nat) : Option (Nat × Bool × Nat) :=
  let c := fun n d => (n + d - 1) / d
  match fmt with
  | 1 => some (2 * k, k <= 224, c k 32)
  | 2 => some (2 * k, k <= 224, c k 32)
  | 3 => some (k, k <= 448, c k 64)
  | 4 => some (k, k <= 448, c k 64)
  | 7 => some (k, k <= 448, c k 64)
  | 5 => some (c k 2, k <= 896, c k 128)
  | 16 => some (k / 2, k <= 896 && k % 32 == 0, c k 128 + c k 1024)
  | 17 => some (k, k <= 448 && k % 32 == 0, c k 128 + c k 256 + c k 1024)
  | 18 => some (k, k <= 448 && k % 32 == 0, c k 64 + c k 1024)
  | _ => none

/-- Read cycles R, length L of a step of a table (R127, R133, R139). -/
def stepShape (h : MHead) (tidA : BitVec 512) (isLoad : Bool) : Nat × Nat :=
  if isLoad then (if tidFmt tidA == 0 then 32 else 16, 0)
  else
    match matShape (tidFmt tidA) h.k with
    | some s =>
      let r := max ((h.m * s.2.2 + 31) / 32) ((h.n * s.2.2 + 31) / 32)
      (if h.op == 2 then r + 1 else r, s.1)
    | none => (1, 1)
/-- The period of a table's steps. -/
def stepPeriod (h : MHead) (tidA : BitVec 512) (isLoad : Bool) : Nat :=
  let s := stepShape h tidA isLoad
  if isLoad then s.1 else max s.1 s.2

/-! ## Batches (R136, R137) -/

def Matrix.batch (m : Matrix) (b : Nat) : Batch := mget m.batches b .blank
def Matrix.modBatch (m : Matrix) (b : Nat) (f : Batch → Batch) : Matrix := { m with batches := mmod m.batches b .blank f }
/-- Accumulators that a head names. -/
def MHead.uses (h : MHead) : BitVec 64 :=
  let u := h.umask.zeroExtend 64
  let a := if h.h == 0 then u else u <<< 32
  if h.dual then a ||| (if h.h == 0 then u <<< 32 else u) else a
/-- Accumulators in use by incomplete batches, but for one. -/
def Matrix.busy (m : Matrix) (except : Option Nat) : BitVec 64 :=
  m.batches.foldl (fun x e => if e.2.st == .idle || some e.1 == except then x else x ||| e.2.accs) 0
/-- No step of the slot is running, and no batch is incomplete. -/
def Matrix.quiet (m : Matrix) : Bool := m.batches.all fun e => e.2.st == .idle

/-- A batch that has been committed and whose steps are complete is idle. -/
def Batch.settle (b : Batch) : Batch := if b.st == .committed && b.left == 0 then { b with st := .idle, accs := 0, killed := false } else b
/-- MCOMMIT. -/
def Batch.commit (b : Batch) : Batch := if b.st == .opened then { b with st := .committed }.settle else b

/-- MSTAT (T7.6). -/
def Matrix.stat (m : Matrix) : Word :=
  let bitsOf := fun (p : Batch → Bool) => m.batches.foldl (fun x e => if p e.2 then x + 2 ^ e.1 else x) 0
  let b := fun (x : Bool) n => if x then 2 ^ n else 0
  word (b (m.active.isSome || !m.steps.isEmpty) 31 + b m.pending.isSome 30 + b m.abort 29 + b m.mnan 28 + b m.minf 27 +
    bitsOf (·.err) * 2 ^ 16 + bitsOf (fun x => x.st != .idle) * 2 ^ 8 + bitsOf (fun x => x.st == .opened))

/-! ## Configuration -/

/-- The configuration word of MCFG. -/
def cfgWord (f : MF) (c : Ctx) : Word := f.long.getD (c.s f.lv.toNat)

/-- The head that MCFG.head writes (T7.2, T7.3). -/
def headOf (f : MF) (w : Word) : MHead :=
  { bt := f.bt.toNat, h := f.ac.toNat % 2, dual := f.ac.getLsbD 1, op := bits f.imm.toNat 15 14
    m := bits f.imm.toNat 13 7 + 1, n := f.imm.toNat % 128 + 1, row0 := bits w.toNat 48 42, k := bits w.toNat 41 32 + 1
    umask := w.truncate 32, ta := f.ta.toNat, tb := f.tb.toNat, tc := f.tc.toNat }

/-- MCFG.head's checks (R130, R137). -/
def mcfgHeadGuard (f : MF) (s : State) : Guard :=
  let c := s.curCtx
  let w := cfgWord f c
  let h := headOf f w
  let tids := (s.node c.rid).tids
  let except := if (c.matrix.batch h.bt).st == .opened then some h.bt else none
  .seq [need (bits w.toNat 63 49 == 0 && h.row0 + h.m <= 128) (trapAt mSlot .reservedField 0),
          need (h.ta < tids && h.tb < tids && h.tc < tids) (trapAt mSlot .permission 0),
          need (h.uses &&& c.matrix.busy except == 0) (trapAt mSlot .accumulatorBusy 0)]
/-- MCFG.head (R130, R343): the head of the shadow table at issue + 1. -/
def execMcfgHead (f : MF) (s : State) : Host.Outcome State Fault Refusal :=
  s.guarded (mcfgHeadGuard f s) [.slot s.curKey fun c => c.later 1 phSys (.mhead (headOf f (cfgWord f c)))]

/-- MCFG.level's check (R131). -/
def mcfgLevelGuard (f : MF) (s : State) : Guard :=
  need (bits (cfgWord f s.curCtx).toNat 63 49 == 0) (trapAt mSlot .reservedField 0)
/-- MCFG.level (R131, R343): one level of the shadow table at issue + 1. -/
def execMcfgLevel (f : MF) (s : State) : Host.Outcome State Fault Refusal :=
  s.guarded (mcfgLevelGuard f s) [.slot s.curKey fun c =>
    let w := (cfgWord f c).toNat
    c.later 1 phSys (.mlevel (f.imm.toNat % 8) (w % 2 ^ 16 + 1) (signed 16 (w / 2 ^ 16)) (signed 16 (w / 2 ^ 32))
      (bits w 48 48))]

/-- A route number that R80 makes unavailable. -/
def routeGuard (s : State) (slot gaunt n : Nat) : Guard :=
  let c := s.curCtx
  need (c.route (s.node c.rid).routes gaunt n).isSome (trapAt slot .permission n gaunt)
/-- MROUTE (R131, R350): the route of one level at issue + 1. -/
def execMroute (f : MF) (s : State) : Host.Outcome State Fault Refusal :=
  let route := bits f.imm.toNat 13 3
  s.guarded (routeGuard s mSlot 2 route)
    [.slot s.curKey fun c => c.later 1 phSys (.mroute (f.imm.toNat % 8) route)]

/-- MGATH's check (R86). -/
def mgathGuard (s : State) : Guard := solveGuard s mSlot
/-- MGATH (R135): a solve for the matrix gauntlet. -/
def execMgath (f : MF) (s : State) : Host.Outcome State Fault Refusal :=
  s.guarded (mgathGuard s) [solveStarts s, .slot s.curKey fun c =>
    let r := solve (elemsOf 32 (c.vspan c.iss.rrb (f.imm.toNat % 2048) 16))
    let m := f.tc.toNat % 16
    let due := c.iss.pos + 40
    c.pushAll [(due, phSys, .solver 2 (bits f.imm.toNat 14 11) r.1),
      (due, phReg, .scalar f.lv.toNat (word r.2.length)),
      (due, phReg, .mask m (loserMask r.2 0) (BitVec.allOnes 1024)),
      (due, phReg, .mask (m + 1) (loserMask r.2 1024) (BitVec.allOnes 1024))]]

/-! ## Nests -/

/-- The row base of a tensor identifier (R128). -/
def tidRow (t : BitVec 512) : Int := ((tidBase t + tidOfs t).toNat % 2 ^ 54 / 2 ^ 17 : Nat)
/-- Steps of a table. -/
def MTable.count (t : MTable) : Nat := if t.isLoad then 1 else t.levels.foldl (fun n l => n * l.count) 1

/-- A table joins its batch and the schedule (R132, R136, R347). -/
def Matrix.enter (m : Matrix) (t : MTable) (uses : BitVec 64) (pos : Nat) : Matrix :=
  let b := m.batch t.head.bt
  let p := stepPeriod t.head t.tidA t.isLoad
  let s0 := max (pos + 2) (m.lastS + m.lastP)
  let t := { t with start := s0, idx := List.replicate 6 0, dead := b.killed }
  let m := m.modBatch t.head.bt fun b =>
    { b with st := .opened, accs := b.accs ||| uses, left := if b.killed then b.left else b.left + t.count }
  let m := { m with lastS := s0 + (t.count - 1) * p, lastP := p }
  if m.active.isNone then { m with active := some t } else { m with pending := some t }

/-- The space of a tensor identifier's address. -/
def tidSpace (t : BitVec 512) : Nat := spaceOf (tidBase t + tidOfs t)
def tidPtr (t : BitVec 512) : Nat := (tidBase t + tidOfs t).toNat
/-- A KB tensor's planes lie on 64 B boundaries, and OFS is a multiple of its block's bytes (R114). -/
def planesAligned (t : BitVec 512) : Bool :=
  let f := tidFmt t
  !isKb f ||
  ((tidBase t).toNat % 64 == 0 && (tidScale t).toNat % 64 == 0 && (f != 17 || (tidPlane2 t).toNat % 64 == 0) &&
    (tidOfs t).toNat % (if f == 18 then 32 else 16) == 0)

/-- MGO's checks (R132), and those of the planes that its nest uses (R114; log 45). -/
def mgoGuard (f : MF) (s : State) : Guard :=
  let c := s.curCtx
  let m := c.matrix
  let h := m.shadow.head
  let ta := c.tid h.ta
  let tb := c.tid h.tb
  let tc := c.tid h.tc
  let b := f.bt.toNat
  let shape := matShape (tidFmt ta) h.k
  .seq [need (h.bt == b && (m.batch b).st != .committed) (trapAt mSlot .illegalBundle 0),
          need m.pending.isNone (trapAt mSlot .illegalBundle 0),
          need (tidFmt ta == tidFmt tb && (shape.map fun x => x.2.1) == some true) (trapAt mSlot .reservedField 0),
          need (h.op != 2 || tidFmt tc == 0) (trapAt mSlot .reservedField 0),
          need (h.dual || m.shadow.levels.all fun l => l.cstr == 0) (trapAt mSlot .reservedField 0),
          need (tidSpace ta == 0) (trapAt mSlot .space (tidPtr ta)),
          need (tidSpace tb == 0) (trapAt mSlot .space (tidPtr tb)),
          need (h.op != 2 || tidSpace tc == 0) (trapAt mSlot .space (tidPtr tc)),
          need (planesAligned ta) (trapAt mSlot .misalignment (tidPtr ta)),
          need (planesAligned tb) (trapAt mSlot .misalignment (tidPtr tb))]
/-- MGO (R132). -/
def execMgo (f : MF) (s : State) : Host.Outcome State Fault Refusal :=
  s.guarded (mgoGuard f s) [.slot s.curKey fun c =>
    let sh := c.matrix.shadow
    let h := sh.head
    let t := { sh with tidA := c.tid h.ta, tidB := c.tid h.tb, tidC := c.tid h.tc, isLoad := false }
    { c with matrix := c.matrix.enter t h.uses c.iss.pos }.progressed c.iss.tick]

/-- MLDA's checks (R139, R348). -/
def mldaGuard (f : MF) (s : State) : Guard :=
  let c := s.curCtx
  let m := c.matrix
  let t := c.tid f.tc.toNat
  .seq [need ((m.batch f.bt.toNat).st != .committed && m.pending.isNone) (trapAt mSlot .illegalBundle 0),
          routeGuard s mSlot 2 (f.imm.toNat % 2048),
          need (f.tc.toNat < (s.node c.rid).tids) (trapAt mSlot .permission 0),
          need (!(m.busy none).getLsbD f.ac.toNat) (trapAt mSlot .accumulatorBusy 0),
          need (tidFmt t <= 2) (trapAt mSlot .reservedField 0),
          need (tidSpace t == 0) (trapAt mSlot .space (tidPtr t))]
/-- MLDA (R139). -/
def execMlda (f : MF) (s : State) : Host.Outcome State Fault Refusal :=
  s.guarded (mldaGuard f s) [.slot s.curKey fun c =>
    let h := { MHead.blank with bt := f.bt.toNat, umask := 1#32 <<< (f.ac.toNat % 32) }
    let lv := { MLevel.blank with route := f.imm.toNat % 2048 } :: List.replicate 5 MLevel.blank
    let e := c.tid f.tc.toNat
    let t := { MTable.blank with head := h, levels := lv, tidA := e, isLoad := true, acc := f.ac.toNat }
    { c with matrix := c.matrix.enter t (1#64 <<< f.ac.toNat) c.iss.pos }]

/-- MCOMMIT's check (R136). -/
def mcommitGuard (f : MF) (s : State) : Guard :=
  need ((s.curCtx.matrix.batch f.bt.toNat).st == .opened) (trapAt mSlot .illegalBundle 0)
/-- MCOMMIT (R344). -/
def execMcommit (f : MF) (s : State) : Host.Outcome State Fault Refusal :=
  s.guarded (mcommitGuard f s)
    [.slot s.curKey fun c => { c with matrix := c.matrix.modBatch f.bt.toNat Batch.commit }]

/-- MWAITB waits until its batch is idle (R136, R353). -/
def mwaitbGuard (f : MF) (s : State) : Guard :=
  let b := s.curCtx.matrix.batch f.bt.toNat
  .seq [needElastic s mSlot, need (b.st != .opened) (trapAt mSlot .illegalBundle 0),
          await_ (b.st == .idle) (trapAt mSlot .illegalBundle 0)]
/-- MWAITB, whose completion is a progress event: the recorded fault is raised, unless one of the S slot stands that is not
TRAP's (R245, R386), and ERR bit b cleared. -/
def execMwaitb (f : MF) (s : State) : Host.Outcome State Fault Refusal :=
  s.guarded (mwaitbGuard f s) [.slot s.curKey fun c =>
    let b := f.bt.toNat
    let c := c.progressed c.iss.tick
    if (c.matrix.batch b).err then
      let x := mget c.engine (64 + b) { cause := .machine, ptr := 0, detail := 0 }
      { c with matrix := c.matrix.modBatch b fun b => { b with err := false }
               pending := c.firmTrap <|> some (trapEngine mSlot b x) }
    else c]

/-! ## Accumulator instructions -/

/-- MZERO's check (R354). -/
def mzeroGuard (f : MF) (s : State) : Guard :=
  let n := f.imm.toNat % 64 + 1
  need ((List.range n).all fun i => !(s.curCtx.matrix.busy none).getLsbD (f.ac.toNat + i)) (trapAt mSlot .accumulatorBusy 0)
/-- MZERO (R139). -/
def execMzero (f : MF) (s : State) : Host.Outcome State Fault Refusal :=
  s.guarded (mzeroGuard f s)
    [.slot s.curKey fun c => c.later 1 phSys (.accZero f.ac.toNat (f.imm.toNat % 64 + 1))]

/-- Lines of an output row, for a format that MDRAIN writes (R140). -/
def drainLr (ofmt : Nat) : Nat := if ofmt == 0 then 8 else if ofmt <= 2 then 4 else 2
/-- MDRAIN's checks (R140, R345). -/
def mdrainGuard (f : MF) (s : State) : Guard :=
  let c := s.curCtx
  let t := c.tid f.tc.toNat
  .seq [need (c.drainEnd <= c.iss.pos + 4) (trapAt mSlot .illegalBundle 0),
          need (f.tc.toNat < (s.node c.rid).tids) (trapAt mSlot .permission 0),
          need (!(c.matrix.busy none).getLsbD f.ac.toNat) (trapAt mSlot .accumulatorBusy 0),
          need (tidOfmt t <= 4 && tidRnd t <= 4) (trapAt mSlot .reservedField 0)]
/-- MDRAIN (R140). -/
def execMdrain (f : MF) (s : State) : Host.Outcome State Fault Refusal :=
  s.guarded (mdrainGuard f s) [.slot s.curKey fun c =>
    let e := c.tid f.tc.toNat
    { c with drainEnd := c.iss.pos + 4 + drainLr (tidOfmt e) / 2 }.later 1 phRead
      (.drainRead f.ac.toNat f.tc.toNat e)]

/-- An output line of a drain. -/
def drainLine (c : Ctx) (acc : Nat) (e : BitVec 512) (n : Nat) : Line :=
  let o := tidOfmt e
  let lr := drainLr o
  let per := 128 / lr
  ofElems 512 (width o) ((List.range per).map fun x =>
    (convert 0 o (tidRnd e) false false (c.acc acc (n / lr) (n % lr * per + x)).toNat).1)
/-- The tile is read (issue + 1): its lines and the amax merge are on their way. -/
def drainUpds (k : SlotKey) (acc tid : Nat) (e : BitVec 512) (due : Nat) : List Upd :=
  [.slot k fun c =>
    let d := drainLr (tidOfmt e) / 2
    let m := (List.range 16384).foldl (fun x i => max x ((c.acc acc (i / 128) (i % 128)).toNat % 2 ^ 31)) 0
    c.pushAll ((List.range d).map (fun y => (due + 3 + y, phPort, Effect.wLines
        ((List.range 256).map fun j => (1024 + j, drainLine c acc e (256 * y + j))) none 0)) ++
      [(due + 7, phReg, .amax tid m)])]
/-- The amax merge (R140): AMAX is bits [351:320]. -/
def Ctx.mergeAmax (tid m : Nat) (c : Ctx) : Ctx :=
  let e := c.tid tid
  c.setTid tid (tidPut e 5 (word ((tidPut e 5 0 ^^^ e).toNat / 2 ^ 352 * 2 ^ 32 % 2 ^ 64 + max (tidAmax e) m)))

/-! ## Steps -/

/-- The index vector after another, in the order of R128; the empty list after the last. -/
def nextIdx : List MLevel → List Nat → List Nat
  | l :: ls, i :: is =>
    if i + 1 < l.count then (i + 1) :: is
    else match nextIdx ls is with
      | [] => []
      | r => 0 :: r
  | _, _ => []

/-- A sum over the levels. -/
def levelSum (t : MTable) (g : MLevel → Int) : Int :=
  (t.levels.zip t.idx).foldl (fun z x => z + g x.1 * (x.2 : Int)) 0
/-- The route number of the step (R128). -/
def stepRoute (t : MTable) : Nat :=
  let edge := ((t.levels.zip t.idx).zipIdx.filter fun x =>
    0 < x.2 && x.1.1.route != 0 && x.1.2 + 1 == x.1.1.count).map fun x => x.1.1.route
  edge.getLastD (at0 t.levels 0 .blank).route

/-- The step that an active table starts (R125, R128). -/
def stepOf (t : MTable) : MStep :=
  let s := stepShape t.head t.tidA t.isLoad
  { start := t.start, reads := s.1, done := t.start + s.1 + s.2 + 4, batch := t.head.bt, head := t.head
    tidA := t.tidA, tidB := t.tidB, tidC := t.tidC
    rowA := tidRow t.tidA + levelSum t (·.astr), rowB := tidRow t.tidB + levelSum t (·.bstr)
    rowC := tidRow t.tidC + levelSum t (·.bstr), route := stepRoute t
    half := (t.head.h + (levelSum t fun l => l.cstr).toNat) % 2
    isLoad := t.isLoad, acc := t.acc, latches := [], seen := [], applied := false }

/-- The active table starts the step due at this position; when it was the last, the table is released in the die cycle
after its last read cycle (R133, R347). -/
def Ctx.startStep (c : Ctx) : Ctx :=
  match c.matrix.active with
  | some t =>
    if t.start == c.pos && !t.idx.isEmpty then
      let st := stepOf t
      let next := if t.isLoad then [] else nextIdx t.levels t.idx
      let t' := { t with idx := next, start := t.start + stepPeriod t.head t.tidA t.isLoad }
      let m := { c.matrix with active := some t', freeAt := if next.isEmpty then st.start + st.reads else c.matrix.freeAt }
      if t.dead then { c with matrix := m }
      else
        { c with matrix := { m with steps := m.steps ++ [st] } }.pushAll
          ((List.range st.reads).map fun i => (st.start + i, phRead, .matRead st.start i))
    else c
  | none => c
/-- MATRIX_STEP_START (R133). -/
def execMatrixStepStart (s : State) : Host.Outcome State Fault Refusal := s.onSlot Ctx.startStep

/-- The active table is free, or released at this position; the pending one moves into it (R347). -/
def Ctx.moveTable (c : Ctx) : Ctx :=
  match c.matrix.active with
  | some t =>
    if t.idx.isEmpty && c.matrix.freeAt <= c.pos then
      { c with matrix := { c.matrix with active := c.matrix.pending, pending := none } }
    else c
  | none => { c with matrix := { c.matrix with active := c.matrix.pending, pending := none } }
/-- TABLE_MOVE (R347). -/
def execTableMove (s : State) : Host.Outcome State Fault Refusal := s.onSlot Ctx.moveTable

/-- The ports that carry lines in read cycle i of a step: unit, side, port, row base, 1 for a BIAS line (R127, R128). -/
def stepPorts (st : MStep) (i : Nat) : List (Nat × Nat × Nat × Int) :=
  let units := (List.range 32).filter fun u => st.head.umask.getLsbD u
  let la := (matShape (tidFmt st.tidA) st.head.k).map fun x => x.2.2
  let bias := !st.isLoad && st.head.op == 2 && i + 1 == st.reads
  units.flatMap fun u =>
    if st.isLoad then (List.range 32).map fun j => (u, 0, j, st.rowA + i)
    else
      ((List.range 32).filter fun j => 32 * i + j < st.head.m * la.getD 0).map (fun j => (u, 0, j, st.rowA + i)) ++
      (if bias then (List.range 8).map fun j => (u, 1, j, st.rowC)
       else ((List.range 32).filter fun j => 32 * i + j < st.head.n * la.getD 0).map fun j => (u, 1, j, st.rowB + i))

/-- Where a latch keeps a line. -/
def latchKey (u side j i : Nat) : Nat := ((u * 2 + side) * 32 + j) * 64 + i

/-- The fault of a read cycle, with the line's pointer (R138). Where several lines of one read cycle meet a fault the spec
does not say which is recorded: the model records the first in the order of the units, A ports before B ports (DESIGN
CHOICE, log 17). -/
def stepFault (s : State) (c : Ctx) (lines : List (Int × Nat)) : Option EngFault :=
  lines.findSome? fun l =>
    if l.1 < 0 || ((s.node c.rid).brows : Int) <= l.1 then
      some { cause := .permission, ptr := wordI (l.1 * 2 ^ 17 + l.2 * 64), detail := 0 }
    else if (s.die c.die).lineBad (c.lineNo l.1.toNat l.2) true then
      some { cause := .machine, ptr := wordI (l.1 * 2 ^ 17 + l.2 * 64), detail := 0 }
    else none

/-- A step meets a fault: its batch ends with an error and its remaining steps are cancelled (R138). The places that
cancelled steps keep hold no batch: a committed one is idle at once, or when its last step in its compute phase completes
(log 45). -/
def Ctx.failStep (st : MStep) (x : EngFault) (c : Ctx) : Ctx :=
  let b := st.batch
  let c := c.recordEngine (64 + b) (c.matrix.batch b).err x
  let steps : List MStep := c.matrix.steps.filter fun y => y.start != st.start && (y.batch != b || y.start + y.reads <= c.pos)
  let dead := fun (t : MTable) => if t.head.bt == b then { t with dead := true } else t
  let m := { c.matrix with steps := steps, active := c.matrix.active.map dead, pending := c.matrix.pending.map dead }
  { c with matrix := m.modBatch b fun y =>
      { y with err := true, killed := true, left := (steps.filter fun (z : MStep) => z.batch == b).length }.settle }

/-- The route of read cycle i of a step: the one that has served it, or its route as it stands (R350). -/
def MStep.routeAt (s : State) (c : Ctx) (st : MStep) (i : Nat) : Route :=
  (mfind i st.seen).getD (c.routeOr (s.node c.rid).routes 2 st.route)
/-- What read cycle i of a step reads: the latch, row and bank of each line. -/
def stepHits (s : State) (c : Ctx) (st : MStep) (i : Nat) : List (Nat × Int × Nat) :=
  let route := st.routeAt s c i
  (stepPorts st i).filterMap fun p =>
    (route.source (64 * p.1 + 32 * p.2.1 + p.2.2.1)).map fun b =>
      (latchKey p.1 p.2.1 p.2.2.1 i, p.2.2.2 + (b.2 : Int), b.1)
/-- Read cycle i of the step that started at `start`. A latch that a step begun again has kept stays (log 17). -/
def matReadUpds (s : State) (k : SlotKey) (start i : Nat) : List Upd :=
  let c := s.slot k
  match c.matrix.steps.find? fun st => st.start == start with
  | none => []
  | some st =>
    let hits := stepHits s c st i
    let notes := hits.flatMap fun h => if h.2.1 < 0 then [] else eccNote s c h.2.1.toNat h.2.2
    match stepFault s c (hits.map fun h => h.2) with
    | some x => notes ++ [.slot k (Ctx.failStep st x)]
    | none =>
      let put := hits.foldl (fun m h =>
        if (mfind h.1 m).isSome then m else mput h.1 (s.bankLine c h.2.1.toNat h.2.2) m) st.latches
      notes ++ [.slot k fun c => { c with matrix := { c.matrix with steps := c.matrix.steps.map fun y =>
          if y.start == start then { y with latches := put, seen := mput i (st.routeAt s c i) y.seen } else y } }]

/-- A step whose reads a stop cuts off is abandoned, to start again at its own offset after the resumption (R143): its
reads up to the drain's are due anew in the first die cycle then, by the routes that served them. A line that was written
after its first read keeps that read's value, so that each read stands where it did among the slot's writes (log 17). -/
def MStep.again (s : State) (c : Ctx) (st : MStep) : MStep :=
  let keep := ((List.range st.reads).filter fun i => st.start + i <= c.pos).flatMap fun i =>
    (stepHits s c st i).filterMap fun h =>
      if h.2.1 < 0 || mget st.latches h.1 0 == s.bankLine c h.2.1.toNat h.2.2 then none else some h.1
  { st with latches := st.latches.filter fun e => keep.contains e.1 }
/-- The engine comes to a step boundary (R143). -/
def Ctx.abandonSteps (s : State) (c : Ctx) : Ctx :=
  let cut := fun (st : MStep) => st.start <= c.pos && c.pos + 1 < st.start + st.reads
  let reads := (c.matrix.steps.filter cut).flatMap fun st =>
    ((List.range st.reads).filter fun i => st.start + i <= c.pos).map fun i => (st.start + i, phRead, Effect.matRead st.start i)
  { c with matrix := { c.matrix with steps := c.matrix.steps.map fun st => if cut st then st.again s c else st } }.pushAll reads

/-! ## What a step computes -/

/-- Panel line n of a side of a unit. -/
def MStep.line (st : MStep) (u side n : Nat) : Line := mget st.latches (latchKey u side (n % 32) (n / 32)) 0
/-- Element e at width w, from line `first` of the panel on. -/
def MStep.el (st : MStep) (u side first w e : Nat) : Nat := elem (st.line u side (first + e / (512 / w))) w (e % (512 / w))

/-- The first line of a panel row. -/
def MStep.rowLine (st : MStep) (row : Nat) : Nat := row * ((matShape (tidFmt st.tidA) st.head.k).map fun x => x.2.2).getD 1
/-- Operand k of a panel row of i8 or i4. -/
def panelInt (st : MStep) (u side row kk : Nat) : Int :=
  let fmt := tidFmt st.tidA
  intVal fmt (st.el u side (st.rowLine row) (width fmt) kk)
/-- Operand k of a panel row of floating-point numbers or of a KB format (R109, R113, R127). -/
def panelVal (st : MStep) (u side row kk : Nat) : FVal :=
  let fmt := tidFmt st.tidA
  let k := st.head.k
  let c := fun n d => (n + d - 1) / d
  let la := ((matShape fmt k).map fun x => x.2.2).getD 1
  let base := st.rowLine row
  if isKb fmt then
    let sub := fmt - 16
    let code :=
      if fmt == 18 then st.el u side base 8 kk
      else if fmt == 16 then st.el u side base 4 kk
      else st.el u side base 4 kk * 4 + st.el u side (base + c k 128) 2 kk
    let scale := base + la - c k 1024
    kbVal sub (st.el u side scale 8 (2 * (kk / 32))) (st.el u side scale 8 (2 * (kk / 32) + 1)) code
  else (ffmt fmt).val (st.el u side base (width fmt) kk)

/-- The chunks of 32 products of an output element (R124). -/
def chunks {α : Type} (k : Nat) (a b : Nat → α) : List (List (α × α)) :=
  (List.range ((k + 31) / 32)).map fun c =>
    (List.range (min 32 (k - 32 * c))).map fun i => (a (32 * c + i), b (32 * c + i))

/-- The new value of element (i, j) of a unit's tile. -/
def stepElem (c : Ctx) (st : MStep) (u i j : Nat) : Nat :=
  let t := u + 32 * st.half
  let init :=
    if st.head.op == 0 then (c.acc t (st.head.row0 + i) j).toNat
    else if st.head.op == 1 then 0
    else elem (mget st.latches (latchKey u 1 (j / 16) (st.reads - 1)) 0) 32 (j % 16)
  if isIntTy (tidFmt st.tidA) then (chunks st.head.k (panelInt st u 0 i) (panelInt st u 1 j)).foldl accStepInt init
  else (chunks st.head.k (panelVal st u 0 i) (panelVal st u 1 j)).foldl accStep init

/-- The value that MLDA gives element (i, j). -/
def loadElem (st : MStep) (i j : Nat) : Nat :=
  let fmt := tidFmt st.tidA
  let lr := if fmt == 0 then 8 else 4
  (convert fmt 0 0 false false (st.el (st.acc % 32) 0 (i * lr) (width fmt) j)).1

/-- The accumulator elements that a step writes (R125, R139). -/
def stepWrites (c : Ctx) (st : MStep) : List (Nat × F32) :=
  let f32 := fun (x : Nat) => BitVec.ofNat 32 x
  if st.isLoad then
    (List.range 16384).map fun e => (accIdx st.acc (e / 128) (e % 128), f32 (loadElem st (e / 128) (e % 128)))
  else
    ((List.range 32).filter fun u => st.head.umask.getLsbD u).flatMap fun u =>
      (List.range (st.head.m * st.head.n)).map fun e =>
        let i := e / st.head.n
        let j := e % st.head.n
        (accIdx (u + 32 * st.half) (st.head.row0 + i) j, f32 (stepElem c st u i j))

/-- Applies a step's result; MNAN and MINF note what it wrote, a load's values aside (R142). -/
def Ctx.applyStep (st : MStep) (c : Ctx) : Ctx :=
  let ws := stepWrites c st
  let mag := fun (x : F32) => x.toNat % 2 ^ 31
  { c with
    accs := ws.foldl (fun m w => mput w.1 w.2 m) c.accs
    matrix := { c.matrix with
      mnan := c.matrix.mnan || ws.any fun w => 0x7F800000 < mag w.2
      minf := c.matrix.minf || ws.any fun w => mag w.2 == 0x7F800000
      steps := c.matrix.steps.map fun y => if y.start == st.start then { y with applied := true } else y } }

/-- The steps due at this position complete; results take effect in step order (R125, R133). A step that completes before
an earlier one has the earlier one's writes, MNAN and MINF take effect first, in that same die cycle (log 45). -/
def Ctx.completeSteps (c : Ctx) : Ctx :=
  match c.matrix.steps.find? fun st => st.done <= c.pos with
  | none => c
  | some st =>
    let earlier := c.matrix.steps.filter fun y => y.start <= st.start && !y.applied
    let c := earlier.foldl (fun c y => c.applyStep y) c
    let m := { c.matrix with steps := c.matrix.steps.filter fun y => y.start != st.start }
    { c with matrix := m.modBatch st.batch fun b => { b with left := b.left - 1 }.settle }
/-- MATRIX_STEP_COMPLETE (R125, R133, R136). -/
def execMatrixStepComplete (s : State) : Host.Outcome State Fault Refusal := s.onSlot Ctx.completeSteps

/-! ## MSTOP (R141, R351) -/

/-- The engine stops: tables discarded, read-phase and later steps abandoned, batches idle, errors cleared. No step is
scheduled any more, so that the next MGO's S0 is two die cycles after its issue (log 45). -/
def Ctx.stopEngine (c : Ctx) : Ctx :=
  let m := c.matrix
  let keep := m.steps.filter fun st => st.start + st.reads <= c.pos
  { c with matrix := { m with
      active := none, pending := none, steps := keep, batches := [], abort := true
      lastS := 0, lastP := 0 } }
/-- MSTOP completes when no step is running. -/
def mstopGuard (s : State) : Guard :=
  .seq [needElastic s mSlot, await_ s.curCtx.matrix.steps.isEmpty (trapAt mSlot .illegalBundle 0)]
/-- MSTOP. -/
def execMstop (_f : MF) (s : State) : Host.Outcome State Fault Refusal :=
  if s.curCtx.iss.elastic then
    let s' := s.commit [.slot s.curKey Ctx.stopEngine]
    s'.guarded (mstopGuard s') []
  else s.guarded (mstopGuard s) []

end Sys2Proof.Machine
end

