-- ==== Sys2Proof/Machine/Circuit.lean ====
section
/-! DEFINITION. The X slot and timed circuits: XSEND, XRECV, launches, landings and windows (R238–R242, R428). -/

namespace Sys2Proof.Machine

/-! ## Circuit descriptors (T12.5) -/

def circFlight (d : BitVec 256) : Nat := (d.extractLsb' 32 16).toNat
def circPeerPkg (d : BitVec 256) : Nat := (d.extractLsb' 16 10).toNat
def circPeerSlot (d : BitVec 256) : Nat := (d.extractLsb' 12 3).toNat
def circPeerOc (d : BitVec 256) : Nat := (d.extractLsb' 4 8).toNat
/-- 0 row port, 1 column port. -/
def circPort (d : BitVec 256) : Nat := (d.extractLsb' 2 1).toNat
/-- 0 send, 1 receive. -/
def circDir (d : BitVec 256) : Nat := (d.extractLsb' 1 1).toNat
def circValid (d : BitVec 256) : Bool := d.getLsbD 0
def circStart (d : BitVec 256) : Nat := (d.extractLsb' 64 64).toNat
def circPeriod (d : BitVec 256) : Nat := (d.extractLsb' 160 32).toNat
def circLen (d : BitVec 256) : Nat := (d.extractLsb' 128 16).toNat

/-- The number of a circuit: partition, package, die slot, index. -/
def circKey (part pkg slot n : Nat) : Nat := ((1024 * part + pkg) * 8 + slot) * 256 + n
def circKeyPart (k : Nat) : Nat := k / 2 ^ 21
def circKeyPkg (k : Nat) : Nat := k / 2 ^ 11 % 1024
def State.circuit (s : State) (k : Nat) : Circuit := (mfind k s.circuits).getD .blank

/-- The end of the window that holds a tick, under a time base (R239). -/
def circWindow (d : BitVec 256) (tbase tick : Nat) : Option Nat :=
  let s0 := (tbase + circStart d) % 2 ^ 64
  if tick < s0 then none
  else
    let k := if circPeriod d == 0 then 0 else (tick - s0) / circPeriod d
    let e := s0 + k * circPeriod d + circLen d
    if tick < e then some e else none

/-- Units whose window has ended are discarded. -/
def Circuit.purge (tbase tick : Nat) (x : Circuit) : Circuit :=
  { x with buf := x.buf.filter fun u => match circWindow x.desc tbase u.arrival with
      | some e => tick < e
      | none => false }

/-- Units that the region bound before has left are discarded with their window. -/
def Circuit.expire (tick : Nat) (x : Circuit) : Circuit := { x with buf := x.buf.filter fun u => u.ends == 0 || tick < u.ends }

/-- The first X-slot instruction binds a circuit; held units are judged (R239). -/
def Circuit.bind (k : SlotKey) (tbase tick : Nat) (x : Circuit) : Circuit :=
  match x.bound with
  | some _ => x
  | none =>
    let x := x.expire tick
    { x with bound := some k
             overflow := x.overflow || x.buf.any fun u => (circWindow x.desc tbase u.arrival).isNone }.purge tbase tick

/-- A binding ends because its region is DONE (R239). -/
def Circuit.unbind (x : Circuit) : Circuit := { x with bound := none, buf := [], overflow := false, badUnit := false }
/-- A binding ends because its region has been stopped: the units that the circuit holds are discarded as their window
ends (R239, R437). -/
def Circuit.release (tbase : Nat) (x : Circuit) : Circuit :=
  { x with
    bound := none, overflow := false, badUnit := false
    buf := x.buf.filterMap fun u => (circWindow x.desc tbase u.arrival).map fun e => { u with ends := e } }

/-! ## Checks -/

/-- FSR.SLOT of the X slot. -/
def xSlot : Nat := 6
def xCirc (f : XF) (s : State) (c : Ctx) : Nat := circKey (s.node c.rid).part c.pkg c.slot f.oc.toNat
/-- T of XSEND and XRECV. -/
def xAt (f : XF) (c : Ctx) : Nat := max (c.iss.target + f.off.toNat) c.iss.tick
/-- The link of a circuit is up, and the die's own circuit to the optical port (R12, R13). -/
def State.circUp (s : State) (c : Ctx) (d : BitVec 256) : Bool :=
  let q := circPeerPkg d
  s.toPort c.pkg c.phys && s.hopUp (c.pkg, circPort d, (if circPort d == 0 then colOf q else rowOf q), q)

/-- The checks of R239 and R240, and that T lies in a window. -/
def xCheck (f : XF) (dir : Nat) (s : State) : Guard :=
  let c := s.curCtx
  let x := s.circuit (xCirc f s c)
  let t := xAt f c
  .seq [need c.iss.anchored (trapAt xSlot .illegalBundle 0),
    need (circValid x.desc && circDir x.desc == dir && (x.bound.all fun k => keyRid k == c.rid) &&
        circLen x.desc <= (s.node c.rid).cwmax && s.circUp c x.desc && (circWindow x.desc c.tbase t).isSome)
      (trapAt xSlot .circuitDown t f.oc.toNat)]

/-- The circuit bound to the running slot, without the units of ended windows. -/
def State.boundCirc (s : State) (c : Ctx) (n : Nat) : Circuit :=
  let k := circKey (s.node c.rid).part c.pkg c.slot n
  ((s.circuit k).bind c.key c.tbase (s.gtc c.pkg)).purge c.tbase (s.gtc c.pkg)
/-- Stores it. -/
def bindUpds (s : State) (c : Ctx) (n : Nat) (g : Circuit → Circuit) : List Upd :=
  [.circuit (circKey (s.node c.rid).part c.pkg c.slot n) (fun _ => some (g (s.boundCirc c n))),
   .slot c.key fun y => { y with bound := if y.bound.contains n then y.bound else y.bound ++ [n] }]

/-! ## XSEND (R241) -/

def xsendGuard (f : XF) (s : State) : Guard :=
  let c := s.curCtx
  let t := xAt f c
  .seq [xCheck f 0 s,
    need ((s.circuit (xCirc f s c)).launch.all fun l => l + 4 <= t) (trapAt xSlot .circuitDown t f.oc.toNat)]
/-- The unit is launched at T with the data read at issue. -/
def xsendUpds (f : XF) (s : State) : List Upd :=
  let c := s.curCtx
  let u : XUnit := { data := c.v (physV c.iss.rrb f.v.toNat), good := true, arrival := 0, ends := 0 }
  bindUpds s c f.oc.toNat (fun x => { x with launch := some (xAt f c), out := x.out ++ [(xAt f c, u)] }) ++
  [.slot s.curKey fun c => c.progressed c.iss.tick]
/-- XSEND (R241). -/
def execXsend (f : XF) (s : State) : Host.Outcome State Fault Refusal := s.guarded (xsendGuard f s) (xsendUpds f s)

/-! ## XRECV (R242) -/

/-- The trap of taking a unit at T, if any. -/
def Circuit.refuses (x : Circuit) (n t : Nat) : Option Trap :=
  let arrival := match x.buf with
    | u :: _ => u.arrival
    | [] => 0
  if x.badUnit then some (trapAt xSlot .checkMismatch t n arrival)
  else if x.overflow || x.buf.isEmpty || t < arrival then some (trapAt xSlot .lateArrival t n arrival)
  else none
/-- The unit that is taken. -/
def Circuit.oldest (x : Circuit) : VReg := match x.buf with
  | u :: _ => u.data
  | [] => 0
/-- A unit is taken, or the mark that trapped is cleared. -/
def Circuit.took (x : Circuit) : Circuit := { x with buf := x.buf.drop 1 }
def Circuit.unmark (x : Circuit) : Circuit := { x with overflow := false, badUnit := false }

def xrecvGuard (f : XF) (s : State) : Guard :=
  let c := s.curCtx
  .seq [xCheck f 1 s,
    if xAt f c == c.iss.tick then
      match (s.boundCirc c f.oc.toNat).refuses f.oc.toNat (xAt f c) with
      | some t => .trap t
      | none => .go
    else .go]
/-- The unit is taken at once, or at T. -/
def xrecvUpds (f : XF) (s : State) : List Upd :=
  let c := s.curCtx
  let r := physV c.iss.rrb f.v.toNat
  if xAt f c == c.iss.tick then
    bindUpds s c f.oc.toNat Circuit.took ++ [.slot s.curKey fun y => y.setV r (s.boundCirc c f.oc.toNat).oldest]
  else
    bindUpds s c f.oc.toNat id ++
    [.slot s.curKey fun y =>
      { y with xrecvs := y.xrecvs ++ [(f.oc.toNat, r, xAt f c, y.nextSeq)], nextSeq := y.nextSeq + 1 }]
/-- A late-arrival or check-mismatch trap at the bundle binds the circuit and clears its mark. -/
def xTrapUpds (s : State) (t : Trap) : List Upd :=
  if t.slot == xSlot && (t.cause == .lateArrival || t.cause == .checkMismatch) then
    bindUpds s s.curCtx t.detail Circuit.unmark
  else []
/-- XRECV (R242). -/
def execXrecv (f : XF) (s : State) : Host.Outcome State Fault Refusal :=
  match xrecvGuard f s with
  | .trap t => (fun s' => s'.by_ (takeTrap s' s'.curKey t)) (s.commit (xTrapUpds s t))
  | g => s.guarded g (xrecvUpds f s)

/-- The XRECV that is due at a tick: the first in the order of the writes. -/
def Ctx.xrecvDue (c : Ctx) (tick : Nat) : Option (Nat × Nat × Nat × Nat) := c.xrecvs.find? fun x => x.2.2.1 <= tick
/-- XRECV_TAKE (R242): in the first die cycle at or after T; the trap of a unit that is not there waits for the first
bundle that issues from then on. -/
def execXrecvTake (s : State) : Host.Outcome State Fault Refusal :=
  let c := s.curCtx
  match c.xrecvDue (s.dieTick s.cur) with
  | none => s.same
  | some x =>
    let done : Ctx → Ctx := fun y => { y with xrecvs := y.xrecvs.filter fun z => z.2.2.2 != x.2.2.2 }
    match (s.boundCirc c x.1).refuses x.1 x.2.2.1 with
    | none => s.by_ (.slot s.curKey (fun y => (done y).setV x.2.1 (s.boundCirc c x.1).oldest) ::
        bindUpds s c x.1 Circuit.took)
    | some t => s.by_ (.slot s.curKey (fun y => { done y with late := y.late ++ [t] }) ::
        bindUpds s c x.1 Circuit.unmark)

/-! ## Units on their way -/

/-- XSEND_LAUNCH (R241): a unit leaves at its tick T and lands FLIGHT ticks later. -/
def execXsendLaunch (circ : Nat) (s : State) : Host.Outcome State Fault Refusal :=
  let x := s.circuit circ
  match x.out with
  | (t, u) :: rest =>
    if t <= s.gtc (circKeyPkg circ) then
      s.by_ [.circuit circ fun _ => some { x with out := rest, flying := x.flying ++ [(t + circFlight x.desc, u)] }]
    else s.same
  | [] => s.same

/-- A unit lands on a circuit at the receiver's tick (R239). -/
def Circuit.receive (s : State) (tick : Nat) (u : XUnit) (x : Circuit) : Circuit :=
  let u := { u with arrival := tick }
  let drop := { x with overflow := true }
  let keep := fun (y : Circuit) => if y.buf.length < 16 then { y with buf := y.buf ++ [u] } else { y with overflow := true }
  if !circValid x.desc || circDir x.desc != 1 then x
  else if !u.good then { x with badUnit := true }
  else
    match x.bound with
    | none => keep x
    | some k =>
      let c := s.slot k
      if c.mode == .stopped || (s.node (keyRid k)).st == 4 || (circWindow x.desc c.tbase tick).isNone then drop else keep (x.purge c.tbase tick)

/-- UNIT_LANDING (R239, R241): a unit in flight lands after FLIGHT ticks of the sender's GTC; a damaged one (the operand
above bit 56) is marked for the receiver's check. -/
def execUnitLanding (circ : Nat) (s : State) : Host.Outcome State Fault Refusal :=
  let k := circ % 2 ^ 56
  let x := s.circuit k
  match x.flying with
  | (t, u) :: rest =>
    if circ / 2 ^ 56 != 0 then
      s.by_ [.circuit k fun _ => some { x with flying := (t, { u with good := false }) :: rest }]
    else if t <= s.gtc (circKeyPkg k) then
      let q := circPeerPkg x.desc
      let peer := circKey (circKeyPart k) q (circPeerSlot x.desc) (circPeerOc x.desc)
      s.by_ [.circuit k (fun _ => some { x with flying := rest }),
             .circuit peer fun y => y.map (Circuit.receive s (s.gtc q) u)]
    else s.same
  | [] => s.same

/-- WINDOW_END (R239): units unconsumed when a window ends are discarded. -/
def execWindowEnd (circ : Nat) (s : State) : Host.Outcome State Fault Refusal :=
  match (s.circuit circ).bound with
  | some k => s.by_ [.circuit circ fun y => y.map (Circuit.purge (s.slot k).tbase (s.gtc (circKeyPkg circ)))]
  | none => s.by_ [.circuit circ fun y => y.map (Circuit.expire (s.gtc (circKeyPkg circ)))]

/-- The region holds an open circuit window (R46, R239). -/
def State.windowOpen (s : State) (r : Rid) : Bool :=
  s.circuits.any fun e => match e.2.bound with
    | some k => keyRid k == r && (circWindow e.2.desc (s.slot k).tbase (s.gtc (circKeyPkg e.1))).isSome
    | none => false

/-- A window overrun: the receiving circuits of some slots lose their units and are marked (R239). -/
def overrunUpds (s : State) (of : SlotKey → Bool) : List Upd :=
  (s.circuits.filter fun e => circDir e.2.desc == 1 && e.2.bound.any of).map fun e =>
    .circuit e.1 fun y => y.map fun x => { x with buf := [], overflow := true }
/-- The region's bindings end: it is DONE, or it has been stopped by a fault or a cancellation. -/
def unbindUpds (s : State) (r : Rid) (stopped : Bool) : List Upd :=
  (s.circuits.filter fun e => e.2.bound.any fun k => keyRid k == r).map fun e =>
    .circuit e.1 fun y => y.map fun x =>
      if stopped then x.release ((s.slot (x.bound.getD 0)).tbase) else x.unbind

end Sys2Proof.Machine
end

