-- ==== Sys2Proof/Machine/Memory.lean ====
section
/-! DEFINITION. S-slot memory instructions: LD, ST, ATOM, RED, LQPOP, APUSH, FENCE, WAITW (R103, R161, R162, R169,
R177, R190–R193). -/

namespace Sys2Proof.Machine

/-! ## Scopes (R190) -/

/-- The home of a pointer lies in a scope, for a slot (T10.3). -/
def State.inScope (s : State) (k : SlotKey) (scope : Nat) (ptr : Word) : Bool :=
  let of_ := fun p => if p == keyPkg k then 1 <= scope else 2 <= scope
  match spaceOf ptr with
  | 0 => true
  | 1 => ptrSlot ptr == keySlot k || 1 <= scope
  | 2 => 1 <= scope
  | 3 => of_ (s.destPkg (s.node (keyRid k)).part (keyPkg k) ptr)
  | 4 => of_ (ptrPkg ptr)
  | _ => 4 <= scope

/-- A result in flight that accesses the die's own banks (T10.1). -/
def Effect.isBank : Effect → Bool
  | .vlate _ _ _ => true
  | .vldRead _ _ _ _ _ => true
  | .wLines _ _ _ => true
  | .qLines _ => true
  | .ldRead _ _ _ _ => true
  | .bankBytes _ _ => true
  | .bankWrite _ _ => true
  | .bankAtom _ _ _ _ _ _ => true
  | .drainRead _ _ _ => true
  | .cuffSend _ _ _ => true
  | _ => false
/-- A result in flight that belongs to an LD or ATOM of the own banks. -/
def Effect.isOwnRead : Effect → Bool
  | .ldRead _ _ _ _ => true
  | .bankAtom _ _ _ _ _ (some _) => true
  | _ => false
/-- A result in flight that belongs to a RED of the own banks. -/
def Effect.isOwnRed : Effect → Bool
  | .bankAtom _ _ _ _ _ none => true
  | _ => false

/-- No bank access of the slot is outstanding; the last one performed in an earlier die cycle (R330). -/
def Ctx.banksDone (c : Ctx) : Bool := !(c.land.any fun l => l.eff.isBank) && c.performed != c.pos + 1
/-- No LD or ATOM of the own banks is outstanding, and no RED. -/
def Ctx.readsDone (c : Ctx) : Bool := !(c.land.any fun l => l.eff.isOwnRead) && c.ownRead != c.pos + 1
def Ctx.redsDone (c : Ctx) : Bool := !(c.land.any fun l => l.eff.isOwnRed) && c.ownRed != c.pos + 1

/-- Not performed, or faulted and not yet reported (R191). -/
def Req.unsettled (r : Req) : Bool :=
  match r.st with
  | .performed _ => false
  | _ => true

/-- A release at a scope is complete (R191). -/
def State.released (s : State) (k : SlotKey) (scope : Nat) : Bool :=
  (s.slot k).banksDone &&
  !(s.reqs.any fun r => r.key == k && r.owner.isNone && r.unsettled && s.inScope k scope r.ptr)

/-- What an acquire at a scope waits for (R191). -/
def State.acquireRefs (s : State) (k : SlotKey) (scope : Nat) : List Nat :=
  let c := s.slot k
  (if c.readsDone then [] else [0]) ++
  (c.lq.filter fun e => e.st == .waiting &&
    match s.reqs.find? fun r => r.key == k && r.lq == some e.id with
    | some r => s.inScope k scope r.ptr
    | none => true).map fun e => 1 + 2 * e.id
/-- What stands for an own-bank RED, and for a FENCE whose acquire part holds the bundles after it. -/
def refRed : Nat := 2 ^ 64
def refFence : Nat := 2 ^ 64 + 1
/-- One of these has come to pass. -/
def State.acquireMet (s : State) (k : SlotKey) (n : Nat) : Bool :=
  let c := s.slot k
  if n == 0 then c.readsDone
  else if n == refRed then c.redsDone
  else if n == refFence then true
  else if n % 2 == 1 then !(c.lq.any fun e => e.id == n / 2 && e.st == .waiting)
  else match s.req? ((n - 2) / 2) with
    | some r => r.key != k || !r.unsettled
    | none => true
/-- An acquire at a scope is complete. -/
def State.acquired (s : State) (k : SlotKey) (scope : Nat) : Bool :=
  (s.acquireRefs k scope).all (s.acquireMet k)

/-! ## Accesses -/

/-- The space check, then the alignment check, of an S-slot access (R159, R161, R336). -/
def ptrGuard (s : State) (k : SlotKey) (p : Word) (size : Nat) : Guard :=
  .seq [need (ptrOk (s.node (keyRid k)).slots p) (trapAt 0 .space p.toNat),
          need (p.toNat % size == 0) (trapAt 0 .misalignment p.toNat)]
/-- The precise checks of an access to the own banks (T9.3). -/
def ownGuard (s : State) (k : SlotKey) (p : Word) : Guard :=
  if spaceOf p != 0 then .go
  else match s.bankReach (s.slot k) (offsetBits p) with
    | .fault c => .trap (trapAt 0 c p.toNat)
    | _ => .go

/-- The next load-queue entry (R103). -/
def Ctx.lqAlloc (c : Ctx) : Ctx :=
  { c with lq := c.lq ++ [{ id := c.nextLq, st := .waiting }], nextLq := c.nextLq + 1 }
/-- An entry of the store queue (R169). -/
def Ctx.sqPush (c : Ctx) (i : Nat) : Ctx := { c with sq := c.sq ++ [i] }
def lqGuard (c : Ctx) : Guard := await_ (c.lq.length < 256) (trapAt 0 .queueOverrun 0 detailLq)
def sqGuard (c : Ctx) : Guard := await_ (c.sq.length < 256) (trapAt 0 .queueOverrun 0 detailSq)

/-- The address of LD and ST. -/
def SF.addr (f : SF) (c : Ctx) : Word := f.av c + f.bv c
def SF.size (f : SF) : Nat := 2 ^ (f.mod.toNat % 8)

/-- LD's checks (R336). -/
def ldGuard (f : SF) (s : State) : Guard :=
  let c := s.curCtx
  let p := SF.addr f c
  .seq [ptrGuard s s.curKey p (SF.size f), ownGuard s s.curKey p, if spaceOf p == 0 then .go else lqGuard c]
/-- LD's effect. -/
def ldUpds (f : SF) (s : State) : List Upd :=
  let c := s.curCtx
  let p := SF.addr f c
  if spaceOf p == 0 then
    [.slot s.curKey fun c => c.later 2 phRead (.ldRead (offsetBits p) (SF.size f) (f.mod.getLsbD 3) f.d.toNat)]
  else
    .slot s.curKey Ctx.lqAlloc ::
    s.newReq s.curKey 0 (.load (SF.size f) (f.mod.getLsbD 3)) p c.iss.pc (some c.nextLq) none
/-- LD (R336). -/
def execLd (f : SF) (s : State) : Host.Outcome State Fault Refusal := scalarGuarded f (ldGuard f) (ldUpds f) s

/-- ST's checks (R377). -/
def stGuard (f : SF) (s : State) : Guard :=
  let p := SF.addr f s.curCtx
  .seq [ptrGuard s s.curKey p (SF.size f), ownGuard s s.curKey p, if spaceOf p == 0 then .go else sqGuard s.curCtx]
/-- ST's effect. -/
def stUpds (f : SF) (s : State) : List Upd :=
  let c := s.curCtx
  let p := SF.addr f c
  let data := c.s f.d.toNat
  (if spaceOf p == 0 then
    [.slot s.curKey fun c => c.later 3 phSlotWrite (.bankBytes (offsetBits p) (toBytes (SF.size f) data.toNat))]
   else
    .slot s.curKey (Ctx.sqPush · s.nextReq) :: s.newReq s.curKey 0 (.store (SF.size f) data) p c.iss.pc none none) ++
  [.slot s.curKey fun c => c.progressed c.iss.tick]
/-- ST (R377). -/
def execSt (f : SF) (s : State) : Host.Outcome State Fault Refusal := scalarGuarded f (stGuard f) (stUpds f) s

/-! ## ATOM and RED (R296–R300, R365, R366) -/

def SF.atomSize (f : SF) : Nat := if f.atomW then 4 else 8

/-- An ordering modifier needs an elastic bundle, and its release part holds the bundle (R192). -/
def ordGuard (f : SF) (s : State) : Guard :=
  if f.ord == 0 then .go else needElastic s 0
def ordRelease (f : SF) (s : State) : Bool := f.ord < 2 || s.released s.curKey f.scopeA

def atomGuard (f : SF) (s : State) : Guard :=
  let p := f.av s.curCtx
  .seq [ordGuard f s, ptrGuard s s.curKey p (SF.atomSize f), ownGuard s s.curKey p,
          await_ (ordRelease f s) (trapAt 0 .illegalBundle 0), lqGuard s.curCtx]

/-- The acquire part: what later bundles wait for. -/
def acquirePart (f : SF) (ref : Nat) (s : State) : List Upd :=
  if f.ord == 1 || f.ord == 3 then
    [.slot s.curKey fun c => { c with acqUntil := c.acqUntil ++ s.acquireRefs s.curKey f.scopeA ++ [ref] }]
  else []

/-- The acquire that held the bundles is complete; that of a FENCE is a progress event (R191). -/
def Ctx.acquireDone (tick : Nat) (c : Ctx) : Ctx :=
  { c with acqUntil := [], progress := if c.acqUntil.contains refFence then tick else c.progress }

/-- ATOM's effect, with the compare value of the CAS form. -/
def atomUpds (f : SF) (cmp : Word) (s : State) : List Upd :=
  let c := s.curCtx
  let p := f.av c
  let entry := c.nextLq
  acquirePart f (1 + 2 * entry) s ++
  .slot s.curKey Ctx.lqAlloc ::
  (if spaceOf p == 0 then
    [.slot s.curKey fun c => c.later 3 phRead
      (.bankAtom (offsetBits p) (SF.atomSize f) f.atomOp (f.bv c) cmp (some entry))]
   else s.newReq s.curKey 0 (.atom f.atomOp (SF.atomSize f) (f.bv c) cmp) p c.iss.pc (some entry) none) ++
  [.slot s.curKey fun c => c.progressed c.iss.tick]

/-- ATOM (R298). -/
def execAtom (f : SF) (s : State) : Host.Outcome State Fault Refusal :=
  scalarGuarded f (atomGuard f) (atomUpds f 0) s
/-- ATOM.cas (R297): the compare value is the C register. -/
def execAtomCas (f : SF) (s : State) : Host.Outcome State Fault Refusal :=
  scalarGuarded f (atomGuard f) (fun s => atomUpds f (f.cv s.curCtx) s) s

def redGuard (f : SF) (s : State) : Guard :=
  let p := f.av s.curCtx
  .seq [ordGuard f s, ptrGuard s s.curKey p (SF.atomSize f), ownGuard s s.curKey p,
          await_ (ordRelease f s) (trapAt 0 .illegalBundle 0), if spaceOf p == 0 then .go else sqGuard s.curCtx]
/-- RED's effect. -/
def redUpds (f : SF) (s : State) : List Upd :=
  let c := s.curCtx
  let p := f.av c
  acquirePart f (if spaceOf p == 0 then refRed else 2 + 2 * s.nextReq) s ++
  (if spaceOf p == 0 then
    [.slot s.curKey fun c => c.later 3 phRead (.bankAtom (offsetBits p) (SF.atomSize f) f.atomOp (f.bv c) 0 none)]
   else .slot s.curKey (Ctx.sqPush · s.nextReq) ::
    s.newReq s.curKey 0 (.red f.atomOp (SF.atomSize f) (f.bv c)) p c.iss.pc none none) ++
  [.slot s.curKey fun c => c.progressed c.iss.tick]
/-- RED (R366). -/
def execRed (f : SF) (s : State) : Host.Outcome State Fault Refusal := scalarGuarded f (redGuard f) (redUpds f) s

/-! ## The queues -/

/-- LQPOP's checks (R341): an empty queue traps in every bundle; an entry that has not returned is waited for. -/
def lqpopGuard (s : State) : Guard :=
  match s.curCtx.lq with
  | [] => .trap (trapAt 0 .loadQueueEmpty 0 detailLq)
  | e :: _ => await_ (e.st != .waiting) (trapAt 0 .loadQueueEmpty 0 detailLq)
/-- LQPOP's effect: the oldest entry leaves; a fault that it holds is raised with kind after. -/
def lqpopUpds (f : SF) (s : State) : List Upd :=
  match s.curCtx.lq with
  | [] => []
  | e :: rest =>
    match e.st with
    | .value v => [.slot s.curKey fun c => { c with lq := rest }.later 1 phReg (.scalar f.d.toNat v)]
    | .fault x => [.slot s.curKey fun c =>
        ({ c with lq := rest }.raise (some (trapAfter 0 x.cause x.ptr.toNat x.detail))).later 1 phReg (.scalar f.d.toNat 0)]
    | .waiting => []
/-- LQPOP (R341). -/
def execLqpop (f : SF) (s : State) : Host.Outcome State Fault Refusal :=
  scalarGuarded f lqpopGuard (lqpopUpds f) s

/-- APUSH's check (R103, R177). -/
def apushGuard (s : State) : Guard := await_ (s.curCtx.aq.length < 1024) (trapAt 0 .queueOverrun 0 detailAq)
/-- APUSH (R177). -/
def execApush (f : SF) (s : State) : Host.Outcome State Fault Refusal :=
  scalarGuarded f apushGuard
    (fun s => [.slot s.curKey fun c => { c with aq := c.aq ++ [(f.av c).truncate 32] }]) s

/-! ## FENCE (R191) -/

def SF.fkind (f : SF) : Nat := f.mod.toNat % 4
def SF.fscope (f : SF) : Nat := f.mod.toNat / 4

/-- FENCE waits for its release part. -/
def fenceGuard (f : SF) (s : State) : Guard :=
  .seq [needElastic s 0,
          await_ (SF.fkind f < 2 || s.released s.curKey (SF.fscope f)) (trapAt 0 .illegalBundle 0)]
/-- Its acquire part holds the bundles after it; one that holds none completes at once. -/
def fenceUpds (f : SF) (s : State) : List Upd :=
  let refs := if SF.fkind f != 2 then s.acquireRefs s.curKey (SF.fscope f) else []
  [.slot s.curKey fun c =>
    if refs.isEmpty then c.progressed c.iss.tick else { c with acqUntil := c.acqUntil ++ refs ++ [refFence] }]
/-- FENCE (R191). -/
def execFence (f : SF) (s : State) : Host.Outcome State Fault Refusal :=
  scalarGuarded f (fenceGuard f) (fenceUpds f) s

/-! ## WAITW (R424, R425) -/

def SF.wcond (f : SF) : Nat := f.mod.toNat % 4
def SF.wlock (f : SF) : Bool := f.mod.getLsbD 2
def SF.wscope (f : SF) : Nat := f.mod.toNat / 128
/-- The mask of WAITW. -/
def SF.wmask (f : SF) (c : Ctx) : Word :=
  if f.fm == 0 && f.imm.toNat % 64 != 0 then f.cv c else BitVec.allOnes 64
/-- A word satisfies the wait. -/
def SF.satisfied (f : SF) (c : Ctx) (w : Word) : Bool :=
  let x := w &&& SF.wmask f c
  let b := f.bv c
  match SF.wcond f with
  | 0 => x == b
  | 1 => x != b
  | 2 => BitVec.ult x b
  | _ => BitVec.ule b x

/-- WAITW's checks at its elastic point, precise. -/
def waitwCheck (f : SF) (s : State) : Guard :=
  .seq [needElastic s 0, ptrGuard s s.curKey (f.av s.curCtx) 8, ownGuard s s.curKey (f.av s.curCtx)]

/-- The read of WAITW that is under way: a load that fills no load-queue entry. -/
def State.waitwReq? (s : State) (k : SlotKey) : Option Req :=
  s.reqs.find? fun r => r.key == k && r.lq.isNone && r.owner.isNone &&
    match r.kind with
    | .load _ _ => true
    | _ => false

/-- A read of WAITW at its home begins, unless one is under way. -/
def waitwRead (f : SF) (s : State) : List Upd :=
  let k := s.curKey
  let c := s.curCtx
  if (s.waitwReq? k).isSome || c.wait.word.isSome || c.wait.fault.isSome then []
  else
    s.newReq k 0 (.load 8 false) (f.av c) c.iss.pc none none ++
    [.slot k fun c => { c with wait := { c.wait with sent := true, lastRead := s.dieTick c.die } }]
/-- The first read, at arrival. -/
def waitwArrive (f : SF) (s : State) : List Upd := if s.curCtx.wait.sent then [] else waitwRead f s

/-- WAITW completes on a satisfying read, after its acquire; a faulted read traps. -/
def waitwReady (f : SF) (s : State) : Guard :=
  let c := s.curCtx
  match c.wait.fault with
  | some x => .trap (trapAt 0 x.cause x.ptr.toNat x.detail)
  | none => await_ (c.wait.word.isSome && s.acquired s.curKey (SF.wscope f)) (trapAt 0 .illegalBundle 0)
def waitwUpds (f : SF) (s : State) : List Upd :=
  [.slot s.curKey fun c =>
    (c.later 1 phReg (.scalar f.d.toNat (c.wait.word.getD 0))).progressed c.iss.tick]
/-- WAITW (R425). -/
def execWaitw (f : SF) (s : State) : Host.Outcome State Fault Refusal :=
  waiting f (waitwCheck f) (waitwArrive f) (waitwReady f) (waitwUpds f) s

end Sys2Proof.Machine
end

