-- ==== Sys2Proof/Machine/Control.lean ====
section
/-! DEFINITION. S-slot control: BR, JMP, CALL, RET (R302–R304, R331, R368), LOOP (R155–R158, R339, R340), TRAP and
TRET (R250), LAUNCH (R31, R32, R334). -/

namespace Sys2Proof.Machine

/-! ## Transfers -/

/-- Bytes of bundle memory of the slot's region (R104). -/
def State.bmemBytes (s : State) (k : SlotKey) : Nat := (s.node (keyRid k)).bmem * 4096

/-- The check of a target: a multiple of 64, then inside the allocation and not negative (R303). -/
def targetGuard (s : State) (t : Int) : Guard :=
  .seq [need (t % 64 == 0) (trapAt 0 .misalignment (wordI t).toNat),
          need (0 <= t && t < s.bmemBytes s.curKey) (trapAt 0 .permission (wordI t).toNat)]

/-- A taken transfer: the target issues no earlier than issue + IDLE + 3 and begins a span (R303). -/
def Ctx.jump (t : Int) (c : Ctx) : Ctx :=
  { c with pc := t.toNat, earliest := c.iss.pos + c.iss.idle + 3, fresh := true }

/-- The target of the relative forms, of a register, of the immediate and of the long immediate. -/
def relTarget (f : SF) (c : Ctx) : Int := (c.iss.pc : Int) + 64 * f.imm.toInt
def regTarget (f : SF) (c : Ctx) : Int := (f.av c).toNat
def immTarget (f : SF) : Int := 64 * (f.imm.toNat : Int)
def longTarget (f : SF) : Int := (f.long.getD 0).toNat

/-- A transfer to a target. -/
def transfer (f : SF) (target : Ctx → Int) (s : State) : Host.Outcome State Fault Refusal :=
  scalarGuarded f (fun s => targetGuard s (target s.curCtx))
    (fun s => [.slot s.curKey fun c => c.jump (target c)]) s
/-- A call also writes s63 at issue + 1. -/
def callTo (f : SF) (target : Ctx → Int) (s : State) : Host.Outcome State Fault Refusal :=
  scalarGuarded f (fun s => targetGuard s (target s.curCtx))
    (fun s => [.slot s.curKey fun c => (c.jump (target c)).later 1 phReg (.scalar 63 (word (c.iss.pc + 64)))]) s

/-- BR label (R303). -/
def execBrRel (f : SF) (s : State) : Host.Outcome State Fault Refusal := transfer f (relTarget f) s
/-- BR sA (R303). -/
def execBrReg (f : SF) (s : State) : Host.Outcome State Fault Refusal := transfer f (regTarget f) s
/-- JMP label (R331). -/
def execJmpImm (f : SF) (s : State) : Host.Outcome State Fault Refusal := transfer f (fun _ => immTarget f) s
/-- JMP sA (R331). -/
def execJmpReg (f : SF) (s : State) : Host.Outcome State Fault Refusal := transfer f (regTarget f) s
/-- JMP under a long immediate (R331). -/
def execJmpLong (f : SF) (s : State) : Host.Outcome State Fault Refusal := transfer f (fun _ => longTarget f) s
/-- CALL label (R303). -/
def execCallRel (f : SF) (s : State) : Host.Outcome State Fault Refusal := callTo f (relTarget f) s
/-- CALL sA (R303). -/
def execCallReg (f : SF) (s : State) : Host.Outcome State Fault Refusal := callTo f (regTarget f) s
/-- RET (R368). -/
def execRet (f : SF) (s : State) : Host.Outcome State Fault Refusal :=
  transfer f (fun c => ((c.s 63).toNat : Int)) s

/-! ## LOOP -/

/-- Fields of a bundle's header and the S field (T15.1, T15.2). -/
def hdrStamp (b : Line) : Nat := bits b.toNat 31 16
def hdrIdle (b : Line) : Nat := bits b.toNat 15 8
def hdrRot (b : Line) : Bool := b.getLsbD 6
def hdrAnchored (b : Line) : Bool := b.getLsbD 5
def hdrElastic (b : Line) : Bool := b.getLsbD 4
def hdrTmpl (b : Line) : Nat := b.toNat % 16
/-- A bundle that a loop body may not hold (R156). -/
def notInBody (b : Line) : Bool :=
  hdrElastic b || hdrAnchored b || (0x30 <= bits b.toNat 103 96 && bits b.toNat 103 96 <= 0x39)

/-- The body's length in bundles. -/
def SF.loopN (f : SF) : Nat := f.imm.toNat % 128
/-- A line of bundle memory at the start of the present die cycle, before what CBUND writes in it (R157). -/
def State.bundleBefore (s : State) (c : Ctx) (off : Nat) : Line :=
  (mfind (bundleAddr c.die c.bmem off) (s.die c.die).bundOld).getD (s.bundleLine c off)
/-- The body as it stands in bundle memory. -/
def loopBody (f : SF) (s : State) : List Line :=
  let c := s.curCtx
  (List.range (SF.loopN f)).map fun i => s.bundleBefore c (c.iss.pc + 64 + 64 * i)

/-- Bytes of the descriptor at an offset of bank space; it may pass from one row to the next. -/
def State.descBytes (s : State) (c : Ctx) (off : Nat) : List Byte :=
  (List.range 8).flatMap fun i => s.bankBytes c (off + 64 * i) 64

/-- STAGES of a descriptor. -/
def descStages (d : List Byte) : Nat := bits (ofBytes (d.take 8)) 7 4

/-- The deltas of a level. -/
def loopDeltas (d : List Byte) (l n : Nat) : List LoopDelta :=
  (List.range n).map fun j =>
    let w := ofBytes ((d.drop (0x28 + 32 * l + 8 * j)).take 8)
    { isTid := bits w 9 8 == 1, num := w % 256, delta := wordI (signed 32 (w / 2 ^ 32)) }

/-- Whether a descriptor breaks a reserved or out-of-range rule (R155). -/
def descReserved (d : List Byte) (counts : List Nat) (n : Nat) : Bool :=
  let w := fun o => ofBytes ((d.drop o).take 8)
  let stages := bits (w 0) 7 4
  let levels := w 0 % 8
  w 0 / 256 != 0 || bit (w 0) 3 || stages == 0 || levels == 0 || levels == 7 ||
  (List.range 3).any (fun i => w (8 + 8 * i) != 0) || (List.range 4).any (fun i => w (0xE0 + 8 * i) != 0) ||
  (List.range levels).any (fun l =>
    let h := w (0x20 + 32 * l)
    h / 1024 != 0 || bits h 7 6 != 0 || 2 ^ 32 <= at0 counts (h % 64) 0 ||
    (List.range (bits h 9 8)).any fun j =>
      let x := w (0x28 + 32 * l + 8 * j)
      bits x 31 10 != 0 || 2 <= bits x 9 8 || (bits x 9 8 == 0 && (x % 256 == 0 || 64 <= x % 256))) ||
  (List.range n).any fun b =>
    let x := ofBytes ((d.drop (0x100 + 4 * b)).take 4)
    (List.range 8).any fun i => let st := bits x (4 * i + 3) (4 * i); stages <= st && st != 15

/-- A descriptor names a tensor identifier at or above TIDS. -/
def descTids (d : List Byte) (tids : Nat) : Bool :=
  (List.range (ofBytes (d.take 8) % 8)).any fun l =>
    (loopDeltas d l (bits (ofBytes ((d.drop (0x20 + 32 * l)).take 8)) 9 8)).any fun x => x.isTid && tids <= x.num

/-- The loop state that a descriptor gives. -/
def loopOf (d : List Byte) (l : Loop) : Loop :=
  let levels := (List.range (ofBytes (d.take 8) % 8)).map fun i =>
    let h := ofBytes ((d.drop (0x20 + 32 * i)).take 8)
    { count := at0 l.counts (h % 64) 0, deltas := loopDeltas d i (bits h 9 8) : LoopLevel }
  { l with
    stages := descStages d
    codes := (List.range l.body.length).map fun b => word (ofBytes ((d.drop (0x100 + 4 * b)).take 4))
    levels := levels
    idx := levels.map fun _ => 0
    total := levels.foldl (fun t x => t * x.count) 1
    ready := true }

/-- The descriptor read (issue + 2): what becomes of the loop at issue + 3. STAGES of 2 and more without ROT in the last
body bundle, which LOOP's issue could not foresee (`State.banksAhead`), is a field out of its range (log 21). -/
def loopReadUpds (s : State) (k : SlotKey) : List Upd :=
  match (s.slot k).loop with
  | none => []
  | some l =>
    let c := s.slot k
    let d := s.descBytes c l.desc
    let t := fun x => some (trapAfter 0 x l.desc)
    let bad :=
      if descReserved d l.counts l.body.length then t .reservedField
      else if descTids d (s.node c.rid).tids then t .permission
      else if 2 <= descStages d && !hdrRot (l.body.getLastD 0) then t .reservedField
      else none
    [.slot k fun c => c.later 3 phSys (.loopCheck bad (loopOf d l))]

/-- Issue + 3: the loop starts, has no passes, or is discarded with a trap of kind after. The stage predicates that LOOP
writes are named under the GRB of its issue (R97); nothing reads or writes one between its issue and this die cycle, so
that they stand as if written at LOOP's issue (R157, R340). g32 := 0 where T = 0, of which R157 gives only the case T ≥ 1
(DESIGN CHOICE, log 15). A loop without passes whose bundle has
raised a trap of its own waits for the handler's TRET, which finds the exit (`Ctx.leaveHandler`); a failed check of such a
bundle raises no second trap (R245). -/
def Ctx.loopChecked (t : Option Trap) (l : Loop) (c : Ctx) : Ctx :=
  match t with
  | some x => { c with loop := none }.raise (if c.loopHeld then none else some x)
  | none =>
    let c := (List.range l.stages).foldl (fun c i => c.setG (physG l.grb (32 + i)) (i == 0 && l.total != 0)) c
    if l.total == 0 && !c.loopHeld then { c with loop := none, pc := l.exit }
    else { c with loop := some l }

/-! ## TRAP and TRET (R250) -/

/-- TRAP: the software trap, kind after. -/
def execTrap (f : SF) (s : State) : Host.Outcome State Fault Refusal :=
  s.onSlot fun c => if f.on c then c.raise (some (trapAfter 0 .software 0 (f.imm.toNat % 65536))) else c

/-- TRET's checks. -/
def tretGuard (s : State) : Guard :=
  let c := s.curCtx
  .seq [needElastic s 0, need c.inHandler (trapAt 0 .illegalBundle 0),
          need (fsrRpc c.fsr * 64 < s.bmemBytes s.curKey) (trapAt 0 .permission (fsrRpc c.fsr * 64))]
/-- TRET. -/
def execTret (f : SF) (s : State) : Host.Outcome State Fault Refusal :=
  scalarGuarded f tretGuard (fun s => [.slot s.curKey Ctx.leaveHandler]) s

/-! ## LAUNCH -/

/-- LAUNCH's checks on the address. -/
def launchCheck (f : SF) (s : State) : Guard :=
  let p := f.av s.curCtx
  .seq [needElastic s 0,
          need (spaceOf p == 2 && ptrOk (s.node s.curCtx.rid).slots p) (trapAt 0 .space p.toNat),
          need (p.toNat % 512 == 0) (trapAt 0 .misalignment p.toNat)]
/-- LAUNCH posts once it is released at row scope and the launch queue has a place; it does not post again (R62). -/
def launchArrive (f : SF) (s : State) : List Upd :=
  let c := s.curCtx
  let l : Launch := { ptr := f.av c, fromKey := some s.curKey, part := (s.node c.rid).part, tbase := c.tbase, hits := [] }
  if c.keeps 64 || !(s.released s.curKey 2 && (s.pkg c.pkg).launchQ.length < 64) then []
  else [.pkg c.pkg (fun k => { k with launchQ := k.launchQ ++ [l] }), .slot s.curKey (Ctx.keep 64 0)]
/-- The bundle waits for the post. -/
def launchReady (s : State) : Guard := await_ (s.curCtx.keeps 64) (trapAt 0 .illegalBundle 0)
/-- LAUNCH (R32). -/
def execLaunch (f : SF) (s : State) : Host.Outcome State Fault Refusal :=
  waiting f (launchCheck f) (launchArrive f) launchReady (fun s => [.slot s.curKey (Ctx.unkeep 64)]) s

end Sys2Proof.Machine
end

