-- ==== Sys2Proof/Machine/Copies.lean ====
section
/-! DEFINITION. The C slots: what each copy operation is at its issue, and its checks (R162, R170–R177, R187, R293,
R305–R326); CENC joins the encoder's queue (R310–R312). -/

namespace Sys2Proof.Machine

/-! ## Sides of a copy: rows of bytes, moved in pieces: lines of bank space, 8-byte words of any other (R172, R183) -/

/-- One side of a copy: row r starts at base + (r or index r) × pitch and holds `len` bytes. -/
structure Side where
  base  : Word
  pitch : Nat
  rows  : Nat
  len   : Nat
  idx   : List (BitVec 32)
  deriving DecidableEq, Repr

def Side.none_ : Side := { base := 0, pitch := 0, rows := 0, len := 0, idx := [] }
/-- Where row r begins. An address that carries past the offset field of the pointer carries into the fields above it: the
sum is that of the 64-bit pointer modulo 2⁶⁴, of which the spec says nothing (DESIGN CHOICE, log 18). -/
def Side.rowPtr (x : Side) (r : Nat) : Word :=
  ptrAdd x.base ((if x.idx.isEmpty then r else (at0 x.idx r 0).toNat) * x.pitch)
/-- Bytes that the side moves at once: a line of its own or a peer's banks, an 8-byte word of any other home. -/
def Side.unit (x : Side) : Nat := if spaceOf x.base <= 1 then 64 else 8
/-- Pieces of a row; the last may be empty. -/
def Side.per (x : Side) : Nat := if x.len == 0 then 0 else (x.len + 2 * (x.unit - 1)) / x.unit
def Side.count (x : Side) : Nat := x.rows * x.per
/-- Bytes of the side. -/
def Side.total (x : Side) : Nat := x.rows * x.len

structure Piece where
  ptr   : Word
  row   : Nat
  start : Nat               -- first byte in its row
  len   : Nat
  deriving DecidableEq, Repr

/-- Piece k: the bytes of its row that lie in one line or word. -/
def Side.piece (x : Side) (k : Nat) : Piece :=
  let r := k / x.per
  let j := k % x.per
  let p := x.rowPtr r
  let u := x.unit
  let a := p.toNat % u
  let lo := if j == 0 then 0 else u * j - a
  let hi := min x.len (u * (j + 1) - a)
  { ptr := ptrAdd p lo, row := r, start := lo, len := hi - lo }
/-- The first piece from k on that is not empty. -/
def Side.skip (x : Side) (k : Nat) : Nat := if k < x.count && (x.piece k).len == 0 then k + 1 else k

/-! ## Operations -/

def CopyOp.blank : CopyOp :=
  { id := 0, kind := .fence, key := 0, tag := 0, te := false, dst := 0, src := 0, n := 0, tid := 0, entry := 0,
    bfmt := 31, flag := 0, q := 0, idx := [], rowsIn := [], aop := 0, size := 0, ord := false, opb := 0, opc := 0,
    preds := [], issued := 0, tick := 0, buf := [], farDone := [], bankAt := 0, wseq := 0, seq := 0, stage := 0, fault := none,
    starved := false }

/-- Widths of FMT and BFMT (R173). -/
def CopyOp.wf (o : CopyOp) : Nat := fmtWidth (tidFmt o.entry)
def CopyOp.bankFmt (o : CopyOp) : Nat := if o.bfmt == 31 then tidFmt o.entry else o.bfmt
def CopyOp.wb (o : CopyOp) : Nat := fmtWidth o.bankFmt
def ceilDiv (n d : Nat) : Nat := (n + d - 1) / d
/-- Bytes of a far-side row, of a bank-side row, and of a bank-side row with its padding. -/
def CopyOp.farRow (o : CopyOp) : Nat := ceilDiv (tidCols o.entry * o.wf) 8
def CopyOp.bankRow (o : CopyOp) : Nat := ceilDiv (tidCols o.entry * o.wb) 8
def CopyOp.bankPitch (o : CopyOp) : Nat := 64 * ceilDiv (tidCols o.entry * o.wb) 512
/-- Bytes that CGET writes of a bank-side row: to the next line boundary (R173). -/
def CopyOp.bankSpan (o : CopyOp) : Nat :=
  let a := o.dst.toNat % 64
  if o.bankRow == 0 then 0 else 64 * ceilDiv (a + o.bankRow) 64 - a
/-- Lr of R174: lines of a row. -/
def rowLines (e : BitVec 512) : Nat := ceilDiv (tidCols e * fmtWidth (tidFmt e)) 512

/-- What an operation reads. -/
def CopyOp.reads (o : CopyOp) : Side :=
  let raw := fun n => { base := o.src, pitch := 0, rows := 1, len := n, idx := [] : Side }
  match o.kind with
  | .get => if o.tid == 0 then raw o.n else { raw o.farRow with pitch := tidPitch o.entry, rows := o.n }
  | .put => if o.tid == 0 then raw o.n else { raw o.bankRow with pitch := o.bankPitch, rows := o.n }
  | .putf => raw o.n
  | .gath => { raw (64 * rowLines o.entry) with pitch := tidPitch o.entry, rows := o.n, idx := o.idx }
  | .route => raw (4096 * o.n)
  | .bund => raw o.n
  | .scat => .none_
  | .zero => .none_
  | .atom => .none_
  | .red => .none_
  | .fence => .none_

/-- What an operation writes in bank space or on the far side. -/
def CopyOp.writes (o : CopyOp) : Side :=
  let raw := fun n => { base := o.dst, pitch := 0, rows := 1, len := n, idx := [] : Side }
  match o.kind with
  | .get => if o.tid == 0 then raw o.n else { raw o.bankSpan with pitch := o.bankPitch, rows := o.n }
  | .put => if o.tid == 0 then raw o.n else { raw o.farRow with pitch := tidPitch o.entry, rows := o.n }
  | .putf => raw o.n
  | .zero => raw o.n
  | .scat => { raw (64 * rowLines o.entry) with pitch := tidPitch o.entry, rows := o.n, idx := o.idx }
  | .gath => .none_
  | .route => .none_
  | .bund => .none_
  | .atom => .none_
  | .red => .none_
  | .fence => .none_

/-! ## Issue -/

/-- FSR.SLOT of a C slot. -/
def CF.fslot (f : CF) : Nat := if f.c1 then 5 else 4
/-- The operand in SS, or the long immediate (R274, R293). -/
def cSrc (f : CF) (c : Ctx) : Word := f.long.getD (c.s f.ss.toNat)
def cDst (f : CF) (c : Ctx) : Word := c.s f.sd.toNat
def cNum (f : CF) (c : Ctx) : Nat := (c.s f.sn.toNat).toNat
/-- The channel of a C slot. -/
def State.chanOf (s : State) (f : CF) : List CopyOp :=
  let k := s.die s.curCtx.die
  if f.c1 then k.chan1 else k.chan0

/-- A channel holds 16 operations (R170). -/
def chanGuard (f : CF) (s : State) : Guard :=
  await_ ((s.chanOf f).length < 16) (trapAt (CF.fslot f) .queueOverrun 0 (detailChan f.c1))
/-- A pointer of an accepted space (R159, T9.2). -/
def spaceGuard (f : CF) (s : State) (p : Word) (ok : Bool) : Guard :=
  need (ok && ptrOk (s.node s.curCtx.rid).slots p) (trapAt (CF.fslot f) .space p.toNat)
def alignGuard (f : CF) (p : Word) (n : Nat) : Guard := need (p.toNat % n == 0) (trapAt (CF.fslot f) .misalignment p.toNat)
def cReserved (f : CF) (ok : Bool) (addr : Nat) : Guard := need ok (trapAt (CF.fslot f) .reservedField addr)
def cPermit (f : CF) (ok : Bool) (addr : Nat) (detail : Nat := 0) : Guard :=
  need ok (trapAt (CF.fslot f) .permission addr detail)
def cTid (f : CF) (s : State) : Guard := cPermit f (f.tid == 0 || f.tid.toNat < (s.node s.curCtx.rid).tids) f.tid.toNat
/-- A length of 32 bits (R172). -/
def cLen (f : CF) (s : State) : Guard := cReserved f (cNum f s.curCtx < 2 ^ 32) (cNum f s.curCtx)

/-- A C-slot operation joins its channel: it clears its tag (R102) and is a progress event (R50). -/
def Ctx.cIssued (f : CF) (c : Ctx) : Ctx :=
  (if f.te == 1 then c.clearTag f.tag.toNat else c).progressed c.iss.tick
def cJoin (f : CF) (o : CopyOp) (s : State) : List Upd :=
  let o := { o with key := s.curKey, tag := f.tag.toNat, te := f.te == 1 }
  [.die s.curCtx.die fun k =>
      let o := { o with id := k.nextSeq, issued := k.cyc, tick := k.tick }
      let k := { k with nextSeq := k.nextSeq + 1 }
      if f.c1 then { k with chan1 := k.chan1 ++ [o] } else { k with chan0 := k.chan0 ++ [o] },
   .slot s.curKey (Ctx.cIssued f)]
/-- An operation that its guard admits is built from the state at issue. -/
def copyOp (f : CF) (g : State → Guard) (o : State → CopyOp) (s : State) : Host.Outcome State Fault Refusal :=
  s.guarded (g s) (cJoin f (o s) s)

/-- The operation with the fields that all forms share. -/
def copyBase (f : CF) (kind : CopyKind) (s : State) : CopyOp :=
  let c := s.curCtx
  { CopyOp.blank with kind := kind, dst := cDst f c, src := cSrc f c, n := cNum f c, tid := f.tid.toNat,
                      entry := c.tid f.tid.toNat }

/-! ## CGET, CPUT, CPUTF, CZERO -/

/-- The formats of a tensor copy (R101, R173). -/
def cTensor (f : CF) (s : State) : Guard :=
  let e := s.curCtx.tid f.tid.toNat
  let b := f.mod.toNat % 32
  cReserved f (f.tid == 0 || (tidFmt e <= 14 && (b == 31 || b <= 14) && tidRnd e <= 4)) 0

def cgetGuard (f : CF) (s : State) : Guard :=
  let c := s.curCtx
  .seq [spaceGuard f s (cDst f c) (spaceOf (cDst f c) == 0), spaceGuard f s (cSrc f c) true, cTid f s, cLen f s,
          cTensor f s, chanGuard f s]
/-- CGET (R172, R173, R316). -/
def execCget (f : CF) (s : State) : Host.Outcome State Fault Refusal :=
  copyOp f (cgetGuard f) (fun s => { copyBase f .get s with bfmt := f.mod.toNat % 32 }) s

def cputGuard (f : CF) (s : State) : Guard :=
  let c := s.curCtx
  .seq [spaceGuard f s (cDst f c) true, spaceGuard f s (cSrc f c) (spaceOf (cSrc f c) == 0), cTid f s, cLen f s,
          cTensor f s, chanGuard f s]
/-- CPUT (R172, R173, R319). -/
def execCput (f : CF) (s : State) : Host.Outcome State Fault Refusal :=
  copyOp f (cputGuard f) (fun s => { copyBase f .put s with bfmt := f.mod.toNat % 32 }) s

/-- The flag address of CPUTF. -/
def cFlag (f : CF) (c : Ctx) : Word := c.s (f.mod.toNat % 64)
def cputfGuard (f : CF) (s : State) : Guard :=
  let c := s.curCtx
  .seq [spaceGuard f s (cDst f c) (spaceOf (cDst f c) != 0), spaceGuard f s (cSrc f c) (spaceOf (cSrc f c) == 0),
          spaceGuard f s (cFlag f c) true, alignGuard f (cFlag f c) 8, cLen f s, chanGuard f s]
/-- CPUTF (R172, R320). -/
def execCputf (f : CF) (s : State) : Host.Outcome State Fault Refusal :=
  copyOp f (cputfGuard f) (fun s => { copyBase f .putf s with flag := cFlag f s.curCtx }) s

def czeroGuard (f : CF) (s : State) : Guard :=
  .seq [spaceGuard f s (cDst f s.curCtx) true, cLen f s, chanGuard f s]
/-- CZERO (R176, R326): SS is the pattern. -/
def execCzero (f : CF) (s : State) : Host.Outcome State Fault Refusal := copyOp f (czeroGuard f) (copyBase f .zero) s

/-! ## CGATH, CSCAT -/

def cQueue (f : CF) (s : State) : Guard :=
  cPermit f (f.qh.toNat < (s.node s.curCtx.rid).queues) 0 f.qh.toNat
def cRow (f : CF) (s : State) : Guard :=
  let e := s.curCtx.tid f.tid.toNat
  cReserved f (fmtOk (tidFmt e) && 1 <= rowLines e && rowLines e <= 8) 0
/-- The indices at the head of the address queue (R174). -/
def aqGuard (f : CF) (s : State) : Guard :=
  await_ (cNum f s.curCtx <= s.curCtx.aq.length) (trapAt (CF.fslot f) .queueUnderrun 0 detailAq)
/-- They are removed at issue. -/
def aqTake (f : CF) (s : State) : List Upd := [.slot s.curKey fun c => { c with aq := c.aq.drop (cNum f c) }]

def cgathGuard (f : CF) (s : State) : Guard :=
  .seq [spaceGuard f s (cSrc f s.curCtx) true, cTid f s, cQueue f s, cRow f s,
          cReserved f ((s.curCtx.q f.qh.toNat).depth != 0) 0, aqGuard f s, chanGuard f s]
/-- CGATH (R174, R315). -/
def execCgath (f : CF) (s : State) : Host.Outcome State Fault Refusal :=
  s.guarded (cgathGuard f s) (cJoin f { copyBase f .gath s with
    q := f.qh.toNat, idx := s.curCtx.aq.take (cNum f s.curCtx) } s ++ aqTake f s)

/-- Bank-space offsets of the entries of a queue from RP onward. -/
def queueFrom (c : Ctx) (q n : Nat) : List Nat := (List.range n).map fun i => (c.q q).entry (((c.q q).rp + i) % (c.q q).depth)
/-- The snapshot that CSCAT takes at its issue, and the first line of it that cannot be read (R74, R175). -/
def scatFault (s : State) (c : Ctx) (q n lr : Nat) : Option (Nat × EngFault) :=
  ((queueFrom c q n).zipIdx.flatMap fun x => (List.range lr).map fun j => (x.2 * lr * 64 + 64 * j, x.1 + 64 * j)).findSome?
    fun x => match s.bankReach c x.2 with
      | .fault cause => some (x.1, { cause := cause, ptr := word x.2, detail := 0 })
      | _ => none
def scatRows (s : State) (c : Ctx) (q n : Nat) : List VReg :=
  (queueFrom c q n).map fun o => ofLines ((List.range 8).map fun j =>
    s.bankLine c ((o + 64 * j) / 2 ^ 17) ((o + 64 * j) / 64 % 2048))
/-- The read of those rows logs what it meets (R74, R256). -/
def scatNotes (s : State) (c : Ctx) (q n lr : Nat) : List Upd :=
  (queueFrom c q n).flatMap fun o => (List.range lr).flatMap fun j =>
    eccNote s c ((o + 64 * j) / 2 ^ 17) ((o + 64 * j) / 64 % 2048)
def cscatGuard (f : CF) (s : State) : Guard :=
  let c := s.curCtx
  .seq [spaceGuard f s (cDst f c) true, cTid f s, cQueue f s, cRow f s, aqGuard f s,
          await_ (cNum f c <= (c.q f.qh.toNat).count) (trapAt (CF.fslot f) .queueUnderrun 0 f.qh.toNat), chanGuard f s]
/-- CSCAT (R175, R325). -/
def execCscat (f : CF) (s : State) : Host.Outcome State Fault Refusal :=
  let c := s.curCtx
  let q := f.qh.toNat
  let n := cNum f c
  s.guarded (cscatGuard f s) (cJoin f { copyBase f .scat s with
    q := q, idx := c.aq.take n, rowsIn := scatRows s c q n,
    fault := scatFault s c q n (rowLines (c.tid f.tid.toNat)) } s ++ scatNotes s c q n (rowLines (c.tid f.tid.toNat)) ++
    aqTake f s)

/-! ## CATOM, CRED, CFENCE -/

def catomSize (f : CF) : Nat := if f.mod.getLsbD 4 then 4 else 8
def catomGuard (f : CF) (s : State) : Guard :=
  let c := s.curCtx
  .seq [spaceGuard f s (cDst f c) true, alignGuard f (cDst f c) (catomSize f), alignGuard f (cSrc f c) 16,
          spaceGuard f s (cSrc f c) (spaceOf (cSrc f c) == 0), chanGuard f s]
/-- CATOM (R305, R306). -/
def execCatom (f : CF) (s : State) : Host.Outcome State Fault Refusal :=
  copyOp f (catomGuard f) (fun s => { copyBase f .atom s with aop := f.mod.toNat % 16, size := catomSize f }) s

def credGuard (f : CF) (s : State) : Guard :=
  let p := cDst f s.curCtx
  .seq [spaceGuard f s p (2 <= spaceOf p && spaceOf p <= 4), alignGuard f p (credSize (f.mod.toNat % 16)), chanGuard f s]
/-- CRED (R321, R322): its request leaves at once. -/
def execCred (f : CF) (s : State) : Host.Outcome State Fault Refusal :=
  copyOp f (credGuard f) (fun s => { copyBase f .red s with
    aop := f.mod.toNat / 16 % 4, size := f.mod.toNat % 16, ord := f.mod.getLsbD 6, opb := cSrc f s.curCtx }) s

/-- The members of E of R187: operations of the joined queues issued before; the matrix engine counts by the start of
the last step scheduled before the bundle. -/
def fenceMembers (s : State) (join : Nat) : List (Nat × Nat) :=
  let c := s.curCtx
  let k := s.die c.die
  let ops := fun n (l : List CopyOp) =>
    if bit join n then (l.filter fun o => o.issued < k.cyc).map fun o => (n, o.id) else []
  ops 0 k.chan0 ++ ops 1 k.chan1 ++
  (if bit join 2 then c.iss.lastS.toList.map fun n => (2, n) else []) ++
  (if bit join 3 then (k.encQ.filter fun e => e.issued < k.cyc).map fun e => (3, e.id) else [])
/-- CFENCE (R187, R314). -/
def execCfence (f : CF) (s : State) : Host.Outcome State Fault Refusal :=
  copyOp f (chanGuard f) (fun s => { CopyOp.blank with aop := f.mod.toNat % 16, preds := fenceMembers s (f.mod.toNat % 16) }) s

/-! ## CROUTE, CBUND -/

def crouteGuard (f : CF) (s : State) : Guard :=
  let c := s.curCtx
  let d := (cDst f c).toNat
  let n := cNum f c
  let first := d % 2048
  .seq [spaceGuard f s (cSrc f c) true,
          cReserved f (d / 2 ^ 13 == 0 && bits d 12 11 != 3 && n <= 2031) d, alignGuard f (cSrc f c) 64,
          cPermit f (first != 0 && (n == 0 || first + n - 1 <= (s.node c.rid).routes)) d (bits d 12 11), chanGuard f s]
/-- CROUTE (R323, R324). -/
def execCroute (f : CF) (s : State) : Host.Outcome State Fault Refusal :=
  copyOp f (crouteGuard f) (fun s => { copyBase f .route s with
    q := bits (cDst f s.curCtx).toNat 12 11, aop := (cDst f s.curCtx).toNat % 2048 }) s

def cbundGuard (f : CF) (s : State) : Guard :=
  let c := s.curCtx
  let d := (cDst f c).toNat
  let n := cNum f c
  .seq [spaceGuard f s (cSrc f c) true, need (d % 64 == 0 && n % 64 == 0) (trapAt (CF.fslot f) .misalignment d),
          cPermit f (d + n <= s.bmemBytes s.curKey) d, chanGuard f s]
/-- CBUND (R308, R309). -/
def execCbund (f : CF) (s : State) : Host.Outcome State Fault Refusal := copyOp f (cbundGuard f) (copyBase f .bund) s

/-! ## CENC (R310–R313) -/

/-- Fields of a parameter block (T16.7), held as 512 bits. -/
def encCodec (p : BitVec 512) : Nat := (p.extractLsb' 0 8).toNat
def encWidth (p : BitVec 512) : Nat := (p.extractLsb' 16 16).toNat
def encHeight (p : BitVec 512) : Nat := (p.extractLsb' 32 16).toNat
def encFpsNum (p : BitVec 512) : Nat := (p.extractLsb' 64 32).toNat
def encFpsDen (p : BitVec 512) : Nat := (p.extractLsb' 96 32).toNat
def encRc (p : BitVec 512) : Nat := (p.extractLsb' 160 2).toNat
/-- Lines of a frame. -/
def encLines (p : BitVec 512) : Nat :=
  ceilDiv (3 * encWidth p * encHeight p * (if encCodec p % 2 == 1 then 2 else 1)) 128

/-- The encoder's queue holds 32 commands. -/
def encGuard (f : CF) (s : State) : Guard :=
  await_ ((s.die s.curCtx.die).encQ.length < 32) (trapAt (CF.fslot f) .queueOverrun 0 (detailChan f.c1))
/-- A command joins the encoder's queue, with the lines that it reads; a frame's are read at fixed die cycles, 128 in each
(R268), and the parameter block of CENC.open as the command starts (R311). -/
def encJoin (f : CF) (kind : EncKind) (lines : Nat) (bad : Option EngFault) (s : State) : List Upd :=
  let c := s.curCtx
  let reads := if kind == .frame then ceilDiv lines 128 else 0
  [.die c.die fun k =>
      let e : EncCmd :=
        { id := k.nextSeq, kind := kind, key := s.curKey, tag := f.tag.toNat, te := f.te == 1, stream := f.imm8.toNat,
          ptr := cSrc f c, out := cDst f c, cap := cNum f c, issued := k.cyc, tick := k.tick, lines := lines, readAt := 0, frame := [],
          coded := none, outAt := 0, bad := bad }
      { k with
        encQ := k.encQ ++ [e]
        spine := k.spine ++ (List.range reads).map fun i =>
          { due := k.cyc + 2 + i, ph := phRead, seq := k.nextSeq + 1 + i, eff := .encRead k.nextSeq i }
        nextSeq := k.nextSeq + 1 + reads },
   .slot s.curKey (Ctx.cIssued f)]

def cencOpenGuard (f : CF) (s : State) : Guard :=
  let p := cSrc f s.curCtx
  .seq [spaceGuard f s p (spaceOf p == 0), alignGuard f p 64, encGuard f s]
/-- CENC.open (R312). -/
def execCencOpen (f : CF) (s : State) : Host.Outcome State Fault Refusal :=
  s.guarded (cencOpenGuard f s) (encJoin f .opened 1 none s)

/-- The stream context that a frame names. -/
def State.stream? (s : State) (d : DieId) (n : Nat) : Option EncStream := mfind n (s.die d).streams
/-- Lines of the frame that a command reads: none when its context is not open. -/
def frameLines (f : CF) (s : State) : Nat := match s.stream? s.curCtx.die f.imm8.toNat with
  | some x => encLines x.params
  | none => 0
def cencFrameGuard (f : CF) (s : State) : Guard :=
  let c := s.curCtx
  let p := cSrc f c
  let last := offsetBits p + 64 * frameLines f s
  .seq [need c.iss.anchored (trapAt (CF.fslot f) .illegalBundle 0), spaceGuard f s (cDst f c) true,
          spaceGuard f s p (spaceOf p == 0), alignGuard f p 64,
          cPermit f (frameLines f s == 0 || last <= (s.node c.rid).brows * 2 ^ 17) p.toNat, encGuard f s]
/-- CENC.frame (R312). -/
def execCencFrame (f : CF) (s : State) : Host.Outcome State Fault Refusal :=
  let bad := if (s.stream? s.curCtx.die f.imm8.toNat).isSome then none
    else some { cause := Cause.reservedField, ptr := cSrc f s.curCtx, detail := 0 }
  s.guarded (cencFrameGuard f s) (encJoin f .frame (frameLines f s) bad s)
/-- CENC.close (R312). -/
def execCencClose (f : CF) (s : State) : Host.Outcome State Fault Refusal :=
  s.guarded (encGuard f s) (encJoin f .close 0 none s)

end Sys2Proof.Machine
end

