-- ==== Sys2Proof/Decode.lean ====
section
/-! DEFINITION. The decoder and the encoder.

A slot field is 64 bits (32 for X), laid out as T15.5, T15.6 and T15.8 give. `decodeSlot` reads one, with the long
immediate that the template lends it; every rejection has a name (R275, R283). A step is fetched as a record of
bytes, of the model's own form (log 6): a slot instruction's record holds its slot field as the hardware lays it out,
an event's record holds the row number and its operands. -/

namespace Sys2Proof

/-- Why bits are not an instruction. -/
inductive DecodeErr where
  /-- a template mismatch of R275: the illegal-bundle trap, reported with SLOT 7. -/
  | template
  /-- an encoding that R283 calls an illegal slot encoding. -/
  | slot
  /-- a record that is not of the model's form (log 6); no bits of the hardware. -/
  | record
  deriving DecidableEq, Repr

/-- What a decoder answers. -/
abbrev Decoded (α : Type) := Except DecodeErr α

/-! ## Field maps -/

/-- The S field of T15.5. -/
def packS (opc : BitVec 8) (f : SF) : Word :=
  f.mod ++ (f.imm ++ (f.b ++ (f.a ++ (f.d ++ (f.pn ++ (f.pg ++ (f.fm ++ opc)))))))
def unpackS (w : Word) (long : Option Word) : SF :=
  { fm := w.extractLsb' 8 2, pg := w.extractLsb' 10 4, pn := w.extractLsb' 14 1, d := w.extractLsb' 15 6,
    a := w.extractLsb' 21 6, b := w.extractLsb' 27 6, imm := w.extractLsb' 33 21, mod := w.extractLsb' 54 10, long := long }

/-- The V field of T15.6. -/
def packV (opc : BitVec 8) (f : VF) : Word :=
  f.c ++ (f.b ++ (f.a ++ (f.d ++ (f.ty ++ (f.sp ++ (f.km ++ (f.fm ++ opc)))))))
def unpackV (w : Word) (v1 : Bool) (long : Option Word) : VF :=
  { v1 := v1, fm := w.extractLsb' 8 1, km := w.extractLsb' 9 4, sp := w.extractLsb' 13 3, ty := w.extractLsb' 16 4,
    d := w.extractLsb' 20 11, a := w.extractLsb' 31 11, b := w.extractLsb' 42 11, c := w.extractLsb' 53 11, long := long }

/-- The M field of T15.8. -/
def packM (opc : BitVec 8) (f : MF) : Word :=
  f.imm ++ (f.lv ++ (f.tc ++ (f.tb ++ (f.ta ++ (f.ac ++ (f.bt ++ opc))))))
def unpackM (w : Word) (long : Option Word) : MF :=
  { bt := w.extractLsb' 8 3, ac := w.extractLsb' 11 6, ta := w.extractLsb' 17 8, tb := w.extractLsb' 25 8,
    tc := w.extractLsb' 33 8, lv := w.extractLsb' 41 6, imm := w.extractLsb' 47 17, long := long }

/-- The C field of T15.8. -/
def packC (opc : BitVec 8) (f : CF) : Word :=
  f.imm8 ++ (f.mod ++ (f.qh ++ (f.tid ++ (f.sn ++ (f.ss ++ (f.sd ++ (f.te ++ (f.tag ++ opc))))))))
def unpackC (w : Word) (c1 : Bool) (long : Option Word) : CF :=
  { c1 := c1, tag := w.extractLsb' 8 6, te := w.extractLsb' 14 1, sd := w.extractLsb' 15 6, ss := w.extractLsb' 21 6,
    sn := w.extractLsb' 27 6, tid := w.extractLsb' 33 8, qh := w.extractLsb' 41 5, mod := w.extractLsb' 46 10,
    imm8 := w.extractLsb' 56 8, long := long }

/-- The X field of T15.8, 32 bits. -/
def packX (opc : BitVec 4) (f : XF) : BitVec 32 := f.off ++ (f.v ++ (f.oc ++ opc))
def unpackX (w : BitVec 32) : XF :=
  { oc := w.extractLsb' 4 8, v := w.extractLsb' 12 11, off := w.extractLsb' 23 9 }

/-! ## Opcode maps (T15.7, T15.9, T15.10) -/

def pickS (opc : Nat) (f : SF) : Option Instr :=
  match opc with
  | 0x01 => some (.add f)
  | 0x02 => some (.sub f)
  | 0x03 => some (.mul f)
  | 0x04 => some (.mulh f)
  | 0x05 => some (.div f)
  | 0x06 => some (.rem f)
  | 0x07 => some (.and_ f)
  | 0x08 => some (.or_ f)
  | 0x09 => some (.xor f)
  | 0x0a => some (.andn f)
  | 0x0b => some (.shl f)
  | 0x0c => some (.shr f)
  | 0x0d => some (.sra f)
  | 0x0e => some (.rol f)
  | 0x0f => some (.min f)
  | 0x10 => some (.max f)
  | 0x11 => some (.clz f)
  | 0x12 => some (.popc f)
  | 0x13 => some (.sel f)
  | 0x14 => some (.mov f)
  | 0x15 => some (.li f)
  | 0x16 => some (.cmp f)
  | 0x18 => some (.pand f)
  | 0x19 => some (.por f)
  | 0x1a => some (.pxor f)
  | 0x1b => some (.pnot f)
  | 0x1c => some (if f.fm == 1 then .kpopN f else .kpop f)
  | 0x20 => some (.ld f)
  | 0x21 => some (.st f)
  | 0x22 => some (if f.atomOp == 1 then .atomCas f else .atom f)
  | 0x23 => some (.red f)
  | 0x24 => some (.lqpop f)
  | 0x25 => some (.apush f)
  | 0x26 => some (.fence f)
  | 0x27 => some (.waitw f)
  | 0x30 => some (if f.fm == 1 then .brRel f else .brReg f)
  | 0x31 => some (if f.fm == 1 then .jmpImm f else if f.fm == 2 then .jmpLong f else .jmpReg f)
  | 0x32 => some (if f.fm == 1 then .callRel f else .callReg f)
  | 0x33 => some (.ret f)
  | 0x34 => some (.loop f)
  | 0x35 => some (.trap f)
  | 0x36 => some (.tret f)
  | 0x37 => some (.end_ f)
  | 0x38 => some (.yield f)
  | 0x39 => some (.launch f)
  | 0x40 => some (if f.mod == 1 then .twaitAbs f else .twait f)
  | 0x41 => some (.wtagall f)
  | 0x42 => some (.wtagany f)
  | 0x43 => some (.tagff f)
  | 0x44 => some (.tagclr f)
  | 0x45 => some (.qwait f)
  | 0x46 => some (.qadv f)
  | 0x47 => some (.qset f)
  | 0x48 => some (.bara f)
  | 0x49 => some (.barw f)
  | 0x4a => some (.step f)
  | 0x4b => some (.pstat f)
  | 0x50 => some (if f.sysnum == 0x005 then .tstatRead f else if f.sysnum == 0x021 then .mstatRead f else .sysrd f)
  | 0x51 => some ((match sysOwn f.sysnum with | some .tguard => .tguardWrite f | some .rrb => .rrbWrite f | some .grb => .grbWrite f | some .vflags => .vflagsWrite f | some .fsr => .fsrWrite f | some .xstat => .xstatWrite f | some .waitlim => .waitlimWrite f | some .opsel => .opselWrite f | some .ring => .ringWrite f | some .mzm => .mzmWrite f | some .elogstat => .elogstatWrite f | some .injctl => .injctlWrite f | none => .syswr f))
  | 0x52 => some (.tidset f)
  | 0x53 => some (if f.mod.getLsbD 4 then .fallocQuery f else if f.mod.getLsbD 1 then .fallocAt f else .falloc f)
  | 0x54 => some (.ffree f)
  | _ => none

def pickV (opc : Nat) (f : VF) : Option Instr :=
  match opc with
  | 0x01 => some (.vadd f)
  | 0x02 => some (.vsub f)
  | 0x03 => some (.vmul f)
  | 0x04 => some (.vfma f)
  | 0x05 => some (.vfms f)
  | 0x06 => some (.vmin f)
  | 0x07 => some (.vmax f)
  | 0x08 => some (.vabs f)
  | 0x09 => some (.vneg f)
  | 0x0a => some (.vand f)
  | 0x0b => some (.vor f)
  | 0x0c => some (.vxor f)
  | 0x0d => some (.vnot f)
  | 0x0e => some (.vshl f)
  | 0x0f => some (.vshr f)
  | 0x10 => some (.vsra f)
  | 0x11 => some (.vcmp f)
  | 0x12 => some (.vsel f)
  | 0x13 => some (.vmov f)
  | 0x14 => some (if f.fm == 1 then .vbcastIdx f else .vbcastFirst f)
  | 0x15 => some (.viota f)
  | 0x16 => some (.vext f)
  | 0x17 => some (.vdot f)
  | 0x18 => some (.vred f)
  | 0x19 => some (.vamax f)
  | 0x20 => some (.vcvt f)
  | 0x21 => some (.vwid f)
  | 0x22 => some (.vnar f)
  | 0x23 => some (.vquant f)
  | 0x28 => some (.vperm f)
  | 0x29 => some (.vcompact f)
  | 0x30 => some (.vld f)
  | 0x31 => some (.vst f)
  | 0x38 => some (.kand f)
  | 0x39 => some (.kor f)
  | 0x3a => some (.kxor f)
  | 0x3b => some (.knot f)
  | 0x40 => some (.vexp2 f)
  | 0x41 => some (.vlog2 f)
  | 0x42 => some (.vrcp f)
  | 0x43 => some (.vrsq f)
  | 0x44 => some (.vsqrt f)
  | 0x45 => some (.vtanh f)
  | 0x50 => some (.scan f)
  | 0x51 => some (.selk f)
  | 0x52 => some (.sortk f)
  | 0x58 => some (.rsolve f)
  | _ => none

def pickM (opc : Nat) (f : MF) : Option Instr :=
  match opc with
  | 0x01 => some (if f.imm.toNat / 65536 == 0 then .mcfgHead f else .mcfgLevel f)
  | 0x02 => some (.mroute f)
  | 0x03 => some (.mgath f)
  | 0x04 => some (.mgo f)
  | 0x05 => some (.mcommit f)
  | 0x06 => some (.mwaitb f)
  | 0x07 => some (.mdrain f)
  | 0x08 => some (.mzero f)
  | 0x09 => some (.mlda f)
  | 0x0a => some (.mstop f)
  | _ => none

def pickC (opc : Nat) (f : CF) : Option Instr :=
  match opc with
  | 0x01 => some (.cget f)
  | 0x02 => some (.cput f)
  | 0x03 => some (.cputf f)
  | 0x04 => some (.cgath f)
  | 0x05 => some (.cscat f)
  | 0x06 => some (.catom f)
  | 0x07 => some (.cred f)
  | 0x08 => some (.cfence f)
  | 0x09 => some (.czero f)
  | 0x0a => some (.croute f)
  | 0x0b => some (.cbund f)
  | 0x0c => some (if f.mod == 0 then .cencOpen f else if f.mod == 1 then .cencFrame f else .cencClose f)
  | _ => none

def pickX (opc : Nat) (f : XF) : Option Instr :=
  match opc with
  | 1 => some (.xsend f)
  | 2 => some (.xrecv f)
  | _ => none

/-- The opcode and fields of an S instruction; none of another kind. -/
def Instr.sParts : Instr → Option (BitVec 8 × SF)
  | .tstatRead f => some (0x50, f)
  | .mstatRead f => some (0x50, f)
  | .xstatWrite f => some (0x51, f)
  | .vflagsWrite f => some (0x51, f)
  | .rrbWrite f => some (0x51, f)
  | .grbWrite f => some (0x51, f)
  | .tguardWrite f => some (0x51, f)
  | .fsrWrite f => some (0x51, f)
  | .waitlimWrite f => some (0x51, f)
  | .opselWrite f => some (0x51, f)
  | .ringWrite f => some (0x51, f)
  | .mzmWrite f => some (0x51, f)
  | .elogstatWrite f => some (0x51, f)
  | .injctlWrite f => some (0x51, f)
  | .add f => some (0x01, f)
  | .sub f => some (0x02, f)
  | .mul f => some (0x03, f)
  | .mulh f => some (0x04, f)
  | .div f => some (0x05, f)
  | .rem f => some (0x06, f)
  | .and_ f => some (0x07, f)
  | .andn f => some (0x0a, f)
  | .or_ f => some (0x08, f)
  | .xor f => some (0x09, f)
  | .shl f => some (0x0b, f)
  | .shr f => some (0x0c, f)
  | .sra f => some (0x0d, f)
  | .rol f => some (0x0e, f)
  | .min f => some (0x0f, f)
  | .max f => some (0x10, f)
  | .clz f => some (0x11, f)
  | .popc f => some (0x12, f)
  | .sel f => some (0x13, f)
  | .mov f => some (0x14, f)
  | .li f => some (0x15, f)
  | .cmp f => some (0x16, f)
  | .pand f => some (0x18, f)
  | .por f => some (0x19, f)
  | .pxor f => some (0x1a, f)
  | .pnot f => some (0x1b, f)
  | .kpop f => some (0x1c, f)
  | .kpopN f => some (0x1c, f)
  | .ld f => some (0x20, f)
  | .st f => some (0x21, f)
  | .atom f => some (0x22, f)
  | .atomCas f => some (0x22, f)
  | .red f => some (0x23, f)
  | .lqpop f => some (0x24, f)
  | .apush f => some (0x25, f)
  | .fence f => some (0x26, f)
  | .waitw f => some (0x27, f)
  | .brRel f => some (0x30, f)
  | .brReg f => some (0x30, f)
  | .jmpImm f => some (0x31, f)
  | .jmpReg f => some (0x31, f)
  | .jmpLong f => some (0x31, f)
  | .callRel f => some (0x32, f)
  | .callReg f => some (0x32, f)
  | .ret f => some (0x33, f)
  | .loop f => some (0x34, f)
  | .trap f => some (0x35, f)
  | .tret f => some (0x36, f)
  | .end_ f => some (0x37, f)
  | .yield f => some (0x38, f)
  | .launch f => some (0x39, f)
  | .twait f => some (0x40, f)
  | .twaitAbs f => some (0x40, f)
  | .wtagall f => some (0x41, f)
  | .wtagany f => some (0x42, f)
  | .tagff f => some (0x43, f)
  | .tagclr f => some (0x44, f)
  | .qwait f => some (0x45, f)
  | .qadv f => some (0x46, f)
  | .qset f => some (0x47, f)
  | .bara f => some (0x48, f)
  | .barw f => some (0x49, f)
  | .step f => some (0x4a, f)
  | .pstat f => some (0x4b, f)
  | .sysrd f => some (0x50, f)
  | .syswr f => some (0x51, f)
  | .tidset f => some (0x52, f)
  | .falloc f => some (0x53, f)
  | .fallocAt f => some (0x53, f)
  | .fallocQuery f => some (0x53, f)
  | .ffree f => some (0x54, f)
  | _ => none
def Instr.vParts : Instr → Option (BitVec 8 × VF)
  | .vadd f => some (0x01, f)
  | .vsub f => some (0x02, f)
  | .vmul f => some (0x03, f)
  | .vfma f => some (0x04, f)
  | .vfms f => some (0x05, f)
  | .vmin f => some (0x06, f)
  | .vmax f => some (0x07, f)
  | .vabs f => some (0x08, f)
  | .vneg f => some (0x09, f)
  | .vand f => some (0x0a, f)
  | .vor f => some (0x0b, f)
  | .vxor f => some (0x0c, f)
  | .vnot f => some (0x0d, f)
  | .vshl f => some (0x0e, f)
  | .vshr f => some (0x0f, f)
  | .vsra f => some (0x10, f)
  | .vcmp f => some (0x11, f)
  | .vsel f => some (0x12, f)
  | .vmov f => some (0x13, f)
  | .vbcastIdx f => some (0x14, f)
  | .vbcastFirst f => some (0x14, f)
  | .viota f => some (0x15, f)
  | .vext f => some (0x16, f)
  | .vdot f => some (0x17, f)
  | .vred f => some (0x18, f)
  | .vamax f => some (0x19, f)
  | .vcvt f => some (0x20, f)
  | .vwid f => some (0x21, f)
  | .vnar f => some (0x22, f)
  | .vquant f => some (0x23, f)
  | .vperm f => some (0x28, f)
  | .vcompact f => some (0x29, f)
  | .vld f => some (0x30, f)
  | .vst f => some (0x31, f)
  | .kand f => some (0x38, f)
  | .kor f => some (0x39, f)
  | .kxor f => some (0x3a, f)
  | .knot f => some (0x3b, f)
  | .vexp2 f => some (0x40, f)
  | .vlog2 f => some (0x41, f)
  | .vrcp f => some (0x42, f)
  | .vrsq f => some (0x43, f)
  | .vsqrt f => some (0x44, f)
  | .vtanh f => some (0x45, f)
  | .scan f => some (0x50, f)
  | .selk f => some (0x51, f)
  | .sortk f => some (0x52, f)
  | .rsolve f => some (0x58, f)
  | _ => none
def Instr.mParts : Instr → Option (BitVec 8 × MF)
  | .mcfgHead f => some (0x01, f)
  | .mcfgLevel f => some (0x01, f)
  | .mroute f => some (0x02, f)
  | .mgath f => some (0x03, f)
  | .mgo f => some (0x04, f)
  | .mcommit f => some (0x05, f)
  | .mwaitb f => some (0x06, f)
  | .mdrain f => some (0x07, f)
  | .mzero f => some (0x08, f)
  | .mlda f => some (0x09, f)
  | .mstop f => some (0x0a, f)
  | _ => none
def Instr.cParts : Instr → Option (BitVec 8 × CF)
  | .cget f => some (0x01, f)
  | .cput f => some (0x02, f)
  | .cputf f => some (0x03, f)
  | .cgath f => some (0x04, f)
  | .cscat f => some (0x05, f)
  | .catom f => some (0x06, f)
  | .cred f => some (0x07, f)
  | .cfence f => some (0x08, f)
  | .czero f => some (0x09, f)
  | .croute f => some (0x0a, f)
  | .cbund f => some (0x0b, f)
  | .cencOpen f => some (0x0c, f)
  | .cencFrame f => some (0x0c, f)
  | .cencClose f => some (0x0c, f)
  | _ => none
def Instr.xParts : Instr → Option (BitVec 4 × XF)
  | .xsend f => some (1, f)
  | .xrecv f => some (2, f)
  | _ => none

/-! ## Templates (R274, R275) -/

/-- S instructions whose entries accept FM 10 (R292). -/
def Instr.takesLongS : Instr → Bool
  | .add _ | .sub _ | .mul _ | .mulh _ | .div _ | .rem _ | .and_ _ | .andn _ | .or_ _ | .xor _ | .shl _ | .shr _ | .sra _ | .rol _ | .min _ | .max _ | .sel _ | .li _ | .cmp _ | .ld _ | .st _ | .atom _ | .red _ | .waitw _ | .jmpLong _ | .twait _ | .twaitAbs _ | .wtagall _ | .wtagany _ | .tagff _ | .tagclr _ => true
  | _ => false
/-- V0 instructions that take operand b from the long immediate (R389, R402). -/
def Instr.takesLongV : Instr → Bool
  | .vadd _ | .vsub _ | .vmul _ | .vmin _ | .vmax _ | .vand _ | .vor _ | .vxor _ | .vsel _ | .vshl _ | .vshr _ | .vsra _ | .vfma _ | .vfms _ | .vcmp _ | .vbcastFirst _ => true
  | _ => false
/-- C0 operations with an SS register operand (R293). -/
def Instr.takesLongC : Instr → Bool
  | .cget _ | .cput _ | .cputf _ | .cgath _ | .czero _ | .catom _ | .cred _ | .croute _ | .cbund _ | .cencOpen _ | .cencFrame _ => true
  | _ => false

/-- An owner keeps to R274 and R275, and an S slot without an immediate does not say FM 10. -/
def templateOkS (i : Instr) (f : SF) : Bool :=
  if f.long == none then f.fm != 2 else f.fm == 2 && f.b == 0 && f.imm == 0 && i.takesLongS
def templateOkV (i : Instr) (f : VF) : Bool := f.long == none || (i.takesLongV && f.b == 0)
def templateOkM (i : Instr) (f : MF) : Bool :=
  f.long == none || ((match i with | .mcfgHead _ => true | .mcfgLevel _ => true | _ => false) && f.lv == 0)
def templateOkC (i : Instr) (f : CF) : Bool := f.long == none || (i.takesLongC && f.ss == 0)

/-- The fields keep to R274 and to the FM rule of R275, whatever the opcode says. -/
def fieldsOkS (f : SF) : Bool := if f.long == none then f.fm != 2 else f.fm == 2 && f.b == 0 && f.imm == 0
def fieldsOkV (f : VF) : Bool := f.long == none || f.b == 0
def fieldsOkM (f : MF) : Bool := f.long == none || f.lv == 0
def fieldsOkC (f : CF) : Bool := f.long == none || f.ss == 0

/-- NOP's opcode 0: a template mismatch first (an owner that holds NOP, or fields that break R274), then NOP itself, or
NOP with another field non-zero (R275, R280, R283). -/
def acceptNop (zero owner fields : Bool) (u : SlotName) : Decoded Instr :=
  if owner || !fields then .error .template else if zero then .ok (.nop u) else .error .slot

/-- Accept an instruction the opcode map gives: template rules first, then the field rules (R245, R275, R283). -/
def accept (i : Option Instr) (fields : Bool) (tmpl : Instr → Bool) : Decoded Instr :=
  match i with
  | none => if fields then .error .slot else .error .template
  | some i => if tmpl i then (if i.wf then .ok i else .error .slot) else .error .template

/-- Decode an S field. Opcode 0 with every field 0 is NOP (R280). -/
def decodeS (w : Word) (long : Option Word) : Decoded Instr :=
  let f := unpackS w long
  if w.extractLsb' 0 8 == 0 then acceptNop (w == 0) (long != none) (fieldsOkS f) .s
  else accept (pickS (w.extractLsb' 0 8).toNat f) (fieldsOkS f) (fun i => templateOkS i f)

/-- Decode a V field of slot V0 or V1. A V1-only opcode in V0 is an illegal slot encoding before the template
rules are looked at (R145, R275). -/
def decodeV (w : Word) (v1 : Bool) (long : Option Word) : Decoded Instr :=
  let f := unpackV w v1 long
  if w.extractLsb' 0 8 == 0 then acceptNop (w == 0) (long != none) (fieldsOkV f) (if v1 then .v1 else .v0)
  else
    let opc := (w.extractLsb' 0 8).toNat
    if 0x40 <= opc && opc < 0x60 && !v1 then .error .slot
    else accept (pickV opc f) (fieldsOkV f) (fun i => templateOkV i f)

def decodeM (w : Word) (long : Option Word) : Decoded Instr :=
  let f := unpackM w long
  if w.extractLsb' 0 8 == 0 then acceptNop (w == 0) (long != none) (fieldsOkM f) .m
  else accept (pickM (w.extractLsb' 0 8).toNat f) (fieldsOkM f) (fun i => templateOkM i f)

def decodeC (w : Word) (c1 : Bool) (long : Option Word) : Decoded Instr :=
  let f := unpackC w c1 long
  if w.extractLsb' 0 8 == 0 then acceptNop (w == 0) (long != none) (fieldsOkC f) (if c1 then .c1 else .c0)
  else accept (pickC (w.extractLsb' 0 8).toNat f) (fieldsOkC f) (fun i => templateOkC i f)

def decodeX (w : BitVec 32) : Decoded Instr :=
  if w.extractLsb' 0 4 == 0 then (if w == 0 then .ok (.nop .x) else .error .slot)
  else accept (pickX (w.extractLsb' 0 4).toNat (unpackX w)) true (fun _ => true)

/-! ## Events: row number and operands (log 6) -/

/-- The row of spec/opcode_table.json (counted from 0) and the operands of an event. -/
def Instr.eventArgs : Instr → Option (Nat × List Nat)
  | .bundleIssue => some (0, [])
  | .anchoredBundleIssue => some (1, [])
  | .lateTickExpiry => some (2, [])
  | .resultLanding => some (3, [])
  | .waitLimit => some (4, [])
  | .slipExceeded => some (5, [])
  | .launchPortStore pkg ptr => some (6, [pkg, ptr])
  | .launchValidate pkg => some (7, [pkg])
  | .gangStart rid choice => some (8, [rid, choice])
  | .startTick rid choice => some (9, [rid, choice])
  | .startLate rid => some (10, [rid])
  | .regionDone rid => some (11, [rid])
  | .periodStart rid => some (12, [rid])
  | .budgetExhausted rid => some (13, [rid])
  | .deadlineMiss rid => some (14, [rid])
  | .quantumExpiry rid => some (15, [rid])
  | .dispatch pkg choice => some (16, [pkg, choice])
  | .preemptStop rid => some (17, [rid])
  | .windowOverrun rid => some (18, [rid])
  | .resume rid choice => some (19, [rid, choice])
  | .contextEvict => some (20, [])
  | .cancelObserved rid => some (21, [rid])
  | .cancelComplete rid => some (22, [rid])
  | .millinerTakeover pkg => some (23, [pkg])
  | .ptpSync pkg offset => some (24, [pkg, offset])
  | .syncTimeout pkg => some (25, [pkg])
  | .holdoverTimeout pkg => some (26, [pkg])
  | .spineLineTransfer die chan => some (27, [die, chan])
  | .peerBankAccess die req => some (28, [die, req])
  | .cuffLanding die cuff => some (29, [die, cuff])
  | .cuffOverrun => some (30, [])
  | .matrixStepStart => some (31, [])
  | .matrixStepComplete => some (32, [])
  | .tableMove => some (33, [])
  | .copyComplete die chan => some (34, [die, chan])
  | .cgathEntryWrite die chan => some (35, [die, chan])
  | .cputfFlagIncrement die chan => some (36, [die, chan])
  | .pageWalk die part space vpage => some (37, [die, part, space, vpage])
  | .homeAccess die chan item => some (38, [die, chan, item])
  | .loadReturn req => some (39, [req])
  | .storeAck req => some (40, [req])
  | .atomicResend req => some (41, [req])
  | .atomicTimeout req => some (42, [req])
  | .resultCacheExpiry pkg src seq => some (43, [pkg, src, seq])
  | .routerCredReceive pkg req => some (44, [pkg, req])
  | .mergeForward pkg merge => some (45, [pkg, merge])
  | .mergeAnswer pkg merge => some (46, [pkg, merge])
  | .mirrorAck req => some (47, [req])
  | .crownAllocatorAnswer slot => some (48, [slot])
  | .fabricDieFailed pkg fd => some (49, [pkg, fd])
  | .failoverComplete pkg fd => some (50, [pkg, fd])
  | .barrierArrival part entry writer => some (51, [part, entry, writer])
  | .planeMerge part group home => some (52, [part, group, home])
  | .phaseFlip part entry => some (53, [part, entry])
  | .flitReceive pkg link seq good => some (54, [pkg, link, seq, good])
  | .lossOfLight pkg link => some (55, [pkg, link])
  | .opticalLock pkg link => some (56, [pkg, link])
  | .authAttempt pkg link good => some (57, [pkg, link, good])
  | .authTimeout pkg link => some (58, [pkg, link])
  | .drainMarker pkg src => some (59, [pkg, src])
  | .biasLimit pkg port plane mzm high => some (60, [pkg, port, plane, mzm, high])
  | .heaterApply pkg port plane ring => some (61, [pkg, port, plane, ring])
  | .monUpdate pkg port plane ring reading => some (62, [pkg, port, plane, ring, reading])
  | .colourTakeover pkg port plane ring => some (63, [pkg, port, plane, ring])
  | .circuitUp pkg src dst => some (64, [pkg, src, dst])
  | .circuitWaitTimeout req => some (65, [req])
  | .xsendLaunch circ => some (66, [circ])
  | .unitLanding circ => some (67, [circ])
  | .windowEnd circ => some (68, [circ])
  | .xrecvTake => some (69, [])
  | .waitwReread => some (70, [])
  | .hostAccess pkg write ptr size data => some (71, [pkg, write, ptr, size, data])
  | .reset pkg outcome => some (72, [pkg, outcome])
  | .readyTimeout pkg => some (73, [pkg])
  | .attestationRequest pkg nonce => some (74, [pkg, nonce])
  | .installRangeEntry pkg part index w0 w1 w2 w3 => some (75, [pkg, part, index, w0, w1, w2, w3])
  | .invalidateTranslation pkg part space first last => some (76, [pkg, part, space, first, last])
  | .installPlaneDescriptor pkg part index w0 w1 w2 w3 w4 w5 w6 w7 => some (77, [pkg, part, index, w0, w1, w2, w3, w4, w5, w6, w7])
  | .installBarrierEntry pkg part index members => some (78, pkg :: part :: index :: members)
  | .installReductionWindow pkg part index base size ty op => some (79, [pkg, part, index, base, size, ty, op])
  | .installCircuitDescriptor pkg part slot index w0 w1 w2 w3 => some (80, [pkg, part, slot, index, w0, w1, w2, w3])
  | .routingUpdate pkg dest entry => some (81, [pkg, dest, entry])
  | .routingFlip pkg => some (82, [pkg])
  | .connectionTableEntry pkg src dst count => some (83, [pkg, src, dst, count])
  | .setBandQuantum pkg band value => some (84, [pkg, band, value])
  | .linkEnable pkg link => some (85, [pkg, link])
  | .powerGrant pkg demands => some (86, pkg :: demands)
  | .computeDieFailure => some (87, [])
  | .stackFailure pkg stack => some (88, [pkg, stack])
  | .bankRetire die bank => some (89, [die, bank])
  | .ringFailure pkg port plane ring => some (90, [pkg, port, plane, ring])
  | .encodeComplete => some (91, [])
  | .intstatWrite pkg bits => some (106, [pkg, bits])
  | .lightPresent pkg link => some (254, [pkg, link])
  | .ptpPortEnable pkg port enable => some (255, [pkg, port, enable])
  | .barrierRootAnswer slot => some (256, [slot])
  | .takeoverComplete pkg => some (257, [pkg])
  | .unknownCommand pkg code => some (258, [pkg, code])
  | _ => none

def eventOf (row : Nat) (args : List Nat) : Option Instr :=
  match row, args with
  | 0, [] => some (.bundleIssue)
  | 1, [] => some (.anchoredBundleIssue)
  | 2, [] => some (.lateTickExpiry)
  | 3, [] => some (.resultLanding)
  | 4, [] => some (.waitLimit)
  | 5, [] => some (.slipExceeded)
  | 6, [pkg, ptr] => some (.launchPortStore pkg ptr)
  | 7, [pkg] => some (.launchValidate pkg)
  | 8, [rid, choice] => some (.gangStart rid choice)
  | 9, [rid, choice] => some (.startTick rid choice)
  | 10, [rid] => some (.startLate rid)
  | 11, [rid] => some (.regionDone rid)
  | 12, [rid] => some (.periodStart rid)
  | 13, [rid] => some (.budgetExhausted rid)
  | 14, [rid] => some (.deadlineMiss rid)
  | 15, [rid] => some (.quantumExpiry rid)
  | 16, [pkg, choice] => some (.dispatch pkg choice)
  | 17, [rid] => some (.preemptStop rid)
  | 18, [rid] => some (.windowOverrun rid)
  | 19, [rid, choice] => some (.resume rid choice)
  | 20, [] => some (.contextEvict)
  | 21, [rid] => some (.cancelObserved rid)
  | 22, [rid] => some (.cancelComplete rid)
  | 23, [pkg] => some (.millinerTakeover pkg)
  | 24, [pkg, offset] => some (.ptpSync pkg offset)
  | 25, [pkg] => some (.syncTimeout pkg)
  | 26, [pkg] => some (.holdoverTimeout pkg)
  | 27, [die, chan] => some (.spineLineTransfer die chan)
  | 28, [die, req] => some (.peerBankAccess die req)
  | 29, [die, cuff] => some (.cuffLanding die cuff)
  | 30, [] => some (.cuffOverrun)
  | 31, [] => some (.matrixStepStart)
  | 32, [] => some (.matrixStepComplete)
  | 33, [] => some (.tableMove)
  | 34, [die, chan] => some (.copyComplete die chan)
  | 35, [die, chan] => some (.cgathEntryWrite die chan)
  | 36, [die, chan] => some (.cputfFlagIncrement die chan)
  | 37, [die, part, space, vpage] => some (.pageWalk die part space vpage)
  | 38, [die, chan, item] => some (.homeAccess die chan item)
  | 39, [req] => some (.loadReturn req)
  | 40, [req] => some (.storeAck req)
  | 41, [req] => some (.atomicResend req)
  | 42, [req] => some (.atomicTimeout req)
  | 43, [pkg, src, seq] => some (.resultCacheExpiry pkg src seq)
  | 44, [pkg, req] => some (.routerCredReceive pkg req)
  | 45, [pkg, merge] => some (.mergeForward pkg merge)
  | 46, [pkg, merge] => some (.mergeAnswer pkg merge)
  | 47, [req] => some (.mirrorAck req)
  | 48, [slot] => some (.crownAllocatorAnswer slot)
  | 49, [pkg, fd] => some (.fabricDieFailed pkg fd)
  | 50, [pkg, fd] => some (.failoverComplete pkg fd)
  | 51, [part, entry, writer] => some (.barrierArrival part entry writer)
  | 52, [part, group, home] => some (.planeMerge part group home)
  | 53, [part, entry] => some (.phaseFlip part entry)
  | 54, [pkg, link, seq, good] => some (.flitReceive pkg link seq good)
  | 55, [pkg, link] => some (.lossOfLight pkg link)
  | 56, [pkg, link] => some (.opticalLock pkg link)
  | 57, [pkg, link, good] => some (.authAttempt pkg link good)
  | 58, [pkg, link] => some (.authTimeout pkg link)
  | 59, [pkg, src] => some (.drainMarker pkg src)
  | 60, [pkg, port, plane, mzm, high] => some (.biasLimit pkg port plane mzm high)
  | 61, [pkg, port, plane, ring] => some (.heaterApply pkg port plane ring)
  | 62, [pkg, port, plane, ring, reading] => some (.monUpdate pkg port plane ring reading)
  | 63, [pkg, port, plane, ring] => some (.colourTakeover pkg port plane ring)
  | 64, [pkg, src, dst] => some (.circuitUp pkg src dst)
  | 65, [req] => some (.circuitWaitTimeout req)
  | 66, [circ] => some (.xsendLaunch circ)
  | 67, [circ] => some (.unitLanding circ)
  | 68, [circ] => some (.windowEnd circ)
  | 69, [] => some (.xrecvTake)
  | 70, [] => some (.waitwReread)
  | 71, [pkg, write, ptr, size, data] => some (.hostAccess pkg write ptr size data)
  | 72, [pkg, outcome] => some (.reset pkg outcome)
  | 73, [pkg] => some (.readyTimeout pkg)
  | 74, [pkg, nonce] => some (.attestationRequest pkg nonce)
  | 75, [pkg, part, index, w0, w1, w2, w3] => some (.installRangeEntry pkg part index w0 w1 w2 w3)
  | 76, [pkg, part, space, first, last] => some (.invalidateTranslation pkg part space first last)
  | 77, [pkg, part, index, w0, w1, w2, w3, w4, w5, w6, w7] => some (.installPlaneDescriptor pkg part index w0 w1 w2 w3 w4 w5 w6 w7)
  | 78, pkg :: part :: index :: members => some (.installBarrierEntry pkg part index members)
  | 79, [pkg, part, index, base, size, ty, op] => some (.installReductionWindow pkg part index base size ty op)
  | 80, [pkg, part, slot, index, w0, w1, w2, w3] => some (.installCircuitDescriptor pkg part slot index w0 w1 w2 w3)
  | 81, [pkg, dest, entry] => some (.routingUpdate pkg dest entry)
  | 82, [pkg] => some (.routingFlip pkg)
  | 83, [pkg, src, dst, count] => some (.connectionTableEntry pkg src dst count)
  | 84, [pkg, band, value] => some (.setBandQuantum pkg band value)
  | 85, [pkg, link] => some (.linkEnable pkg link)
  | 86, pkg :: demands => some (.powerGrant pkg demands)
  | 87, [] => some (.computeDieFailure)
  | 88, [pkg, stack] => some (.stackFailure pkg stack)
  | 89, [die, bank] => some (.bankRetire die bank)
  | 90, [pkg, port, plane, ring] => some (.ringFailure pkg port plane ring)
  | 91, [] => some (.encodeComplete)
  | 106, [pkg, bits] => some (.intstatWrite pkg bits)
  | 254, [pkg, link] => some (.lightPresent pkg link)
  | 255, [pkg, port, enable] => some (.ptpPortEnable pkg port enable)
  | 256, [slot] => some (.barrierRootAnswer slot)
  | 257, [pkg] => some (.takeoverComplete pkg)
  | 258, [pkg, code] => some (.unknownCommand pkg code)
  | _, _ => none

/-! ## Records (log 6) -/

/-- The `n` low bytes of a number, least significant first (R2). -/
def bytesOfNat : Nat → Nat → List Byte
  | 0, _ => []
  | n + 1, x => BitVec.ofNat 8 x :: bytesOfNat n (x / 256)

/-- The number that bytes spell, least significant first (R2). -/
def natOfBytes : List Byte → Nat
  | [] => 0
  | b :: bs => b.toNat + 256 * natOfBytes bs

/-- Numbers of 8 bytes each. -/
def u64Bytes : List Nat → List Byte
  | [] => []
  | n :: ns => bytesOfNat 8 n ++ u64Bytes ns

/-- Read `k` numbers of 8 bytes, and the rest. -/
def readU64s : Nat → List Byte → Option (List Nat × List Byte)
  | 0, bs => some ([], bs)
  | k + 1, bs =>
    if bs.length < 8 then none
    else (readU64s k (bs.drop 8)).map (fun r => (natOfBytes (bs.take 8) :: r.1, r.2))

/-- A slot record: tag, whether a long immediate follows, the 8 bytes of the field, the 8 bytes of the immediate. -/
def slotRecord (tag : Nat) (w : Nat) (long : Option Word) : List Byte :=
  BitVec.ofNat 8 tag :: (if long == none then 0 else 1) :: (bytesOfNat 8 w ++ bytesOfNat 8 (long.getD 0).toNat)

/-- Tags of the records: 1 S, 2 V0, 3 V1, 4 M, 5 C0, 6 C1, 7 X, 8 event. -/
def SlotName.tag : SlotName → Nat
  | .s => 1 | .v0 => 2 | .v1 => 3 | .m => 4 | .c0 => 5 | .c1 => 6 | .x => 7

/-- The record of an instruction. -/
def encode (i : Instr) : List Byte :=
  match i with
  | .nop slot => slotRecord slot.tag 0 none
  | i =>
    match i.sParts, i.vParts, i.mParts, i.cParts, i.xParts, i.eventArgs with
    | some (o, f), _, _, _, _, _ => slotRecord 1 (packS o f).toNat f.long
    | _, some (o, f), _, _, _, _ => slotRecord (if f.v1 then 3 else 2) (packV o f).toNat f.long
    | _, _, some (o, f), _, _, _ => slotRecord 4 (packM o f).toNat f.long
    | _, _, _, some (o, f), _, _ => slotRecord (if f.c1 then 6 else 5) (packC o f).toNat f.long
    | _, _, _, _, some (o, f), _ => slotRecord 7 (packX o f).toNat none
    | _, _, _, _, _, some (row, args) =>
      8 :: (bytesOfNat 2 row ++ (BitVec.ofNat 8 args.length :: u64Bytes args))
    | _, _, _, _, _, _ => []

/-- Decode one slot record's field by its tag. -/
def decodeField (tag : Nat) (w : Nat) (long : Option Word) : Decoded Instr :=
  match tag with
  | 1 => decodeS (BitVec.ofNat 64 w) long
  | 2 => decodeV (BitVec.ofNat 64 w) false long
  | 3 => decodeV (BitVec.ofNat 64 w) true long
  | 4 => decodeM (BitVec.ofNat 64 w) long
  | 5 => decodeC (BitVec.ofNat 64 w) false long
  | 6 => decodeC (BitVec.ofNat 64 w) true long
  | 7 => if long == none && w < 2 ^ 32 then decodeX (BitVec.ofNat 32 w) else .error .record
  | _ => .error .record

/-- Decode a record: the instruction and the bytes after it. Total; a byte list that is no record is rejected by name. -/
def decode (bs : List Byte) : Decoded (Instr × List Byte) :=
  match bs with
  | [] => .error .record
  | tag :: rest =>
    if tag == 8 then
      match rest with
      | r0 :: r1 :: n :: args =>
        match readU64s n.toNat args with
        | none => .error .record
        | some (xs, rest) =>
          match eventOf (natOfBytes [r0, r1]) xs with
          | none => .error .record
          | some i => if i.wf then .ok (i, rest) else .error .record
      | _ => .error .record
    else
      match rest with
      | [] => .error .record
      | has :: body =>
        if body.length < 16 then .error .record
        else
          let w := natOfBytes (body.take 8)
          let imm := natOfBytes ((body.drop 8).take 8)
          if has == 0 && imm != 0 then .error .record
          else if 1 < has.toNat then .error .record
          else
            match decodeField tag.toNat w (if has == 0 then none else some (BitVec.ofNat 64 imm)) with
            | .error e => .error e
            | .ok i => .ok (i, body.drop 16)

/-- The record that a table word stands for: its low 16 bits are the first two bytes, and so on; every bit above
`nbits` is 0. 24 bytes hold the longest record of a slot instruction. -/
def tableRecord (nbits w : Nat) : List Byte := bytesOfNat 24 (w % 2 ^ nbits)

/-- The instruction that the decoder reads from a table word (log 6). -/
def decodeTableWord (nbits w : Nat) : Option Instr :=
  match decode (tableRecord nbits w) with
  | .ok (i, _) => some i
  | .error _ => none

end Sys2Proof
end

