-- ==== Sys2Proof/Machine/Transfers.lean ====
section
/-! DEFINITION. What the copy channels and the encoder do after issue: lines over the spine (R72, R73, R186), pieces at
far homes (R172–R176, R211, R227), completion (R102, R170, R178, R187, R324), the encoder (R312, R313). -/

namespace Sys2Proof.Machine

/-! ## Channels -/

def Die.modOp (ch id : Nat) (f : CopyOp → CopyOp) (k : Die) : Die :=
  let g := fun (l : List CopyOp) => l.map fun o => if o.id == id then f o else o
  if ch == 0 then { k with chan0 := g k.chan0 } else { k with chan1 := g k.chan1 }
def modOp (d : DieId) (ch id : Nat) (f : CopyOp → CopyOp) : Upd := .die d (Die.modOp ch id f)
/-- The party of an operation. -/
def CopyOp.party (s : State) (d : DieId) (ch : Nat) (o : CopyOp) : Party :=
  { key := o.key, die := d, part := (s.node (keyRid o.key)).part, src := ch + 1, issued := some o.tick }

/-- Steps scheduled up to a start have completed. -/
def Matrix.past (m : Matrix) (last : Nat) : Bool :=
  let table := fun (t : Option MTable) => t.all fun t => t.dead || t.idx.isEmpty || last < t.start
  (m.steps.all fun st => last < st.start) && table m.active && table m.pending
/-- A member of a CFENCE's E has completed (R187). -/
def State.memberDone (s : State) (d : DieId) (key : SlotKey) (x : Nat × Nat) : Bool :=
  match x.1 with
  | 0 => !((s.die d).chan0.any fun o => o.id == x.2)
  | 1 => !((s.die d).chan1.any fun o => o.id == x.2)
  | 2 => (s.slot key).matrix.past x.2
  | _ => !((s.die d).encQ.any fun e => e.id == x.2)
def State.fenceMet (s : State) (d : DieId) (o : CopyOp) : Bool := o.preds.all (s.memberDone d o.key)
/-- An operation may start: no CFENCE that joins its channel and issued before it is incomplete. -/
def State.startable (s : State) (d : DieId) (ch : Nat) (o : CopyOp) : Bool :=
  ((s.die d).chan0 ++ (s.die d).chan1).all fun f =>
    !(f.kind == .fence && bit f.aop ch && f.issued < o.issued && !s.fenceMet d f)

/-! ## Faults and bytes of an operation -/

/-- The first faulting byte stops an operation (R176). -/
def CopyOp.fail (i : Nat) (f : EngFault) (o : CopyOp) : CopyOp :=
  match o.fault with
  | some (j, _) => if j <= i then o else { o with fault := some (i, f) }
  | none => { o with fault := some (i, f) }
def failAt (d : DieId) (ch : Nat) (o : CopyOp) (i : Nat) (c : Cause) (p : Word) : Upd :=
  modOp d ch o.id (CopyOp.fail i { cause := c, ptr := p, detail := 0 })
/-- Source bytes up to here take part. -/
def CopyOp.limit (o : CopyOp) : Nat := match o.fault with
  | some (i, _) => i
  | none => o.reads.total
def CopyOp.has (o : CopyOp) (lo hi : Nat) : Bool := (List.range (hi - lo)).all fun i => (mfind (lo + i) o.buf).isSome
def CopyOp.srcNum (o : CopyOp) (lo n : Nat) : Nat := ofBytes ((List.range n).map fun i => BitVec.ofNat 8 (o.src_ (lo + i)))
/-- Bytes that returned for a piece. -/
def CopyOp.arrive (at_ : Nat) (bs : List Byte) (o : CopyOp) : CopyOp :=
  { o with buf := bs.zipIdx.foldl (fun m b => mput (at_ + b.2) (b.1.toNat + 1) m) o.buf }

/-- Widths, formats and source row of the conversion of a tensor copy: from, to. -/
def CopyOp.conv (o : CopyOp) : (Nat × Nat) × (Nat × Nat) × Nat :=
  if o.kind == .get then ((o.wf, tidFmt o.entry), (o.wb, o.bankFmt), o.farRow)
  else ((o.wb, o.bankFmt), (o.wf, tidFmt o.entry), o.bankRow)
/-- An operation that takes its bytes from its source unchanged. -/
def CopyOp.raw (o : CopyOp) : Bool := o.tid == 0 || o.kind == .scat

/-- The source bytes that `n` bytes from byte `start` of a row of the written side need. -/
def CopyOp.need (o : CopyOp) (row start n : Nat) : Nat × Nat :=
  if o.kind == .scat then let b := row * o.writes.len + start; (b, b + n)
  else if o.raw then (start, start + n)
  else
    let c := o.conv
    let cols := tidCols o.entry
    let e0 := min cols (start * 8 / c.2.1.1)
    let e1 := min cols (ceilDiv ((start + n) * 8) c.2.1.1)
    (row * c.2.2 + e0 * c.1.1 / 8, row * c.2.2 + ceilDiv (e1 * c.1.1) 8)
/-- These bytes have returned; a fill or a scatter has them at issue. -/
def CopyOp.hasNeed (o : CopyOp) (row start n : Nat) : Bool :=
  o.kind == .scat || o.kind == .zero || (let x := o.need row start n; o.has x.1 x.2)
/-- How many bytes of a piece of the written side may be written now: all of them, or those before the fault. -/
def CopyOp.writable (o : CopyOp) (p : Piece) : Option Nat :=
  match o.fault with
  | none => if o.hasNeed p.row p.start p.len then some p.len else none
  | some (i, _) =>
    let m := ((List.range (p.len + 1)).filter fun j => j == 0 || (o.need p.row p.start j).2 <= i).foldl max 0
    if o.hasNeed p.row p.start m then some m else none

/-- Element e of a source row of a tensor copy. -/
def CopyOp.srcElem (o : CopyOp) (row e : Nat) : Nat :=
  let c := o.conv
  let w := c.1.1
  o.srcNum (row * c.2.2 + e * w / 8) (ceilDiv (e * w % 8 + w) 8) / 2 ^ (e * w % 8) % 2 ^ w
/-- A converted element (R173); a format that stays keeps its bits. -/
def CopyOp.element (o : CopyOp) (row e : Nat) : Nat :=
  let c := o.conv
  if tidCols o.entry <= e then 0
  else if c.1.2 == c.2.1.2 then o.srcElem row e
  else (convert c.1.2 c.2.1.2 (tidRnd o.entry) false false (o.srcElem row e)).1

/-- The bytes that an operation writes: `n` from byte `start` of a row. -/
def CopyOp.out (o : CopyOp) (row start n : Nat) : List Byte :=
  match o.kind with
  | .zero => (List.range n).map fun i => BitVec.ofNat 8 (o.src.toNat / 2 ^ (8 * ((o.dst.toNat + start + i) % 8)))
  | .scat => toBytes n ((at0 o.rowsIn row 0).toNat / 2 ^ (8 * start))
  | _ =>
    if o.raw then (List.range n).map fun i => BitVec.ofNat 8 (o.src_ (start + i))
    else
      let w := o.conv.2.1.1
      let e0 := start * 8 / w
      let k := ceilDiv ((start + n) * 8) w - e0
      toBytes n (((List.range k).foldr (fun i x => o.element row (e0 + i) + 2 ^ w * x) 0) / 2 ^ (start * 8 - e0 * w))

/-! ## Where the writes of a channel stand -/

/-- A pointer in the die's own banks. -/
def ownBank (key : SlotKey) (p : Word) : Bool := spaceOf p == 0 || (spaceOf p == 1 && ptrSlot p == keySlot key)
/-- Both sides lie in the own banks: the source is read entirely first (R172). -/
def CopyOp.within (o : CopyOp) : Bool :=
  o.reads.count != 0 && o.writes.count != 0 && ownBank o.key o.src && ownBank o.key o.dst
def CopyOp.readsDone (o : CopyOp) : Bool := o.reads.count == 0 || o.has 0 o.limit
def CopyOp.writeDone (o : CopyOp) (k : Nat) : Bool :=
  if spaceOf o.dst == 0 then k < o.wseq else o.farDone.contains k || (o.writes.piece k).len == 0
def CopyOp.allWritten (o : CopyOp) : Bool := (List.range o.writes.count).all o.writeDone

/-- The offsets of the entries that a CGATH has still to write. -/
def gathOffs (c : Ctx) (o : CopyOp) : List Nat :=
  let q := c.q o.q
  if q.depth == 0 then [] else (List.range (min (o.n - o.seq) q.depth)).map fun i => q.entry ((q.wp + i) % q.depth)
/-- Bytes that an operation has still to write. -/
def State.pendingWrites (s : State) (d : DieId) (ch : Nat) (o : CopyOp) : List Spot :=
  let pt := o.party s d ch
  let c := s.slot o.key
  let one := fun (p : Word) n => [s.spot pt p n]
  let data := ((List.range o.writes.count).filter fun k => !o.writeDone k).map fun k =>
    let p := o.writes.piece k
    s.spot pt p.ptr p.len
  match o.kind with
  | .gath => (gathOffs c o).flatMap fun x => (List.range 8).map fun j => Spot.bank (c.bankAt (x + 64 * j)) 64
  | .bund => [Spot.bank (bundleAddr d c.bmem (o.dst.toNat + 64 * o.wseq)) (o.n - 64 * o.wseq)]
  | .atom => if o.stage < 6 then one o.dst o.size ++ one o.src 8 else []
  | .red => if o.stage < 2 then one o.dst (credSize o.size) else []
  | .putf => data ++ (if o.stage < 2 then one o.flag 8 else [])
  | _ => data
/-- An earlier operation of the channel has still to write some of these bytes (R170, R186). -/
def State.mustFollow (s : State) (d : DieId) (ch : Nat) (o : CopyOp) (x : Spot) : Bool :=
  ((s.die d).chan ch).any fun e => e.id < o.id && (s.pendingWrites d ch e).any x.meets
/-- The same for bytes at a pointer. -/
def State.mustWait (s : State) (d : DieId) (ch : Nat) (o : CopyOp) (p : Word) (n : Nat) : Bool :=
  s.mustFollow d ch o (s.spot (o.party s d ch) p n)
/-- A row that an earlier index of the same CSCAT names has still to be written to some of these bytes (R175). -/
def State.scatBehind (s : State) (d : DieId) (ch : Nat) (o : CopyOp) (k : Nat) : Bool :=
  let pt := o.party s d ch
  let at_ := fun i => let p := o.writes.piece i; s.spot pt p.ptr p.len
  o.kind == .scat && (List.range k).any fun j => !o.writeDone j && (at_ k).meets (at_ j)

/-! ## Far-side pieces -/

/-- Bytes read at a home, with the plane rules (R211). -/
def State.readAt (s : State) (pt : Party) (ptr : Word) (a n : Nat) : Except Cause (List Byte) :=
  match s.planeHit pt.part ptr n with
  | .hidden => .error .permission
  | .present _ p _ => if p.frozen then .error .crownLost else .ok (s.bytes a n)
  | .none => .ok (s.bytes a n)
/-- Bytes stored at a home, with the plane rules (R211, R213). -/
def State.storeAt (s : State) (pt : Party) (ptr : Word) (a : Nat × Option Nat) (bs : List Byte) : Except Cause (List Upd) :=
  match s.planeHit pt.part ptr bs.length with
  | .hidden => .error .permission
  | .present _ p off => s.planeStore pt p off bs
  | .none => .ok (writeHome a bs)

/-- A piece at its home, for a party: what it waits for, the fault it meets, or what it does there. Its answer needs a way
back before it performs, so that a store that faults for want of one has no effect (T9.3; log 8). -/
def State.pieceAt (s : State) (pt : Party) (ptr : Word) (need : Need) (whole : Bool) (ref : Nat) (fail : Cause → List Upd)
    (done : Nat → Option Nat → List Upd) : List Upd :=
  let pt := s.sendAs pt ptr
  if s.pieceBehind pt ptr then []
  else match s.reach pt ptr need whole with
  | .wait => holdAt s pt (s.destPkg pt.part (diePkg pt.die) ptr) ref
  | .walk wd space page => joinWalk s wd pt.part space page ref
  | .fault c => fail c
  | .ready a m => match s.answerPath pt a with
    | .carried => done a m
    | .cut => fail .circuitDown
    | h => holdOn h ref

/-- Piece k of the far side of a read; what has been damaged on the way there, and on the way back. -/
def copyRead (s : State) (d : DieId) (ch : Nat) (o : CopyOp) (k damage : Nat) : List Upd :=
  let p := o.reads.piece k
  let i := p.row * o.reads.len + p.start
  let pt := o.party s d ch
  let fail := fun c => [failAt d ch o i c p.ptr]
  if o.reads.count <= k || o.farDone.contains k || o.limit <= i then []
  else s.pieceAt pt p.ptr .read false (Ref.item d ch o.id k).code
    (fun c => (if c == .machine then s.readNote pt p.ptr p.len .read else []) ++ fail c)
    fun a _ =>
      if !pieceSound pt p.ptr [] (damage % 2 ^ 32) then fail .checkMismatch
      else if s.isHidden a p.len then []
      else if s.unsound a p.len then s.readNote pt p.ptr p.len .read ++ fail .machine
      else
        match s.readAt pt p.ptr a p.len with
        | .error c => fail c
        | .ok bs => s.readNote pt p.ptr p.len .read ++
            (if !pieceSound pt p.ptr bs (damage / 2 ^ 32) then fail .checkMismatch
             else [modOp d ch o.id fun o => { o.arrive i bs with farDone := o.farDone ++ [k] }])

/-- Piece k of the far side of a write. -/
def copyWrite (s : State) (d : DieId) (ch : Nat) (o : CopyOp) (k damage : Nat) : List Upd :=
  let p := o.writes.piece k
  let i := (o.need p.row p.start p.len).1
  let pt := o.party s d ch
  let ref := (Ref.item d ch o.id k).code
  let bs := o.out p.row p.start p.len
  let fail := fun c => [failAt d ch o i c p.ptr]
  if o.writes.count <= k || p.len == 0 || o.writeDone k || s.hidden.any (fun h => h.ref == ref) ||
      o.writable p != some p.len || (o.within && !o.readsDone) then []
  else s.pieceAt pt p.ptr .write (p.len == 64) ref fail
    fun a m =>
      if !pieceSound pt p.ptr bs damage then fail .checkMismatch
      else if s.isHidden a p.len || s.planeHeld pt.part p.ptr p.len || s.mustWait d ch o p.ptr p.len ||
          s.scatBehind d ch o k then []
      else if m.isSome then [.hide (s.hides pt p.ptr ref a p.len)]
      else
        match s.storeAt pt p.ptr (a, m) bs with
        | .error c => fail c
        | .ok u => u ++ [modOp d ch o.id fun o => { o with farDone := o.farDone ++ [k] }]

/-- A far-side piece of an operation at its home. -/
def copyHome (s : State) (d : DieId) (ch : Nat) (o : CopyOp) (k damage : Nat) : List Upd :=
  if !s.startable d ch o then []
  else if o.reads.count != 0 && spaceOf o.src != 0 then copyRead s d ch o k damage
  else if o.writes.count != 0 && spaceOf o.dst != 0 then copyWrite s d ch o k damage
  else []
/-- The pointer of a far-side piece. -/
def CopyOp.farPtr (o : CopyOp) (k : Nat) : Word :=
  if o.reads.count != 0 && spaceOf o.src != 0 then (o.reads.piece k).ptr else (o.writes.piece k).ptr

/-- A request of a copy leaves where one is free (R169), and where its operation has not found one since its region was
stopped (R179). -/
def copyAsks (s : State) (d : DieId) (ch : Nat) (o : CopyOp) (ref : Option Nat) (us : List Upd) : List Upd :=
  let starve := fun b => if o.starved == b then [] else [modOp d ch o.id fun o => { o with starved := b }]
  if us.isEmpty || (o.starved && (s.slot o.key).mode == .stopped) then []
  else if !s.copyRoom d && !(ref.any s.waitingRefs.contains) then starve true
  else starve false ++ us

/-! ## The spine (R72) -/

/-- Banks that the encoder reads in a die cycle. -/
def encBanks (s : State) (d : DieId) (cyc : Nat) : List Nat :=
  (s.die d).spine.flatMap fun l =>
    match l.eff with
    | .encRead cmd i =>
      if l.due == cyc then
        match (s.die d).encQ.find? fun e => e.id == cmd with
        | some e => (List.range (min 128 (e.lines - 128 * i))).map fun j => (offsetBits e.ptr / 64 + 128 * i + j) % 2048
        | none => []
      else []
    | _ => []
/-- A grant: the line moves in the present die cycle. -/
def Die.lane (eff : Effect) (k : Die) : Die :=
  { k with nextSeq := k.nextSeq + 1
           spine := k.spine ++ [{ due := k.cyc, ph := phSpine, seq := k.nextSeq, eff := eff }] }

def bankOf (p : Word) : Nat := offsetBits p / 64 % 2048

/-- What a channel's operation moves next over the spine: the bank (2,048 for bundle memory), whether it reads, the
number of the piece, and its counters after the grant. -/
structure Lane where
  bank  : Nat
  reads : Bool
  k     : Nat
  after : CopyOp

def laneRead (o : CopyOp) : Option Lane :=
  let p := o.reads.piece o.bankAt
  if o.reads.count <= o.bankAt || o.limit <= p.row * o.reads.len + p.start then none
  else some { bank := bankOf p.ptr, reads := true, k := o.bankAt, after := { o with bankAt := o.reads.skip (o.bankAt + 1) } }
def laneWrite (s : State) (d : DieId) (ch : Nat) (o : CopyOp) : Option Lane :=
  let p := o.writes.piece o.wseq
  if o.writes.count <= o.wseq || (o.within && !o.readsDone) then none
  else
    match o.writable p with
    | none => none
    | some 0 => none
    | some n =>
      if s.mustWait d ch o p.ptr n then none
      else some { bank := bankOf p.ptr, reads := false, k := o.wseq,
                  after := { o with wseq := if n < p.len then o.writes.count else o.writes.skip (o.wseq + 1) } }
/-- A line of the entry that a CGATH writes next, after every earlier CGATH of the channel on its queue. A CGATH of the other
channel on the queue has the tail entry to itself from its first line until WP has passed it (DESIGN CHOICE, log 18). -/
def laneGath (s : State) (d : DieId) (ch : Nat) (o : CopyOp) : Option Lane :=
  let c := s.slot o.key
  let q := c.q o.q
  let row := o.reads.len
  let ahead := ((s.die d).chan ch).any fun e => e.id < o.id && e.kind == .gath && e.key == o.key && e.q == o.q
  let taken := o.wseq == 8 * o.seq && ((s.die d).chan (1 - ch)).any fun e =>
    e.kind == .gath && e.key == o.key && e.q == o.q && 8 * e.seq < e.wseq
  if ahead || taken || o.n <= o.seq || o.wseq != 8 * o.seq + o.wseq % 8 || q.full || o.limit < (o.seq + 1) * row ||
      !o.has (o.seq * row) ((o.seq + 1) * row) then none
  else
    let off := q.entry q.tail + 64 * (o.wseq % 8)
    if s.mustFollow d ch o (Spot.bank (c.bankAt off) 64) then none
    else some { bank := off / 64 % 2048, reads := false, k := o.wseq, after := { o with wseq := o.wseq + 1 } }
def laneBund (s : State) (d : DieId) (ch : Nat) (o : CopyOp) : Option Lane :=
  if o.n <= 64 * o.wseq || o.limit < 64 * (o.wseq + 1) || !o.has (64 * o.wseq) (64 * (o.wseq + 1)) ||
      s.mustFollow d ch o (Spot.bank (bundleAddr d (s.slot o.key).bmem (o.dst.toNat + 64 * o.wseq)) 64) then none
  else some { bank := 2048, reads := false, k := o.wseq, after := { o with wseq := o.wseq + 1 } }
def laneAtom (s : State) (d : DieId) (ch : Nat) (o : CopyOp) : Option Lane :=
  let go := fun (p : Word) r st => some { bank := bankOf p, reads := r, k := o.stage, after := { o with stage := st } : Lane }
  if o.fault.isSome then none
  else if o.stage == 0 then go o.src true 1
  else if o.stage == 2 && spaceOf o.dst == 0 && !s.mustWait d ch o o.dst o.size then go o.dst false 3
  else if o.stage == 4 && !s.mustWait d ch o o.src 8 then go o.src false 5
  else none

/-- The next line of an operation. -/
def State.lane? (s : State) (d : DieId) (ch : Nat) (o : CopyOp) : Option Lane :=
  if !s.startable d ch o then none
  else
    let rd := if spaceOf o.src == 0 then laneRead o else none
    let wr := if spaceOf o.dst == 0 then laneWrite s d ch o else none
    match o.kind with
    | .get => rd <|> wr
    | .put => rd <|> wr
    | .putf =>
      rd <|> (if spaceOf o.flag == 0 && o.fault.isNone && o.stage == 0 && o.allWritten && !s.mustWait d ch o o.flag 8 then
        some { bank := bankOf o.flag, reads := false, k := 0, after := { o with stage := 1 } } else none)
    | .zero => wr
    | .scat => wr
    | .gath => rd <|> laneGath s d ch o
    | .route => rd
    | .bund => rd <|> laneBund s d ch o
    | .atom => laneAtom s d ch o
    | .red => none
    | .fence => none
/-- The next line of a channel, in issue order of its operations. -/
def State.chanLane (s : State) (d : DieId) (ch : Nat) : Option Lane := ((s.die d).chan ch).findSome? (s.lane? d ch)

/-! ## The encoder's output (R312, R313) -/

/-- The party of an encoder command's output. -/
def EncCmd.party (s : State) (d : DieId) (e : EncCmd) : Party :=
  { key := e.key, die := d, part := (s.node (keyRid e.key)).part, src := 1, issued := some e.tick }
/-- What a coded frame writes: its bytes from sD + 8, then the word at sD. -/
def EncCmd.bytes (e : EncCmd) : List Byte := e.coded.getD []
def EncCmd.data (e : EncCmd) : Side := { base := ptrAdd e.out 8, pitch := 0, rows := 1, len := e.bytes.length - 8, idx := [] }
def EncCmd.count (e : EncCmd) : Side := { base := e.out, pitch := 0, rows := 1, len := min 8 e.bytes.length, idx := [] }
/-- Its pieces in order: where, and the bytes. -/
def EncCmd.outs (e : EncCmd) : Nat := e.data.count + e.count.count
def EncCmd.outPiece (e : EncCmd) (k : Nat) : Word × List Byte :=
  if k < e.data.count then let p := e.data.piece k; (p.ptr, (e.bytes.drop (8 + p.start)).take p.len)
  else let p := e.count.piece (k - e.data.count); (p.ptr, (e.bytes.drop p.start).take p.len)
/-- The piece after piece k. -/
def EncCmd.nextOut (e : EncCmd) (k : Nat) : Nat := if k + 1 < e.outs && (e.outPiece (k + 1)).2.isEmpty then k + 2 else k + 1
def modEnc (d : DieId) (id : Nat) (f : EncCmd → EncCmd) : Upd :=
  .die d fun k => { k with encQ := k.encQ.map fun e => if e.id == id then f e else e }
def encFail (d : DieId) (id : Nat) (f : EngFault) : Upd := modEnc d id fun e => { e with bad := e.bad <|> some f }
/-- The encoder has a piece to write, and where. -/
def EncCmd.writing (e : EncCmd) : Option Word :=
  if e.kind == .frame && e.bad.isNone && e.outAt < e.outs then some (e.outPiece e.outAt).1 else none
def State.encHead? (s : State) (d : DieId) : Option EncCmd := (s.die d).encQ.head?

/-- A piece of the output performs at its home: of a bank line, or far away in order (R312; log 8). -/
def encPut (s : State) (d : DieId) (e : EncCmd) (k damage : Nat) (lane : Bool) : List Upd :=
  let x := e.outPiece k
  let pt := e.party s d
  let ref := (Ref.item d 2 e.id k).code
  let fail := fun c => [encFail d e.id { cause := c, ptr := x.1, detail := 0 }]
  if e.bad.isSome || s.hidden.any (fun h => h.ref == ref) then []
  else s.pieceAt pt x.1 .write (x.2.length == 64) ref fail
    fun a m =>
      if !pieceSound pt x.1 x.2 damage then fail .checkMismatch
      else if s.isHidden a x.2.length || s.planeHeld pt.part x.1 x.2.length then []
      else if m.isSome then [.hide (s.hides pt x.1 ref a x.2.length)]
      else
        match s.storeAt pt x.1 (a, m) x.2 with
        | .error c => fail c
        | .ok u => u ++ (if lane then [] else [modEnc d e.id fun e => { e with outAt := e.nextOut k }])

/-! ## Claims and grants (R72) -/

/-- SPINE_LINE_TRANSFER (R72): a channel, or the encoder (2), claims one more line of the next die cycle. -/
def execSpineLineTransfer (die chan : Nat) (s : State) : Host.Outcome State Fault Refusal :=
  let ch := min (chan % 4) 2
  let some_ := if ch == 2 then ((s.encHead? die).bind EncCmd.writing).any fun p => spaceOf p == 0
    else (s.chanLane die ch).isSome
  if some_ then s.by_ [.die die fun k => { k with claims := mmod k.claims ch 0 fun n => n + 1 }] else s.same

/-- An access to a peer's banks, which arrives at that die. -/
def peerAsk (s : State) (p : Party) (ptr : Word) (ref : Nat) : List Upd :=
  let d := (s.slot (slotKey (keyRid p.key) (keyPkg p.key) (ptrSlot ptr))).die
  if ((s.die d).spine.any fun l => l.eff == .peer ref) || (s.die d).peers.contains ref then []
  else [.die d fun k => { k with peers := k.peers ++ [ref] }]
/-- The bank of an incoming peer access, and the run that it belongs to. -/
def State.peerLine (s : State) (ref : Nat) : Option (Nat × Nat) :=
  match Ref.ofCode ref with
  | .req i => (s.req? i).map fun r => (bankOf r.ptr, ref)
  | .answer _ => none
  | .item d ch op k =>
    if ch == 2 then ((s.die d).encQ.find? fun e => e.id == op).map fun e => (bankOf (e.outPiece k).1, (Ref.item d ch op 0).code)
    else (s.op? d ch op).map fun o => (bankOf (o.farPtr k), (Ref.item d ch op 0).code)

/-- What the spine has granted in a die cycle. -/
structure Granted where
  st    : State
  us    : List Upd
  banks : List Nat
def Granted.give (g : Granted) (u : List Upd) (bank : Nat) : Granted :=
  { st := g.st.commit u, us := g.us ++ u, banks := if bank < 2048 then g.banks ++ [bank] else g.banks }
/-- A bank has a lane left. -/
def Granted.free (g : Granted) (bank : Nat) : Bool := bank == 2048 || (!g.banks.contains bank && g.banks.length < 256)

/-- Lines of the encoder's output, at most n. -/
def Granted.enc (d : DieId) : Nat → Granted → Granted
  | 0, g => g
  | n + 1, g =>
    match g.st.encHead? d with
    | none => g
    | some e =>
      match e.writing with
      | none => g
      | some p =>
        if spaceOf p == 0 && g.free (bankOf p) then
          Granted.enc d n (g.give [.die d fun k => k.lane (.encWrite e.id e.outAt),
            modEnc d e.id fun e => { e with outAt := e.nextOut e.outAt }] (bankOf p))
        else g
/-- Incoming peer accesses in the order of their arrival; `stuck` holds the runs that have been denied a line. -/
def Granted.peer (d : DieId) : List Nat → List Nat → Granted → Granted
  | [], _, g => g
  | ref :: l, stuck, g =>
    let leave : Upd := .die d fun k => { k with peers := k.peers.erase ref }
    match g.st.peerLine ref with
    | none => Granted.peer d l stuck (g.give [leave] 2048)
    | some (bank, run) =>
      if stuck.contains run || !g.free bank then Granted.peer d l (run :: stuck) g
      else Granted.peer d l stuck (g.give [leave, .die d fun k => k.lane (.peer ref)] bank)
/-- Lines of a channel, at most n. -/
def Granted.chan (d : DieId) (ch : Nat) : Nat → Granted → Granted
  | 0, g => g
  | n + 1, g =>
    match g.st.chanLane d ch with
    | none => g
    | some l =>
      let eff := if l.reads then Effect.spineRead ch l.after.id l.k else Effect.spineWrite ch l.after.id l.k
      if g.free l.bank then
        Granted.chan d ch n (g.give [.die d fun k => (k.modOp ch l.after.id fun _ => l.after).lane eff] l.bank)
      else g
/-- CENC.open reads its parameter block over the spine in the first die cycle in which it is the encoder's command (R311).
R72 gives the encoder 128 lines in a die cycle, and R268 and R311 fix the die cycle of each read: where a block, or the
lines of a second frame, falls beside a frame's 128, all of them are read in that die cycle (DESIGN CHOICE, log 19). -/
def encStarts (s : State) (d : DieId) : List Upd :=
  match s.encHead? d with
  | some e =>
    if e.kind == .opened && e.readAt == 0 then
      [.die d (fun k => { k with nextSeq := k.nextSeq + 1
                                 spine := k.spine ++ [{ due := k.cyc, ph := phRead, seq := k.nextSeq, eff := .encRead e.id 0 }] }),
       modEnc d e.id fun e => { e with readAt := 1 }]
    else []
  | none => []
/-- The grants of the die cycle that begins (R72): the encoder, at most 128 lines with those of its frame reads, then peer
accesses, then the channels, of which the one that claimed second claims first the next time. -/
def State.grants (s : State) (d : DieId) : List Upd :=
  let start := encStarts s d
  let s := s.commit start
  let k := s.die d
  let reads := encBanks s d k.cyc
  let claim := fun n => mget k.claims n 0
  let g := Granted.enc d (min (claim 2) (128 - reads.length)) { st := s, us := [], banks := reads }
  let g := Granted.peer d k.peers [] g
  let a := if k.c1First then 1 else 0
  let g := Granted.chan d (1 - a) (claim (1 - a)) (Granted.chan d a (claim a) g)
  start ++ g.us ++ [.die d fun k =>
    { k with claims := [], c1First := if claim 0 != 0 && claim 1 != 0 then !k.c1First else k.c1First }]

/-- A bank line that an operation reads performs. -/
def spineReadUpds (s : State) (d : DieId) (ch id k : Nat) : List Upd :=
  match s.op? d ch id with
  | none => []
  | some o =>
    let c := s.slot o.key
    let p := if o.kind == .atom then { ptr := o.src, row := 0, start := 0, len := 16 : Piece } else o.reads.piece k
    let off := offsetBits p.ptr
    let i := p.row * o.reads.len + p.start
    match s.bankReach c off with
    | .ready a _ =>
      let bs := s.bytes a p.len
      eccNote s c (off / 2 ^ 17) (off / 64 % 2048) ++
      [modOp d ch id fun o =>
        if o.kind == .atom then { o with opb := word (ofBytes (bs.take 8)), opc := word (ofBytes (bs.drop 8)), stage := 2 }
        else o.arrive i bs]
    | .fault x => (if x == .machine then eccNote s c (off / 2 ^ 17) (off / 64 % 2048) else []) ++ [failAt d ch o i x p.ptr]
    | _ => []

/-- A bank line that an operation writes performs. -/
def spineWriteUpds (s : State) (d : DieId) (ch id k : Nat) : List Upd :=
  match s.op? d ch id with
  | none => []
  | some o =>
    let c := s.slot o.key
    let note := fun (off : Nat) => eccNote s c (off / 2 ^ 17) (off / 64 % 2048)
    let part := fun (off : Nat) (bs : List Byte) => if bs.length == 64 then [] else note off
    let put := fun (off i : Nat) (bs : List Byte) =>
      match s.bankReach c off (bs.length == 64) with
      | .ready a _ => part off bs ++ writeBytes a bs
      | .fault x => part off bs ++ [failAt d ch o i x (word off)]
      | _ => []
    match o.kind with
    | .gath =>
      let q := c.q o.q
      let lr := rowLines o.entry
      let j := k % 8
      let row := (List.range (min 64 (o.reads.len - 64 * j))).map fun b => BitVec.ofNat 8 (o.src_ (k / 8 * o.reads.len + 64 * j + b))
      put (q.entry q.tail + 64 * j) (k / 8 * o.reads.len) (if j < lr then row else List.replicate 64 0)
    | .bund =>
      let a := bundleAddr d c.bmem (o.dst.toNat + 64 * k)
      let old := lineOfBytes (s.bytes a 64)
      [.mem a ((List.range 64).map fun b => BitVec.ofNat 8 (o.src_ (64 * k + b))),
       .die d fun y => if (mfind a y.bundOld).isSome then y else { y with bundOld := mput a old y.bundOld }]
    | .atom =>
      if k == 2 then
        match s.bankReach c (offsetBits o.dst) with
        | .ready a _ =>
          let old := s.num a o.size
          note (offsetBits o.dst) ++ writeBytes a (toBytes o.size (atomNew o.aop o.size old o.opb.toNat o.opc.toNat)) ++
          [modOp d ch id fun o => { o with opb := word old, stage := 4 }]
        | .fault x => note (offsetBits o.dst) ++ [failAt d ch o 0 x o.dst]
        | _ => []
      else put (offsetBits o.src) 0 (toBytes 8 o.opb.toNat) ++ [modOp d ch id fun o => { o with stage := 6 }]
    | .putf =>
      match s.bankReach c (offsetBits o.flag) with
      | .ready a _ =>
        note (offsetBits o.flag) ++ writeBytes a (toBytes 8 (s.num a 8 + 1)) ++ [modOp d ch id fun o => { o with stage := 2 }]
      | .fault x => note (offsetBits o.flag) ++ [failAt d ch o o.reads.total x o.flag]
      | _ => []
    | _ =>
      let p := o.writes.piece k
      match o.writable p with
      | some n => if n == 0 then [] else put (offsetBits p.ptr) (o.need p.row p.start n).1 (o.out p.row p.start n)
      | none => []

/-! ## CGATH entries, completion -/

/-- Lines of an operation are on the spine. -/
def State.moving (s : State) (d : DieId) (ch id : Nat) : Bool :=
  (s.die d).spine.any fun l =>
    match l.eff with
    | .spineRead c i _ => c == ch && i == id
    | .spineWrite c i _ => c == ch && i == id
    | .routesLoad c i => c == ch && i == id
    | _ => false

/-- CGATH_ENTRY_WRITE (R174): the entry has been written, and WP passes it. -/
def execCgathEntryWrite (die chan : Nat) (s : State) : Host.Outcome State Fault Refusal :=
  let ch := chan % 2
  match ((s.die die).chan ch).find? fun o => o.kind == .gath && o.seq < o.n with
  | some o =>
    if o.wseq == 8 * (o.seq + 1) && !s.moving die ch o.id && (o.fault.all fun f => (o.seq + 1) * o.reads.len <= f.1) then
      s.by_ [modOp die ch o.id fun o => { o with seq := o.seq + 1 },
        .slot o.key fun c =>
          let q := c.q o.q
          if q.depth == 0 then c else { c with queues := mput o.q { q with wp := (q.wp + 1) % (2 * q.depth) } c.queues }]
    else s.same
  | none => s.same

/-- All that an operation does has performed; a CROUTE has replaced its entries in the die cycle before. -/
def State.opDone (s : State) (d : DieId) (ch : Nat) (o : CopyOp) : Bool :=
  let bad := o.fault.isSome
  let bankEnd := if bad then o.readsDone && (o.writes.count <= o.wseq || o.writable (o.writes.piece o.wseq) == some 0)
    else o.writes.count <= o.wseq
  s.startable d ch o && !s.moving d ch o.id &&
  match o.kind with
  | .fence => s.fenceMet d o
  | .atom => bad || o.stage == 6
  | .red => bad || o.stage == 2
  | .get => bankEnd
  | .put => if spaceOf o.dst == 0 then bankEnd else bad || o.allWritten
  | .zero => if spaceOf o.dst == 0 then bankEnd else bad || o.allWritten
  | .scat => if spaceOf o.dst == 0 then bankEnd else bad || o.allWritten
  | .putf => bad || (o.allWritten && o.stage == 2)
  | .gath => o.seq == (if bad then o.limit / o.reads.len else o.n) && o.has 0 o.limit
  | .route => bad || o.reads.total == 0 || (2 <= o.stage && o.stage - 1 <= (s.die d).cyc)
  | .bund => if bad then o.has 0 o.limit && o.limit / 64 <= o.wseq else o.n <= 64 * o.wseq

/-- The entries are replaced (R324). -/
def routesLoadUpds (s : State) (d : DieId) (ch id : Nat) : List Upd :=
  match s.op? d ch id with
  | none => []
  | some o =>
    match o.images.findIdx? fun x => !x.2 with
    | some i => [failAt d ch o (4096 * i) .reservedField (ptrAdd o.src (4096 * i))]
    | none =>
      [.slot o.key (fun c => { c with routes := o.reroute c.routes }),
       modOp d ch id fun x => { x with stage := (s.die d).cyc + 2 }]

/-- A tag's completion (R102). -/
def Ctx.tagDone (te : Bool) (tag : Nat) (f : Option EngFault) (c : Ctx) : Ctx :=
  if !te then c
  else
    let c := match f with
      | some x => c.tagError tag x
      | none => c
    c.setTag tag
/-- A walk's waiters without those of an operation. -/
def dropWaiters (d : DieId) (ch id : Nat) (k : Die) : Die :=
  let keep := fun r => match Ref.ofCode r with
    | .item d' ch' id' _ => !(d' == d && ch' == ch && id' == id)
    | _ => true
  { k with walks := k.walks.map fun w => { w with waiters := w.waiters.filter keep } }

/-- COPY_COMPLETE (R102, R170, R178): the oldest operation of a channel completes, after its issue's die cycle. A CROUTE
whose images have been read replaces its entries four die cycles on, so that a bundle's checks at issue know the routes of
its accesses up to issue + 3 (R83 leaves that die cycle open; DESIGN CHOICE, log 14). -/
def execCopyComplete (die chan : Nat) (s : State) : Host.Outcome State Fault Refusal :=
  let ch := chan % 2
  match (s.die die).chan ch with
  | [] => s.same
  | o :: _ =>
    if o.kind == .route && o.fault.isNone && o.stage == 0 && o.reads.total != 0 && o.has 0 o.reads.total &&
        s.startable die ch o then
      s.by_ [modOp die ch o.id fun o => { o with stage := 1 },
        .die die fun k => { k with
          spine := k.spine ++ [{ due := k.cyc + 4, ph := if ch == 0 then phSys else phSysLate, seq := k.nextSeq,
                                 eff := .routesLoad ch o.id }]
          nextSeq := k.nextSeq + 1 }]
    else if o.issued < (s.die die).cyc && s.opDone die ch o then
      s.by_ [.die die (fun k => dropWaiters die ch o.id
          (if ch == 0 then { k with chan0 := k.chan0.drop 1 } else { k with chan1 := k.chan1.drop 1 })),
        .slot o.key (Ctx.tagDone o.te o.tag (o.fault.map fun f => f.2))]
    else s.same

/-- Operations that complete one die cycle after issue, by themselves: no bytes, no members (R172, R308, R314, R323). -/
def State.copyDue (s : State) (d : DieId) (ch : Nat) : Bool :=
  match (s.die d).chan ch with
  | [] => false
  | o :: _ =>
    let empty := match o.kind with
      | .fence => o.preds.isEmpty
      | .atom => false
      | .red => false
      | .putf => false
      | .route => o.n == 0 || 2 <= o.stage
      | .gath => o.n == 0
      | .bund => o.n == 0
      | _ => o.writes.total == 0 && o.reads.total == 0
    empty && o.issued < (s.die d).cyc && s.opDone d ch o

/-! ## The encoder -/

/-- The lines of a frame that are read in one die cycle (R268), or those of a parameter block (R311). -/
def encReadUpds (s : State) (d : DieId) (cmd i : Nat) : List Upd :=
  match (s.die d).encQ.find? fun e => e.id == cmd with
  | none => []
  | some e =>
    let c := s.slot e.key
    let offs := (List.range (min 128 (e.lines - 128 * i))).map fun j => offsetBits e.ptr + 64 * (128 * i + j)
    let bad := offs.findSome? fun o => match s.bankReach c o with
      | .fault x => some { cause := x, ptr := word o, detail := 0 : EngFault }
      | _ => none
    let ls := offs.map fun o => s.bankLine c (o / 2 ^ 17) (o / 64 % 2048)
    (offs.flatMap fun o => eccNote s c (o / 2 ^ 17) (o / 64 % 2048)) ++
    [modEnc d cmd fun x => { x with frame := x.frame ++ ls, bad := x.bad <|> bad }]
/-- A line of its output that the spine has granted is written. -/
def encWriteUpds (s : State) (d : DieId) (cmd k : Nat) : List Upd :=
  match (s.die d).encQ.find? fun e => e.id == cmd with
  | none => []
  | some e => encPut s d e k 0 true

/-- A parameter block within its ranges (T16.7). -/
def encBlockOk (p : BitVec 512) : Bool :=
  let w := fun i => (p.extractLsb' (64 * i) 64).toNat
  bits (w 0) 63 48 == 0 && bits (w 0) 15 8 == 0 && encCodec p <= 3 && 8 <= encWidth p && encWidth p <= 7680 &&
  encWidth p % 8 == 0 && 8 <= encHeight p && encHeight p <= 4320 && encHeight p % 8 == 0 && encFpsDen p != 0 &&
  bits (w 2) 63 34 == 0 && encRc p != 3 && bits (w 3) 63 24 == 0 && (List.range 4).all fun i => w (4 + i) == 0
/-- Luma samples per second, as a fraction. -/
def encLoad (p : BitVec 512) : Nat × Nat := (encWidth p * encHeight p * encFpsNum p, encFpsDen p)
/-- The sum over streams stays within the capacity (R267). -/
def encFits (l : List (BitVec 512)) : Bool :=
  let t := l.foldl (fun (a : Nat × Nat) p => let x := encLoad p; (a.1 * x.2 + x.1 * a.2, a.2 * x.2)) (0, 1)
  t.1 <= 829440000 * t.2

/-- The head of the queue leaves with its tag (R310). -/
def encEnd (d : DieId) (e : EncCmd) (f : Option EngFault) : List Upd :=
  [.die d (fun k => dropWaiters d 2 e.id { k with encQ := k.encQ.drop 1 }), .slot e.key (Ctx.tagDone e.te e.tag f)]
def encFault (e : EncCmd) : EngFault := { cause := .reservedField, ptr := e.ptr, detail := 0 }

/-- CENC.open is carried out, once its parameter block has been read. -/
def encOpen (s : State) (d : DieId) (e : EncCmd) : List Upd :=
  match e.bad, e.frame with
  | some f, _ => encEnd d e (some f)
  | none, p :: _ =>
    if encBlockOk p && (s.stream? d e.stream).isNone && encFits (p :: (s.die d).streams.map fun x => x.2.params) then
      .die d (fun k => { k with streams := mput e.stream { params := p, key := e.key, frames := 0, keyDue := true } k.streams })
        :: encEnd d e none
    else encEnd d e (some (encFault e))
  | none, [] => []

/-- A frame whose lines have been read is coded, once: the coded bytes are free values (log 8); what does not fit leaves
the word alone, and the next frame is a key frame. -/
def encCode (s : State) (d : DieId) (e : EncCmd) (x : EncStream) : List Upd :=
  let n := Config.codedSize s.fresh
  let fits := n + 8 <= e.cap
  let out := if fits then toBytes 8 n ++ s.freeBytes n else toBytes 8 (2 ^ 63 + n)
  [modEnc d e.id fun e => { e with coded := some out }, .drawn (n + 1),
   .die d fun k => { k with streams := mput e.stream { x with frames := x.frames + 1, keyDue := !fits } k.streams }]
/-- CENC.frame: the frame is coded, then written, and then the command leaves. -/
def encFrame (s : State) (d : DieId) (e : EncCmd) : List Upd :=
  let moving := (s.die d).spine.any fun l => match l.eff with
    | .encWrite cmd _ => cmd == e.id
    | _ => false
  match e.bad, e.coded, s.stream? d e.stream with
  | some f, _, _ => if moving then [] else encEnd d e (some f)
  | none, none, some x => encCode s d e x
  | none, none, none => encEnd d e (some (encFault e))
  | none, some _, _ => if e.outs <= e.outAt && !moving then encEnd d e none else []

/-- ENCODE_COMPLETE (R312): the oldest command of the encoder of the die in focus completes. -/
def execEncodeComplete (s : State) : Host.Outcome State Fault Refusal :=
  let d := s.cur
  match (s.die d).encQ with
  | [] => s.same
  | e :: _ =>
    match e.kind with
    | .opened => s.by_ (encOpen s d e)
    | .frame => if e.issued + 2 + ceilDiv e.lines 128 <= (s.die d).cyc then s.by_ (encFrame s d e) else s.same
    | .close =>
      if (s.stream? d e.stream).isSome then
        s.by_ (.die d (fun k => { k with streams := mdel e.stream k.streams }) :: encEnd d e none)
      else s.by_ (encEnd d e (some (encFault e)))

end Sys2Proof.Machine
end

