-- ==== Sys2Proof/Machine/Waits.lean ====
section
/-! DEFINITION. S-slot waits and queues: TWAIT (R63, R388), tag waits (R382, R383, R426), QWAIT, QADV, QSET (R360–R364),
barriers and steps (R216–R221, R378), crown allocation requests (R202–R205, R329), END and YIELD (R33, R34, R328, R429). -/

namespace Sys2Proof.Machine

/-- The lowest n below 64 with bit n set. -/
def lowest (w : Word) : Nat := ((List.range 64).find? fun n => w.getLsbD n).getD 64

/-! ## TWAIT -/

/-- The operand at the bundle's first arrival. -/
def twaitArrive (f : SF) (s : State) : List Upd :=
  [.slot s.curKey fun c => if c.wait.sent then c else { c with wait := { c.wait with sent := true, operand := f.bv c } }]
/-- TWAIT's target as TBASE stands. -/
def twaitTarget (f : SF) (c : Ctx) : Int :=
  let b := if c.wait.sent then c.wait.operand else f.bv c
  if f.mod.getLsbD 0 then b.toNat else (c.tbase : Int) + b.toInt
/-- TWAIT waits for its target and traps past it. -/
def twaitReady (f : SF) (s : State) : Guard :=
  let c := s.curCtx
  let t := twaitTarget f c
  if t + c.tguard < c.iss.tick then .trap (trapAt 0 .lateTick (wordI t).toNat 0 c.iss.tick)
  else await_ (t <= c.iss.tick) (trapAt 0 .illegalBundle 0)
def twaitExec (f : SF) (s : State) : Host.Outcome State Fault Refusal :=
  waiting f (fun s => needElastic s 0) (twaitArrive f) (twaitReady f)
    (fun s => [.slot s.curKey fun c => c.progressed c.iss.tick]) s
/-- TWAIT (R388). -/
def execTwait (f : SF) (s : State) : Host.Outcome State Fault Refusal := twaitExec f s
/-- TWAIT.abs (R388). -/
def execTwaitAbs (f : SF) (s : State) : Host.Outcome State Fault Refusal :=
  waiting f (fun s => needElastic s 0) (twaitArrive f) (twaitReady f)
    (fun s => [.slot s.curKey fun c => c.progressed c.iss.tick]) s

/-! ## Tags -/

/-- The fault of the lowest tag of a mask with its XSTAT bit set (R248). -/
def tagFault (c : Ctx) (mask : Word) : Option Trap :=
  let n := lowest (c.xstat &&& mask)
  if n < 64 then some (trapEngine 0 n (mget c.engine n { cause := .machine, ptr := 0, detail := 0 })) else none

def wtagallGuard (f : SF) (s : State) : Guard :=
  let c := s.curCtx
  .seq [needElastic s 0, await_ (c.tags &&& f.bv c == f.bv c) (trapAt 0 .illegalBundle 0)]
/-- WTAGALL (R426). -/
def execWtagall (f : SF) (s : State) : Host.Outcome State Fault Refusal :=
  scalarGuarded f (wtagallGuard f)
    (fun s => [.slot s.curKey fun c => (c.progressed c.iss.tick).raise (tagFault c (f.bv c))]) s
def wtaganyGuard (f : SF) (s : State) : Guard :=
  let c := s.curCtx
  .seq [needElastic s 0, need (f.bv c != 0) (trapAt 0 .reservedField 0),
          await_ (c.tags &&& f.bv c != 0) (trapAt 0 .illegalBundle 0)]
/-- WTAGANY (R426). -/
def execWtagany (f : SF) (s : State) : Host.Outcome State Fault Refusal :=
  scalarGuarded f (wtaganyGuard f)
    (fun s => [.slot s.curKey fun c =>
      (((c.later 1 phReg (.scalar f.d.toNat (word (lowest (c.tags &&& f.bv c))))).progressed c.iss.tick).raise
        (tagFault c (f.bv c)))]) s
/-- TAGFF (R382). -/
def execTagff (f : SF) (s : State) : Host.Outcome State Fault Refusal :=
  scalarOp f 1 (fun c => word (lowest (c.tags &&& f.bv c))) s
/-- TAGCLR (R382). -/
def execTagclr (f : SF) (s : State) : Host.Outcome State Fault Refusal :=
  s.onSlot fun c => if f.on c then { c with tags := c.tags &&& ~~~(f.bv c) } else c

/-! ## Operand queues -/

def qPermit (f : SF) (s : State) : Guard :=
  need (f.qnum < (s.node s.curCtx.rid).queues) (trapAt 0 .permission 0 f.qnum)
/-- QWAIT's checks and its wait (R364). -/
def qwaitGuard (f : SF) (s : State) : Guard :=
  let q := s.curCtx.q f.qnum
  .seq [needElastic s 0, qPermit f s,
    need (q.depth != 0 && f.qn <= q.depth) (trapAt 0 .reservedField 0 f.qnum),
    await_ (if f.qwhich then f.qn <= q.depth - q.count else f.qn <= q.count) (trapAt 0 .illegalBundle 0)]
/-- QWAIT (R364). -/
def execQwait (f : SF) (s : State) : Host.Outcome State Fault Refusal :=
  scalarGuarded f (qwaitGuard f) (fun s => [.slot s.curKey fun c => c.progressed c.iss.tick]) s
/-- QADV's checks (R361). -/
def qadvGuard (f : SF) (s : State) : Guard :=
  let q := s.curCtx.q f.qnum
  .seq [qPermit f s, need (q.depth != 0) (trapAt 0 .reservedField 0 f.qnum),
    if f.qwhich then await_ (q.depth == 0 || f.qn <= q.depth - q.count) (trapAt 0 .queueOverrun 0 f.qnum)
    else await_ (q.depth == 0 || f.qn <= q.count) (trapAt 0 .queueUnderrun 0 f.qnum)]
/-- QADV (R361). -/
def execQadv (f : SF) (s : State) : Host.Outcome State Fault Refusal :=
  scalarGuarded f (qadvGuard f) (fun s => [.slot s.curKey fun c => c.later 1 phSys (.qadv f.qnum f.qwhich f.qn)]) s
/-- A pointer moves. -/
def Ctx.qmove (n : Nat) (wp : Bool) (k : Nat) (c : Ctx) : Ctx :=
  let q := c.q n
  if q.depth == 0 then c
  else if wp then { c with queues := mput n { q with wp := (q.wp + k) % (2 * q.depth) } c.queues }
  else { c with queues := mput n { q with rp := (q.rp + k) % (2 * q.depth) } c.queues }

/-- QSET's checks on the base (R363). -/
def qsetGuard (f : SF) (s : State) : Guard :=
  let c := s.curCtx
  let a := (f.av c).toNat
  let d := f.qdepth
  let bound := fun (ok : Bool) (cause : Cause) => need (d == 0 || ok) (trapAt 0 cause a f.qnum)
  .seq [bound (a / 2 ^ 54 == 0) .space, bound (a % 512 == 0) .misalignment,
    bound (a + 512 * d <= 0x400000) .reservedField,
    bound ((a + 512 * d - 1) / 2 ^ 17 < (s.node c.rid).brows) .permission, qPermit f s]
/-- QSET (R363). -/
def execQset (f : SF) (s : State) : Host.Outcome State Fault Refusal :=
  scalarGuarded f (qsetGuard f)
    (fun s => [.slot s.curKey fun c => c.later 1 phSys (.qset f.qnum ((f.av c).toNat / 512) f.qdepth)]) s

/-! ## Barriers and steps -/

/-- The slot as a member: writer form with SRC 0 (R212). -/
def memberOf (k : SlotKey) : Nat := keySlot k * 2 ^ 10 + keyPkg k
def State.barrier? (s : State) (b : Nat) : Option Barrier := mfind (64 * (s.node s.curCtx.rid).part + b) s.barriers
/-- Groups lie in 0–15, barriers in 16–63, and are installed (R216). -/
def barCheck (b : Nat) (group : Bool) (s : State) : Guard :=
  .seq [needElastic s 0, need ((b < 16) == group && (s.barrier? b).isSome) (trapAt 0 .permission 0 b)]
/-- The slot's arrival in the current phase is pending. -/
def Barrier.has (x : Barrier) (w : Nat) : Bool := x.moving.contains w || x.arrived.contains w
/-- The slot arrives: its arrival is on its way to the root. -/
def arriveUpds (b : Nat) (s : State) : List Upd :=
  match s.barrier? b with
  | none => []
  | some x =>
    if s.curCtx.keeps b || x.has (memberOf s.curKey) then []
    else
      [.barrier (64 * (s.node s.curCtx.rid).part + b) (Option.map fun y => { y with moving := y.moving ++ [memberOf s.curKey] }),
       .slot s.curKey fun c => { c.keep b x.phase with phases := mput b (x.phase + 1) c.phases }]

def SF.bar (f : SF) : Nat := f.imm.toNat % 64
def SF.bscope (f : SF) : Nat := f.mod.toNat / 4 % 8
/-- BARA (R221): a release, then the arrival. -/
def execBara (f : SF) (s : State) : Host.Outcome State Fault Refusal :=
  waiting f (barCheck (SF.bar f) false)
    (fun s => if s.released s.curKey (SF.bscope f) then arriveUpds (SF.bar f) s else [])
    (fun s => await_ (s.curCtx.keeps (SF.bar f)) (trapAt 0 .illegalBundle 0))
    (fun s => [.slot s.curKey (Ctx.unkeep (SF.bar f))]) s

/-- BARW waits for the phase after the one recorded, and then acquires. -/
def barwReady (f : SF) (s : State) : Guard :=
  let flipped := match mfind (SF.bar f) s.curCtx.phases, s.barrier? (SF.bar f) with
    | some p, some x => x.phase + 1 != p
    | _, _ => true
  await_ (flipped && s.acquired s.curKey (SF.bscope f)) (trapAt 0 .illegalBundle 0)
/-- BARW (R221). -/
def execBarw (f : SF) (s : State) : Host.Outcome State Fault Refusal :=
  waiting f (barCheck (SF.bar f) false) (fun _ => []) (barwReady f)
    (fun s => [.slot s.curKey fun c => c.progressed c.iss.tick]) s

def SF.group (f : SF) : Nat := f.imm.toNat % 16
/-- The slot's stores to present planes of a group have performed (R217). -/
def State.planeStoresDone (s : State) (k : SlotKey) (g : Nat) : Bool :=
  !(s.reqs.any fun r => r.key == k && r.owner.isNone && r.unsettled &&
    match r.kind with
    | .store n _ =>
      match s.planeHit r.part r.ptr n with
      | .present _ p _ => p.group == g
      | _ => false
    | _ => false)
/-- STEP waits for the flip past the phase of its arrival, which is over too when that of a later bundle's is. -/
def stepReady (f : SF) (s : State) : Guard :=
  let g := SF.group f
  let done := match s.curCtx.keptAs g, s.barrier? g with
    | some k, some x => x.phase != k || (mget s.curCtx.kept g (x.phase, 0)).1 != x.phase
    | _, _ => false
  await_ done (trapAt 0 .illegalBundle 0)
/-- STEP's result, and its trap before the next bundle. -/
def stepUpds (f : SF) (s : State) : List Upd :=
  let g := SF.group f
  let x := (s.barrier? g).getD .blank
  let t := if x.frozeAt then some (trapAfter 0 .crownLost x.coll g)
    else if x.faultColl then some (trapAfter 0 .planeCollision x.coll g) else none
  [.slot s.curKey fun c => ((((c.unkeep g).later 1 phReg (.scalar f.d.toNat (word (min x.coll (2 ^ 32 - 1))))).progressed
    c.iss.tick).raise t)]
/-- STEP (R217, R378). -/
def execStep (f : SF) (s : State) : Host.Outcome State Fault Refusal :=
  waiting f (barCheck (SF.group f) true)
    (fun s => if s.planeStoresDone s.curKey (SF.group f) then arriveUpds (SF.group f) s else [])
    (stepReady f) (stepUpds f) s

/-! ## Requests whose answer a bundle waits for: PSTAT, FALLOC, FFREE -/

def ReqKind.isStat : ReqKind → Bool
  | .pstat _ _ => true
  | _ => false
def ReqKind.isAlloc : ReqKind → Bool
  | .alloc _ _ _ _ => true
  | .query _ => true
  | .free _ => true
  | _ => false
/-- The request that the bundle at the issue stage has sent. -/
def State.asked (s : State) (is : ReqKind → Bool) : Option Req :=
  s.reqs.find? fun r => r.key == s.curKey && r.pc == s.curCtx.iss.pc && is r.kind
/-- It is sent once. -/
def askUpds (is : ReqKind → Bool) (kind : ReqKind) (ok : Bool) (s : State) : List Upd :=
  if (s.asked is).isSome || !ok then [] else s.newReq s.curKey 0 kind 0 s.curCtx.iss.pc none none
def answer? (r : Option Req) : Option Word :=
  r.bind fun r => match r.st with
    | .performed v => some v
    | _ => none
/-- The fault of a request that no path carries (R226). -/
def askFault (r : Option Req) : Option EngFault :=
  r.bind fun r => match r.st with
    | .failed f => some f
    | _ => none
def askReady (is : ReqKind → Bool) (s : State) : Guard :=
  match askFault (s.asked is) with
  | some f => .trap (trapAt 0 f.cause f.ptr.toNat)
  | none => await_ (answer? (s.asked is)).isSome (trapAt 0 .illegalBundle 0)
/-- The answer is written, and the request is gone; `prog`: that is a progress event (R359), where the answer was none. -/
def askUse (is : ReqKind → Bool) (d : Nat) (prog : Bool) (s : State) : List Upd :=
  match s.asked is with
  | some r =>
    [.dropReq r.id, .slot s.curKey fun c =>
      let c := c.later 1 phReg (.scalar d ((answer? (some r)).getD 0))
      if prog then c.progressed c.iss.tick else c]
  | none => []

/-- PSTAT (R219, R359). -/
def execPstat (f : SF) (s : State) : Host.Outcome State Fault Refusal :=
  waiting f (barCheck (SF.group f) true)
    (askUpds ReqKind.isStat (.pstat (SF.group f) (f.imm.getLsbD 4)) true) (askReady ReqKind.isStat)
    (askUse ReqKind.isStat f.d.toNat true) s

/-- A crown pointer, POL ignored (R204, R205). -/
def crownPtr (p : Word) : Bool := spaceOf p == 3 && ptrSlot p == 0 && bits p.toNat 43 30 == 0
def crownCheck (f : SF) (s : State) : Guard :=
  .seq [needElastic s 0, need (crownPtr (f.av s.curCtx)) (trapAt 0 .space (f.av s.curCtx).toNat)]
def allocExec (f : SF) (check : State → Guard) (kind : State → ReqKind) (ok : State → Bool) (s : State) :
    Host.Outcome State Fault Refusal :=
  waiting f check (fun s => askUpds ReqKind.isAlloc (kind s) (ok s) s) (askReady ReqKind.isAlloc)
    (askUse ReqKind.isAlloc f.d.toNat false) s
/-- FD and MIRROR of FALLOC. -/
def SF.fd (f : SF) : Nat := f.mod.toNat / 4 % 4
def allocKind (f : SF) (at_ : Option Nat) (s : State) : ReqKind := .alloc (f.av s.curCtx) at_ (SF.fd f) (f.mod.getLsbD 0)
/-- FALLOC (R203). -/
def execFalloc (f : SF) (s : State) : Host.Outcome State Fault Refusal :=
  allocExec f (fun s => needElastic s 0) (allocKind f none) (fun _ => true) s
/-- FALLOC.at (R203). -/
def execFallocAt (f : SF) (s : State) : Host.Outcome State Fault Refusal :=
  allocExec f (fun s => needElastic s 0) (fun s => allocKind f (some ((s.curCtx.s f.b.toNat).toNat % 1024)) s)
    (fun _ => true) s
/-- FALLOC.query (R204). -/
def execFallocQuery (f : SF) (s : State) : Host.Outcome State Fault Refusal :=
  allocExec f (crownCheck f) (fun s => .query (f.av s.curCtx)) (fun _ => true) s

/-- The allocation whose first byte a crown pointer names. -/
def State.allocAt? (s : State) (part : Nat) (p : Word) : Option Alloc :=
  (mget (s.pkg (ptrPkg p)).allocs (if p.getLsbD 29 then 1 else 0) []).find? fun a =>
    a.part == part && a.isMirror.isNone && a.bank * 65536 == p.toNat % 2 ^ 29
/-- The slot's accesses to an allocation or its mirror have performed (R205). -/
def State.allocQuiet (s : State) (k : SlotKey) (p : Word) : Bool :=
  match s.allocAt? (s.node (keyRid k)).part p with
  | none => true
  | some a =>
    !(s.reqs.any fun r => r.key == k && r.owner.isNone && r.open_ && !ReqKind.isAlloc r.kind && spaceOf r.ptr == 3 &&
      (ptrPkg r.ptr == ptrPkg p || some (ptrPkg r.ptr) == a.mirror) && r.ptr.getLsbD 29 == p.getLsbD 29 &&
      a.bank * 65536 <= r.ptr.toNat % 2 ^ 29 && r.ptr.toNat % 2 ^ 29 < (a.bank + a.units) * 65536)
/-- FFREE (R205). -/
def execFfree (f : SF) (s : State) : Host.Outcome State Fault Refusal :=
  allocExec f (crownCheck f) (fun s => .free (f.av s.curCtx)) (fun s => s.allocQuiet s.curKey (f.av s.curCtx)) s

/-! ## END and YIELD -/

/-- The fault that END reports: the lowest tag, then the lowest batch (R248). -/
def endFault (c : Ctx) : Option Trap :=
  match tagFault c (BitVec.allOnes 64) with
  | some t => some t
  | none =>
    ((List.range 8).find? fun b => (c.matrix.batch b).err).map fun b =>
      trapEngine 0 b (mget c.engine (64 + b) { cause := .machine, ptr := 0, detail := 0 })
/-- No copy, batch or encoder command of the slot is incomplete. -/
def State.enginesDone (s : State) (k : SlotKey) : Bool :=
  let c := s.slot k
  let d := s.die c.die
  !((d.chan0 ++ d.chan1).any fun o => o.key == k) && c.matrix.quiet && !(d.encQ.any fun e => e.key == k)
/-- Open batches are committed on arrival. -/
def endArrive (s : State) : List Upd :=
  [.slot s.curKey fun c => { c with matrix := (List.range 8).foldl (fun m b => m.modBatch b Batch.commit) c.matrix }]
def endReady (s : State) : Guard :=
  let scope := if (s.node s.curCtx.rid).pkgs.isEmpty then 1 else 2
  await_ ((endFault s.curCtx).isSome || (s.enginesDone s.curKey && s.released s.curKey scope))
    (trapAt 0 .illegalBundle 0)
/-- Every slot of the gang has ended or has come to its YIELD. -/
def Node.allYield (n : Node) : Bool :=
  n.placed.all fun p => n.endedS.contains (p.pkg, p.slot) || n.yieldS.contains (p.pkg, p.slot)
/-- The gang has come to its YIELDs at a tick, with the last slot that ends or yields. -/
def Node.yieldsAt (tick : Nat) (n : Node) : Node := if n.allYield then { n with yieldAt := tick } else n
/-- The slot ends, or takes the fault that it found. -/
def endUpds (s : State) : List Upd :=
  let c := s.curCtx
  match endFault c with
  | some t => [.slot s.curKey fun c => (c.progressed c.iss.tick).raise (some t)]
  | none =>
    [.slot s.curKey (fun c => { c.progressed c.iss.tick with mode := .ended, lq := [] }),
     .node c.rid fun n => { n with endedS := n.endedS ++ [(c.pkg, c.slot)] }.yieldsAt c.iss.tick]
/-- END (R33). -/
def execEnd (f : SF) (s : State) : Host.Outcome State Fault Refusal :=
  waiting f (fun s => needElastic s 0) endArrive endReady endUpds s

/-- The slot comes to its YIELD. -/
def yieldArrive (s : State) : List Upd :=
  let c := s.curCtx
  [.node c.rid fun n =>
    if n.yieldS.contains (c.pkg, c.slot) then n
    else { n with yieldS := n.yieldS ++ [(c.pkg, c.slot)] }.yieldsAt c.iss.tick]
/-- A slot whose bundle traps has not executed the YIELD that it had come to. -/
def Ctx.unyield (c : Ctx) : Upd := .node c.rid fun n => { n with yieldS := n.yieldS.erase (c.pkg, c.slot) }
/-- YIELD waits for the gang, and for its open windows for at most CWMAX ticks (R429). -/
def yieldReady (s : State) : Guard :=
  let c := s.curCtx
  let n := s.node c.rid
  await_ (n.allYield && (!s.windowOpen c.rid || n.yieldAt + n.cwmax <= c.iss.tick)) (trapAt 0 .illegalBundle 0)
/-- YIELD (R34, R429): the Milliner then continues or suspends the gang. -/
def execYield (f : SF) (s : State) : Host.Outcome State Fault Refusal :=
  waiting f (fun s => needElastic s 0) yieldArrive yieldReady
    (fun s => [.slot s.curKey fun c => { c.progressed c.iss.tick with mode := .yielded }]) s

end Sys2Proof.Machine
end

