-- ==== Sys2Proof/Machine/System.lean ====
section
/-! DEFINITION. System registers: SYSRD and SYSWR (R105, R380, R381), their fields (R40, R60, R106, R118, R142, R235,
R246, R256, R257, R265), and TIDSET (R384, R385). -/

namespace Sys2Proof.Machine

/-! ## Optical control registers (R234, R235) -/

def flag (b : Bool) (i : Nat) : Nat := if b then 2 ^ i else 0

/-- The plane that OPSEL selects: 72 × port + plane. -/
def opselPlane (o : Nat) : Nat := 72 * (o / 256 % 2) + o % 256
def ringKey (plane n : Nat) : Nat := plane * 17 + n
def mzmKey (plane n : Nat) : Nat := plane * 4 + n
def Pkg.ring (k : Pkg) (i : Nat) : Ring := mget k.rings i .blank
def Pkg.mzm (k : Pkg) (i : Nat) : Mzm := mget k.mzms i .blank
/-- RINGn. -/
def Ring.word (r : Ring) : Nat :=
  flag r.cv 39 + r.colour % 128 * 2 ^ 32 + flag (r.mon < 1024) 30 +
  (if r.heat == 0 then 1 else if r.heat == 4095 then 2 else 0) * 2 ^ 28 + r.mon % 65536 * 2 ^ 12 + r.heat % 4096
/-- BIAS as it reads: while the controller adjusts it a free value (log 5), which is 0 or 4,095 only once that has set
QALARM (R232). -/
def Mzm.biasNow (m : Mzm) (free : Word) : Nat :=
  if !m.auto then m.bias % 4096 else if m.qalarm then free.toNat % 4096 else 1 + free.toNat % 4094
/-- MZMn. The tap reading is a free value (log 5). -/
def Mzm.word (m : Mzm) (tap bias : Word) : Nat :=
  tap.toNat % 65536 * 2 ^ 16 + flag m.qalarm 13 + flag m.auto 12 + m.biasNow bias
/-- ROWLINKn and COLLINKn. -/
def Link.word (l : Link) : Nat := min l.replays 65535 * 2 ^ 16 + min l.attempts 3 * 2 ^ 4 + l.state % 8

/-! ## Reading -/

/-- TSTAT (R60). -/
def tstatWord (k : Pkg) (slipx : Bool) : Nat :=
  wrap 16 (clampInt (-32767) 32767 k.ofs) * 2 ^ 32 + flag slipx 2 + k.disc % 4
/-- QPTRn (T5.4). -/
def Queue.word (q : Queue) : Nat := q.depth * 2 ^ 31 + q.qb % 2 ^ 13 * 2 ^ 18 + q.wp % 2 ^ 9 * 2 ^ 9 + q.rp % 2 ^ 9
/-- An error log register: +0 to +3 (T13.5). -/
def ErrLog.word (l : ErrLog) (r : Nat) : Nat :=
  match r with
  | 0 => l.addr.toNat
  | 1 => l.synd.toNat
  | 2 => l.ctx.toNat
  | _ => l.ce * 2 ^ 32 + l.uec % 65536 * 2 ^ 16 + flag l.ovf 1 + flag l.valid 0

/-- Where the log and the injection of an array stand: array 13 is the package's (R256), every other the die's. -/
def logDie (c : Ctx) (arr : Nat) : DieId := if arr == 13 then crownDie c.pkg else c.die

/-- The value of a system register for the running slot, at the issue of its bundle (R381). -/
def State.sysRead (s : State) (n : Nat) : Word :=
  let c := s.curCtx
  let d := s.die c.die
  let k := s.pkg c.pkg
  word (
    if n == 0x000 then c.iss.tick
    else if n == 0x001 then c.tbase
    else if n == 0x002 then c.tguard
    else if n == 0x003 then d.slipmax
    else if n == 0x004 then wrap 64 c.iss.alast
    else if n == 0x005 then tstatWord k c.slipSeen
    else if n == 0x008 then c.iss.rrb
    else if n == 0x009 then c.iss.grb
    else if n == 0x00A then c.vflags.toNat
    else if n == 0x010 then c.fsr.toNat
    else if n == 0x011 then c.far.toNat
    else if n == 0x018 then c.pkg * 16 + c.phys
    else if n == 0x019 then c.slot
    else if n == 0x01A then c.placegen
    else if n == 0x01B then c.rid
    else if n == 0x020 then c.aq.length * 2 ^ 18 + lqReady c.lq * 2 ^ 9 + c.lq.length
    else if n == 0x021 then c.iss.mstat.toNat
    else if n == 0x022 then c.xstat.toNat
    else if n == 0x023 then d.grant % 65536 * 2 ^ 32 + d.demand % 65536 * 2 ^ 16 + flag d.short 1 + (s.node c.rid).pclass % 2
    else if n == 0x024 then c.waitlim
    else if 0x030 <= n && n <= 0x04F then (c.q (n - 0x030)).word
    else if n == 0x100 then c.opsel
    else if 0x110 <= n && n <= 0x120 then (k.ring (ringKey (opselPlane c.opsel) (n - 0x110))).word
    else if 0x130 <= n && n <= 0x133 then (k.mzm (mzmKey (opselPlane c.opsel) (n - 0x130))).word (s.freeWord 0) (s.freeWord 1)
    else if 0x140 <= n && n <= 0x15F then (if n - 0x140 == colOf c.pkg then 0 else (s.link c.pkg 0 (n - 0x140)).word)
    else if 0x160 <= n && n <= 0x17F then (if n - 0x160 == rowOf c.pkg then 0 else (s.link c.pkg 1 (n - 0x160)).word)
    else if n == 0x180 then flag (!k.draining.isEmpty) 1 + flag k.version 0
    else if 0x800 <= n && n < 0x840 then (mget (s.die (logDie c ((n - 0x800) / 4))).logs ((n - 0x800) / 4) .blank).word (n % 4)
    else
      let j := mget (s.die (logDie c ((n - 0x900) / 4))).inject ((n - 0x900) / 4) .blank
      if n % 4 == 0 then j.ctl.toNat else j.addr.toNat)

/-- Registers that only service regions may read (T5.3). -/
def sysReadGuard (f : SF) (s : State) : Guard :=
  need (f.sysnum < 0x900 || (s.node s.curCtx.rid).service) (trapAt 0 .permission f.sysnum)
/-- A SYSRD: the value, and what reading changes at issue + 1. -/
def sysReadExec (f : SF) (after : List Effect) (s : State) : Host.Outcome State Fault Refusal :=
  scalarGuarded f (sysReadGuard f)
    (fun s => [.slot s.curKey (fun c =>
      (c.later 1 phReg (.scalar f.d.toNat (s.sysRead f.sysnum))).pushAll (after.map fun e => (c.iss.pos + 1, phSys, e))),
      .drawn 2]) s
/-- SYSRD (R380). -/
def execSysrd (f : SF) (s : State) : Host.Outcome State Fault Refusal := sysReadExec f [] s
/-- A SYSRD of TSTAT clears SLIPX. -/
def execTstatRead (f : SF) (s : State) : Host.Outcome State Fault Refusal := sysReadExec f [.tstatClear] s
/-- A SYSRD of MSTAT clears ABORT, MNAN and MINF. -/
def execMstatRead (f : SF) (s : State) : Host.Outcome State Fault Refusal := sysReadExec f [.mstatClear] s

/-! ## Writing -/

/-- Registers that a SYSWR may write: any region's, and a service region's (T5.3). -/
def sysWritable (n : Nat) : Bool :=
  n == 0x002 || (0x008 <= n && n <= 0x00A) || n == 0x010 || n == 0x011 || n == 0x022 || n == 0x024
def sysWriteGuard (f : SF) (s : State) : Guard :=
  need (sysWritable f.sysnum || (0x100 <= f.sysnum && (s.node s.curCtx.rid).service)) (trapAt 0 .permission f.sysnum)

/-- The write of a ring by software (R236): its colour is taken from the ring of the plane that held it. -/
def Pkg.writeRing (plane n v : Nat) (k : Pkg) : Pkg :=
  let cv := bit v 39
  let colour := bits v 38 32
  let drop := fun (m : SMap Ring) i =>
    let r := mget m (ringKey plane i) .blank
    if i != n && cv && r.cv && r.colour == colour then mput (ringKey plane i) { r with cv := false, drops := false } m
    else m
  let rings := (List.range 17).foldl drop k.rings
  { k with rings := mmod rings (ringKey plane n) .blank fun r =>
    { r with cv := cv, colour := colour, heat := v % 4096, drops := r.drops && cv && r.colour == colour } }
/-- The write of a modulator (R235). -/
def Mzm.write (v : Nat) (m : Mzm) : Mzm :=
  { m with qalarm := m.qalarm && !bit v 13, auto := bit v 12, bias := if bit v 12 then m.bias else v % 4096 }

/-- A slot's die cycle in which it wrote a ring is under way. -/
def Pkg.ringsOpen (now : Nat) (k : Pkg) : Bool := k.ringsSet.any fun w => now < w.till
/-- A write of a ring is kept with the end of its writer's die cycle, after those of the die cycles under way (R440). -/
def Pkg.keepRing (now : Nat) (w : RingSet) (k : Pkg) : Pkg :=
  if k.ringsOpen now then { k with ringsSet := k.ringsSet ++ [w] } else { k with ringsWas := k.rings, ringsSet := [w] }
/-- The rings without what slots write in die cycles under way (R440). -/
def Pkg.ringsBefore (now : Nat) (k : Pkg) : Pkg :=
  if k.ringsOpen now then
    (k.ringsSet.filter fun w => w.till <= now).foldl (fun k w => k.writeRing w.plane w.ring w.value) { k with rings := k.ringsWas }
  else k
/-- A SYSWR takes effect for a slot: `num` is the register, with OPSEL above bit 12 for RINGn and MZMn. -/
def sysLand (s : State) (key : SlotKey) (num : Nat) (w : Word) : List Upd :=
  let n := num % 4096
  let o := num / 4096
  let c := s.slot key
  let v := w.toNat
  let slot := fun (f : Ctx → Ctx) => [Upd.slot key f]
  let log := fun (f : ErrLog → ErrLog) => [Upd.die (logDie c ((n - 0x800) / 4)) fun d => { d with logs := mmod d.logs ((n - 0x800) / 4) .blank f }]
  let inj := fun (f : Inject → Inject) => [Upd.die (logDie c ((n - 0x900) / 4)) fun d => { d with inject := mmod d.inject ((n - 0x900) / 4) .blank f }]
  if n == 0x002 then slot fun c => { c with tguard := v % 65536 }
  else if n == 0x008 then slot fun c => { c with rrb := v % 512 }
  else if n == 0x009 then slot fun c => { c with grb := v % 32 }
  else if n == 0x00A then slot fun c => { c with vflags := w &&& 0x13F }
  else if n == 0x010 then slot fun c => { c with fsr := w &&& ~~~(1#64 <<< 23) }
  else if n == 0x011 then slot fun c => { c with far := w }
  else if n == 0x022 then slot fun c => { c with xstat := c.xstat &&& ~~~w }
  else if n == 0x024 then slot fun c => { c with waitlim := v % 2 ^ 32 }
  else if n == 0x100 then
    slot fun c => { c with opsel := v / 256 % 2 * 256 + (if v % 256 < 72 then v % 256 else c.opsel % 256) }
  else if 0x110 <= n && n <= 0x120 then
    let r := n - 0x110
    [.pkg c.pkg fun k => (k.keepRing s.now ⟨(s.die c.die).edge, opselPlane o, r, v⟩).writeRing (opselPlane o) r v,
     .addTimer { pkg := c.pkg, tick := s.gtc c.pkg + 1000, ev := .heaterApply c.pkg (o / 256 % 2) (o % 256) r }]
  else if 0x130 <= n && n <= 0x133 then
    [.pkg c.pkg fun k => { k with mzms := mmod k.mzms (mzmKey (opselPlane o) (n - 0x130)) .blank (Mzm.write v) }]
  else if 0x800 <= n && n < 0x840 then
    match n % 4 with
    | 0 => log fun l => { l with addr := w }
    | 1 => log fun l => { l with synd := w &&& 0x1FFFF }
    | 2 => log fun l => { l with ctx := w &&& 0xFFFFFFFFF }
    | _ => log fun _ => .blank
  else if 0x900 <= n && n < 0x940 then
    if n % 4 == 0 then inj fun j => { j with ctl := w &&& 0xFF03 } else inj fun j => { j with addr := w }
  else []

/-- A SYSWR that takes effect at issue + 1, before the results of that die cycle (T18.5; for VFLAGS: after the flags of
the die cycle of issue). -/
def sysWriteExec (f : SF) (s : State) : Host.Outcome State Fault Refusal :=
  scalarGuarded f (sysWriteGuard f)
    (fun s => [.slot s.curKey fun c => c.later 1 phSys (.sysReg (f.sysnum + 4096 * c.opsel) (f.av c))]) s
/-- SYSWR to a register without a row of its own (R380). -/
def execSyswr (f : SF) (s : State) : Host.Outcome State Fault Refusal := sysWriteExec f s
/-- SYSWR XSTAT: each 1 clears its bit. -/
def execXstatWrite (f : SF) (s : State) : Host.Outcome State Fault Refusal := sysWriteExec f s
/-- SYSWR VFLAGS. -/
def execVflagsWrite (f : SF) (s : State) : Host.Outcome State Fault Refusal := sysWriteExec f s
/-- SYSWR RRB. -/
def execRrbWrite (f : SF) (s : State) : Host.Outcome State Fault Refusal := sysWriteExec f s
/-- SYSWR GRB. -/
def execGrbWrite (f : SF) (s : State) : Host.Outcome State Fault Refusal := sysWriteExec f s
/-- SYSWR TGUARD: for every anchored bundle and TWAIT that reaches the issue stage afterwards (R61). -/
def execTguardWrite (f : SF) (s : State) : Host.Outcome State Fault Refusal :=
  scalarGuarded f (sysWriteGuard f) (fun s => sysLand s s.curKey 0x002 (f.av s.curCtx)) s
/-- SYSWR FSR. -/
def execFsrWrite (f : SF) (s : State) : Host.Outcome State Fault Refusal := sysWriteExec f s
/-- SYSWR WAITLIM. -/
def execWaitlimWrite (f : SF) (s : State) : Host.Outcome State Fault Refusal := sysWriteExec f s
/-- SYSWR OPSEL. -/
def execOpselWrite (f : SF) (s : State) : Host.Outcome State Fault Refusal := sysWriteExec f s
/-- SYSWR RINGn, of the plane that OPSEL selects at issue. -/
def execRingWrite (f : SF) (s : State) : Host.Outcome State Fault Refusal := sysWriteExec f s
/-- SYSWR MZMn, of the plane that OPSEL selects at issue. -/
def execMzmWrite (f : SF) (s : State) : Host.Outcome State Fault Refusal := sysWriteExec f s
/-- SYSWR ELOGSTAT clears the log. -/
def execElogstatWrite (f : SF) (s : State) : Host.Outcome State Fault Refusal := sysWriteExec f s
/-- SYSWR INJCTL. -/
def execInjctlWrite (f : SF) (s : State) : Host.Outcome State Fault Refusal := sysWriteExec f s

/-! ## TIDSET -/

def SF.tidN (f : SF) : Nat := f.imm.toNat % 256
def SF.tidW (f : SF) : Nat := f.imm.toNat / 256 % 8
/-- TIDSET (R384, R385). -/
def execTidset (f : SF) (s : State) : Host.Outcome State Fault Refusal :=
  scalarGuarded f
    (fun s => need (SF.tidN f < (s.node s.curCtx.rid).tids) (trapAt 0 .permission (SF.tidN f)))
    (fun s => [.slot s.curKey fun c => c.later 1 phSys (.tidWord (SF.tidN f) (SF.tidW f) (f.av c))]) s

end Sys2Proof.Machine
end

