-- ==== Sys2Proof/Machine/Landing.lean ====
section
/-! DEFINITION. Results in flight land (R71, R77, R87, R91, R146): the effect of each, in the order of its die cycle. -/

namespace Sys2Proof.Machine

/-! ## Cuffs (R11, R87) -/

/-- The die across cuff c of a compute die (T1.3). -/
def cuffNeighbour (phys c : Nat) : Option Nat :=
  match c with
  | 0 => if phys % 3 == 0 then none else some (phys - 1)
  | 1 => if phys % 3 == 2 then none else some (phys + 1)
  | _ => some ((phys + 3) % 6)
/-- The facing cuff. -/
def facing (c : Nat) : Nat := match c with
  | 0 => 1
  | 1 => 0
  | n => n
/-- CUFFS of a slot's image header (T2.5). -/
def cuffsMask (e : BitVec 256) : Nat := (e.extractLsb' 160 3).toNat
def State.slotEntry (s : State) (c : Ctx) : BitVec 256 := at0 (s.node c.rid).entries c.slot 0
/-- A cuff that a slot may use: neither idle nor absent from its CUFFS mask. -/
def State.cuffOk (s : State) (c : Ctx) (n : Nat) : Bool :=
  (cuffNeighbour c.phys n).isSome && bit (cuffsMask (s.slotEntry c)) n

/-- The slot of the region at the die across a cuff. -/
def State.acrossSlot (s : State) (c : Ctx) (n : Nat) : Option SlotKey :=
  match cuffNeighbour c.phys n with
  | none => none
  | some q => ((s.node c.rid).placed.find? fun p => p.pkg == c.pkg && p.phys == q).map fun p => slotKey c.rid p.pkg p.slot

/-- The lines of a send, by number. -/
def cuffLines (s : State) (c : Ctx) (route : Route) (cuff row : Nat) : SMap Line :=
  (List.range 256).foldl (fun m j => match route.source (1024 + 256 * cuff + j) with
    | some b => mput j (s.bankLine c (row + b.2) b.1) m
    | none => m) []
/-- The read gauntlet of a bundle, one die cycle after its issue, at the ports that serve no instruction of it: they read
the banks (R78), and those of the cuffs send (R87), with the tick of this die cycle plus 24 as the landing tick. The
check at issue has foreseen the route (`State.foresee`); a cuff that has become idle since (R11) raises illegal bundle with
kind after (log 14). -/
def cuffSendUpds (s : State) (k : SlotKey) (rt row : Nat) (served : List Nat) : List Upd :=
  let c := s.slot k
  let route := c.routeOr (s.node c.rid).routes 0 rt
  let reads := spareLines route row served
  let cuffs := route.cuffs 1024
  lateGuard k (.seq [need (cuffs.all (s.cuffOk c)) (trapAt 7 .illegalBundle 0), rowsGuard s c 7 reads,
      machineGuard s c 7 reads true])
    (cuffs.flatMap fun cuff => match s.acrossSlot c cuff with
      | none => []
      | some dest =>
        let x : CuffSend := { tick := s.dieTick c.die + 24, lines := cuffLines s c route cuff row, told := false }
        [.die (s.slot dest).die fun d => { d with cuffIn := d.cuffIn ++ [(4 * dest + facing cuff, x)] }])

/-! ## Own-bank accesses of the S slot -/

/-- What an own-bank access meets at its line in its die cycle (R74). -/
def lineGuard (s : State) (c : Ctx) (off : Nat) : Guard := machineGuard s c 0 [(off / 2 ^ 17, off / 64 % 2048)] true
/-- An LD reads its line at issue + 2, and writes its register at issue + 6 (R91). -/
def ldReadUpds (s : State) (k : SlotKey) (off size : Nat) (sgn : Bool) (d due : Nat) : List Upd :=
  let c := s.slot k
  let v := ofBytes (s.bankBytes c off size)
  .slot k (fun c => { c with ownRead := c.pos + 1 }) :: eccNote s c (off / 2 ^ 17) (off / 64 % 2048) ++
  lateGuard k (lineGuard s c off) [.slot k fun c => c.push (due + 4) phReg (.scalar d (extendVal size sgn v))]
/-- An ST writes its bytes, as the read-modify-write of its line that the line's code asks for (R74). -/
def stWriteUpds (s : State) (k : SlotKey) (off : Nat) (bs : List Byte) : List Upd :=
  let c := s.slot k
  eccNote s c (off / 2 ^ 17) (off / 64 % 2048) ++ lateGuard k (lineGuard s c off) (writeBytes (c.bankAt off) bs)
/-- An ATOM or RED reads, and its new value is written in the same die cycle. A line that has become bad since its issue
leaves a fault in ATOM's load-queue entry, and RED's trap is of kind after (log 20). -/
def bankAtomUpds (s : State) (k : SlotKey) (off size op : Nat) (b c : Word) (lq : Option Nat) (due : Nat) : List Upd :=
  let x := s.slot k
  let old := ofBytes (s.bankBytes x off size)
  let new := toBytes size (atomNew op size old b.toNat c.toNat)
  let bad : EngFault := { cause := .machine, ptr := word off, detail := 0 }
  let done := fun (x : Ctx) => if lq.isSome then { x with ownRead := x.pos + 1 } else { x with ownRed := x.pos + 1 }
  .slot k done :: eccNote s x (off / 2 ^ 17) (off / 64 % 2048) ++
  (match lineGuard s x off, lq with
   | .trap _, some e => [.slot k fun x => x.fillLq e (.fault bad)]
   | .trap t, none => lateGuard k (.trap t) []
   | _, some e => [.slot k fun x =>
       (x.push due phSlotWrite (.bankWrite off new)).push (due + 1) phSys (.lqFill e (word old))]
   | _, none => [.slot k fun x => x.push due phSlotWrite (.bankWrite off new)])

/-! ## Matrix configuration, tensor identifiers, loop deltas -/

def Ctx.zeroAccs (first count : Nat) (c : Ctx) : Ctx :=
  { c with accs := c.accs.filter fun e => e.1 / 16384 < first || first + count <= e.1 / 16384 }
def Ctx.setShadow (f : MTable → MTable) (c : Ctx) : Ctx :=
  { c with matrix := { c.matrix with shadow := f c.matrix.shadow } }
/-- A delta is added to a scalar register, or to OFS of a tensor identifier (R157). -/
def Ctx.addDelta (d : LoopDelta) (c : Ctx) : Ctx :=
  if d.isTid then c.setTid d.num (tidPut (c.tid d.num) 6 (tidOfs (c.tid d.num) + d.delta))
  else c.setS d.num (c.s d.num + d.delta)
/-- QSET's effect: new descriptor, empty queue (R363). -/
def Ctx.setQueue (q qb depth : Nat) (c : Ctx) : Ctx :=
  { c with queues := mput q { qb := qb, depth := depth, rp := 0, wp := 0 } c.queues }

/-! ## Landing -/

/-- Bank lines that an effect reads: row and bank. -/
def effectReads (s : State) (c : Ctx) : Effect → List (Nat × Nat)
  | .vlate i iss o =>
    let route := c.routeOr (s.node c.rid).routes 0 iss.rrt
    match vinfo i { c with iss := iss } with
    | some v => operandLines route v.f.vslot o
    | none => []
  | .vldRead v1 _ _ rt row => groupLines (c.routeOr (s.node c.rid).routes 0 rt).source (if v1 then 1 else 0) row
  | .cuffSend rt row served => spareLines (c.routeOr (s.node c.rid).routes 0 rt) row served
  | .loopRead => match c.loop with
    | some l => (List.range 8).map fun i => ((l.desc + 64 * i) / 2 ^ 17, (l.desc + 64 * i) / 64 % 2048)
    | none => []
  | _ => []

/-- What a landing does to its slot, at its place in the die cycle. -/
def landUpds (s : State) (k : SlotKey) (l : Landing) : List Upd :=
  let c := s.slot k
  let on := fun (f : Ctx → Ctx) => [Upd.slot k f]
  match l.eff with
  | .scalar r v => on fun c => c.setS r v
  | .pred r v => on fun c => c.setP r v
  | .mask r v en => on fun c => c.setK r (blend (c.k r) v en)
  | .vec r v en => on fun c => c.setV r (blend (c.v r) v en)
  | .flags v => on fun c => c.mergeFlags v.toNat
  | .vlate i iss o => vlateUpds s k i iss o
  | .vldRead v1 regs en rt row => vldReadUpds s k v1 regs en rt row l.due
  | .wLines ports rt row => wLinesUpds s k l.due ports rt row
  | .qLines ports => qLinesUpds s k l.due ports
  | .ldRead off size sgn d => ldReadUpds s k off size sgn d l.due
  | .bankBytes off bs => stWriteUpds s k off bs
  | .bankWrite off bs => writeBytes (c.bankAt off) bs
  | .bankAtom off size op b x lq => bankAtomUpds s k off size op b x lq l.due
  | .lqFill e v => on fun c => c.fillLq e (.value v)
  | .qadv q wp n => on (Ctx.qmove q wp n)
  | .qset q qb depth => on (Ctx.setQueue q qb depth)
  | .tidWord t w v => on fun c => c.setTid t (tidPut (c.tid t) w v)
  | .mhead h => on (Ctx.setShadow fun t => { t with head := h })
  | .mlevel i count a b cs =>
    on (Ctx.setShadow fun t => { t with levels := t.levels.modify i fun x => { x with count := count, astr := a, bstr := b, cstr := cs } })
  | .mroute i r => on (Ctx.setShadow fun t => { t with levels := t.levels.modify i fun x => { x with route := r } })
  | .accZero first count => on (Ctx.zeroAccs first count)
  | .drainRead acc tid e => drainUpds k acc tid e l.due
  | .amax tid m => on (Ctx.mergeAmax tid m)
  | .matRead st i => matReadUpds s k st i
  | .solver g n r => on fun c => { c with solvers := mput (16 * g + n) r c.solvers }
  | .sysReg n v => sysLand s k n v
  | .tstatClear => on fun c => { c with slipSeen := false }
  | .mstatClear => on fun c => { c with matrix := { c.matrix with abort := false, mnan := false, minf := false } }
  | .loopRead =>
    match machineGuard s c 0 (effectReads s c .loopRead) true with
    | .trap t => lateGuard k (.trap t) [] ++ on fun c => { c with loop := none }
    | _ => loopReadUpds s k
  | .loopCheck t x => on (Ctx.loopChecked t x)
  | .cuffSend rt row served => cuffSendUpds s k rt row served
  | .loopDelta d => on (Ctx.addDelta d)
  | .peer _ => []
  | .spineRead _ _ _ => []
  | .spineWrite _ _ _ => []
  | .routesLoad _ _ => []
  | .encRead _ _ => []
  | .encWrite _ _ => []

/-- What a line on the spine of a die does. -/
def spineUpds (s : State) (d : DieId) (l : Landing) : List Upd :=
  match l.eff with
  | .spineRead ch op k => spineReadUpds s d ch op k
  | .spineWrite ch op k => spineWriteUpds s d ch op k
  | .routesLoad ch op => routesLoadUpds s d ch op
  | .encRead cmd k => encReadUpds s d cmd k
  | .encWrite cmd k => encWriteUpds s d cmd k
  | .peer ref =>
    match Ref.ofCode ref with
    | .req i => match s.req? i with
      | some r => s.arrive r 0
      | none => []
    | .answer _ => []
    | .item e ch op k =>
      if ch == 2 then match (s.die e).encQ.find? fun x => x.id == op with
        | some x => if x.outAt == k then encPut s e x k 0 false else []
        | none => []
      else match s.op? e ch op with
        | some o => copyHome s e ch o k 0
        | none => []
  | _ => []

/-- The landing of a list that comes first in its die cycle: by phase, then in the order of issue. -/
def firstLanding (now : Nat) : List Landing → Option Landing
  | [] => none
  | l :: ls =>
    match firstLanding now ls with
    | none => if l.due <= now then some l else none
    | some m => if l.due <= now && (l.ph < m.ph || (l.ph == m.ph && l.seq <= m.seq)) then some l else some m

/-- The slot's and the spine's next landing on a die, in its present die cycle. -/
def State.slotLanding (s : State) (d : DieId) : Option Landing :=
  match (s.die d).run with
  | some k => firstLanding (s.slot k).pos (s.slot k).land
  | none => none
def State.spineLanding (s : State) (d : DieId) : Option Landing := firstLanding (s.die d).cyc (s.die d).spine

/-- An access of the banks performs: not the read gauntlet of a bundle whose route enables no other port. -/
def performs (s : State) (c : Ctx) (e : Effect) : Bool :=
  e.isBank && match e with
    | .cuffSend _ _ _ => !(effectReads s c e).isEmpty
    | _ => true
/-- A result of a slot leaves its list and takes effect. -/
def slotLandUpds (s : State) (k : SlotKey) (l : Landing) : List Upd :=
  let c := s.slot k
  .slot k (fun x => { x with land := x.land.filter fun y => y.seq != l.seq,
                             performed := if performs s c l.eff then x.pos + 1 else x.performed }) ::
  ((effectReads s c l.eff).flatMap fun x => eccNote s c x.1 x.2) ++
  landUpds (s.apply (.slot k fun c => { c with land := c.land.filter fun x => x.seq != l.seq })) k l

/-- A line of the spine of a die leaves its list and takes effect. -/
def spineLandUpds (s : State) (d : DieId) (l : Landing) : List Upd :=
  .die d (fun x => { x with spine := x.spine.filter fun y => y.seq != l.seq }) :: spineUpds s d l
/-- The next of a slot's results and of its die's lines takes effect. -/
def landNext (s : State) (k : SlotKey) (d : DieId) (slot spine : Option Landing) : List Upd :=
  match slot, spine with
  | some l, none => slotLandUpds s k l
  | none, some m => spineLandUpds s d m
  | some l, some m => if l.ph < m.ph then slotLandUpds s k l else spineLandUpds s d m
  | none, none => []
/-- RESULT_LANDING (R146): the next result of the die's present cycle takes effect. -/
def execResultLanding (s : State) : Host.Outcome State Fault Refusal :=
  s.by_ (landNext s s.curKey s.cur (s.slotLanding s.cur) (s.spineLanding s.cur))

end Sys2Proof.Machine
end

