-- ==== Sys2Proof/Machine/Loops.lean ====
section
/-! DEFINITION. LOOP at its issue (R155–R157, R339, R340): what its checks see of the descriptor, the copy of the body, and
the read of the descriptor that it starts. -/

namespace Sys2Proof.Machine

/-- A result in flight that writes the die's own banks. -/
def Effect.writesBank : Effect → Bool
  | .wLines _ _ _ => true
  | .qLines _ => true
  | .bankBytes _ _ => true
  | .bankWrite _ _ => true
  | .bankAtom _ _ _ _ _ _ => true
  | _ => false
/-- The state with the results of the running slot landed that write its banks in the `n`th die cycle from now, by the
routes of that die cycle. -/
def State.banksLand (s : State) (n : Nat) : State :=
  let k := s.curKey
  let at_ := (s.slot k).pos + n
  let round := fun (s : State) (late : Bool) =>
    ((s.slot k).land.filter fun l => l.due == at_ && l.eff.writesBank && (decide (phSlotWrite <= l.ph) == late)).foldl
      (fun s l => s.commit (landUpds s k l)) s
  round (round (s.commit [.slot k (s.foresee n)]) false) true
/-- The banks after the next `n` die cycles, as far as the running slot's results in flight tell: a read one die cycle
later finds them so, but for lines that the spine will grant to others by then. -/
def State.banksAhead (s : State) (n : Nat) : State := (List.range n).foldl (fun s i => s.banksLand (i + 1)) s
/-- The state with the lines of the die that will be stored wrong after the next `n` die cycles, so that an S-slot access
which comes then raises its machine trap at its own bundle (R74). -/
def State.errorsAhead (s : State) (n : Nat) : State :=
  let d := s.curCtx.die
  s.commit [.die d fun k => { k with badLines := ((s.banksAhead n).die d).badLines }]

/-- LOOP's checks at its bundle (R155, R156, R340). The STAGES that R156 tests are those of the descriptor as its read two
die cycles on will find it (log 21). The entry bundle and an elastic one stand at position 0 (R272). -/
def loopGuard (f : SF) (s : State) : Guard :=
  let c := s.curCtx
  let p := f.av c
  let n := SF.loopN f
  let off := offsetBits p
  let body := loopBody f s
  let exit := c.iss.pc + 64 + 64 * n
  let lines := (List.range 8).map fun i =>
    match s.bankReach c (off + 64 * i) with
    | .fault x => Guard.trap (trapAt 0 x p.toNat)
    | _ => .go
  let first := hdrStamp (body.headD 0)
  let me := if c.iss.elastic || c.nhist.all (·.pos == c.iss.pos) then 0 else hdrStamp (s.bundleLine c c.iss.pc)
  .seq ([need (p.toNat % 64 == 0) (trapAt 0 .misalignment p.toNat),
    need (exit <= s.bmemBytes s.curKey) (trapAt 0 .permission p.toNat),
    need (!body.any notInBody) (trapAt 0 .illegalBundle 0),
    need (s.bmemBytes s.curKey <= exit || hdrElastic (s.bundleLine c exit)) (trapAt 0 .illegalBundle 0),
    need (spaceOf p == 0 && ptrOk (s.node c.rid).slots p) (trapAt 0 .space p.toNat),
    need (me + 4 <= first) (trapAt 0 .illegalBundle 0)] ++ lines ++
   [need (hdrRot (body.getLastD 0) || descStages ((s.banksAhead 1).descBytes c off) < 2) (trapAt 0 .illegalBundle 0)])

/-- LOOP's effect at issue: the copy of the body and of the counting registers, and the descriptor read at issue + 2. -/
def loopUpds (f : SF) (s : State) : List Upd :=
  let c := s.curCtx
  let body := loopBody f s
  let st := fun b => (hdrStamp b : Int)
  let last := body.getLastD 0
  let l : Loop :=
    { pc := c.iss.pc + 64, body := body, stages := 1, codes := [], levels := [], idx := [], total := 0, pass := 0,
      at_ := 0, grb := c.iss.grb, len := (st last - st (body.headD 0)).toNat + hdrIdle last + 1, ready := false,
      counts := (List.range 64).map fun i => (c.s i).toNat, desc := offsetBits (f.av c) }
  [.slot s.curKey fun c => { c with loop := some l, loopHeld := false }.later 2 phRead .loopRead]

/-- LOOP (R155–R157); a false predicate skips the body (R339). -/
def execLoop (f : SF) (s : State) : Host.Outcome State Fault Refusal :=
  if f.on s.curCtx then s.guarded (loopGuard f s) (loopUpds f s)
  else s.onSlot fun c => { c with pc := c.iss.pc + 64 + 64 * SF.loopN f }

end Sys2Proof.Machine
end

