-- ==== Sys2Proof/Machine/Issue.lean ====
section
/-! DEFINITION. The issue stage (R29, R62–R65, R87–R89, R157, R192, R244, R245, R269–R276, R283): the bundle that a
slot reaches, its checks in their order, its waits, and its issue; the slots then act in slot order (R270). -/

namespace Sys2Proof.Machine

/-! ## Bundles (T15.1–T15.4) -/

def bField (b : Line) (lo : Nat) : Word := b.extractLsb' lo 64
def nWord (b : Line) : Word := bField b 32
/-- The long immediate that a template lends slot n (T15.3). -/
def longOf (b : Line) (tmpl n : Nat) : Option Word :=
  match n with
  | 0 =>
    if tmpl == 1 || tmpl == 6 then some (bField b 160)
    else if tmpl == 2 then some (bField b 416)
    else if tmpl == 7 then some ((b.extractLsb' 480 32).signExtend 64)
    else none
  | 1 => if tmpl == 3 then some (bField b 224) else none
  | 3 => if tmpl == 5 then some (bField b 352) else none
  | 4 => if tmpl == 4 || tmpl == 6 then some (bField b 416) else none
  | _ => none
/-- A slot whose bits the template takes. -/
def fusedAway (tmpl n : Nat) : Bool :=
  match n with
  | 1 => tmpl == 1 || tmpl == 6
  | 2 => tmpl == 3
  | 4 => tmpl == 5
  | 5 => tmpl == 2 || tmpl == 4 || tmpl == 6
  | 6 => tmpl == 7
  | _ => false
/-- Slot n of a bundle (FSR.SLOT numbers): `none` when it is fused away. -/
def slotDecode (b : Line) (n : Nat) : Option (Decoded Instr) :=
  let t := hdrTmpl b
  if fusedAway t n then none
  else some (match n with
    | 0 => decodeS (bField b 96) (longOf b t 0)
    | 1 => decodeV (bField b 160) false (longOf b t 1)
    | 2 => decodeV (bField b 224) true none
    | 3 => decodeM (bField b 288) (longOf b t 3)
    | 4 => decodeC (bField b 352) false (longOf b t 4)
    | 5 => decodeC (bField b 416) true none
    | _ => decodeX (b.extractLsb' 480 32))

/-- Instructions that must stand in an elastic bundle (R283), whatever their predicate. -/
def mustElastic (i : Instr) : Bool :=
  match i with
  | .atom f => f.ord != 0
  | .atomCas f => f.ord != 0
  | .red f => f.ord != 0
  | .fence _ => true
  | .waitw _ => true
  | .tret _ => true
  | .end_ _ => true
  | .yield _ => true
  | .launch _ => true
  | .twait _ => true
  | .twaitAbs _ => true
  | .wtagall _ => true
  | .wtagany _ => true
  | .qwait _ => true
  | .bara _ => true
  | .barw _ => true
  | .step _ => true
  | .pstat _ => true
  | .falloc _ => true
  | .fallocAt _ => true
  | .fallocQuery _ => true
  | .ffree _ => true
  | .mwaitb _ => true
  | .mstop _ => true
  | _ => false
/-- Instructions that must stand in an anchored bundle. -/
def mustAnchor (i : Instr) : Bool :=
  match i with
  | .cencFrame _ => true
  | .xsend _ => true
  | .xrecv _ => true
  | _ => false

/-! ## The checks of a slot's instruction, as a bundle makes them before any slot acts -/

def sg (f : SF) (g : State → Guard) (s : State) : Guard := if f.on s.curCtx then g s else .go
def sw (f : SF) (check ready : State → Guard) (s : State) : Guard :=
  sg f (fun s => match check s with
    | .go => ready s
    | g => g) s
def sa (f : SF) (check : State → Guard) (arrive : State → List Upd) (s : State) : List Upd :=
  if f.on s.curCtx && check s == .go then arrive s else []

def vg (i : Instr) (s : State) : Guard :=
  match vinfo i s.curCtx with
  | some v => vGuard i v s
  | none => .go

/-- The guard that the instruction's meaning uses; an own-bank access of the S slot is checked against the lines that its
access will find. -/
def slotGuard (i : Instr) (s : State) : Guard :=
  match i with
  | .ld f => sg f (ldGuard f) (s.errorsAhead 1)
  | .st f => sg f (stGuard f) (s.errorsAhead 2)
  | .atom f => sg f (atomGuard f) (s.errorsAhead 2)
  | .atomCas f => sg f (atomGuard f) (s.errorsAhead 2)
  | .red f => sg f (redGuard f) (s.errorsAhead 2)
  | .lqpop f => sg f lqpopGuard s
  | .apush f => sg f apushGuard s
  | .fence f => sg f (fenceGuard f) s
  | .waitw f => sw f (waitwCheck f) (waitwReady f) s
  | .brRel f => sg f (fun s => targetGuard s (relTarget f s.curCtx)) s
  | .brReg f => sg f (fun s => targetGuard s (regTarget f s.curCtx)) s
  | .jmpImm f => sg f (fun s => targetGuard s (immTarget f)) s
  | .jmpReg f => sg f (fun s => targetGuard s (regTarget f s.curCtx)) s
  | .jmpLong f => sg f (fun s => targetGuard s (longTarget f)) s
  | .callRel f => sg f (fun s => targetGuard s (relTarget f s.curCtx)) s
  | .callReg f => sg f (fun s => targetGuard s (regTarget f s.curCtx)) s
  | .ret f => sg f (fun s => targetGuard s (s.curCtx.s 63).toNat) s
  | .loop f => sg f (loopGuard f) s
  | .tret f => sg f tretGuard s
  | .end_ f => sw f (fun s => needElastic s 0) endReady s
  | .yield f => sw f (fun s => needElastic s 0) yieldReady s
  | .launch f => sw f (launchCheck f) launchReady s
  | .twait f => sw f (fun s => needElastic s 0) (twaitReady f) s
  | .twaitAbs f => sw f (fun s => needElastic s 0) (twaitReady f) s
  | .wtagall f => sg f (wtagallGuard f) s
  | .wtagany f => sg f (wtaganyGuard f) s
  | .qwait f => sg f (qwaitGuard f) s
  | .qadv f => sg f (qadvGuard f) s
  | .qset f => sg f (qsetGuard f) s
  | .bara f => sw f (barCheck (SF.bar f) false) (fun s => await_ (s.curCtx.keeps (SF.bar f)) (trapAt 0 .illegalBundle 0)) s
  | .barw f => sw f (barCheck (SF.bar f) false) (barwReady f) s
  | .step f => sw f (barCheck (SF.group f) true) (stepReady f) s
  | .pstat f => sw f (barCheck (SF.group f) true) (askReady ReqKind.isStat) s
  | .falloc f => sw f (fun s => needElastic s 0) (askReady ReqKind.isAlloc) s
  | .fallocAt f => sw f (fun s => needElastic s 0) (askReady ReqKind.isAlloc) s
  | .fallocQuery f => sw f (crownCheck f) (askReady ReqKind.isAlloc) s
  | .ffree f => sw f (crownCheck f) (askReady ReqKind.isAlloc) s
  | .sysrd f => sg f (sysReadGuard f) s
  | .tstatRead f => sg f (sysReadGuard f) s
  | .mstatRead f => sg f (sysReadGuard f) s
  | .syswr f => sg f (sysWriteGuard f) s
  | .xstatWrite f => sg f (sysWriteGuard f) s
  | .vflagsWrite f => sg f (sysWriteGuard f) s
  | .rrbWrite f => sg f (sysWriteGuard f) s
  | .grbWrite f => sg f (sysWriteGuard f) s
  | .tguardWrite f => sg f (sysWriteGuard f) s
  | .fsrWrite f => sg f (sysWriteGuard f) s
  | .waitlimWrite f => sg f (sysWriteGuard f) s
  | .opselWrite f => sg f (sysWriteGuard f) s
  | .ringWrite f => sg f (sysWriteGuard f) s
  | .mzmWrite f => sg f (sysWriteGuard f) s
  | .elogstatWrite f => sg f (sysWriteGuard f) s
  | .injctlWrite f => sg f (sysWriteGuard f) s
  | .tidset f => sg f (fun s => need (SF.tidN f < (s.node s.curCtx.rid).tids) (trapAt 0 .permission (SF.tidN f))) s
  | .vld f => vldGuard f s
  | .vst f => vstGuard f s
  | .rsolve f => rsolveGuard f s
  | .mcfgHead f => mcfgHeadGuard f s
  | .mcfgLevel f => mcfgLevelGuard f s
  | .mroute f => routeGuard s mSlot 2 (bits f.imm.toNat 13 3)
  | .mgath _ => mgathGuard s
  | .mgo f => mgoGuard f s
  | .mcommit f => mcommitGuard f s
  | .mwaitb f => mwaitbGuard f s
  | .mdrain f => mdrainGuard f s
  | .mzero f => mzeroGuard f s
  | .mlda f => mldaGuard f s
  | .mstop _ => mstopGuard s
  | .cget f => cgetGuard f s
  | .cput f => cputGuard f s
  | .cputf f => cputfGuard f s
  | .cgath f => cgathGuard f s
  | .cscat f => cscatGuard f s
  | .catom f => catomGuard f s
  | .cred f => credGuard f s
  | .cfence f => chanGuard f s
  | .czero f => czeroGuard f s
  | .croute f => crouteGuard f s
  | .cbund f => cbundGuard f s
  | .cencOpen f => cencOpenGuard f s
  | .cencFrame f => cencFrameGuard f s
  | .cencClose f => encGuard f s
  | .xsend f => xsendGuard f s
  | .xrecv f => xrecvGuard f s
  | i => vg i s

/-- What an instruction does each time its bundle stands at the issue stage (R62). -/
def slotArrive (i : Instr) (s : State) : List Upd :=
  match i with
  | .waitw f => sa f (waitwCheck f) (waitwArrive f) s
  | .end_ f => sa f (fun s => needElastic s 0) endArrive s
  | .yield f => sa f (fun s => needElastic s 0) yieldArrive s
  | .launch f => sa f (launchCheck f) (launchArrive f) s
  | .twait f => sa f (fun s => needElastic s 0) (twaitArrive f) s
  | .twaitAbs f => sa f (fun s => needElastic s 0) (twaitArrive f) s
  | .bara f => sa f (barCheck (SF.bar f) false)
      (fun s => if s.released s.curKey (SF.bscope f) then arriveUpds (SF.bar f) s else []) s
  | .step f => sa f (barCheck (SF.group f) true)
      (fun s => if s.planeStoresDone s.curKey (SF.group f) then arriveUpds (SF.group f) s else []) s
  | .pstat f => sa f (barCheck (SF.group f) true) (askUpds ReqKind.isStat (.pstat (SF.group f) (f.imm.getLsbD 4)) true) s
  | .falloc f => sa f (fun s => needElastic s 0) (fun s => askUpds ReqKind.isAlloc (allocKind f none s) true s) s
  | .fallocAt f => sa f (fun s => needElastic s 0)
      (fun s => askUpds ReqKind.isAlloc (allocKind f (some ((s.curCtx.s f.b.toNat).toNat % 1024)) s) true s) s
  | .fallocQuery f => sa f (crownCheck f) (fun s => askUpds ReqKind.isAlloc (.query (f.av s.curCtx)) true s) s
  | .ffree f => sa f (crownCheck f)
      (fun s => askUpds ReqKind.isAlloc (.free (f.av s.curCtx)) (s.allocQuiet s.curKey (f.av s.curCtx)) s) s
  | .mstop _ => if s.curCtx.iss.elastic then [.slot s.curKey Ctx.stopEngine] else []
  | _ => []

/-- What later slots of the bundle meet of a slot's effect at issue (R270). -/
def slotEarly (i : Instr) (s : State) : List Upd :=
  match i with
  | .apush f => if f.on s.curCtx then [.slot s.curKey fun c => { c with aq := c.aq ++ [0] }] else []
  | .rsolve _ => [solveStarts s]
  | .cgath f => aqTake f s
  | .cscat f => aqTake f s
  | .cencOpen f => encJoin f .close 0 none s
  | .cencFrame f => encJoin f .close 0 none s
  | .cencClose f => encJoin f .close 0 none s
  | _ => []

/-- The guards of the slots, in slot order. -/
def slotGuards (s : State) : List Instr → List Guard
  | [] => []
  | i :: l =>
    let g := slotGuard i s
    g :: slotGuards (if g == .go then s.commit (slotEarly i s) else s) l

/-! ## The bundle at the issue stage -/

/-- The loop buffer issues (R157): from LOOP's issue on the body stands in it. -/
def Ctx.looping (c : Ctx) : Option Loop :=
  match c.loop with
  | some l => if !c.loopHeld && c.pc == l.pc + 64 * l.at_ then some l else none
  | none => none
/-- The bundle that the slot has reached. -/
def State.bundle (s : State) (c : Ctx) : Line :=
  match c.looping with
  | some l => at0 l.body l.at_ 0
  | none => s.bundleLine c c.pc

/-- The target of an anchored bundle (R62). -/
def Ctx.anchorTarget (c : Ctx) (b : Line) : Int :=
  let t : Int := c.tbase + hdrStamp b
  if t <= c.alast then t + 65536 * ((c.alast - t) / 65536 + 1) else t

/-- A slot, by its nibble of the stage word, is squashed (R157). -/
def Ctx.squashed (c : Ctx) (n : Nat) : Bool :=
  match c.looping with
  | none => false
  | some l =>
    let code := bits (at0 l.codes l.at_ 0).toNat (4 * n + 3) (4 * n)
    code < 15 && !c.g (physG c.grb (32 + code))

/-- What the bundle is at issue: names, gauntlet word, target. -/
def State.issueOf (s : State) (c : Ctx) (b : Line) : Issue :=
  let n := nWord b
  let sq := c.squashed 7
  { pos := c.pos, tick := s.dieTick c.die, pc := c.pc, elastic := hdrElastic b, anchored := hdrAnchored b
    target := if hdrAnchored b then (c.anchorTarget b).toNat else c.iss.target
    idle := hdrIdle b, rrb := c.rrb, grb := c.grb, alast := c.alast
    lastS := if c.matrix.quiet then none else some c.matrix.lastS
    mstat := c.matrix.stat
    rrt := if sq then 0 else bits n.toNat 10 0, rrow := if sq then 0 else bits n.toNat 21 11
    wrt := if sq then 0 else bits n.toNat 32 22, wrow := if sq then 0 else bits n.toNat 43 33 }

/-- Slots of a bundle that hold an instruction and are not squashed. -/
def State.active (c : Ctx) (b : Line) : List (Nat × Instr) :=
  (List.range 7).filterMap fun n =>
    if c.squashed n then none
    else match slotDecode b n with
      | some (.ok (.nop _)) => none
      | some (.ok i) => some (n, i)
      | _ => none

/-! ## Checks of the header and the N word (FSR.SLOT 7) -/

/-- The encoding checks (R271, R272, R275, R276, R283): they stand for squashed slots too. -/
def encodingGuards (b : Line) : List Guard :=
  let e := hdrElastic b
  let a := hdrAnchored b
  let bad := fun n cause => Guard.trap (trapAt n cause 0)
  [need (!b.getLsbD 7 && hdrTmpl b < 8 && (!e || a || hdrStamp b == 0)) (trapAt 7 .illegalBundle 0),
   need (bits (nWord b).toNat 63 44 == 0) (trapAt 7 .illegalSlot 0)] ++
  (List.range 7).map fun n =>
    match slotDecode b n with
    | none => .go
    | some (.error .template) => bad 7 .illegalBundle
    | some (.error _) => bad n .illegalSlot
    | some (.ok i) => need ((e || !mustElastic i) && (a || !mustAnchor i)) (trapAt n .illegalBundle 0)

/-- Cuffs that a bundle's routes send into and consume from (R87, R88). A bundle consumes at its issue, by the route that
its write gauntlet is to use three die cycles later, as the in-flight solves and CROUTEs leave it; where a pre-emption
between the two lets a CROUTE replace that route after all, what has been consumed stays so and the lines go by the route
of the write's own die cycle, of which the spec does not speak (DESIGN CHOICE, log 14). -/
def State.sends (s : State) (c : Ctx) (i : Issue) : List Nat := (s.readRoute c i.rrt).cuffs 1024
def State.consumes (s : State) (c : Ctx) (i : Issue) : List Nat := (s.writeRoute c i.wrt).cuffs 1280
def Ctx.cuff (c : Ctx) (n : Nat) : List CuffSend := mget c.cuffs n []
/-- The trap of R89, which names a send's L. -/
def overrunTrap (n l tick : Nat) : Trap := trapAt 7 .cuffOverrun l n tick
/-- The L that the trap of a bundle that finds nothing to consume names, of which the spec says nothing: that of the oldest
send, or 0 where none has landed (DESIGN CHOICE, log 14). -/
def Ctx.headTick (c : Ctx) (n : Nat) : Nat := ((c.cuff n).map (·.tick)).headD 0
/-- The send of a cuff whose overrun is due: the oldest that is unconsumed after its limit and has not been raised, or,
where the full buffer has lost one since, the oldest. -/
def Ctx.lateSend (c : Ctx) (n tick : Nat) : Option CuffSend :=
  let old := (c.cuff n).filter fun x => x.tick + 64 < tick
  old.find? (fun x => !x.told) <|> (if c.lost.contains n then old.head? else none)
def Ctx.cuffLate (c : Ctx) (tick : Nat) : Option Trap :=
  (List.range 3).findSome? fun n => (c.lateSend n tick).map fun x => overrunTrap n x.tick tick
/-- The overrun of a cuff that a trap names has been raised. -/
def Ctx.cuffTold (t : Trap) (tick : Nat) (c : Ctx) : Ctx :=
  let l := c.cuff t.detail
  let i := l.findIdx fun x => x.tick == t.addr && x.tick + 64 < tick && !x.told
  { c with lost := if (c.lateSend t.detail tick).isSome then c.lost.erase t.detail else c.lost
           cuffs := if l.isEmpty then c.cuffs else mput t.detail (l.modify i fun x => { x with told := true }) c.cuffs }

/-- The cuff checks (R87–R89). `anchored` says that the span begins at an anchored bundle. -/
def State.cuffGuards (s : State) (c : Ctx) (i : Issue) (anchored : Bool) : List Guard :=
  [need ((s.sends c i ++ s.consumes c i).all (s.cuffOk c) && ((s.consumes c i).isEmpty || anchored))
     (trapAt 7 .illegalBundle 0)] ++
  (s.consumes c i).map fun n => need ((c.cuff n).any fun x => x.tick <= i.tick) (overrunTrap n (c.headTick n) i.tick)

/-- The read groups whose lines the bundle's V slots take. -/
def servedBy (c : Ctx) (b : Line) : List Nat := (State.active c b).flatMap fun x => servedGroups x.2 c
/-- The lines that its read route reaches at its other enabled ports. -/
def State.readLines (s : State) (c : Ctx) (i : Issue) (served : List Nat) : List (Nat × Nat) :=
  spareLines (s.readRoute c i.rrt) i.rrow served
/-- The lines that its cuff receives write. -/
def State.cuffWrites (s : State) (c : Ctx) (i : Issue) : List (Nat × Nat) :=
  let route := s.writeRoute c i.wrt
  (s.consumes c i).flatMap fun n => (List.range 256).filterMap fun j =>
    (route.sink (1280 + 256 * n + j)).map fun b => (i.wrow + b.2, b.1)

/-- The lines that its write route takes from earlier instructions, three die cycles later: a queue destination's, a
drain's (R81, R82, R140). -/
def State.routedLines (s : State) (c : Ctx) (i : Issue) : List (Nat × Nat) :=
  let route := s.writeRoute c i.wrt
  (c.land.filter fun l => l.due == i.pos + 3).flatMap fun l =>
    match l.eff with
    | .wLines ports none _ => ports.filterMap fun p => (route.sink p.1).map fun b => (i.wrow + b.2, b.1)
    | .qLines ports => ports.filterMap fun p => (route.sink p.1).map fun b => (p.2.1, b.1)
    | _ => []

/-- Routes that the N word names exist, and the lines that they reach without an instruction of the bundle are in the
budget and on banks that work (R68, R74, R78, R80, R266, R276). -/
def State.nGuards (s : State) (c : Ctx) (i : Issue) (served : List Nat) : List Guard :=
  let loadable := (s.node c.rid).routes
  let reads := s.readLines c i served
  let writes := s.cuffWrites c i ++ s.routedLines c i
  [need (c.route loadable 0 i.rrt).isSome (trapAt 7 .permission i.rrt 0),
   need (c.route loadable 1 i.wrt).isSome (trapAt 7 .permission i.wrt 1),
   rowsGuard s c 7 (reads ++ writes), machineGuard s c 7 reads true, machineGuard s c 7 writes false]

/-- The count of R50 exceeds WAITLIM. -/
def Ctx.waitedOut (c : Ctx) (tick : Nat) : Bool := c.waitlim != 0 && c.progress + c.waitlim < tick
def waitLimitTrap (c : Ctx) (tick : Nat) : Trap := trapAt 7 .waitLimit (c.progress + c.waitlim) 0 tick

/-- The place of a rigid bundle that continues its span. -/
def Ctx.place (c : Ctx) (b : Line) : Int := c.origin + hdrStamp b
/-- The bundle continues a rigid span. -/
def Ctx.continues (c : Ctx) (b : Line) : Bool := !c.fresh && !hdrElastic b
/-- Its STAMP is above the one before it, and it lies less than 65,536 die cycles into its span (R64). -/
def Ctx.stampOk (c : Ctx) (b : Line) : Bool := c.stamp < hdrStamp b && c.pos < c.spanAt + 65536

/-- The target of the bundle's TWAIT; a target sooner than the anchor's is the one that FAR names (R388). -/
def Ctx.twaitOf (c : Ctx) (b : Line) : Option Int :=
  match slotDecode b 0 with
  | some (.ok (.twait f)) => if f.on c then some (twaitTarget f c) else none
  | some (.ok (.twaitAbs f)) => if f.on c then some (twaitTarget f c) else none
  | _ => none
/-- The timetable checks of the bundle, among them that of Table 3.3 for a header with A = 1 and E = 0, whose trap R245
chooses with the illegal bundles. -/
def Ctx.timeGuards (c : Ctx) (b : Line) (tick : Nat) : List Guard :=
  let t := c.anchorTarget b
  let sooner := c.twaitOf b |>.any (· < t)
  [need (!c.continues b || c.stampOk b) (trapAt 7 .spanOverrun (wordI (c.place b)).toNat 0 c.pos),
   need (!c.continues b || (c.pos : Int) <= c.place b) (trapAt 7 .anchorLate (wordI (c.place b)).toNat 0 c.pos),
   need (!hdrAnchored b || sooner || (tick : Int) <= t + c.tguard) (trapAt 7 .lateTick (wordI t).toNat 0 tick),
   need (hdrElastic b || !hdrAnchored b) (trapAt 7 .illegalAnchor (wordI t).toNat 0 tick),
   need (!c.waitedOut tick) (waitLimitTrap c tick)] ++
  (if hdrAnchored b then [await_ (t <= tick) (trapAt 7 .illegalAnchor (wordI t).toNat 0 tick)] else [])

/-! ## Destinations that slots of one bundle share (R147, R428) -/

def meets (l m : List (Nat × Nat)) : Bool := l.any m.contains
def sharedGuard (c : Ctx) (l : List (Nat × Instr)) : Guard :=
  let dest := fun n => (l.filter fun x => x.1 == n).flatMap fun x => vdests x.2 c
  let recv := l.filterMap fun x => match x.2 with
    | .xrecv f => some (physV c.iss.rrb f.v.toNat)
    | _ => none
  .first [need (!meets (dest 1) (dest 2)) (trapAt 2 .illegalBundle 0),
          need (!(recv.any fun r => (dest 1 ++ dest 2).any fun d => d.1 == r)) (trapAt 6 .illegalBundle 0)]

/-! ## The outcome of a look at the bundle -/

/-- The traps of late units stand at the bundle that issues, among the other conditions of the X slot (R242). -/
def pendingAt (c : Ctx) : List Guard := c.late.map fun t => .trap t
/-- The oldest deferred store fault, at an elastic bundle (R162). -/
def deferredGuard (c : Ctx) (elastic : Bool) : Guard :=
  match c.deferred with
  | d :: rest =>
    if elastic then .trap { trapAt 0 d.fault.cause d.fault.ptr.toNat d.fault.detail d.pc with kind := .deferred, count := rest.length }
    else .go
  | [] => .go

/-- The checks of a look at a bundle: those that end a wait, and those that its issue makes. -/
structure Look where
  now   : List Guard
  issue : List Guard
def Guard.traps : Guard → Bool
  | .trap _ => true
  | _ => false
def Guard.waits : Guard → Bool
  | .wait _ => true
  | _ => false
/-- A TWAIT past its limit ends the bundle's wait as an anchor does (R388). -/
def Guard.isLate : Guard → Bool
  | .trap t => t.cause == .lateTick
  | _ => false
/-- The traps that end a wait: a deferred fault, the encoding, the time, a send that is late in its cuff (log 14). -/
def Look.prompt (l : Look) : List Guard := (l.now ++ l.issue.filter Guard.isLate).filter Guard.traps
/-- The choice of R245. An elastic bundle waits while one of its waits stands; the checks of its issue are then those of
the die cycle in which none stands any more (R345). -/
def Look.choose (elastic : Bool) (l : Look) : Guard :=
  let all := l.now ++ l.issue
  if !elastic then
    Guard.first (all.map fun g => match g with
      | .wait t => .trap t
      | g => g)
  else if all.any Guard.waits then Guard.first (l.prompt ++ all.filter Guard.waits)
  else Guard.first all

/-- The checks of the bundle with some of its instructions, for a state whose slot holds it as the bundle being issued. -/
def State.guardsOf (s : State) (b : Line) (l : List (Nat × Instr)) : Look :=
  let c := s.curCtx
  let i := c.iss
  let anchored := i.anchored || (c.continues b && c.anchorOk)
  let late := match c.cuffLate i.tick with
    | some t => Guard.trap t
    | none => .go
  { now := [deferredGuard c i.elastic] ++ encodingGuards b ++ c.timeGuards b i.tick ++ [late]
    issue := s.cuffGuards c i anchored ++ s.nGuards c i (servedBy c b) ++ [sharedGuard c l] ++ slotGuards s (l.map fun x => x.2) ++
      pendingAt c }
/-- All its checks. -/
def State.lookGuards (s : State) (b : Line) : Look := s.guardsOf b (State.active s.curCtx b)

/-- A YIELD comes to its own wait, that for the gang, once every other check of its bundle lets it issue (R429). -/
def State.comesToYield (s : State) (b : Line) : Bool :=
  let g := s.guardsOf b ((State.active s.curCtx b).filter fun x => x.1 != 0)
  (g.now ++ g.issue).all (· == .go)
/-- What the instructions of an elastic bundle do while it waits, in slot order. -/
def arrivals (s : State) (b : Line) : List Upd :=
  (State.active s.curCtx b).foldl (fun (u : List Upd) x =>
    let s := s.commit u
    u ++ match x.2 with
    | .yield _ => if s.comesToYield b then slotArrive x.2 s else []
    | i => slotArrive i s) []

/-! ## Issue -/

/-- Names rotate (R97). -/
def Ctx.rotate (c : Ctx) : Ctx := { c with rrb := (c.rrb + 511) % 512, grb := (c.grb + 31) % 32 }

/-- The index vector of the next pass, and the deltas of the level that moved. -/
def loopAdvance : List LoopLevel → List Nat → List Nat × List LoopDelta
  | l :: ls, i :: is =>
    if i + 1 < l.count then ((i + 1) :: is, l.deltas)
    else let r := loopAdvance ls is; (0 :: r.1, r.2)
  | _, is => (is, [])

/-- After a body bundle: the next one of the pass, the next pass, or the exit (R157). -/
def Ctx.loopNext (l : Loop) (c : Ctx) : Ctx :=
  if l.at_ + 1 < l.body.length then { c with loop := some { l with at_ := l.at_ + 1 }, pc := c.pc + 64 }
  else
    let p := l.pass
    let start := c.iss.pos + c.iss.idle + 1
    let r := if p + 1 < l.total then loopAdvance l.levels l.idx else (l.idx, [])
    let c := (c.pushAll (r.2.map fun d => (start, phDelta, .loopDelta d))).setG (physG c.grb 32) (p + 1 < l.total)
    if p + 1 < l.total + l.stages - 1 then
      { c with loop := some { l with at_ := 0, pass := p + 1, idx := r.1 }, pc := l.pc, origin := c.origin + l.len
               spanAt := c.spanAt + l.len, stamp := hdrStamp (l.body.headD 0) - 1 }
    else { c with loop := none, pc := l.pc + 64 * l.body.length }

/-- The bundle issues: its place in the span, ALAST, what follows it. An elastic bundle and the entry bundle stand at
position 0 of their span (R272). -/
def Ctx.issued (b : Line) (c : Ctx) : Ctx :=
  let i := c.iss
  let begins := !c.continues b
  let stamp := if i.elastic || c.nhist.isEmpty then 0 else hdrStamp b
  let c1 := { c with
    nhist := i :: c.nhist.take 7
    earliest := i.pos + i.idle + 1
    origin := if begins then (i.pos : Int) - stamp else c.origin
    spanAt := if begins then i.pos else c.spanAt
    anchorOk := if begins then i.anchored else c.anchorOk
    stamp := stamp
    fresh := false
    alast := if i.anchored then (i.target : Int) else c.alast
    wait := { c.wait with active := false }
    acqUntil := []
    progress := if i.wrt != 0 then i.tick else c.progress }
  let c2 := if hdrRot b then c1.rotate else c1
  match c.looping with
  | some l => c2.loopNext l
  | none => { c2 with pc := i.pc + 64 }

/-- The oldest send of a cuff is consumed; its lines are presented at issue + 3 (R88). -/
def Ctx.consume (n : Nat) (c : Ctx) : Ctx :=
  match c.cuff n with
  | x :: rest =>
    { c with cuffs := mput n rest c.cuffs }.later 3 phPort
      (.wLines ((List.range 256).map fun j => (1280 + 256 * n + j, mget x.lines j 0)) (some c.iss.wrt) c.iss.wrow)
  | [] => c

/-- The bundle's own effects, then those of its slots in slot order. -/
def issueUpds (s : State) (b : Line) : List Upd :=
  let c := s.curCtx
  let i := c.iss
  [.slot s.curKey fun c =>
      let c := if i.rrt == 0 then c else c.later 1 phRead (.cuffSend i.rrt i.rrow (servedBy c b))
      let c := (s.consumes c i).foldl (fun c n => c.consume n) c
      c.issued b,
   .node c.rid fun n => { n with newAct := false },
   .micro ((State.active c b).map fun x => x.2)]

/-- A machine trap logs the errors it met (R74): those of its line, or of the lines of a loop descriptor, whose address FAR
holds (R155), in ascending order. -/
def machineNote (s : State) (c : Ctx) (t : Trap) : List Upd :=
  if t.cause == .machine && t.kind == .atBundle && spaceOf (word t.addr) == 0 then
    let s := if t.slot == 0 then s.errorsAhead 2 else s
    let notes := fun i => let off := t.addr % 2 ^ 54 + 64 * i; eccNote s c (off / 2 ^ 17) (off / 64 % 2048)
    match slotDecode (s.bundle c) 0 with
    | some (.ok (.loop _)) => (List.range (if t.slot == 0 then 8 else 1)).flatMap notes
    | _ => notes 0
  else []

/-- Reads of WAITW and PSTAT requests of a slot whose bundle no longer waits are dropped; a wait repeats them. -/
def dropAsked (s : State) (k : SlotKey) : List Upd :=
  (s.reqs.filter fun r => r.key == k && r.owner.isNone &&
    match r.kind with
    | .load _ _ => r.lq.isNone
    | .pstat _ _ => true
    | k => ReqKind.isAlloc k && (askFault (some r)).isSome).map fun r => .dropReq r.id

/-- The trap that the bundle takes. -/
def trapUpds (s : State) (t : Trap) : List Upd :=
  let c := s.curCtx
  let clear : Ctx → Ctx := fun c =>
    let c := { c with deferred := if t.kind == .deferred then [] else c.deferred
                      pending := if c.pending == some t then none else c.pending
                      late := c.late.erase t }
    if t.cause == .cuffOverrun then c.cuffTold t (s.dieTick c.die) else c
  (if c.late.contains t then [] else xTrapUpds s t) ++ machineNote s c t ++ dropAsked s s.curKey ++
  [c.unyield, .node c.rid (fun n => { n with newAct := false }), .slot s.curKey clear] ++ takeTrap (s.commit [.slot s.curKey clear]) s.curKey t

/-- The slot is at the issue stage in its present die cycle, and has not been looked at in it. -/
def State.atStage (s : State) : Bool :=
  let c := s.curCtx
  (s.die s.cur).run.isSome && c.mode == .run && c.tried != c.pos + 1 && s.micro.isEmpty

/-- The trap of kind after or engine that stands before the next bundle. -/
def afterTrap (c : Ctx) : Option Trap := c.pending

/-- The next bundle waits for its place: an earlier bundle's IDLE or transfer, or its STAMP. -/
def Ctx.early (c : Ctx) (b : Line) : Bool :=
  c.pos < c.earliest || (c.continues b && c.stampOk b && (c.pos : Int) < c.place b)

/-- One look at the issue stage in a die cycle. A trap of kind after or engine is taken in the die cycle of its bundle's
issue and IDLE (R249). What an acquire of an earlier bundle holds is not at the issue stage: its late-tick is raised once
the acquire is complete (DESIGN CHOICE, log 14). What a bundle does while it waits (R62; for MSTOP and END: R141, R33) has
happened and stands, whatever trap the bundle then raises (DESIGN CHOICE, log 14). -/
def stageUpds (s : State) : List Upd :=
  let k := s.curKey
  let c := s.curCtx
  let tried : Upd := .slot k fun c => { c with tried := c.pos + 1 }
  match afterTrap c with
  | some t => if c.pos < c.trapPos t then [tried] else tried :: trapUpds (s.apply tried) t
  | none =>
    let b := s.bundle c
    let tick := s.dieTick c.die
    if c.early b then [tried]
    else if !(c.acqUntil.all (s.acquireMet k)) then
      if c.waitedOut tick then tried :: trapUpds (s.apply tried) (waitLimitTrap c tick) else [tried]
    else if c.looping.isNone && s.bmemBytes k < c.pc + 64 then
      tried :: trapUpds (s.apply tried) (trapAt 7 .permission c.pc)
    else
      let arrive : Upd := .slot k fun c =>
        { c with iss := s.issueOf c b, tried := c.pos + 1
                 wait := if c.wait.active then c.wait
                         else { Wait.blank with active := true, pos := c.pos, tick := tick } }
      let s1 := s.apply arrive
      let acts := if !hdrElastic b || !(s1.lookGuards b).prompt.isEmpty then [] else arrivals s1 b
      let s2 := s1.commit acts
      match (s2.lookGuards b).choose (hdrElastic b) with
      | .go => arrive :: acts ++ issueUpds s2 b
      | .wait _ => arrive :: acts
      | .trap t =>
        arrive :: acts ++ [.slot k fun x => { x with iss := c.iss }] ++
        trapUpds (s2.apply (.slot k fun x => { x with iss := c.iss })) t

/-- An acquire that holds the slot's bundles, once it is complete, and then the look. -/
def lookUpds (s : State) : List Upd :=
  let k := s.curKey
  let c := s.curCtx
  if c.acqUntil.isEmpty || !c.acqUntil.all (s.acquireMet k) then stageUpds s
  else
    let done : Upd := .slot k (Ctx.acquireDone (s.dieTick c.die))
    done :: stageUpds (s.apply done)

/-- The bundle that the slot of the die in focus has reached. -/
def State.stageBundle (s : State) : Line := s.bundle s.curCtx
/-- It waits at its elastic point. -/
def State.waitsAtStage (s : State) : Bool := s.atStage && s.curCtx.wait.active && (afterTrap s.curCtx).isNone

/-- BUNDLE_ISSUE (R29): an unanchored bundle at the issue stage, or a trap that stands before it, in a slot that has halted
too (R251). -/
def execBundleIssue (s : State) : Host.Outcome State Fault Refusal :=
  if s.curCtx.haltTrap.isSome then s.by_ (haltedUpds s s.curKey)
  else if s.atStage && ((afterTrap s.curCtx).isSome || !hdrAnchored s.stageBundle) then s.by_ (lookUpds s) else s.same
/-- ANCHORED_BUNDLE_ISSUE (R62): an anchored bundle at the issue stage. -/
def execAnchoredBundleIssue (s : State) : Host.Outcome State Fault Refusal :=
  if s.atStage && hdrAnchored s.stageBundle && (afterTrap s.curCtx).isNone then s.by_ (lookUpds s) else s.same
/-- LATE_TICK_EXPIRY (R62): an anchored bundle still waits after its target and TGUARD. -/
def execLateTickExpiry (s : State) : Host.Outcome State Fault Refusal :=
  let c := s.curCtx
  if s.waitsAtStage && hdrAnchored s.stageBundle && c.anchorTarget s.stageBundle + c.tguard < s.dieTick c.die then
    s.by_ (lookUpds s)
  else s.same
/-- WAIT_LIMIT (R50): a bundle still waits after WAITLIM ticks without a progress event. -/
def execWaitLimit (s : State) : Host.Outcome State Fault Refusal :=
  if s.waitsAtStage && s.curCtx.waitedOut (s.dieTick s.curCtx.die) then s.by_ (lookUpds s) else s.same
/-- CUFF_OVERRUN (R89): a bundle still waits when a send has outlived its limit. -/
def execCuffOverrun (s : State) : Host.Outcome State Fault Refusal :=
  if s.waitsAtStage && (s.curCtx.cuffLate (s.dieTick s.curCtx.die)).isSome then s.by_ (lookUpds s) else s.same

/-- CUFF_LANDING (R87, R89): a send reaches the landing buffer at its landing tick; into a full one it is discarded. -/
def execCuffLanding (die cuff : Nat) (s : State) : Host.Outcome State Fault Refusal :=
  let d := s.die die
  match d.cuffIn.find? fun x => x.1 % 4 == cuff % 4 && x.2.tick <= s.gtc (diePkg die) with
  | none => s.same
  | some x =>
    s.by_ [.die die (fun d => { d with cuffIn := d.cuffIn.erase x }),
      .slot (x.1 / 4) fun c =>
        if (c.cuff (cuff % 4)).length < 136 then { c with cuffs := mmod c.cuffs (cuff % 4) [] fun l => l ++ [x.2] }
        else if c.lost.contains (cuff % 4) then c else { c with lost := c.lost ++ [cuff % 4] }]

/-- WAITW_REREAD (R425): while WAITW waits, it reads its word again. -/
def execWaitwReread (s : State) : Host.Outcome State Fault Refusal :=
  let c := s.curCtx
  if c.wait.active && c.wait.sent && c.mode == .run then
    match slotDecode s.stageBundle 0 with
    | some (.ok (.waitw f)) => if f.on c then s.by_ (waitwRead f s) else s.same
    | _ => s.same
  else s.same

end Sys2Proof.Machine
end

