-- ==== Sys2Proof/Machine/Home.lean ====
section
/-! DEFINITION. Requests at their homes and their answers (R162, R165, R168, R169, R182–R185, R206, R227, R228, R237),
router merges (R229, R230), crown allocations (R201–R208), barriers and step groups (R215–R221). -/

namespace Sys2Proof.Machine

/-! ## Mergeable CREDs (R229, R230) -/

/-- The reduction window of a partition that holds an address, with its type and operation. -/
def State.inWindow (s : State) (part op ty : Nat) (p : Word) : Bool :=
  s.windows.any fun e => e.1 / 16 == part && e.2.ty == ty && e.2.op == op &&
    ptrPlain e.2.base <= ptrPlain p && ptrPlain p + credSize ty <= ptrPlain e.2.base + 64 * e.2.size
/-- A CRED that a router may fold: no .ord, a window of its type and operation, another package, no resend. -/
def State.mergeable (s : State) (r : Req) : Bool :=
  match r.kind with
  | .cred op ty _ ord =>
    !ord && r.resends == 0 && s.destPkg r.part (diePkg r.die) r.ptr != diePkg r.die && s.inWindow r.part op ty r.ptr
  | _ => false
/-- A router of the row holds the request in a merge. -/
def State.folded (s : State) (r : Req) : Bool :=
  s.pkgs.any fun e => e.2.merges.any fun m => m.folded.any fun x => x.1 == r.src && x.2.1 == r.seq
/-- A request of a router's own merge. -/
def Req.ofMerge (r : Req) : Option Nat := match r.owner with
  | some (3, m) => some m
  | _ => none
/-- The first router of its path takes a mergeable CRED. -/
def State.routed (s : State) (r : Req) : Bool :=
  s.mergeable r && r.ofMerge.isNone && (s.reach r.party r.ptr r.kind.need).addr?.isSome

/-! ## Arrival at a home (R182) -/

/-- Requests that the allocator and the barrier root answer. -/
def ReqKind.toHome : ReqKind → Bool
  | .alloc _ _ _ _ => false
  | .query _ => false
  | .free _ => false
  | .pstat _ _ => false
  | _ => true
/-- A request arrives: at a peer's banks through its spine, else at its home. -/
def homeReq (s : State) (r : Req) (damage : Nat) : List Upd :=
  if !r.kind.toHome || !s.sendable r || s.blocked r || s.folded r || s.routed r then []
  else if spaceOf r.ptr == 1 && damage == 0 then
    if r.open_ then peerAsk s r.party r.ptr (Ref.req r.id).code else []
  else s.arrive r damage

/-- What an operation's own atomic request is: CATOM, CRED, and CPUTF's flag increment. -/
def opRequest (s : State) (d : DieId) (ch : Nat) (o : CopyOp) : List Upd :=
  let go := fun kind ptr stage => copyAsks s d ch o none
    (s.newReq o.key (ch + 1) kind ptr 0 none (some (ch, o.id)) ++ [modOp d ch o.id fun o => { o with stage := stage }])
  let free := fun (p : Word) n => !s.mustWait d ch o p n
  if !s.startable d ch o || o.fault.isSome then []
  else
    match o.kind with
    | .atom =>
      if o.stage == 2 && spaceOf o.dst != 0 && free o.dst o.size then go (.atom o.aop o.size o.opb o.opc) o.dst 3 else []
    | .red => if o.stage == 0 && free o.dst (credSize o.size) then go (.cred o.aop o.size o.opb o.ord) o.dst 1 else []
    | .putf =>
      if o.stage == 0 && spaceOf o.flag != 0 && o.allWritten && free o.flag 8 then go (.red 2 8 1) o.flag 1 else []
    | _ => []

/-- A far-side piece of an operation goes to its home, or its atomic request leaves. -/
def homeItem (s : State) (d : DieId) (ch : Nat) (o : CopyOp) (k damage : Nat) : List Upd :=
  match o.kind with
  | .atom => opRequest s d ch o
  | .red => opRequest s d ch o
  | _ =>
    let us := copyHome s d ch o k damage
    let ref := (Ref.item d ch o.id k).code
    copyAsks s d ch o (some ref)
      (if spaceOf (o.farPtr k) == 1 && damage == 0 && !us.isEmpty then peerAsk s (o.party s d ch) (o.farPtr k) ref else us)
/-- The next piece of the output of a die's encoder goes to its home. -/
def encItem (s : State) (d : DieId) (damage : Nat) : List Upd :=
  match s.encHead? d with
  | none => []
  | some e =>
    match e.writing with
    | none => []
    | some p =>
      if spaceOf p == 0 then []
      else if spaceOf p == 1 && damage == 0 then
        if (encPut s d e e.outAt 0 false).isEmpty then [] else peerAsk s (e.party s d) p (Ref.item d 2 e.id e.outAt).code
      else encPut s d e e.outAt damage false

/-- The operation at a place of a channel's queue. -/
def State.opAt? (s : State) (d : DieId) (ch i : Nat) : Option CopyOp := ((s.die d).chan ch)[i]?

/-- HOME_ACCESS (R182): bits [2:0] of `chan`: for channel 0 or 1 the operation at a place of its queue and the number of a
far-side piece, for 3 the encoder's next piece, else a request; `item` also carries what has been damaged on the way there,
and `chan` what is damaged of a piece's answer (log 6). -/
def execHomeAccess (die chan item : Nat) (s : State) : Host.Outcome State Fault Refusal :=
  let ch := chan % 8
  let damage := item / 2 ^ 32 % 2 ^ 32
  if ch < 2 then
    match s.opAt? die ch (item / 2 ^ 28 % 16) with
    | some o => s.by_ (homeItem s die ch o (item % 2 ^ 28) (damage + chan / 8 * 2 ^ 32))
    | none => s.same
  else if ch == 3 then s.by_ (encItem s die damage)
  else
    match s.req? (item % 2 ^ 32) with
    | some r => s.by_ (homeReq s r damage)
    | none => s.same

/-- PEER_BANK_ACCESS (R72): an access to a peer's banks waits for that die's spine; the operand is a request, or from
2⁶³ up a piece of a copy (log 6). -/
def execPeerBankAccess (_die req : Nat) (s : State) : Host.Outcome State Fault Refusal :=
  if req / 2 ^ 63 == 0 then
    match s.req? req with
    | some r => if spaceOf r.ptr == 1 then s.by_ (homeReq s r 0) else s.same
    | none => s.same
  else
    let d := req / 2 ^ 40 % 2 ^ 13
    let ch := req / 2 ^ 36 % 4
    let k := req % 2 ^ 28
    if 2 <= ch then s.by_ (encItem s d 0)
    else match s.opAt? d ch (req / 2 ^ 28 % 16) with
    | some o => if spaceOf (o.farPtr k) == 1 then s.by_ (homeItem s d ch o k 0) else s.same
    | none => s.same

/-- CPUTF_FLAG_INCREMENT (R172, R195): when all data has performed, the oldest waiting CPUTF increments its far flag. -/
def execCputfFlagIncrement (die chan : Nat) (s : State) : Host.Outcome State Fault Refusal :=
  let ch := chan % 2
  match ((s.die die).chan ch).find? fun o => o.kind == .putf && !(opRequest s die ch o).isEmpty with
  | some o =>
    let s' := s.commit (opRequest s die ch o)
    match s'.req? s.nextReq with
    | some r => s'.by_ (homeReq s' r 0)
    | none => s.same
  | none => s.same

/-! ## Answers (R103, R162, R169, R227) -/

/-- What an answered request tells its operation. -/
def returnOp (s : State) (d : DieId) (ch id : Nat) (st : ReqState) : List Upd :=
  match s.op? d ch id with
  | none => []
  | some o =>
    match st with
    | .performed v =>
      [modOp d ch id fun o => if o.kind == .atom then { o with opb := v, stage := 4 } else { o with stage := 2 }]
    | .failed f => [modOp d ch id (CopyOp.fail (if o.kind == .putf then o.reads.total else 0) f)]
    | _ => []

/-- A read of WAITW comes back (R425). -/
def returnWait (s : State) (r : Req) (st : ReqState) : List Upd :=
  let c := s.slot r.key
  if !c.wait.active || c.iss.pc != r.pc then []
  else
    match st with
    | .failed f => [.slot r.key fun c => { c with wait := { c.wait with fault := some f } }]
    | .performed v =>
      match slotDecode (s.bundle c) 0 with
      | some (.ok (.waitw f)) =>
        if SF.satisfied f c v then [.slot r.key fun c => { c with wait := { c.wait with word := some v, lock := 0 } }]
        else
          let at_ := match s.homeAt r.party r.ptr with
            | .ok a => a
            | _ => 0
          [.slot r.key fun c => { c with wait := { c.wait with
            lock := if SF.wlock f then v.toNat % 2 ^ 32 else 0, lockAt := at_ } }]
      | _ => []
    | _ => []

/-- A load-queue entry is filled. -/
def fillEntry (r : Req) (e : Nat) (st : ReqState) : List Upd :=
  match st with
  | .performed v => [.slot r.key fun c => c.fillLq e (.value v)]
  | .failed f => [.slot r.key fun c => c.fillLq e (.fault f)]
  | _ => []
/-- A store-queue entry leaves; a fault is deferred (R162). -/
def leaveSq (r : Req) (st : ReqState) (c : Ctx) : Ctx :=
  let c := { c with sq := c.sq.filter fun i => i != r.id }
  match st with
  | .failed f => { c with deferred := c.deferred ++ [{ fault := f, pc := r.pc }] }
  | _ => c

/-- The answer of a request reaches its source. -/
def returnReq (s : State) (r : Req) (st : ReqState) : List Upd :=
  match r.owner with
  | some (3, _) => [setReq r.id st]
  | some (ch, id) => returnOp s r.die ch id st ++ s.answerReq r
  | none =>
    (match r.kind, r.lq with
     | .load _ _, some e => fillEntry r e st
     | .atom _ _ _ _, some e => fillEntry r e st
     | .load _ _, none => returnWait s r st
     | .store _ _, _ => [.slot r.key (leaveSq r st)]
     | .red _ _ _, _ => [.slot r.key (leaveSq r st)]
     | _, _ => []) ++ s.answerReq r

/-- The request has been performed or has failed. -/
def Req.answered (r : Req) : Bool :=
  match r.st with
  | .performed _ => true
  | .failed _ => true
  | _ => false
/-- Requests whose answer carries data. -/
def ReqKind.returns : ReqKind → Bool
  | .load _ _ => true
  | .atom _ _ _ _ => true
  | _ => false
/-- The fault of a response that fails the check of R227. -/
def mismatch (r : Req) : ReqState := .failed { cause := .checkMismatch, ptr := r.ptr, detail := 0 }

/-- The router that holds, or has answered, a merge with the request. -/
def State.merger? (s : State) (r : Req) : Option PkgId :=
  (s.pkgs.find? fun e => e.2.merges.any fun m => m.folded.any fun x => x.1 == r.src && x.2.1 == r.seq).map fun e => e.1
/-- The package that answers a request: that of the router that folded it (R230), or of its home. -/
def State.answerer (s : State) (r : Req) : PkgId :=
  match s.merger? r with
  | some p => p
  | none => match s.homeAt r.party r.ptr with
    | .ok a => homePkg a
    | _ => s.destPkg r.part (diePkg r.die) r.ptr
/-- A response travels like its request (R222): carried, held, or cut off, where its access completes with circuit-down
(R226); the state in which the answer reaches its source. -/
def State.answerOn (s : State) (r : Req) : Option ReqState :=
  match s.path (s.answerer r) (diePkg r.die) with
  | .carried => some r.st
  | .held _ _ _ => none
  | .cut => match r.st with
    | .failed f => some (.failed f)
    | _ => some (.failed { cause := .circuitDown, ptr := r.ptr, detail := 0 })
/-- A response that a link holds is discarded with it (R226). -/
def State.answerHeld (s : State) (r : Req) : List Upd :=
  holdOn (s.path (s.answerer r) (diePkg r.die)) (Ref.answer r.id).code

/-- LOAD_RETURN (R169, R227): the value of a request returns; `req` also carries what has been damaged (log 6). -/
def execLoadReturn (req : Nat) (s : State) : Host.Outcome State Fault Refusal :=
  match s.req? (req % 2 ^ 32) with
  | some r =>
    if r.answered && r.kind.returns && r.owner.all (·.1 != 3) then
      let bytes := match r.st with
        | .performed v => toBytes r.kind.size v.toNat
        | _ => []
      let good := codePasses (checkCode r.ptr r.src r.seq bytes) (req / 2 ^ 32)
      match s.answerOn r with
      | some st => s.by_ (returnReq s r (if good then st else mismatch r))
      | none => s.by_ (s.answerHeld r)
    else s.same
  | none => s.same

/-- STORE_ACK (R162, R169): a write is acknowledged. -/
def execStoreAck (req : Nat) (s : State) : Host.Outcome State Fault Refusal :=
  match s.req? (req % 2 ^ 32) with
  | some r =>
    if r.answered && !r.kind.returns && r.kind.toHome && r.owner.all (·.1 != 3) then
      match s.answerOn r with
      | some st => s.by_ (returnReq s r st)
      | none => s.by_ (s.answerHeld r)
    else s.same
  | none => s.same

/-! ## Resends and time limits (R207, R228, R237) -/

/-- The failover of its allocation holds a request. -/
def State.held (s : State) (from_ : PkgId) (part : Nat) (p : Word) : Bool :=
  spaceOf p == 3 && s.crownReach part from_ p == .wait
/-- A numbered request that has left its source and has no answer; a hold stops its timers. -/
def State.unanswered (s : State) (r : Req) : Bool :=
  r.kind.numbered && s.sendable r && !s.held (diePkg r.die) r.part r.ptr
def State.age (s : State) (r : Req) : Nat := s.gtc (diePkg r.die) - r.sent
def State.resendDue (s : State) (r : Req) : Bool := s.unanswered r && r.resends < 2 && 10000 * (r.resends + 1) <= s.age r
def State.timeoutDue (s : State) (r : Req) : Bool := s.unanswered r && 29000 <= s.age r

/-- ATOMIC_RESEND (R228). -/
def execAtomicResend (req : Nat) (s : State) : Host.Outcome State Fault Refusal :=
  match s.req? req with
  | some r => if s.resendDue r then s.by_ [.req req fun r => { r with resends := r.resends + 1 }] else s.same
  | none => s.same

/-- ATOMIC_TIMEOUT (R228): the request completes with the circuit-down fault. -/
def execAtomicTimeout (req : Nat) (s : State) : Host.Outcome State Fault Refusal :=
  match s.req? req with
  | some r =>
    if s.timeoutDue r then s.by_ (returnReq s r (.failed { cause := .circuitDown, ptr := r.ptr, detail := 0 })) else s.same
  | none => s.same

/-- The packages that are present. -/
def State.packages (s : State) : List PkgId := (s.pkgs.filter fun e => e.2.present).map fun e => e.1
/-- RESULT_CACHE_EXPIRY (R228, R230): a cached result, and the records of answered merges, go after 30 µs; a survivor keeps
its results during the failover (R207). -/
def execResultCacheExpiry (pkg src seq : Nat) (s : State) : Host.Outcome State Fault Refusal :=
  let keeps := s.keepsCache pkg
  s.by_ [.pkg pkg fun k =>
    { k with
      cache := k.cache.filter fun e => keeps || !(e.src == src && e.seq == seq && e.tick + 30000 <= k.gtc)
      merges := k.merges.filter fun m =>
        !(m.answered.any (fun t => t + 30000 <= k.gtc) && m.folded.any fun x => x.1 == src && x.2.1 == seq) }]

/-- A page walk needs a circuit that is not up to a table's stack (R12, R168). -/
def State.walkBlocked (s : State) (d : DieId) (part space off : Nat) : Bool :=
  (s.walkStacks part (diePkg d) space off).any fun st => !s.linked (diePkg d) (diePhys d) (st / 2)
/-- An access waits for a photonic circuit that is not up, its own or its page walk's. -/
def State.lacksCircuit (s : State) (pt : Party) (p : Word) (need : Need) : Bool :=
  let q := s.destPkg pt.part (diePkg pt.die) p
  match s.reach pt p need with
  | .wait => !s.held (diePkg pt.die) pt.part p && s.pathOf pt q == .carried
  | .walk d space page => s.walkBlocked d pt.part space (page * 4096)
  | _ => false
/-- Time limits of such a wait, of a request, of a piece, and of an encoder command's output. -/
def State.circuitLate (s : State) (pkg tick : Nat) : Bool := tick + 10000 <= s.gtc pkg
def State.reqLate (s : State) (r : Req) : Bool :=
  r.open_ && r.kind.toHome && s.circuitLate (diePkg r.die) r.issued && s.lacksCircuit r.party r.ptr r.kind.need
def State.pieceLate (s : State) (d : DieId) (ch : Nat) (o : CopyOp) (k : Nat) : Bool :=
  let rd := o.reads.count != 0 && spaceOf o.src != 0
  k < (if rd then o.reads.count else o.writes.count) && !o.farDone.contains k && spaceOf (o.farPtr k) != 0 &&
  o.fault.isNone && s.circuitLate (diePkg d) o.tick && s.lacksCircuit (o.party s d ch) (o.farPtr k) (if rd then .read else .write)
/-- The index of a far-side piece among the source bytes. -/
def CopyOp.pieceAt (o : CopyOp) (k : Nat) : Nat :=
  if o.reads.count != 0 && spaceOf o.src != 0 then (o.reads.piece k).row * o.reads.len + (o.reads.piece k).start
  else let p := o.writes.piece k; (o.need p.row p.start p.len).1
def State.encLate (s : State) (d : DieId) (e : EncCmd) : Bool :=
  e.writing.any fun p => s.circuitLate (diePkg d) e.tick && s.lacksCircuit (e.party s d) p .write

/-- CIRCUIT_WAIT_TIMEOUT (R237): an access still waits for a circuit 10 µs after its issue; operand as for
PEER_BANK_ACCESS, with channel 2 for the encoder (log 6). -/
def execCircuitWaitTimeout (req : Nat) (s : State) : Host.Outcome State Fault Refusal :=
  let d := req / 2 ^ 40 % 2 ^ 13
  let ch := req / 2 ^ 36 % 16
  let k := req % 2 ^ 28
  if req / 2 ^ 63 == 0 then
    match s.req? req with
    | some r => if s.reqLate r then s.by_ (failReq r .circuitDown) else s.same
    | none => s.same
  else if ch == 2 then
    match (s.die d).encQ[req / 2 ^ 28 % 16]? with
    | some e =>
      if s.encLate d e then s.by_ [encFail d e.id { cause := .circuitDown, ptr := e.writing.getD e.out, detail := 0 }]
      else s.same
    | none => s.same
  else
    match s.opAt? d ch (req / 2 ^ 28 % 16) with
    | some o => if s.pieceLate d ch o k then s.by_ [failAt d ch o (o.pieceAt k) .circuitDown (o.farPtr k)] else s.same
    | none => s.same

/-! ## Page walks (R165, R168) -/

/-- An access that waits, named by a reference, completes with a fault. -/
def refFail (c : Cause) (s : State) (ref : Nat) : List Upd :=
  match Ref.ofCode ref with
  | .req i => match s.req? i with
    | some r => if r.open_ then failReq r c else []
    | none => []
  | .answer i => match s.req? i with
    | some r => if r.answered then failReq r c else []
    | none => []
  | .item d ch op k =>
    if ch == 2 then
      match (s.die d).encQ.find? fun e => e.id == op with
      | some e => [encFail d op { cause := c, ptr := (e.outPiece k).1, detail := 0 }]
      | none => []
    else
      match s.op? d ch op with
      | some o => if o.farDone.contains k then [] else [failAt d ch o (o.pieceAt k) c (o.farPtr k)]
      | none => []
/-- An entry joins a translation cache of 16,384, one for each page, the oldest leaving. -/
def Die.cacheAdd (e : TcEntry) (k : Die) : Die :=
  let l := k.tcache.filter fun x => !(x.part == e.part && x.space == e.space && x.vbase == e.vbase && x.size == e.size)
  { k with tcache := (if l.length < 16384 then l else l.drop 1) ++ [e] }
/-- PAGE_WALK (R165, R168): a walk under way finishes, over circuits that are up; a table on a failed stack is a machine
fault (R266). -/
def execPageWalk (die part space vpage : Nat) (s : State) : Host.Outcome State Fault Refusal :=
  match (s.die die).walks.find? fun w => w.part == part && w.space == space && w.page == vpage with
  | none => s.same
  | some w =>
    let off := vpage * 4096
    let done : Upd := .die die fun k => { k with walks := k.walks.erase w }
    if (s.walkStacks part (diePkg die) space off).any (s.pkg (diePkg die)).hbmOut.getLsbD then
      s.by_ (done :: w.waiters.flatMap (refFail .machine s))
    else if s.walkBlocked die part space off then s.same
    else match s.walkNow part (diePkg die) space off with
    | some (pa, size, perm) =>
      s.by_ [done, .die die (Die.cacheAdd
        { part := part, space := space, vbase := off / size * size, pbase := pa, size := size,
          perm := BitVec.ofNat 3 perm })]
    | none => s.by_ (done :: w.waiters.flatMap (refFail .translation s))

/-! ## Router merges (R230) -/

/-- The packages whose routers a request passes on the way fixed at its injection (R223), from its source on. -/
def Req.routers (r : Req) : List PkgId := diePkg r.die :: (r.way.getD []).map fun h => h.2.2.2

/-- ROUTER_CRED_RECEIVE (R230): a router on the way opens a merge for the address or folds into one that it holds. -/
def execRouterCredReceive (pkg req : Nat) (s : State) : Host.Outcome State Fault Refusal :=
  match s.req? req with
  | none => s.same
  | some r0 =>
    let r := s.inject r0
    let own := r.ofMerge.isSome && diePkg r.die == pkg
    if s.mergeable r && r.open_ && !s.folded r && s.sendable r && !own && r.way.any (s.along · == .carried) &&
        r.routers.contains pkg then
      match r.kind with
      | .cred op ty v _ =>
        let me := (r.src, r.seq, r.die, (r.owner.getD (0, 0)).1, (r.owner.getD (0, 0)).2)
        let same := fun (m : Merge) =>
          !m.sent && ptrPlain m.addr == ptrPlain r.ptr && m.part == r.part && m.op == op && m.ty == ty
        s.by_ [.req r.id fun x => { x with way := r.way, stamp := r.stamp }, .pkg pkg fun k =>
          if k.merges.any same then
            { k with merges := k.merges.map fun m =>
              if same m then { m with value := word (credNew op ty m.value.toNat v.toNat), folded := m.folded ++ [me] } else m }
          else
            { k with
              merges := k.merges ++ [{ id := k.nextMerge, addr := r.ptr, part := r.part, op := op, ty := ty, value := v,
                                       opened := k.gtc, sent := false, answered := none, folded := [me] }]
              nextMerge := k.nextMerge + 1 }]
      | _ => s.same
    else s.same

def Pkg.modMerge (id : Nat) (f : Merge → Merge) (k : Pkg) : Pkg :=
  { k with merges := k.merges.map fun m => if m.id == id then f m else m }

/-- MERGE_FORWARD (R230): the router sends one CRED under its own source identifier. -/
def execMergeForward (pkg merge : Nat) (s : State) : Host.Outcome State Fault Refusal :=
  match (s.pkg pkg).merges.find? fun m => m.id == merge && !m.sent with
  | none => s.same
  | some m =>
    let d := dieId pkg (s.pkg pkg).router
    let src := sourceId d 3
    let seq := mget s.seqs src 0
    s.by_ [.addReq (fun i =>
        { id := i, key := 0, die := d, part := m.part, kind := .cred m.op m.ty m.value false, ptr := m.addr, pc := 0,
          lq := none, src := src, seq := seq, sent := s.gtc pkg, issued := s.gtc pkg, resends := 0,
          owner := some (3, merge), way := s.wayFor src pkg (s.destPkg m.part pkg m.addr) m.addr i, stamp := (s.pkg pkg).version,
          st := .flying }),
      .seqNo src ((seq + 1) % 65536), .pkg pkg (Pkg.modMerge merge fun m => { m with sent := true })]

/-- MERGE_ANSWER (R230): once the home's answer has come back (R222), the router answers every folded source. -/
def execMergeAnswer (pkg merge : Nat) (s : State) : Host.Outcome State Fault Refusal :=
  match (s.pkg pkg).merges.find? fun m => m.id == merge,
      s.reqs.find? fun r => r.ofMerge == some merge && diePkg r.die == pkg && r.answered with
  | some m, some r =>
    let mine := s.reqs.filter fun q => q.open_ && m.folded.any fun x => x.1 == q.src && x.2.1 == q.seq
    match s.answerOn r with
    | none => s.by_ (s.answerHeld r)
    | some st => s.by_ (mine.map (fun q => setReq q.id (match st with
        | .failed f => .failed { f with ptr := q.ptr }
        | st => st)) ++
      .pkg pkg (fun k => k.modMerge merge fun m => { m with answered := some k.gtc }) :: s.answerReq r)
  | _, _ => s.same

/-! ## Mirrors (R206) -/

/-- How a write that a primary forwards and the mirror's acknowledgement travel (R206, R222). -/
def State.mirrorPath (s : State) (a : Nat) (m : Option Nat) : Path :=
  match m with
  | some m => s.roundTrip (homePkg a) (homePkg m)
  | none => .carried
/-- Those of a piece, and of its answer. -/
def State.piecePath (s : State) (pt : Party) (a : Nat) (m : Option Nat) : Path :=
  match s.mirrorPath a m with
  | .carried => s.answerPath pt a
  | h => h
/-- What a path makes of a write that waits for its mirror: it is acknowledged, waits with a link that holds its traffic, or
completes with circuit-down (R226). -/
def ackOn (s : State) (pth : Path) (ref : Nat) (cut done : List Upd) : Host.Outcome State Fault Refusal :=
  match pth with
  | .carried => s.by_ done
  | .cut => s.by_ cut
  | h => s.by_ (holdOn h ref)
/-- MIRROR_ACK (R206): the mirror acknowledges a write or atomic, which becomes visible at the primary and performs;
the operand is its place among those that the primaries hold. -/
def execMirrorAck (req : Nat) (s : State) : Host.Outcome State Fault Refusal :=
  match s.hidden[req]? with
  | none => s.same
  | some h =>
    let show_ : Upd := .unhide h.ref
    match Ref.ofCode h.ref with
    | .answer _ => s.by_ [show_]
    | .req i =>
      match s.req? i with
      | none => s.by_ [show_]
      | some r =>
        match s.reach r.party r.ptr r.kind.need with
        | .ready a m =>
          ackOn s (s.mirrorPath a m) h.ref (show_ :: failReq r .circuitDown) (show_ :: (s.apply show_).performReq r (a, m))
        | .fault c => s.by_ (show_ :: failReq r c)
        | _ => s.same
    | .item d ch op k =>
      if ch == 2 then
        match (s.die d).encQ.find? fun e => e.id == op with
        | none => s.by_ [show_]
        | some e =>
          let x := e.outPiece k
          let fail := fun c => [show_, encFail d op { cause := c, ptr := x.1, detail := 0 }]
          match s.reach (e.party s d) x.1 .write with
          | .ready a m =>
            ackOn s (s.piecePath (e.party s d) a m) h.ref (fail .circuitDown)
              (match (s.apply show_).storeAt (e.party s d) x.1 (a, m) x.2 with
              | .ok u => show_ :: u ++ [modEnc d op fun e => { e with outAt := e.nextOut k }]
              | .error c => fail c)
          | .fault c => s.by_ (fail c)
          | _ => s.same
      else match s.op? d ch op with
      | none => s.by_ [show_]
      | some o =>
        let p := o.writes.piece k
        let pt := o.party s d ch
        let fail := fun c => [show_, failAt d ch o (o.pieceAt k) c p.ptr]
        match s.reach pt p.ptr .write (p.len == 64) with
        | .ready a m =>
          ackOn s (s.piecePath pt a m) h.ref (fail .circuitDown)
            (match (s.apply show_).storeAt pt p.ptr (a, m) (o.out p.row p.start p.len) with
            | .ok u => show_ :: u ++ [modOp d ch op fun o => { o with farDone := o.farDone ++ [k] }]
            | .error c => fail c)
        | .fault c => s.by_ (fail c)
        | _ => s.same

/-! ## Crown allocations (R201–R205) -/

/-- Crown banks of a fabric die. -/
def crownBanks : Nat := 8192
/-- Banks b … b + n − 1 are free on a fabric die in service. -/
def State.runFree (s : State) (p fd b n : Nat) : Bool :=
  let k := s.pkg p
  k.present && !k.minimal && !k.fdFailed.getLsbD fd && b + n <= crownBanks &&
  (mget k.allocs fd []).all fun a => a.bank + a.units <= b || b + n <= a.bank
/-- Banks at which a free run can begin: the first, and those after an allocation. -/
def State.runStarts (s : State) (p fd : Nat) : List Nat := 0 :: (mget (s.pkg p).allocs fd []).map fun a => a.bank + a.units
def lowestOf (l : List Nat) : Option Nat := l.foldl (fun m x => match m with
  | some y => some (Nat.min y x)
  | none => some x) none
/-- The lowest free run of n banks. -/
def State.freeRun (s : State) (p fd n : Nat) : Option Nat :=
  lowestOf ((s.runStarts p fd).filter fun b => s.runFree p fd b n)
/-- The packages of a row that are present. FALLOC.at with the number of an absent one names no package of the row and so
fails with 0xF..3 (DESIGN CHOICE, log 26). -/
def State.row (s : State) (p : PkgId) : List PkgId :=
  (List.range 32).filterMap fun i => let q := 32 * rowOf p + i; if (s.pkg q).present then some q else none
/-- The lowest run that is free on a package and on another package of the row, and that package. -/
def State.freePair (s : State) (p fd n : Nat) : Option (Nat × PkgId) :=
  let others := (s.row p).filter (· != p)
  let starts := s.runStarts p fd ++ others.flatMap fun q => s.runStarts q fd
  match lowestOf (starts.filter fun b => s.runFree p fd b n && others.any fun q => s.runFree q fd b n) with
  | some b => (others.find? fun q => s.runFree q fd b n).map fun q => (b, q)
  | none => none

/-- A crown pointer (T11.1). -/
def crownAt (p fd off : Nat) : Word := word (3 * 2 ^ 60 + p * 2 ^ 44 + fd * 2 ^ 29 + off)
/-- The failure values of R203–R205. -/
def crownFail (n : Nat) : Word := word (0xF000000000000000 + n)
def addAlloc (p fd : Nat) (a : Alloc) : Upd := .pkg p fun k => { k with allocs := mmod k.allocs fd [] fun l => l ++ [a] }

/-- What FALLOC charges (R201). -/
def allocCharge (size : Word) (mirror : Bool) : Nat :=
  let n := (size.toNat + 65535) / 65536
  if mirror then 2 * n else n
/-- The failures of FALLOC that are decided before any crown is looked at (R203): of the size, of the package named, of the
partition's quota. -/
def State.fallocFails (s : State) (caller : PkgId) (part : Nat) (size : Word) (at_ : Option Nat) (mirror : Bool) : Option Word :=
  let n := (size.toNat + 65535) / 65536
  if n == 0 || crownBanks < n then some (crownFail 4)
  else if at_.any fun q => !(s.row caller).contains q then some (crownFail 3)
  else if (s.node part).crownq < (s.node part).crownUse + allocCharge size mirror then some (crownFail 1)
  else none
/-- FALLOC at the allocator (R203): the changes and the answer. -/
def State.falloc (s : State) (caller : PkgId) (part : Nat) (size : Word) (at_ : Option Nat) (fd : Nat) (mirror : Bool) :
    List Upd × Word :=
  let n := (size.toNat + 65535) / 65536
  let pkgs := match at_ with
    | some q => [q]
    | none => caller :: (s.row caller).filter (· != caller)
  let fds := if fd == 0 then [0, 1] else [fd - 1]
  let places := pkgs.flatMap fun q => fds.map fun f => (q, f)
  let make := fun (q f b : Nat) (m : Option PkgId) =>
    let a : Alloc :=
      { part := part, bank := b, units := n, home := q, mirror := m, isMirror := none, degraded := false, lost := false,
        failing := none }
    let zeros := fun p => [Upd.zero (homeAddr 2 p f (b * 65536)) (n * 65536),
      .die (crownDie p) (Die.zeroedCrown f (b * 65536) (n * 65536))]
    ([.node part (fun x => { x with crownUse := x.crownUse + allocCharge size mirror }), addAlloc q f a] ++ zeros q ++
     (match m with
      | some o => addAlloc o f { a with home := o, mirror := none, isMirror := some q } :: zeros o
      | none => []), crownAt q f (b * 65536))
  if !mirror then
    match places.findSome? fun x => (s.freeRun x.1 x.2 n).map fun b => (x.1, x.2, b) with
    | some (q, f, b) => make q f b none
    | none => ([], crownFail 2)
  else
    match places.findSome? fun x => (s.freePair x.1 x.2 n).map fun b => (x.1, x.2, b) with
    | some (q, f, b, o) => make q f b (some o)
    | none => ([], crownFail (if places.any fun x => (s.freeRun x.1 x.2 n).isSome then 5 else 2))

/-- The status word of T11.3. -/
def Alloc.status (a : Alloc) : Word :=
  word (2 ^ 63 + (if a.mirror.isSome then 2 ^ 62 else 0) + (if a.degraded then 2 ^ 61 else 0) + (if a.lost then 2 ^ 60 else 0) +
    a.mirror.getD 0 * 2 ^ 40 + (a.units - 1))

/-- An area of a plane region lies in an allocation of a package. -/
def areaIn (q fd : Nat) (a : Alloc) (p : Word) : Bool :=
  spaceOf p == 3 && ptrPkg p == q && p.getLsbD 29 == (fd == 1) && a.bank <= p.toNat % 2 ^ 29 / 65536 &&
  p.toNat % 2 ^ 29 / 65536 < a.bank + a.units
def Plane.areas (p : Plane) : List Word := [p.base, p.nbase, p.mbase]

def dropAllocs (fd : Nat) (gone : Alloc → Bool) (k : Pkg) : Pkg :=
  { k with allocs := mmod k.allocs fd [] fun l => l.filter fun x => !gone x }
/-- The removal of an allocation and of what stands on another package for it. -/
def freeAlloc (q fd : Nat) (a : Alloc) : List Upd :=
  let other := a.mirror <|> (if a.home == q then none else some a.home)
  [.pkg q (dropAllocs fd fun x => x.isMirror.isNone && x.bank == a.bank)] ++
  (match other with
   | some o => [.pkg o (dropAllocs fd fun x => x.isMirror == some q && x.bank == a.bank)]
   | none => [])

/-- FFREE at the allocator (R205). -/
def State.ffree (s : State) (part : Nat) (p : Word) : List Upd × Word :=
  let q := ptrPkg p
  let fd := if p.getLsbD 29 then 1 else 0
  match s.allocAt? part p with
  | none => ([], 6)
  | some a =>
    if s.planes.any fun e => e.1 / 64 == part && e.2.areas.any (areaIn q fd a) then ([], 7)
    else
      let charge := if a.mirror.isSome then 2 * a.units else a.units
      (.node part (fun x => { x with crownUse := x.crownUse - charge }) :: freeAlloc q fd a, 0)

/-- The package whose crown an allocation request is about, and the pointer that it gives. -/
def ReqKind.crownOf (own : PkgId) : ReqKind → PkgId × Word
  | .alloc _ (some q) _ _ => (q, 0)
  | .query p => (ptrPkg p, p)
  | .free p => (ptrPkg p, p)
  | _ => (own, 0)
/-- How a request to the crown of a package and its answer travel (R222); the allocators of the row keep one charge (R201),
so that for a package that routes nothing the row's others answer (log 27). -/
def State.allocPath (s : State) (own q : PkgId) : Path :=
  if own == q || !(s.pkg q).routes then .carried else s.roundTrip own q
/-- The failure of a request that the slot's own allocator gives (R203). -/
def State.allocFails (s : State) (r : Req) : Option Word :=
  match r.kind with
  | .alloc size at_ _ mirror => s.fallocFails (keyPkg r.key) r.part size at_ mirror
  | _ => none
/-- What the allocator does for a request, and its answer. -/
def State.allocAnswer (s : State) (r : Req) : List Upd × Word :=
  match r.kind with
  | .alloc size at_ fd mirror => s.falloc (keyPkg r.key) r.part size at_ fd mirror
  | .query p => ([], ((s.allocAt? r.part p).map Alloc.status).getD (crownFail 6))
  | .free p => s.ffree r.part p
  | _ => ([], 0)

/-- CROWN_ALLOCATOR_ANSWER (R202–R205): the allocator answers the request of a slot, which is a progress event (R202); it is
not reached over a link that holds its traffic, and a request that no path carries completes with circuit-down (R226). -/
def execCrownAllocatorAnswer (slot : Nat) (s : State) : Host.Outcome State Fault Refusal :=
  match s.reqs.find? fun r => r.key == slot && r.open_ && ReqKind.isAlloc r.kind with
  | none => s.same
  | some r =>
    let own := keyPkg r.key
    let q := r.kind.crownOf own
    let gives := fun (x : List Upd × Word) =>
      s.by_ (x.1 ++ [setReq r.id (.performed x.2), .slot r.key fun c => c.progressed (s.gtc own)])
    match s.allocFails r, s.allocPath own q.1 with
    | some v, _ => gives ([], v)
    | none, .carried => gives (s.allocAnswer r)
    | none, .cut => s.by_ [setReq r.id (.failed { cause := .circuitDown, ptr := q.2, detail := 0 })]
    | none, h => s.by_ (holdOn h (Ref.req r.id).code)

/-- Every allocation of a partition is removed (R201). -/
def freePart (s : State) (part : Nat) : List Upd :=
  .node part (fun n => { n with crownUse := 0 }) ::
  s.pkgs.map fun e => .pkg e.1 fun k =>
    { k with allocs := k.allocs.map fun x => (x.1, x.2.filter fun a => a.part != part) }

/-! ## Fabric die failure (R207, R208, R220) -/

/-- What a failure of fabric die `fd` of package p makes of an allocation listed on package q. -/
def Alloc.failed (p q : PkgId) (a : Alloc) : Alloc :=
  if a.isMirror.isSome then a
  else if a.home == p then
    match a.mirror with
    | some m => { a with home := m, mirror := none, degraded := true, failing := some p }
    | none => { a with lost := true }
  else if a.mirror == some p && q != p then { a with mirror := none, failing := some p }
  else a
/-- A plane region with storage on lost lines is frozen. -/
def State.planeLost (s : State) (part : Nat) (pl : Plane) : Bool :=
  pl.areas.any fun a => spaceOf a == 3 &&
    (s.alloc? part (ptrPkg a) (if a.getLsbD 29 then 1 else 0) (a.toNat % 2 ^ 29)).any fun x => x.lost
/-- Partitions with an allocation whose primary fails over, the owners of whose fault domains get the notice of R207. Whether
it is posted too where only a mirror is lost R207 does not say; the model posts none there (DESIGN CHOICE, log 26). -/
def State.failedParts (s : State) (pkg fd : Nat) : List Nat :=
  (((s.pkgs.flatMap fun e => (mget e.2.allocs fd []).filter fun a =>
    a.isMirror.isNone && a.home == pkg && a.mirror.isSome).map fun a => a.part)).eraseDups

/-- The second charge of each allocation that loses its mirror goes (R201). -/
def State.uncharge (s : State) (pkg fd : Nat) : List Upd :=
  s.pkgs.flatMap fun e => ((mget e.2.allocs fd []).filter fun a =>
    a.isMirror.isNone && a.mirror.isSome && (a.home == pkg || a.mirror == some pkg)).map fun a =>
      .node a.part fun n => { n with crownUse := n.crownUse - a.units }

/-- An ATOM on lost lines that has applied and has not been answered returns crown-lost, not its result (R299). -/
def State.lostAtoms (s : State) : List Upd :=
  (s.reqs.filter fun r => r.answered && (match r.kind with
      | .atom _ _ _ _ => true
      | _ => false) && spaceOf r.ptr == 3 && s.crownReach r.part (diePkg r.die) r.ptr == .fault .crownLost).flatMap fun r =>
    failReq r .crownLost
/-- The fibre planes that a fabric die terminates, of either port, take no light any more (R13, R236). -/
def darkPlanes (fd : Nat) (k : Pkg) : Pkg :=
  { k with rings := k.rings.map fun e => if e.1 / 17 % 72 / 36 == fd then (e.1, { e.2 with drops := false }) else e }

/-- FABRIC_DIE_FAILED (R207, R208): mirrored allocations fail over, unmirrored ones are lost, the owners of the
partitions' fault domains get notices; a request whose lines another package holds from now on is injected anew (R223). -/
def execFabricDieFailed (pkg fd : Nat) (s : State) : Host.Outcome State Fault Refusal :=
  let f := fd % 2
  if (s.pkg pkg).fdFailed.getLsbD f || !(s.pkg pkg).present then s.same
  else
    let fail : List Upd := s.pkgs.map fun e => .pkg e.1 fun k =>
      { k with allocs := if (mfind f k.allocs).isSome then mmod k.allocs f [] (fun l => l.map (Alloc.failed pkg e.1)) else k.allocs }
    let mark : List Upd := [.pkg pkg fun k =>
      { k with fdFailed := k.fdFailed ||| (1#2 <<< f), failover := k.failover ||| (1#2 <<< f), failAt := k.gtc }.setHealth
        (fun h => h ||| (1#64 <<< (26 + f))),
      .addTimer { pkg := pkg, tick := s.gtc pkg + 200000, ev := .failoverComplete pkg f }]
    let away : State → List Upd := fun t => (t.reqs.filter fun r =>
        r.open_ && s.destPkg r.part (diePkg r.die) r.ptr != t.destPkg r.part (diePkg r.die) r.ptr).map fun r =>
      .req r.id fun x => { x with way := none }
    s.by_ (seqUpds s ([fun _ => s.uncharge pkg f ++ fail ++ mark, away,
      fun s => (s.planes.filter fun e => s.planeLost (e.1 / 64) e.2).map fun e =>
        .plane e.1 (Option.map fun x => { x with frozen := true }), fun s => s.lostAtoms, fun _ => [.pkg pkg (darkPlanes f)]] ++
      (s.failedParts pkg f).map fun p s => notice s p))

/-- FAILOVER_COMPLETE (R207): timers of held requests start again from zero; the survivor's results keep 30 µs more. -/
def execFailoverComplete (pkg fd : Nat) (s : State) : Host.Outcome State Fault Refusal :=
  let f := fd % 2
  if !(s.pkg pkg).failover.getLsbD f then s.same
  else
    let clear : List Upd := [.pkg pkg fun k => { k with failover := k.failover &&& ~~~(1#2 <<< f) },
      .dropTimer (.failoverComplete pkg f)]
    let after := s.commit clear
    let mine := s.reqs.filter fun r =>
      s.held (diePkg r.die) r.part r.ptr && !after.held (diePkg r.die) r.part r.ptr
    let heirs := (s.packages.filter s.keepsCache)
    s.by_ (clear ++ mine.map (fun r => .req r.id fun x =>
        { x with sent := s.gtc (diePkg x.die), issued := s.gtc (diePkg x.die), resends := 0 }) ++
      heirs.map fun q => .pkg q fun k => { k with cache := k.cache.map fun e => { e with tick := k.gtc, lasting := true } })

/-! ## Barriers and merges (R215, R219–R221) -/

/-- The regions of a step group, in descriptor order. -/
def State.groupPlanes (s : State) (part g : Nat) : List (Nat × Plane) :=
  (s.planes.filter fun e => e.1 / 64 == part && e.2.group == g).map fun e => (e.1 % 64, e.2)
/-- Regions of a partition with a member of a group among their slots, by package. -/
def State.groupRegions (s : State) (part g : Nat) : List (Rid × PkgId) :=
  ((s.nodes.filter fun e => e.2.live && e.2.part == part).flatMap fun e =>
    (e.2.placed.filter fun p => (s.members part g).contains (p.slot * 2 ^ 10 + p.pkg)).map fun p => (e.1, p.pkg)).eraseDups
/-- The homes of a plane region: a fabric die, or the banks of each region that uses it. -/
def State.planeHomes (s : State) (part : Nat) (pl : Plane) : List Nat :=
  if spaceOf pl.base == 3 then [2 * ptrPkg pl.base + (if pl.base.getLsbD 29 then 1 else 0)]
  else (s.groupRegions part pl.group).map fun x => 2 ^ 32 + slotKey x.1 x.2 0
def State.groupHomes (s : State) (part g : Nat) : List Nat :=
  ((s.groupPlanes part g).flatMap fun e => s.planeHomes part e.2).eraseDups
def State.frozenIn (s : State) (part g : Nat) : Bool := (s.groupPlanes part g).any fun e => e.2.frozen

/-- Once the last home has reported, the merge is the group's last one (R219, R359). -/
def Barrier.reported (group : Bool) (b : Barrier) : Barrier :=
  if b.merging == some [] then
    { b with coll := b.mcoll, first := b.mfirst, faultColl := b.mfault, frozeAt := b.mfroze
             steps := if group then b.steps + 1 else b.steps }
  else b
/-- The package whose fabric die holds the root of a barrier: the lowest-numbered member package (R220). -/
def Barrier.root (b : Barrier) : PkgId := (lowestOf (b.members.map (· % 1024))).getD 0
/-- The root and a package reach one another (R222). What passes between the roots and the leaves is no access that could
complete with a fault: it waits while no path carries it, and its members wait under WAITLIM (DESIGN CHOICE, log 27). -/
def State.rootReaches (s : State) (b : Barrier) (q : PkgId) : Bool := s.roundTrip q b.root == .carried
/-- The package of a home that merges. -/
def homeOwner (home : Nat) : PkgId := if home < 2 ^ 32 then home / 2 else keyPkg (home - 2 ^ 32)
/-- BARRIER_ARRIVAL (R220, R221): an arrival reaches the root; after the last one the homes of a step group merge. -/
def execBarrierArrival (part entry writer : Nat) (s : State) : Host.Outcome State Fault Refusal :=
  match mfind (64 * part + entry) s.barriers with
  | none => s.same
  | some b =>
    if !b.moving.contains writer || !s.rootReaches b (writer % 1024) then s.same
    else
      let arrived := if b.members.contains writer && !b.arrived.contains writer then b.arrived ++ [writer] else b.arrived
      let b' := { b with moving := b.moving.erase writer, arrived := arrived }
      let full := b.merging.isNone && b.members.all arrived.contains
      let b'' := if full then
          { b' with
            merging := some (if entry < 16 then s.groupHomes part entry else [])
            mcoll := 0, mfirst := 0, mfault := false, mfroze := entry < 16 && s.frozenIn part entry }
        else b'
      s.by_ [.barrier (64 * part + entry) fun _ => some (if full then b''.reported (entry < 16) else b'')]

/-- The merge of the regions of a group at one home. -/
structure Merged where
  us    : List Upd
  coll  : Nat
  fault : Bool
  first : List (Nat × Word)
def State.mergeAt (s : State) (part g home : Nat) : Merged :=
  let pt : Party := { key := if home < 2 ^ 32 then 0 else home - 2 ^ 32, die := 0, part := part, src := 0 }
  let mine := (s.groupPlanes part g).filter fun e => !e.2.frozen && (s.planeHomes part e.2).contains home
  (mine.foldl (fun (acc : State × Merged) e =>
    let r := mergePlane acc.1 pt e.2
    let ptr := fun i => ptrAdd e.2.base (i * width e.2.ty / 8)
    (acc.1.commit r.1,
     { us := acc.2.us ++ r.1, coll := acc.2.coll + r.2.length
       fault := acc.2.fault || (e.2.rule == 2 && !r.2.isEmpty)
       first := acc.2.first ++ (r.2.take 1).map fun i => (e.1, ptr i) }))
    (s, { us := [], coll := 0, fault := false, first := [] })).2
/-- The descriptor of a collided element found before. -/
def State.descOf (s : State) (part g : Nat) (p : Word) : Nat :=
  (((s.groupPlanes part g).find? fun e => ptrPlain e.2.base <= ptrPlain p && ptrPlain p < ptrPlain e.2.base + 64 * e.2.lines).map
    fun e => e.1).getD 64

/-- A merge waits: a failover holds an area of the group's regions (R207), or a load that a member issued before it arrived
has still to read a present plane (R218). -/
def State.mergeWaits (s : State) (part g : Nat) : Bool :=
  ((s.groupPlanes part g).any fun e => !e.2.frozen && e.2.areas.any (s.areaHeld part)) ||
  s.reqs.any fun r => r.part == part && r.open_ && r.owner.isNone && (s.members part g).contains (memberOf r.key) &&
    match r.kind with
    | .load n _ => match s.planeHit r.part r.ptr n with
      | .present _ p _ => p.group == g
      | _ => false
    | _ => false

/-- PLANE_MERGE (R215): the merge at one home, as one event. -/
def execPlaneMerge (part group home : Nat) (s : State) : Host.Outcome State Fault Refusal :=
  match mfind (64 * part + group) s.barriers with
  | none => s.same
  | some b =>
    match b.merging with
    | none => s.same
    | some hs =>
      if !hs.contains home || s.mergeWaits part group || !s.rootReaches b (homeOwner home) then s.same
      else
        let m := s.mergeAt part group home
        let before := fun (x y : Nat × Word) => y.1 < x.1 || (y.1 == x.1 && y.2.toNat < x.2.toNat)
        let best := m.first.foldl (fun (x : Nat × Word) y => if before x y then y else x)
          (if b.mfirst == 0 then 64 else s.descOf part group b.mfirst, b.mfirst)
        s.by_ (m.us ++ [.barrier (64 * part + group) fun _ => some
          ({ b with
             merging := some (hs.erase home), mcoll := b.mcoll + m.coll, mfirst := best.2
             mfault := b.mfault || m.fault, mfroze := b.mfroze || s.frozenIn part group }.reported true)])

/-- PHASE_FLIP (R215, R221): when every home has reported its merge, the root flips the phase, which passes down to the
leaves of every member. -/
def execPhaseFlip (part entry : Nat) (s : State) : Host.Outcome State Fault Refusal :=
  match mfind (64 * part + entry) s.barriers with
  | none => s.same
  | some b =>
    if b.merging != some [] || !(b.members.all fun m => s.rootReaches b (m % 1024)) then s.same
    else s.by_ [.barrier (64 * part + entry) fun _ => some
      { b with phase := b.phase + 1, merging := none, arrived := [] }]

/-- The status word of T11.7. -/
def State.groupStatus (s : State) (part g : Nat) (b : Barrier) : Word :=
  let degraded := (s.groupPlanes part g).any fun e => e.2.areas.any fun p => spaceOf p == 3 &&
    (s.alloc? part (ptrPkg p) (if p.getLsbD 29 then 1 else 0) (p.toNat % 2 ^ 29)).any fun a => a.degraded
  word ((if s.frozenIn part g then 2 ^ 51 else 0) + (if degraded then 2 ^ 50 else 0) + b.steps % 65536 * 2 ^ 32 +
    Nat.min b.coll (2 ^ 32 - 1))

/-- BARRIER_ROOT_ANSWER (R219, R359): the root answers a slot's PSTAT with the last merge that every home has reported; it is
not reached over a link that holds its traffic, and a request that no path carries completes with circuit-down (R226). -/
def execBarrierRootAnswer (slot : Nat) (s : State) : Host.Outcome State Fault Refusal :=
  match s.reqs.find? fun r => r.key == slot && r.open_ && ReqKind.isStat r.kind with
  | none => s.same
  | some r =>
    match r.kind with
    | .pstat g sel =>
      match mfind (64 * r.part + g) s.barriers with
      | some b =>
        match s.roundTrip (keyPkg r.key) b.root with
        | .carried => s.by_ [setReq r.id (.performed (if sel then b.first else s.groupStatus r.part g b))]
        | .cut => s.by_ [setReq r.id (.failed { cause := .circuitDown, ptr := 0, detail := g })]
        | h => s.by_ (holdOn h (Ref.req r.id).code)
      | none => s.by_ [setReq r.id (.performed 0)]
    | _ => s.same

end Sys2Proof.Machine
end

