-- ==== Sys2Proof/Machine/Launch.lean ====
section
/-! DEFINITION. Launches and their validation (R22–R30, R38, R39, R41): the effective values of a node, the reasons of
T2.4, placements (T2.3), budgets (R27) and admission (R41). -/

namespace Sys2Proof.Machine

/-! ## Nodes and their dies -/

/-- The package whose Milliner keeps a node (ID of T2.1). -/
def ridPkg (r : Rid) : PkgId := r / 2 ^ 22
/-- The packages of a node's PKGMASK; 0 names its own. -/
def Node.on (r : Rid) (n : Node) : List PkgId := if n.pkgs.isEmpty then [ridPkg r] else n.pkgs
def dieBits (m : BitVec 6) : List Nat := (List.range 6).filter fun i => m.getLsbD i
/-- Dies of a package that no other live partition owns and that are in service (R22). -/
def State.freeDies (s : State) (p : PkgId) (dmask : BitVec 6) : BitVec 6 :=
  BitVec.ofNat 6 (((dieBits dmask).filter fun i => (s.die (dieId p i)).service &&
    !(s.nodes.any fun e => e.2.kind == .part && e.2.st == 3 && (mget e.2.dieSets p 0#6).getLsbD i)).foldl
    (fun x i => x + 2 ^ i) 0)
/-- A partition's dies on a package. -/
def State.partDies (s : State) (part : Nat) (p : PkgId) : BitVec 6 := mget (s.node part).dieSets p 0
/-- Timetable regions placed on a die. -/
def State.placedOn (s : State) (d : DieId) : List (Rid × Node) :=
  s.nodes.filter fun e => e.2.placed.any fun x => dieId x.pkg x.phys == d

/-! ## Topologies (T2.3) -/

/-- Sequences of n different members. -/
def seqsOf : Nat → List Nat → List (List Nat)
  | 0, _ => [[]]
  | n + 1, l => l.flatMap fun x => (seqsOf n (l.erase x)).map fun r => x :: r
def topoSlots (topo : Nat) : List Nat :=
  match topo with
  | 0 => [1, 2, 3, 4, 5, 6]
  | 1 => [2]
  | 2 => [2]
  | 3 => [3]
  | 4 => [4]
  | 5 => [6]
  | _ => []
/-- Placements of a topology on permitted dies. -/
def topoPlaces (topo slots : Nat) (dies : List Nat) : List (List Nat) :=
  let all := match topo with
    | 1 => [[0, 1], [1, 2], [3, 4], [4, 5]]
    | 2 => [[0, 3], [1, 4], [2, 5], [3, 0], [4, 1], [5, 2]]
    | 3 => [[0, 1, 2], [3, 4, 5]]
    | 4 => [[0, 1, 3, 4], [1, 2, 4, 5], [3, 4, 0, 1], [4, 5, 1, 2]]
    | 5 => [[0, 1, 2, 3, 4, 5], [3, 4, 5, 0, 1, 2]]
    | _ => []
  if topo == 0 then seqsOf slots dies else all.filter fun l => l.all dies.contains
/-- Cuffs that the image of a slot may use, as a mask. -/
def topoCuffs (topo slot : Nat) : Nat :=
  match topo with
  | 1 => at0 [2, 1] slot 0
  | 2 => 4
  | 3 => at0 [2, 3, 1] slot 0
  | 4 => at0 [6, 5, 6, 5] slot 0
  | 5 => at0 [6, 7, 5, 6, 7, 5] slot 0
  | _ => 0

/-! ## Budgets and admission (R27, R41) -/

/-- The die totals hold what is placed on a die and one more region. -/
def State.fits (s : State) (r : Rid) (n : Node) (d : DieId) : Bool :=
  let l := ((s.placedOn d).filter fun e => e.1 != r).map fun e => e.2
  let sum := fun (f : Node → Nat) => l.foldl (fun t x => t + f x) (f n)
  sum (·.brows) <= 2048 && sum (·.routes) <= 2031 && sum (·.queues) <= 32 && sum (·.tids) <= 256 && sum (·.bmem) <= 2048

/-- A node is queued for a die. -/
def State.queuedFor (s : State) (e : Rid × Node) (d : DieId) : Bool :=
  e.2.kind == .timetable && (e.2.st == 1 || e.2.st == 2) && (e.2.on e.1).contains (diePkg d) &&
  (e.2.dmask &&& s.partDies e.2.part (diePkg d)).getLsbD (diePhys d)
/-- The admitted contracts of a die, by the node that sets each: those placed there, and those that validation has
admitted there and that are held. -/
def State.contracts (s : State) (d : DieId) : List Rid :=
  ((s.nodes.filter fun e => (e.2.placed.any fun x => dieId x.pkg x.phys == d) ||
    e.2.st == 2 && e.2.admitted.contains d).filterMap fun e => e.2.server).eraseDups
/-- W of R41. -/
def State.longestWindow (s : State) (d : DieId) : Nat :=
  ((s.nodes.filter fun e => e.2.server.isNone &&
    (s.queuedFor e d || e.2.placed.any fun x => dieId x.pkg x.phys == d)).map fun e => e.2.cwmax).foldl max 0
/-- Σ (B + C) / x ≤ 95 / 100, exactly. -/
def loadFits (l : List (Nat × Nat)) : Bool :=
  let t := l.foldl (fun (a : Nat × Nat) x => (a.1 * x.2 + x.1 * a.2, a.2 * x.2)) (0, 1)
  t.1 * 100 <= 95 * t.2
/-- The longest window of the best-effort regions that are placed on a die. -/
def State.placedWindow (s : State) (d : DieId) : Nat :=
  (((s.placedOn d).filter fun e => e.2.server.isNone).map fun e => e.2.cwmax).foldl max 0
/-- The test of R41 on a die: the contracts of the die and a new one, with W. -/
def State.admits (s : State) (d : DieId) (new : Option (Rid × Node)) (w : Nat) : Bool :=
  let old := ((s.contracts d).filter fun r => new.all fun x => x.1 != r).map s.node
  let l := old ++ (new.map fun x => x.2).toList
  let c := 2000 + w + (if l.length <= 2 then 0 else 20000)
  l.isEmpty ||
  (loadFits (l.map fun n => (n.budget + c, n.period)) &&
   (!(l.any fun n => n.deadline < n.period) || loadFits (l.map fun n => (n.budget + c, n.deadline))))
/-- A die takes a region: its budget fits, and the contracts of the die stay admissible. A best-effort region is tested
where its CWMAX is above those of all that are placed there, so that W would rise (R41, log 29). -/
def State.takes (s : State) (r : Rid) (n : Node) (d : DieId) : Bool :=
  (s.die d).service && s.fits r n d &&
  match n.server with
  | some v => n.admitted.contains d || s.admits d (some (v, if v == r then n else s.node v)) (s.longestWindow d)
  | none => n.cwmax <= s.placedWindow d || s.admits d none n.cwmax
/-- Placements of a region on a package that its dies take. -/
def State.placesOn (s : State) (r : Rid) (n : Node) (p : PkgId) : List (List Nat) :=
  (topoPlaces n.topo n.slots (dieBits (n.dmask &&& s.partDies n.part p))).filter fun l =>
    l.all fun i => s.takes r n (dieId p i)

/-! ## Effective values (T2.1, T2.2) -/

/-- The values that the root gives. -/
def rootNode : Node :=
  { Node.blank with dmask := 0x3F, prio := Config.rootPrio, tguard := Config.rootTguard, waitlim := Config.rootWaitlim }

/-- The node of an RCB at flat address `a`, under its parent's effective values. -/
def State.nodeAt (s : State) (a : Nat) (ptr : Word) (r : Rid) (up : Rid) (par : Node) (tbase : Nat) : Node :=
  let w := fun o => s.num (a + o) 8
  let own := fun b => bit (w 0) b
  let row := rowOf (ridPkg r)
  let w48 := w 0x48
  let budgets := own 19
  let kind := bits (w 0) 1 0
  { Node.blank with
    kind := if kind == 1 then .part else if kind == 2 then .inner else .timetable
    rcb := a, rcbPtr := ptr
    part := if kind == 1 then r else par.part
    parent := up
    fdom := bit (w 0) 3, service := bit (w 0) 2
    pkgs := (List.range 32).filterMap fun c => if bit (w 0x30) (8 + c) then some (32 * row + c) else none
    slots := bits (w 0x30) 3 0, topo := bits (w 0x30) 7 4
    dmask := if own 16 then BitVec.ofNat 6 (w 0x38) else par.dmask
    band := if own 17 then bits (w 0x40) 2 0 else par.band
    prio := if own 18 then bits (w 0x40) 15 8 else par.prio
    pclass := if own 21 then bits (w 0x40) 17 16 else par.pclass
    bmem := if budgets then bits w48 59 48 else par.bmem
    tids := if budgets then bits w48 40 32 else par.tids
    queues := if budgets then bits w48 29 24 else par.queues
    routes := if budgets then bits w48 23 12 else par.routes
    brows := if budgets then bits w48 11 0 else par.brows
    hbmq := if kind == 1 then bits (w 0x50) 23 0 else 0
    crownq := if kind == 1 then bits (w 0x58) 23 0 else 0
    handler := if own 22 then some (w 0x28) else par.handler
    tguard := if own 23 then bits (w 0x80) 15 0 else par.tguard
    waitlim := if own 23 then bits (w 0x80) 47 16 else par.waitlim
    cwmax := bits (w 0x78) 15 0
    period := if own 20 then bits (w 0x60) 31 0 else 0
    budget := if own 20 then bits (w 0x60) 63 32 else 0
    deadline := if own 20 then bits (w 0x68) 31 0 else 0
    server := if own 20 then (if bits (w 0x60) 31 0 == 0 then none else some r) else par.server
    start := if w 0x70 == 0 then 0 else (tbase + w 0x70) % 2 ^ 64 }

/-- A reserved bit of a word that software writes is not zero (R23). -/
def State.rcbReserved (s : State) (a : Nat) : Bool :=
  let w := fun o => s.num (a + o) 8
  bits (w 0) 63 24 != 0 || bits (w 0) 15 4 != 0 || bits (w 0x30) 63 40 != 0 || bits (w 0x38) 63 6 != 0 ||
  bits (w 0x40) 63 18 != 0 || bits (w 0x40) 7 3 != 0 || bits (w 0x48) 63 60 != 0 || bits (w 0x48) 47 41 != 0 ||
  bits (w 0x48) 31 30 != 0 || bits (w 0x50) 63 24 != 0 || bits (w 0x58) 63 24 != 0 || bits (w 0x68) 63 32 != 0 ||
  bits (w 0x78) 31 16 != 0 || bits (w 0x80) 63 48 != 0

/-! ## The image (T2.5) -/

/-- Header n of an image at a flat address. -/
def State.imageEntry (s : State) (im n : Nat) : BitVec 256 := BitVec.ofNat 256 (ofBytes (s.bytes (im + 0x40 + 32 * n) 32))
def entOffset (e : BitVec 256) : Nat := (e.extractLsb' 0 64).toNat
def entLength (e : BitVec 256) : Nat := (e.extractLsb' 64 32).toNat
def entEntry (e : BitVec 256) : Nat := (e.extractLsb' 128 32).toNat
def entLoad (e : BitVec 256) : Nat := (e.extractLsb' 192 64).toNat
/-- The checks of R28 and the CUFFS check of R38. -/
def State.imageOk (s : State) (im : Nat) (n : Node) : Bool :=
  let w := s.num (im + 8) 8
  s.num im 8 == 0x0AD2682000000001 && bits w 7 4 == n.topo && bits w 3 0 == n.slots && w / 256 == 0 &&
  s.num (im + 0x10) 48 == 0 &&
  (List.range n.slots).all fun i =>
    let e := s.imageEntry im i
    (e.extractLsb' 96 32) == 0 && (e.extractLsb' 163 29) == 0 &&
    entOffset e % 64 == 0 && entLoad e % 64 == 0 && entEntry e < entLength e &&
    entLoad e + 64 * entLength e <= n.bmem * 4096 && cuffsMask e &&& topoCuffs n.topo i == cuffsMask e

/-! ## Validation -/

/-- The flat address of a pointer of a launch (R30), through the tables of the launching party: device memory of the
package, or of another one (space 0x4). -/
def State.launchAddr (s : State) (pkg part : Nat) (p : Word) : Option Nat :=
  let q := if spaceOf p == 4 then ptrPkg p else pkg
  if (spaceOf p == 2 || spaceOf p == 4 && (s.pkg q).present) && ptrOk 0 p then
    (s.translateNow part q 0 (offsetBits p)).map (devAddr q)
  else none
/-- The live node whose RCB lies at a flat address. -/
def State.nodeByRcb (s : State) (a : Nat) : Option (Rid × Node) :=
  s.nodes.find? fun e => e.2.rcb == a && e.2.done == 0 && 1 <= e.2.st && e.2.st <= 4

/-- The parent of a launch (R30): the root for a partition, the launching region for a LAUNCH with PARENT 0, whether it
lives or not, else a live node; `none` breaks R30. -/
def State.parentOf (s : State) (pkg : PkgId) (l : Launch) (kind : Nat) (p : Word) : Option (Rid × Node) :=
  if kind == 1 then (if p == 0 then some (0, rootNode) else none)
  else if p == 0 then
    match l.fromKey with
    | some k => if (s.node (keyRid k)).st != 0 then some (keyRid k, s.node (keyRid k)) else none
    | none => none
  else
    ((s.launchAddr pkg l.part p).bind s.nodeByRcb).bind fun e =>
      if l.fromKey.all fun _ => e.2.part == l.part then some e else none

/-- HBM and crown capacity left for a partition (T2.4, 0x0A). -/
def State.quotasFit (s : State) (n : Node) (r : Rid) : Bool :=
  let live := s.nodes.filter fun e => e.2.kind == .part && e.2.st == 3
  let row := rowOf (ridPkg r)
  let crown := (List.range 32).foldl (fun t c =>
    let k := s.pkg (32 * row + c)
    if k.present then t + 8192 * (2 - popcount 2 k.fdFailed.toNat) else t) 0
  ((n.on r).all fun p => (live.filter fun e => (e.2.on e.1).contains p).foldl (fun t e => t + e.2.hbmq) n.hbmq <= 786432) &&
  (live.filter fun e => rowOf (ridPkg e.1) == row).foldl (fun t e => t + e.2.crownq) n.crownq <= crown

/-- The dies of a package on which a contract is admitted (R41): those of the first placement that passes the test. -/
def State.admitPlace (s : State) (r : Rid) (n : Node) (q : PkgId) : Option (List DieId) :=
  (((topoPlaces n.topo n.slots (dieBits (n.dmask &&& s.partDies n.part q))).map fun l => l.map (dieId q)).find? fun l =>
    l.all fun d => s.admits d (n.server.map fun v => (v, if v == r then n else s.node v)) (s.longestWindow d))

/-- The predecessors' words. -/
def State.predWords (s : State) (a : Nat) : List Word :=
  ((List.range 8).map fun i => word (s.num (a + 0x88 + 8 * i) 8)).filter (· != 0)

/-- The reason of a refusal (T2.4): the first check that fails, in the order of this list (log 40). -/
def State.refusal (s : State) (pkg : PkgId) (l : Launch) (a : Nat) (r : Rid) (par : Option (Rid × Node)) (n : Node) :
    Option Nat :=
  let kind := bits (s.num a 8) 1 0
  let parent := word (s.num (a + 0x18) 8)
  let part := kind == 1
  let table := kind == 3
  let image := s.launchAddr pkg l.part (word (s.num (a + 0x20) 8))
  let preds := (s.predWords a).map (s.launchAddr pkg l.part)
  let no := fun (bad : Bool) (reason : Nat) => if bad then some reason else none
  let p := (par.getD (0, rootNode)).2
  [no (kind == 0) 7,
   no (part && l.fromKey.any fun k => !(s.node (keyRid k)).service) 9,
   no (s.rcbReserved a) 7,
   no (parent != 0 && (s.launchAddr pkg l.part parent).isNone) 0x0C,
   no par.isNone 7,
   no (1 < n.pclass) 7,
   no (n.slots == 0 || 6 < n.slots) 7,
   no (!(topoSlots n.topo).contains n.slots) 7,
   no (50000 < n.cwmax || 2048 < n.bmem || 256 < n.tids || 32 < n.queues || 2031 < n.routes || 2048 < n.brows) 7,
   no (n.handler.any fun h => h % 64 != 0 || n.bmem * 4096 <= h) 7,
   no (!part && p.band < n.band) 2,
   no (n.dmask &&& p.dmask != n.dmask) 3,
   no (n.period != 0 && !(0 < n.budget && n.budget <= n.deadline && n.deadline <= n.period)) 4,
   no (n.server.isSome && n.band != 7) 4,
   no ((n.on r).any fun q => !(s.pkg q).present || (!part && s.partDies n.part q == 0)) 8,
   no (part && !s.quotasFit n r) 0x0A,
   no (part && (n.on r).any fun q => s.freeDies q n.dmask == 0) 5,
   no (table && image.isNone || preds.any Option.isNone) 0x0C,
   no (preds.any fun q => (q.bind s.nodeByRcb).any fun e => e.2.kind != .timetable) 7,
   no (table && image.any fun i => !s.imageOk i n) 6,
   no (table && (n.on r).any fun q =>
     (topoPlaces n.topo n.slots (dieBits (n.dmask &&& s.partDies n.part q))).isEmpty) 5,
   no (table && n.server.isSome && (n.on r).any fun q => (s.admitPlace r n q).isNone) 4].findSome? id

/-- The words that the Milliner writes at validation (R23). -/
def rcbFresh (a : Nat) (r : Rid) : List Upd :=
  writeBytes (a + 0x008) (rcbState r 0 1) ++ writeBytes (a + 0x010) (toBytes 8 0) ++
  writeBytes (a + 0x0C8) (toBytes 8 0) ++ zeroBytes (a + 0x0D0) 0x130

/-- What follows for a node that the Milliner accepts: a partition or inner region stands, a timetable region is held. -/
def State.accept (s : State) (pkg : PkgId) (l : Launch) (a : Nat) (r : Rid) (n : Node) : List Upd :=
  let table := n.kind == .timetable
  let image := (s.launchAddr pkg l.part (word (s.num (a + 0x20) 8))).getD 0
  let n := { n with
    st := if table then 2 else 3
    preds := if table then (s.predWords a).filterMap (s.launchAddr pkg l.part) else []
    image := image
    entries := if table then (List.range n.slots).map (s.imageEntry image) else []
    dieSets := if n.kind == .part then (n.on r).map fun q => (q, s.freeDies q n.dmask) else []
    admitted := if table && n.server.isSome then (n.on r).flatMap fun q => (s.admitPlace r n q).getD [] else []
    readyAt := s.gtc pkg }
  .node r (fun _ => n) :: writeBytes (a + 0x008) (rcbState r 0 n.st)

/-- The node that a launch names as its parent, where its domain or partition has been stopped since the post. -/
def State.deadParent (s : State) (pkg : PkgId) (l : Launch) (p : Word) : Option (Rid × Node) :=
  (s.launchAddr pkg l.part p).bind fun a => s.nodes.find? fun e => e.2.rcb == a && (e.2.st == 6 || e.2.st == 8) &&
    l.hits.any fun h => h.2 == (if h.1 == 2 then e.2.part else s.domainOf e.1)
/-- What a launch that is queued shares with its parent's domain (R51, R53): STATE and DONE of a region that is never
started, because its domain has been stopped or cancelled since the post, or because its parent is, unless it opens a
domain of its own. -/
def State.launchStopped (s : State) (l : Launch) (up : Rid × Node) (n : Node) : Option (Nat × Nat) :=
  let own := n.kind == .part || n.fdom
  let dom := s.domainOf up.1
  if n.kind != .part && (l.hits.contains (2, n.part) || up.2.cancel && up.2.kind == .part ||
      !own && (l.hits.contains (1, dom) || up.2.cancel || up.2.st == 8)) then some (8, 4)
  else if n.kind == .timetable && !own && (l.hits.contains (0, dom) || up.2.st == 6) then some (6, 2)
  else none

/-- The oldest post of a package is validated (R26, R30, R53). A post is a repeated launch (R32) while the node that the
first post made is live: nothing is written, as R32 asks. A post of the RCB of a node that has ended launches it again
(log 28). -/
def State.validate (s : State) (pkg : PkgId) (l : Launch) : List Upd :=
  let pop : Upd := .pkg pkg fun k => { k with launchQ := k.launchQ.drop 1 }
  match if spaceOf l.ptr == 2 && l.ptr.toNat % 512 == 0 then s.launchAddr pkg l.part l.ptr else none with
  | none =>
    pop :: (match l.fromKey with
      | some k => notice s (s.domainOf (keyRid k))
      | none => [interrupt pkg 0])
  | some a =>
    if (s.nodeByRcb a).isSome then [pop]
    else
      let r := pkg * 2 ^ 22 + (s.pkg pkg).nextRid
      let kind := bits (s.num a 8) 1 0
      let par := s.parentOf pkg l kind (word (s.num (a + 0x18) 8))
      let up := (par <|> s.deadParent pkg l (word (s.num (a + 0x18) 8))).getD (0, rootNode)
      let n := s.nodeAt a l.ptr r up.1 up.2 (if l.fromKey.isSome then l.tbase else 0)
      let take : List Upd := [pop, .pkg pkg fun k => { k with nextRid := (k.nextRid + 1) % 2 ^ 22 }] ++ rcbFresh a r
      let ends := fun st reason done =>
        writeBytes (a + 0x008) (rcbState r reason st) ++ writeBytes (a + 0x010) (toBytes 8 done)
      take ++
      (if bits (s.num (a + 0x78) 8) 63 32 != 0 then ends 8 0 4
       else
        match s.launchStopped l up n, s.refusal pkg l a r par n with
        | some x, _ => ends x.1 0 x.2
        | none, some reason => ends 7 reason 3
        | none, none => s.accept pkg l a r n)

/-- A package's Milliner works: a start has set READY, or the device is in minimal mode (R261, R263). -/
def Pkg.up (k : Pkg) : Bool := k.ready || k.minimal
/-- Work of a Milliner, or what it keeps for the end of a takeover (R52). Before READY its image has not been verified and
started (R261), and it does nothing. -/
def State.milliner (s : State) (pkg : PkgId) (i : Instr) (us : List Upd) : Host.Outcome State Fault Refusal :=
  if !(s.pkg pkg).up then s.same
  else if (s.pkg pkg).takeover then s.by_ [.pkg pkg fun k => { k with heldWork := k.heldWork ++ [i] }] else s.by_ us

/-- LAUNCH_PORT_STORE (R30). The spec lets LAUNCH wait while the launch queue is full and says nothing of a host's store
then: its post is lost (DESIGN CHOICE, log 28). -/
def execLaunchPortStore (pkg ptr : Nat) (s : State) : Host.Outcome State Fault Refusal :=
  if (s.pkg pkg).launchQ.length < 64 then
    s.by_ [.pkg pkg fun k => { k with launchQ := k.launchQ ++ [{ ptr := word ptr, fromKey := none, part := 0, tbase := 0, hits := [] }] }]
  else s.same

/-- LAUNCH_VALIDATE (R26). -/
def execLaunchValidate (pkg : Nat) (s : State) : Host.Outcome State Fault Refusal :=
  match (s.pkg pkg).launchQ with
  | [] => s.same
  | l :: _ => s.milliner pkg (.launchValidate pkg) (s.validate pkg l)

end Sys2Proof.Machine
end

