-- ==== Sys2Proof/Machine/Milliner.lean ====
section
/-! DEFINITION. The Milliner: readiness and rank (R36, R37, R42–R45, R49), placement and start (R38–R40), pre-emption and
resumption (R46–R48, R252–R254), contracts (R41–R43), the end of regions (R33, R51, R53), the standby (R52). -/

namespace Sys2Proof.Machine

/-! ## Readiness -/

/-- Predecessors' DONE words. -/
def State.predsDone (s : State) (n : Node) : List Nat := n.preds.map fun a => s.num (a + 0x010) 8
/-- A slot's wait lends to the owner of a lock word (R49): it waits with WAITW.lock, or its region has been stopped in that
wait, which it repeats (R252), and the word names the same owner still (DESIGN CHOICE, log 29). -/
def State.lends (s : State) (c : Ctx) (r : Rid) : Bool :=
  c.wait.lock == r && c.rid != r &&
  ((c.mode == .run && c.wait.active) || (c.mode == .stopped && s.num c.wait.lockAt 4 == r))
/-- Regions that wait with WAITW.lock on a lock word that this region owns (R49). -/
def State.lenders (s : State) (r : Rid) : List Rid :=
  ((s.slots.filter fun e => s.lends e.2 r).map fun e => e.2.rid).eraseDups
/-- The GTC of the package whose Milliner keeps a node. -/
def State.nodeTick (s : State) (r : Rid) : Nat := s.gtc (ridPkg r)
/-- The counter furthest on among a region's packages: a tick that it has not reached lies ahead of all (R39, R59). -/
def State.gangTick (s : State) (r : Rid) : Nat := ((s.node r).on r).foldl (fun t p => max t (s.gtc p)) 0
/-- A region waits to be dispatched: its start or its resumption. -/
def State.ready (s : State) (r : Rid) : Bool :=
  let n := s.node r
  n.kind == .timetable && !n.halting &&
  ((n.st == 2 && (if n.start == 0 then (s.predsDone n).all (· == 1) else n.due)) ||
   (n.st == 4 && (n.server.isNone || n.active || !(s.lenders r).isEmpty)))

/-! ## Rank (R42, R44, R45): a list of numbers, the lexicographically smaller one ahead -/

def ahead : List Nat → List Nat → Bool
  | a :: l, b :: m => a < b || (a == b && ahead l m)
  | _, _ => false
/-- The quantum of a band (R45). -/
def State.quantum (s : State) (p : PkgId) (band : Nat) : Nat := mget (s.pkg p).quanta band Config.rootQuantum
/-- A contract whose activation has not exhausted its budget. -/
def Node.contract (n : Node) : Bool := n.server.isSome && n.active && !n.spent
/-- The budget that a region's contract shares with its other regions is used up on a die of the region: of its placement,
or of the dies that admitted it (R25, R41, R42). -/
def State.usedUp (s : State) (r : Rid) (n : Node) : Bool :=
  let v := s.node (n.server.getD r)
  (if n.placed.isEmpty then n.admitted else n.placed.map fun x => dieId x.pkg x.phys).any fun d => v.budget <= mget v.used d 0
/-- A contract within its budget (R42): an activation that has not exhausted it, or an admitted region that has still to
start, while what its dies may be charged is not used up. -/
def State.inContract (s : State) (r : Rid) (n : Node) : Bool :=
  (n.contract || (n.server.isSome && n.kind == .timetable && n.st == 2)) && !s.usedUp r n
/-- The deadline by which a contract is ranked (R42). The periods of a server that has started no region yet would begin
with the start tick of this one, or where it has none as soon as it waits (DESIGN CHOICE, log 29). -/
def State.dueOf (s : State) (r : Rid) (n : Node) : Nat :=
  let v := s.node (n.server.getD r)
  if v.nextAt != 0 then v.dueAt else (if n.start != 0 then n.start else n.readyAt) + v.deadline
/-- The band of a region out of its contract: an activation that has exhausted its budget runs in band 7 (R43). -/
def Node.bandNow (n : Node) : Nat := if n.server.isSome then 7 else n.band
/-- PRIO plus the quanta that a ready region has waited (R45). -/
def State.effPrio (s : State) (r : Rid) (n : Node) : Nat :=
  let age := if n.st == 3 then 0 else (s.nodeTick r - n.readyAt) / max 1 (s.quantum (ridPkg r) n.bandNow)
  Nat.min 255 (n.prio + age)
/-- A region's rank without loans; its last number falls with each loan that a rank passes through. -/
def State.ownRank (s : State) (r : Rid) : List Nat :=
  let n := s.node r
  if s.inContract r n then [0, s.dueOf r n, r, 0, 0, 8]
  else [1, 7 - n.bandNow, 255 - s.effPrio r n, n.readyAt, n.rcb, 8]
/-- A rank on loan: that of the waiter, and ahead of it (R49). -/
def lent (x : List Nat) : List Nat := x.modify 5 (· - 1)
/-- The rank with loans, to a depth of 8 (R49). -/
def State.rankFrom (s : State) : Nat → Rid → List Nat
  | 0, r => s.ownRank r
  | d + 1, r =>
    (s.lenders r).foldl (fun best l => let x := lent (s.rankFrom d l); if ahead x best then x else best) (s.ownRank r)
def State.rank (s : State) (r : Rid) : List Nat := s.rankFrom 8 r
/-- A region and those whose loans reach it, along chains of a depth of 8 (R49). -/
def State.backers (s : State) : Nat → Rid → List Rid
  | 0, r => [r]
  | d + 1, r => r :: (s.lenders r).flatMap (s.backers d)
/-- A region may take a running region's dies (R42, R44): a contract from a best-effort region or a later deadline, a
higher band from a lower one; and an owner those of a region that waits for its lock, at whose rank it runs (R49, R425).
The tie of equal deadlines (R42) orders contracts that wait, and takes no die from one that runs (DESIGN CHOICE, log 29). -/
def State.preempts (s : State) (r v : Rid) : Bool :=
  ahead ((s.rank r).take 2) ((s.rank v).take 2) || (r != v && (s.backers 8 r).contains v)
/-- A region and another share a package. -/
def State.share (s : State) (r v : Rid) : Bool := ((s.node r).on r).any ((s.node v).on v).contains

/-! ## Placement (R38, R39) -/

/-- A slot's region can move to other dies: its requests are answered and its copies complete (R228, R48). A region with an
open encoder stream, whose context stays with its die (R267), is not moved (DESIGN CHOICE, log 19). -/
def State.movable (s : State) (r : Rid) : Bool :=
  !(s.reqs.any fun q => keyRid q.key == r) &&
  !(s.dies.any fun e => (e.2.chan0 ++ e.2.chan1).any (fun o => keyRid o.key == r) ||
    e.2.encQ.any (fun c => keyRid c.key == r) || e.2.streams.any fun x => keyRid x.2.key == r)
/-- The dies of a region's slots on a package, in slot order. -/
def Node.diesOn (n : Node) (p : PkgId) : List Nat := (n.placed.filter fun x => x.pkg == p).map fun x => x.phys
/-- Placements on a package: the present one first, then, where it may move, every other. -/
def State.options (s : State) (r : Rid) (p : PkgId) : List (List Nat) :=
  let n := s.node r
  if n.st == 4 then n.diesOn p :: (if s.movable r then (s.placesOn r n p).filter (· != n.diesOn p) else [])
  else s.placesOn r n p
/-- The running region of a die. -/
def State.runner (s : State) (d : DieId) : Option Rid := (s.die d).run.map keyRid
/-- One placement for each package, by the digits of a choice; `none` where a package has none. -/
def pickPlaces (f : PkgId → List (List Nat)) : List PkgId → Nat → Option (List Place)
  | [], _ => some []
  | p :: ps, choice =>
    match (f p)[choice % max 1 (f p).length]? with
    | none => none
    | some l => (pickPlaces f ps (choice / max 1 (f p).length)).map fun rest =>
        (l.zipIdx.map fun x => { pkg := p, slot := x.2, phys := x.1 : Place }) ++ rest
/-- Placements on dies in service of which a condition holds. -/
def State.placesIf (s : State) (r : Rid) (ok : DieId → Bool) (choice : Nat) : Option (List Place) :=
  pickPlaces (fun p => (s.options r p).filter fun l => l.all fun i =>
    (s.die (dieId p i)).service && ok (dieId p i)) ((s.node r).on r) choice
/-- Placements on dies that nothing uses and that are not kept for others. -/
def State.freePlaces (s : State) (r : Rid) (choice : Nat) (kept : List DieId := []) : Option (List Place) :=
  s.placesIf r (fun d => (s.runner d).isNone && !kept.contains d) choice
/-- Placements on dies that nothing uses or whose regions it may pre-empt. -/
def State.takenPlaces (s : State) (r : Rid) (choice : Nat) (kept : List DieId) : Option (List Place) :=
  s.placesIf r (fun d => !kept.contains d && (s.runner d).all fun v => s.preempts r v) choice
/-- A region has been ordered to stop at its next bundle boundary. -/
def Node.ordered (n : Node) : Bool := n.stopping.isSome && !n.expired
/-- The placement that a ready region waits for: its dies are free, or what runs there has been ordered to stop. -/
def State.waitPlaces (s : State) (r : Rid) (kept : List DieId) : Option (List Place) :=
  s.placesIf r (fun d => !kept.contains d && (s.runner d).all fun v => s.preempts r v && (s.node v).ordered) 0
/-- The placement that is kept for a region that has waited 255 quanta, until the regions of its band that run there come
to the end of their quanta (R45, log 29). -/
def State.agedPlaces (s : State) (r : Rid) (kept : List DieId) : Option (List Place) :=
  let n := s.node r
  if 255 * s.quantum (ridPkg r) n.bandNow <= s.nodeTick r - n.readyAt then
    s.placesIf r (fun d => !kept.contains d && (s.runner d).all fun v => !s.preempts v r) 0
  else none
/-- Dies that are kept for a list of regions and for one more, behind them in rank. -/
def State.keptBy (s : State) (kept : List DieId) (r : Rid) : List DieId :=
  kept ++ (((s.freePlaces r 0 kept <|> s.waitPlaces r kept <|> s.agedPlaces r kept).getD []).map fun x => dieId x.pkg x.phys)
/-- Regions ordered by rank. -/
def State.byRank (s : State) : List Rid → List Rid
  | [] => []
  | r :: l =>
    let rest := s.byRank l
    (rest.takeWhile fun v => ahead (s.rank v) (s.rank r)) ++ r :: rest.dropWhile fun v => ahead (s.rank v) (s.rank r)
/-- Dies that are kept for the ready regions ahead of a region. -/
def State.keptAhead (s : State) (r : Rid) : List DieId :=
  (((s.byRank (s.rids.filter s.ready)).filter (· != r)).takeWhile fun v => ahead (s.rank v) (s.rank r)).foldl s.keptBy []
/-- Another ready region is ahead, and its gang fits now (R45). -/
def State.outranked (s : State) (r : Rid) : Bool :=
  s.rids.any fun v => v != r && s.ready v && s.share r v && ahead (s.rank v) (s.rank r) && (s.freePlaces v 0).isSome

/-! ## Start (R28, R36–R40, R92, R94) -/

/-- Physical rows of a die that no other region's slot holds. -/
def State.rowsFree (s : State) (r : Rid) (d : DieId) : List Nat :=
  let used := (s.slots.filter fun e => keyRid e.1 != r && e.2.die == d).flatMap fun e => e.2.rows
  (List.range 2048).filter fun x => !used.contains x
/-- Where a region's bundle memory stands: a place of its own (log 41). -/
def bmemBase (r : Rid) : Nat := r * 2 ^ 24
/-- A slot at region start. It issues in its die's first cycle of the start tick (R39). -/
def State.startCtx (s : State) (r : Rid) (n : Node) (x : Place) (tb : Nat) : Ctx :=
  let e := at0 n.entries x.slot 0
  { Ctx.blank with
    pos := if tb <= (s.die (dieId x.pkg x.phys)).tick then 1 else 0
    mode := .run, rid := r, slot := x.slot, pkg := x.pkg, phys := x.phys, pc := entLoad e + 64 * entEntry e
    tbase := tb, alast := (tb : Int) - 1, tguard := n.tguard, waitlim := n.waitlim, progress := tb, startAt := tb
    rows := (s.rowsFree r (dieId x.pkg x.phys)).take n.brows, bmem := bmemBase r, tried := 1 }
/-- The stream of a slot is loaded into its bundle memory. -/
def State.loadStream (s : State) (r : Rid) (n : Node) (x : Place) : List Upd :=
  let e := at0 n.entries x.slot 0
  [.zero (bundleAddr (dieId x.pkg x.phys) (bmemBase r) 0) (n.bmem * 4096),
   .mem (bundleAddr (dieId x.pkg x.phys) (bmemBase r) (entLoad e)) (s.bytes (n.image + entOffset e) (64 * entLength e))]
/-- The contract's first activation (R42, R43): its server's periods count from the start tick of its first region, where
one placed late has missed that tick too. -/
def startContract (n : Node) (r : Rid) (tb : Nat) : List Upd :=
  let first := if n.start != 0 then n.start else tb
  match n.server with
  | none => []
  | some v =>
    [.node r (fun n => { n with active := true, spent := false, missed := false }),
     .node v fun n =>
      if n.nextAt == 0 then { n with nextAt := first + n.period, dueAt := first + n.deadline, used := [] } else n]
/-- The gang starts on its dies, all slots together, with a TBASE. -/
def State.start (s : State) (r : Rid) (places : List Place) (tb : Nat) : List Upd :=
  let n := s.node r
  (places.flatMap fun x =>
    [.slot (slotKey r x.pkg x.slot) (fun _ => s.startCtx r n x tb),
     .die (dieId x.pkg x.phys) fun d => { d with run := some (slotKey r x.pkg x.slot) }] ++ s.loadStream r n x) ++
  [.node r fun n => { n with placed := places, tbase := tb, quantumAt := tb, readyAt := tb, admitted := [] }] ++
  startContract n r tb ++ setState s r 3

/-- The next tick at which every die of a package can begin. -/
def State.soon (s : State) (r : Rid) : Nat := s.gangTick r + 2
/-- A held region without a start tick has a predecessor that faulted, was refused or was cancelled (R36). -/
def State.predFailed (s : State) (r : Rid) : Bool :=
  let n := s.node r
  n.kind == .timetable && n.st == 2 && n.start == 0 && (s.predsDone n).any fun d => 2 <= d && d <= 4
/-- A held region is refused, or starts as soon as it is placed. -/
def State.tryStart (s : State) (r : Rid) (choice : Nat) : List Upd :=
  let n := s.node r
  if n.st != 2 || n.kind != .timetable then []
  else if s.predFailed r then setDone s r 0x0B 7 3
  else if !s.ready r || s.outranked r then []
  else match s.freePlaces r choice (s.keptAhead r) with
    | some l => s.start r l (s.soon r)
    | none => []

/-- GANG_START (R36). -/
def execGangStart (rid choice : Nat) (s : State) : Host.Outcome State Fault Refusal :=
  s.milliner (ridPkg rid) (.gangStart rid choice) (s.tryStart rid choice)

/-- A region that never starts (R37): its record, and a notice to the owner of its parent's fault domain. -/
def State.neverStarts (s : State) (r : Rid) (cause : Cause) (addr : Nat) : List Upd :=
  let n := s.node r
  let c := { Ctx.blank with pkg := ridPkg r, tguard := n.tguard }
  writeBytes (n.rcb + 0x0D0) (faultRecord c (trapAt 0 cause addr) (s.nodeTick r)) ++ setDone s r 0 6 2 ++
  notice s (s.domainOf n.parent)

def State.startTickDue (s : State) (r : Rid) : Bool :=
  let n := s.node r
  n.kind == .timetable && n.st == 2 && n.start != 0 && !n.due && n.start <= s.gangTick r
/-- START_TICK (R37): dies are looked for, and other regions ordered to stop, from the start tick on and not before it
(DESIGN CHOICE, log 29). -/
def execStartTick (rid choice : Nat) (s : State) : Host.Outcome State Fault Refusal :=
  if !s.startTickDue rid then s.same
  else
    let n := s.node rid
    s.milliner (ridPkg rid) (.startTick rid choice)
      (match (s.predsDone n).findIdx? (· != 1) with
       | some i => s.neverStarts rid .predecessorLate (at0 (s.predWords n.rcb) i 0).toNat
       | none =>
         if n.start + n.tguard < s.gangTick rid then s.neverStarts rid .startLate n.start else
         let due : Upd := .node rid fun n => { n with due := true, readyAt := s.nodeTick rid }
         let s' := s.apply due
         match (if s'.outranked rid then none else s'.freePlaces rid choice (s'.keptAhead rid)) with
         | some l => due :: s'.start rid l (if s.gangTick rid <= n.start + 1 then n.start else s.soon rid)
         | none => [due])

def State.startLateDue (s : State) (r : Rid) : Bool :=
  let n := s.node r
  n.kind == .timetable && n.st == 2 && n.start != 0 && n.due && n.start + n.tguard < s.gangTick r
/-- START_LATE (R37). -/
def execStartLate (rid : Nat) (s : State) : Host.Outcome State Fault Refusal :=
  if s.startLateDue rid then
    s.milliner (ridPkg rid) (.startLate rid) (s.neverStarts rid .startLate (s.node rid).start)
  else s.same

/-! ## Stops (R46, R252, R254) -/

/-- Accesses that the drain performs. -/
def Effect.drains (e : Effect) : Bool :=
  e.isBank || match e with
    | .matRead _ _ => true
    | .loopRead => true
    | .solver _ _ _ => true
    | _ => false
/-- The accesses due at a slot's position are performed in the order of R71, among the lines of the die's spine in the
same die cycle (R252). A solve that writes its slot in that die cycle serves them (R86). -/
def drainUpdsFrom (k : SlotKey) : Nat → State → List Upd
  | 0, _ => []
  | n + 1, s =>
    let c := s.slot k
    match firstLanding c.pos (c.land.filter fun l => l.due == c.pos && l.eff.drains) with
    | none => []
    | some l => let u := landNext s k c.die (some l) (s.spineLanding c.die); u ++ drainUpdsFrom k n (s.commit u)
/-- The bundle after a YIELD keeps its distance from it (R429, log 42). -/
def Ctx.resumeYield (next : Nat) (c : Ctx) : Ctx :=
  if c.mode != .yielded then c
  else
    let gap := next - 1 - c.iss.pos
    { c with origin := c.origin + gap, spanAt := c.spanAt + gap, earliest := c.earliest + gap }
/-- A slot that stops before its present position (R252): its results in flight stay with their positions, and the lock that
it waits for is known still (R49). `yields` says that the gang has yielded; a slot alone that has executed its YIELD waits
on there after the resumption. -/
def Ctx.stop (tick : Nat) (yields : Bool) (c : Ctx) : Ctx :=
  let c := if yields then c.resumeYield c.pos else c
  { c with
    mode := if c.mode == .ended then .ended else .stopped, atYield := !yields && c.mode == .yielded
    wait := if c.wait.active && c.mode == .run then { Wait.blank with lock := c.wait.lock, lockAt := c.wait.lockAt } else .blank
    pos := c.pos - 1, tried := c.pos, stopPos := c.pos - 1, stopTick := tick, shadowed := true }
/-- A slot stops, and its context moves to shadow storage. An arrival at a YIELD that waits is abandoned (R252); inside a
window the units that its circuits hold are discarded with the stop (R239). -/
def State.stopSlot (s : State) (yields : Bool) (k : SlotKey) : List Upd :=
  let c := s.slot k
  let u := drainUpdsFrom k (2 * c.land.length + (s.die c.die).spine.length + 1) s
  u ++ dropAsked s k ++ (if (s.node c.rid).forced then overrunUpds s (· == k) else []) ++
  (if c.mode == .run then [c.unyield] else []) ++
  [.slot k (fun x => (x.abandonSteps (s.commit u)).stop (s.dieTick c.die) yields),
   .die c.die fun d => { d with run := none, shadow := d.shadow ++ [k] }]

/-- The slot stands at an elastic point. -/
def State.atElastic (s : State) (c : Ctx) : Bool :=
  c.mode == .yielded ||
  (c.mode == .run && c.pending.isNone && !c.early (s.bundle c) && hdrElastic (s.bundle c))
/-- A slot has still to stop, and its present die cycle has not been used. -/
def Ctx.stoppable (c : Ctx) : Bool :=
  c.mode == .ended || (c.mode == .run && c.tried != c.pos + 1) || (c.mode == .yielded && c.iss.pos < c.pos)
/-- The stop order reaches a slot. -/
def State.stopsNow (s : State) (n : Node) (k : SlotKey) : Bool :=
  let c := s.slot k
  match n.stopping with
  | none => false
  | some t =>
    t <= s.dieTick c.die && c.stoppable && (s.die c.die).run == some k &&
    (c.mode == .ended || n.forced || !(n.stopWin || n.expired) || (s.atElastic c && !s.windowOpen c.rid))
/-- The stop is to be deferred: a window is open when the stop tick reaches a slot that runs, on the counter that its die
reads. -/
def State.defers (s : State) (r : Rid) (n : Node) : Bool :=
  !n.forced && !n.stopWin && !n.expired && s.windowOpen r &&
  (n.keys r).any fun k => (s.die (s.slot k).die).run == some k &&
    n.stopping.any fun t => t <= max (s.nodeTick r) (s.dieTick (s.slot k).die)
/-- No slot of the gang issues any more. -/
def State.allStopped (s : State) (r : Rid) (n : Node) : Bool :=
  (n.keys r).all fun k => (s.die (s.slot k).die).run != some k
/-- The region is pre-empted from a stop tick. -/
def becomeStopped (s : State) (r : Rid) (t : Nat) : List Upd :=
  [.node r fun n => { n with stopping := none, stopWin := false, forced := false, expired := false, stopTick := t,
                             readyAt := s.nodeTick r }] ++ setState s r 4
/-- The whole gang, which has yielded, stops at once. -/
def State.stopAll (s : State) (r : Rid) (t : Nat) : List Upd :=
  seqUpds s ((((s.node r).keys r).map fun k s => if (s.die (s.slot k).die).run == some k then s.stopSlot true k else []) ++
    [fun s => .node r (fun n => { n with yieldS := [] }) :: becomeStopped s r t])

/-- Every slot that has not ended has issued its YIELD. -/
def State.gangYielded (s : State) (r : Rid) (n : Node) : Bool :=
  n.st == 3 && (n.keys r).any (fun k => (s.slot k).mode == .yielded) &&
  (n.keys r).all fun k => ((s.slot k).mode == .yielded && (s.slot k).iss.pos < (s.slot k).pos) || (s.slot k).mode == .ended
/-- A region could be placed on a die that another one holds. -/
def State.wants (s : State) (v r : Rid) : Bool :=
  ((s.node v).on v).any fun p => (s.options v p).any fun l => l.any fun i => s.runner (dieId p i) == some r
/-- Another region of equal or higher effective priority is ready for its dies (R34). -/
def State.rival (s : State) (r : Rid) : Bool :=
  s.rids.any fun v => v != r && s.ready v && s.wants v r && !ahead ((s.rank r).take 3) ((s.rank v).take 3)
/-- What becomes of a gang that has yielded: a contract's activation ends; a best-effort region continues or is
suspended. -/
def State.yieldEnd (s : State) (r : Rid) (n : Node) : List Upd :=
  if n.server.isSome then
    .node r (fun n => { n with active := false }) :: (s.apply (.node r fun n => { n with active := false })).stopAll r (s.nodeTick r)
  else if s.rival r || n.stopping.isSome then s.stopAll r (s.nodeTick r)
  else
    .node r (fun n => { n with yieldS := [] }) ::
    ((n.keys r).filter fun k => (s.slot k).mode == .yielded).map fun k =>
      .slot k fun c => { c.resumeYield c.pos with mode := .run, tried := 0 }

def State.preemptDue (s : State) (r : Rid) : Bool :=
  let n := s.node r
  n.st == 3 && !n.halting && (s.gangYielded r n || s.defers r n || (n.keys r).any (s.stopsNow n))
/-- A stop that has begun goes on; one that falls during a takeover waits for its end (R52). -/
def State.stopBegun (s : State) (n : Node) (r : Rid) : Bool := n.stopping.isSome && (n.keys r).any fun k => (s.slot k).mode == .stopped
/-- PREEMPT_STOP (R34, R46, R252): the slots that the stop order has reached stop; after the last one the region is
pre-empted. -/
def execPreemptStop (rid : Nat) (s : State) : Host.Outcome State Fault Refusal :=
  let n := s.node rid
  if !s.preemptDue rid then s.same
  else if s.gangYielded rid n then s.milliner (ridPkg rid) (.preemptStop rid) (s.yieldEnd rid n)
  else if s.defers rid n then s.milliner (ridPkg rid) (.preemptStop rid) [.node rid fun n => { n with stopWin := true }]
  else
    let us := seqUpds s (((n.keys rid).map fun k s => if s.stopsNow n k then s.stopSlot false k else []) ++
      [fun s => if s.allStopped rid n then becomeStopped s rid (n.stopping.getD 0) else []])
    if s.stopBegun n rid then s.by_ us else s.milliner (ridPkg rid) (.preemptStop rid) us

/-- The deferral of a stop has lasted CWMAX ticks since the stop tick (R46). A stop that is ordered for an expired quantum
has no stop tick until an elastic point is reached (R44): it waits for one outside every window and is never a window
overrun (log 29). -/
def State.overrunDue (s : State) (r : Rid) : Bool :=
  let n := s.node r
  n.st == 3 && !n.halting && n.stopWin && !n.forced && n.stopping.any fun t => t + n.cwmax <= s.nodeTick r
/-- WINDOW_OVERRUN (R46, R239): the stop tick stays that of the order, from which each slot's offset counts (R47). -/
def execWindowOverrun (rid : Nat) (s : State) : Host.Outcome State Fault Refusal :=
  if !s.overrunDue rid then s.same
  else
    let n := s.node rid
    let w := (n.wover + 1) % 2 ^ 32
    s.milliner (ridPkg rid) (.windowOverrun rid)
      (.node rid (fun n => { n with forced := true, wover := w }) ::
        writeBytes (n.rcb + 0x104) (toBytes 4 w) ++ overrunUpds s (keyRid · == rid) ++ notice s (s.domainOf rid))

/-- CONTEXT_EVICT (R254): with no shadow storage free, the least recently stopped context moves to device memory, a
best-effort one before a contract's, a contract's only on a die with more than two contracts. -/
def execContextEvict (s : State) : Host.Outcome State Fault Refusal :=
  let d := s.die s.cur
  let free := fun (k : SlotKey) => (s.node (keyRid k)).server.isNone
  let pick := match d.shadow.find? free with
    | some k => some k
    | none => if 2 < (s.contracts s.cur).length then d.shadow.head? else none
  if d.shadow.length < 4 then s.same
  else match pick with
    | some k => s.by_ [.die s.cur (fun d => { d with shadow := d.shadow.erase k }), .slot k fun c => { c with shadowed := false }]
    | none => s.same

/-! ## Resumption (R47, R48, R253) -/

/-- Bytes that move: the destination reads as the source did. -/
def State.moveBytes (s : State) (src dst n : Nat) : List Upd :=
  .zero dst n :: (s.mem.filter fun e => src <= e.1 && e.1 < src + n).map fun e => .mem (dst + (e.1 - src)) [e.2]
/-- A slot's rows and bundle memory move to another die (R48). -/
def State.moveSlot (s : State) (r : Rid) (n : Node) (c : Ctx) (d : DieId) (rows : List Nat) : List Upd :=
  ((c.rows.zip rows).flatMap fun x => s.moveBytes (bankAddr c.die x.1 0 0) (bankAddr d x.2 0 0) (2 ^ 17)) ++
  s.moveBytes (bundleAddr c.die (bmemBase r) 0) (bundleAddr d (bmemBase r) 0) (n.bmem * 4096)
/-- Zeros of the moves stand before their writes. -/
def zerosFirst (us : List Upd) : List Upd :=
  let z := fun (u : Upd) => match u with
    | .zero _ _ => true
    | _ => false
  us.filter z ++ us.filter fun u => !z u

/-- A slot's context as it resumes: times shift by the pre-emption length, a new activation sets them afresh. Progress made
in the pre-emption, by an answer (R202), counts from the resumption on, as the count stands still until then (R50). -/
def Ctx.resumeAt (t at_ : Nat) (newAct : Bool) (c : Ctx) : Ctx :=
  let l := at_ - t
  { c with
    mode := if c.mode == .stopped then .run else c.mode
    tbase := if newAct then at_ else c.tbase + l
    alast := if newAct then (at_ : Int) - 1 else c.alast + l
    progress := min c.progress c.stopTick + l
    startAt := at_ + c.stopTick - t
    xrecvs := c.xrecvs.map fun x => (x.1, x.2.1, x.2.2.1 + l, x.2.2.2)
    cuffs := c.cuffs.map fun e => (e.1, e.2.map fun y => { y with tick := y.tick + l }) }
/-- The gang resumes on its dies or on others (R253). -/
def State.resumeOn (s : State) (r : Rid) (places : List Place) : List Upd :=
  let n := s.node r
  let at_ := s.soon r
  let moved := places.any fun x => (s.slot (slotKey r x.pkg x.slot)).phys != x.phys
  zerosFirst (places.flatMap fun x =>
    let c := s.slot (slotKey r x.pkg x.slot)
    if c.phys == x.phys then [] else s.moveSlot r n c (dieId x.pkg x.phys) (s.rowsFree r (dieId x.pkg x.phys))) ++
  (places.flatMap fun x =>
    let k := slotKey r x.pkg x.slot
    let c := s.slot k
    [.die c.die (fun d => { d with shadow := d.shadow.erase k }),
     .die (dieId x.pkg x.phys) (fun d => { d with run := some k }),
     .slot k fun c =>
      let rows := if c.phys == x.phys then c.rows else (s.rowsFree r (dieId x.pkg x.phys)).take n.brows
      { c.resumeAt n.stopTick at_ n.newAct with
        phys := x.phys, rows := rows, placegen := if moved then (c.placegen + 1) % 2 ^ 32 else c.placegen }]) ++
  [.node r fun n =>
    { n with placed := places, tbase := if n.newAct then at_ else n.tbase + (at_ - n.stopTick)
             quantumAt := at_, readyAt := at_, expired := false }] ++ setState s r 3

def State.tryResume (s : State) (r : Rid) (choice : Nat) : List Upd :=
  if (s.node r).st != 4 || !s.ready r || s.outranked r then []
  else match s.freePlaces r choice (s.keptAhead r) with
    | some l => s.resumeOn r l
    | none => []
/-- RESUME (R253). -/
def execResume (rid choice : Nat) (s : State) : Host.Outcome State Fault Refusal :=
  s.milliner (ridPkg rid) (.resume rid choice) (s.tryResume rid choice)

/-! ## Dispatch and quanta (R44, R45) -/

/-- The regions in the way of a placement are ordered to stop. -/
def State.orderStops (s : State) (places : List Place) : List Upd :=
  ((places.filterMap fun x => s.runner (dieId x.pkg x.phys)).eraseDups).filterMap fun v =>
    if (s.node v).ordered then none
    else some (.node v fun n => { n with stopping := some (s.soon v), expired := false })
/-- What a dispatch does (R44, R45), of the ready regions in the order of their rank: the first whose gang fits starts or
resumes, or the regions that it pre-empts are ordered to stop. One that waits for stops that have been ordered, or for
quanta to end, keeps its dies, and those behind it are dispatched on others. -/
def State.dispatchFrom (s : State) (pkg choice : Nat) : List DieId → List Rid → List Upd
  | _, [] => []
  | kept, r :: l =>
    if !((s.node r).on r).contains pkg then s.dispatchFrom pkg choice (s.keptBy kept r) l
    else match s.freePlaces r choice kept, s.waitPlaces r kept, s.takenPlaces r choice kept with
      | some x, _, _ => if (s.node r).st == 4 then s.resumeOn r x else s.start r x (s.soon r)
      | none, none, some x => s.orderStops x
      | _, _, _ => s.dispatchFrom pkg choice (s.keptBy kept r) l
def State.dispatchUpds (s : State) (pkg choice : Nat) : List Upd :=
  s.dispatchFrom pkg choice [] (s.byRank (s.rids.filter s.ready))
/-- DISPATCH (R44, R45). -/
def execDispatch (pkg choice : Nat) (s : State) : Host.Outcome State Fault Refusal :=
  s.milliner pkg (.dispatch pkg choice) (s.dispatchUpds pkg choice ++ [.drawn 1])
/-- What a Milliner has to do by now: it dispatches what it can at the latest at the next tick that is a multiple of 500,
which leaves the 2,000 ticks that R41 counts for a pre-emption untouched, so that R45's bound and the promises of T2.8
stand (R52, log 9). -/
def State.dispatchDue (s : State) (p : PkgId) : Option Instr :=
  let k := s.pkg p
  let choice := (s.freeWord 0).toNat
  if !k.up || k.takeover || k.gtc % 500 != 0 then none
  else if !k.launchQ.isEmpty then some (.launchValidate p)
  else if !(s.dispatchUpds p choice).isEmpty then some (.dispatch p choice)
  else none

def State.quantumDue (s : State) (r : Rid) : Bool :=
  let n := s.node r
  n.st == 3 && !n.halting && !n.contract && n.stopping.isNone &&
  n.quantumAt + s.quantum (ridPkg r) n.bandNow <= s.nodeTick r
/-- QUANTUM_EXPIRY (R44): a region of the same band waits for a die of the region, which then stops at its next elastic
point; otherwise a new quantum begins. -/
def execQuantumExpiry (rid : Nat) (s : State) : Host.Outcome State Fault Refusal :=
  if !s.quantumDue rid then s.same
  else
    let waits := s.rids.any fun v => v != rid && s.ready v && s.wants v rid && !s.preempts rid v
    s.milliner (ridPkg rid) (.quantumExpiry rid)
      [.node rid fun n =>
        if waits then { n with stopping := some (s.soon rid), expired := true } else { n with quantumAt := s.nodeTick rid }]

/-! ## Contracts (R41–R43) -/

/-- Regions that run under the contract of a node. -/
def State.under (s : State) (v : Rid) : List Rid :=
  (s.nodes.filter fun e => e.2.server == some v && e.2.kind == .timetable && e.2.done == 0).map fun e => e.1
/-- The contract whose budget a tick of a running region is charged to: of its own and those that it runs on as a loan,
the one ahead (R42, R49). -/
def State.charged (s : State) (r : Rid) : Option Rid :=
  (((s.backers 8 r).filter fun l => s.inContract l (s.node l)).foldl (fun (best : Option Rid) l =>
    match best with
    | some b => if ahead (s.ownRank l) (s.ownRank b) then some l else some b
    | none => some l) none).bind fun l => (s.node l).server
/-- One tick of a package passes for the budgets, on the dies that a region holds from its start or resumption on (R42). -/
def chargeUpds (s : State) (p : PkgId) : List Upd :=
  (s.nodes.filter fun e => e.2.st == 3 && e.2.kind == .timetable && !e.2.halting).flatMap fun e =>
    match s.charged e.1 with
    | none => []
    | some v => (e.2.placed.filter fun x => x.pkg == p && (s.slot (slotKey e.1 x.pkg x.slot)).startAt <= s.gtc p).map fun x =>
        .node v fun n => { n with used := mmod n.used (dieId x.pkg x.phys) 0 (· + 1) }

def State.periodDue (s : State) (v : Rid) : Bool :=
  let n := s.node v
  n.nextAt != 0 && n.done == 0 && n.nextAt <= s.nodeTick v
/-- PERIOD_START (R42, R43): a fresh budget; a pre-empted region that has yielded begins an activation; a region that has
not absorbs the budget; one that has never started has no activation yet. DESIGN CHOICE (log 29): an activation that had
exhausted its budget and absorbs this one is a contract again, and may exhaust it again; what is left of the earlier
budget is not carried into the new period. -/
def execPeriodStart (rid : Nat) (s : State) : Host.Outcome State Fault Refusal :=
  if !s.periodDue rid then s.same
  else
    let n := s.node rid
    let late := (s.under rid).any fun r => (s.node r).active
    s.milliner (ridPkg rid) (.periodStart rid)
      (.node rid (fun n => { n with
          nextAt := n.nextAt + n.period, dueAt := n.nextAt + n.deadline
          used := if late then n.used.map fun e => (e.1, e.2 - n.budget) else [] }) ::
       (s.under rid).map fun r => .node r fun m =>
         if m.active then { m with spent := false, missed := false }
         else if m.st == 4 then { m with active := true, spent := false, missed := false, newAct := true, readyAt := n.nextAt }
         else m)

/-- The dies on which ticks are charged for a region: its own, and those of the owners that run on its loan (R49). -/
def State.chargedDies (s : State) (r : Rid) : List DieId :=
  let n := s.node r
  (s.nodes.filter fun e => e.1 == r || e.2.st == 3 && e.2.server != n.server && s.charged e.1 == n.server).flatMap fun e =>
    e.2.placed.map fun x => dieId x.pkg x.phys
/-- A contract's budget is used up on a die, while an activation runs or has been pre-empted: its region shares the budget
with others (R25), and lends it (R49). -/
def State.budgetDue (s : State) (r : Rid) : Bool :=
  let n := s.node r
  (n.st == 3 || n.st == 4) && n.contract &&
  let v := s.node (n.server.getD r)
  (s.chargedDies r).any fun d => v.budget <= mget v.used d 0
/-- BUDGET_EXHAUSTED (R43). -/
def execBudgetExhausted (rid : Nat) (s : State) : Host.Outcome State Fault Refusal :=
  if !s.budgetDue rid then s.same
  else
    let n := s.node rid
    let b := (n.bover + 1) % 2 ^ 32
    s.milliner (ridPkg rid) (.budgetExhausted rid)
      (.node rid (fun n => { n with spent := true, bover := b, quantumAt := s.nodeTick rid }) ::
       writeBytes (n.rcb + 0x100) (toBytes 4 b))

def State.deadlineDue (s : State) (r : Rid) : Bool :=
  let n := s.node r
  n.server.isSome && n.active && !n.missed && n.done == 0 && (s.node (n.server.getD r)).dueAt <= s.nodeTick r
/-- DEADLINE_MISS (R43). -/
def execDeadlineMiss (rid : Nat) (s : State) : Host.Outcome State Fault Refusal :=
  if !s.deadlineDue rid then s.same
  else
    let n := s.node rid
    let m := (n.dmiss + 1) % 2 ^ 32
    s.milliner (ridPkg rid) (.deadlineMiss rid)
      (.node rid (fun n => { n with missed := true, dmiss := m }) :: writeBytes (n.rcb + 0x108) (toBytes 4 m) ++
       notice s (s.domainOf rid))

/-! ## The end of regions (R33, R51, R53, R251) -/

/-- No copy and no encoder command of a region is under way. -/
def State.copiesDone (s : State) (r : Rid) : Bool :=
  !(s.dies.any fun e => (e.2.chan0 ++ e.2.chan1).any (fun o => keyRid o.key == r) ||
    e.2.encQ.any fun c => keyRid c.key == r)
/-- Its writes have performed too, and its slots' results have landed. -/
def State.quiet (s : State) (r : Rid) : Bool :=
  s.copiesDone r &&
  !(s.reqs.any fun q => keyRid q.key == r && q.open_ && match q.kind with
    | .load _ _ => false
    | k => k.toHome) &&
  ((s.node r).keys r).all fun k => (s.die (s.slot k).die).run != some k || (s.slot k).land.isEmpty
/-- The record of a slot whose region holds no die any more: its registers stay as they are, and nothing of it is under way
(R33 frees budgets alone). -/
def Ctx.release (c : Ctx) : Ctx :=
  { c with
    mode := .idle, wait := .blank, pending := none, late := [], xrecvs := [], bound := [], land := [], cuffs := [], lost := []
    lq := [], sq := [], aq := [], deferred := [], loop := none, acqUntil := [], kept := [], aside := [], rows := [], routes := [] }
/-- A region's budgets, contexts and bindings are freed. The encoder streams that it opened stay open: they are no part of its
context (R267), and Close alone frees one (R312). -/
def State.free (s : State) (r : Rid) (stopped : Bool) : List Upd :=
  let n := s.node r
  let keys := n.keys r
  (s.dies.map fun e => .die e.1 fun d =>
    { d with
      run := if d.run.any keys.contains then none else d.run
      shadow := d.shadow.filter fun k => !keys.contains k
      cuffIn := d.cuffIn.filter fun x => keyRid (x.1 / 4) != r }) ++
  keys.map (fun k => .slot k Ctx.release) ++
  ((s.reqs.filter fun q => keyRid q.key == r && q.owner.isNone).map fun q => .dropReq q.id) ++ unbindUpds s r stopped ++
  [.node r fun n => { n with placed := [], endedS := [], yieldS := [], halting := false, stopping := none }]

/-- Every slot has ended (R33), or the gang was stopped by a fault and is quiet. -/
def State.doneDue (s : State) (r : Rid) : Bool :=
  let n := s.node r
  n.kind == .timetable && s.quiet r &&
  ((n.st == 3 && !n.halting && !n.placed.isEmpty && (n.keys r).all fun k => (s.slot k).mode == .ended) ||
   (n.st == 6 && n.halting && (n.keys r).all fun k => (s.slot k).mode == .halted))
/-- Held regions without a start tick whose last predecessor ends become ready, and their wait begins (R36, R45). -/
def State.readied (s : State) (r : Rid) : List Upd :=
  let a := (s.node r).rcb
  (s.nodes.filter fun e => e.2.kind == .timetable && e.2.st == 2 && e.2.start == 0 && e.2.preds.contains a &&
    (e.2.preds.filter (· != a)).all fun b => s.num (b + 0x010) 8 == 1).map fun e =>
      .node e.1 fun n => { n with readyAt := s.nodeTick e.1 }
/-- REGION_DONE (R33): STATE 5 and DONE 1; budgets and bindings are freed. A gang that a fault stopped frees them when
its copies have completed (R251). -/
def execRegionDone (rid : Nat) (s : State) : Host.Outcome State Fault Refusal :=
  if !s.doneDue rid then s.same
  else s.milliner (ridPkg rid) (.regionDone rid)
    ((if (s.node rid).st == 6 then [] else setDone s rid 0 5 1 ++ s.readied rid) ++ s.free rid ((s.node rid).st == 6))

/-- A request of cancellation stands in the RCB. -/
def State.cancelSeen (s : State) (r : Rid) : Bool :=
  let n := s.node r
  1 <= n.st && n.st <= 4 && !n.cancel && n.done == 0 && s.num (n.rcb + 0x07C) 4 != 0
/-- The nodes that a cancellation reaches. -/
def State.cancelled (s : State) (r : Rid) : List Rid :=
  let n := s.node r
  let live := fun (e : Rid × Node) => 1 <= e.2.st && e.2.st <= 4 && e.2.done == 0
  if n.kind == .part then (s.nodes.filter fun e => live e && e.2.part == r).map fun e => e.1
  else (s.nodes.filter fun e => live e && e.2.kind != .part && s.domainOf e.1 == s.domainOf r).map fun e => e.1
/-- One node is cancelled, by its STATE. -/
def State.cancelOne (s : State) (r : Rid) : List Upd :=
  let n := s.node r
  if n.kind == .timetable && n.st <= 2 then setDone s r 0 8 4
  else if n.kind == .timetable then
    stopGang s r ++ [.node r fun n => { n with cancel := true, stopping := none }]
  else [.node r fun n => { n with cancel := true }]
/-- CANCEL_OBSERVED (R53). -/
def execCancelObserved (rid : Nat) (s : State) : Host.Outcome State Fault Refusal :=
  if !s.cancelSeen rid then s.same
  else s.milliner (ridPkg rid) (.cancelObserved rid)
    ((s.cancelled rid).flatMap s.cancelOne ++
     hitQueues s (if (s.node rid).kind == .part then (2, rid) else (1, s.domainOf rid)))

/-- What a partition holds is released (R53). -/
def State.endPart (s : State) (r : Rid) : List Upd :=
  freePart s r ++
  ((s.ranges.filter fun e => e.1 / 2 ^ 18 == r).map fun e => .range e.1 none) ++
  ((s.roots.filter fun e => e.1 / 2 ^ 11 == r).map fun e => .root e.1 none) ++
  ((s.planes.filter fun e => e.1 / 64 == r).map fun e => .plane e.1 fun _ => none) ++
  ((s.barriers.filter fun e => e.1 / 64 == r).map fun e => .barrier e.1 fun _ => none) ++
  ((s.windows.filter fun e => e.1 / 16 == r).map fun e => .window e.1 none) ++
  ((s.circuits.filter fun e => circKeyPart e.1 == r).map fun e => .circuit e.1 fun _ => none)
/-- A launch that a cancellation has reached is still queued. -/
def State.queuedHit (s : State) (h : Nat × Rid) : Bool := s.pkgs.any fun e => e.2.launchQ.any fun l => l.hits.contains h
def State.cancelDue (s : State) (r : Rid) : Bool :=
  let n := s.node r
  n.cancel && n.done == 0 &&
  match n.kind with
  | .timetable => s.quiet r
  | .inner => !s.queuedHit (1, s.domainOf r) &&
    s.nodes.all fun e => e.2.kind != .timetable || e.2.done != 0 || s.domainOf e.1 != s.domainOf r
  | .part => !s.queuedHit (2, r) && s.nodes.all fun e => e.1 == r || e.2.part != r || e.2.done != 0
/-- CANCEL_COMPLETE (R53). -/
def execCancelComplete (rid : Nat) (s : State) : Host.Outcome State Fault Refusal :=
  if !s.cancelDue rid then s.same
  else
    let n := s.node rid
    s.milliner (ridPkg rid) (.cancelComplete rid)
      ((match n.kind with
        | .timetable => s.free rid true
        | .inner => []
        | .part => s.endPart rid) ++ setDone s rid 0 8 4)

/-! ## The standby Milliner (R52) -/

/-- MILLINER_TAKEOVER (R52): running gangs go on; what falls during the takeover is kept. -/
def execMillinerTakeover (pkg : Nat) (s : State) : Host.Outcome State Fault Refusal :=
  if (s.pkg pkg).takeover || (s.pkg pkg).standby then s.same
  else s.by_ [.pkg pkg fun k => { k with takeover := true, standby := true }]
/-- TAKEOVER_COMPLETE (R52): it is carried out; a stop whose tick fell during the takeover takes place after it. -/
def execTakeoverComplete (pkg : Nat) (s : State) : Host.Outcome State Fault Refusal :=
  if !(s.pkg pkg).takeover then s.same
  else
    let late := s.nodes.filter fun e => ridPkg e.1 == pkg && e.2.stopping.isSome && !s.stopBegun e.2 e.1
    s.by_ (late.map (fun e => .node e.1 fun n => { n with stopping := n.stopping.map fun t => max t (s.soon e.1) }) ++
      [.pkg pkg (fun k => { k with takeover := false, heldWork := [] }), .micro (s.pkg pkg).heldWork])

end Sys2Proof.Machine
end

