-- ==== Sys2Proof/Machine/Fabric.lean ====
section
/-! DEFINITION. Links (R225, R226), routing (R224), optics (R232, R233, R236), the connection table (R237), and the
service commands that change them (R260, R445). -/

namespace Sys2Proof.Machine

/-! ## Links (R225, R226): numbered 32 × port + position -/

def State.linkNo (s : State) (p n : Nat) : Link := mget (s.pkg p).links n .blank
def modLink (p n : Nat) (f : Link → Link) : Upd := .pkg p fun k => { k with links := mmod k.links n .blank f }
/-- The link exists: it is no package's own position, and a minimal device has no optical port in service. -/
def State.isLink (s : State) (p n : Nat) : Bool :=
  n < 64 && n != (if n < 32 then colOf p else 32 + rowOf p) && !(s.pkg p).minimal
/-- The package at the other end of a link, and the link's number there. -/
def linkPeer (p n : Nat) : PkgId × Nat :=
  if n < 32 then (32 * rowOf p + n, colOf p) else (32 * (n - 32) + colOf p, 32 + rowOf p)
/-- A hop goes over a link, from the end at package p. -/
def Hop.on (p n : Nat) (h : Hop) : Bool := h.1 == p && 32 * h.2.1 + h.2.2.1 == n
/-- One end of a link goes down: what it held may take a detour, and so does what has been sent over it and is not
acknowledged (R223, R225). -/
def State.endDown (s : State) (p n : Nat) (f : Link → Link) : List Upd :=
  [modLink p n fun l => { f l with state := 0, held := [] }, interrupt p 2] ++
  ((s.reqs.filter fun r => r.way.any fun w => w.any (Hop.on p n)).map fun r => .req r.id fun q => { q with way := none }) ++
  (s.hidden.filter fun h => h.way.any fun w => w.any (Hop.on p n)).flatMap fun h =>
    [.unhide h.ref, .hide { h with way := none }]
/-- A link goes down, at both of its ends; an end in quarantine stays there. -/
def State.linkDown (s : State) (p n : Nat) (f : Link → Link := id) : List Upd :=
  let q := linkPeer p n
  s.endDown p n f ++
  (if (s.linkNo q.1 q.2).state == 0 || (s.linkNo q.1 q.2).state == 4 then [] else s.endDown q.1 q.2 id)
/-- A link is quarantined: what it held completes with the peer-unauthenticated fault. -/
def State.quarantine (s : State) (p n : Nat) (attempts : Nat) : List Upd :=
  (s.linkNo p n).held.flatMap (fun ref => refFail .peerUnauthenticated s ref ++ [.unhide ref]) ++
  [modLink p n (fun l => { l with state := 4, attempts := attempts, held := [] }), interrupt p 2]

/-- A replay is requested; the sixteenth in a row of one flit takes the link down. -/
def State.replay (s : State) (p n : Nat) (l : Link) : List Upd :=
  let l' := { l with replays := min 65535 (l.replays + 1), again := l.again + 1 }
  if 16 <= l'.again then s.linkDown p n fun _ => l' else [modLink p n fun _ => l']
/-- The colour of a plane that carries a flit of a link reaches its receiver (R13, R231, R236): a ring of the plane drops it,
and the fabric die of the plane is in service. Colour 4c + w of a row's plane comes from column c, and likewise in a
column. -/
def Pkg.lit (k : Pkg) (link plane w : Nat) : Bool :=
  plane < 72 && w < 4 && !k.fdFailed.getLsbD (plane / 36) &&
  (List.range 17).any fun i =>
    let r := k.ring (ringKey (72 * (link / 32) + plane) i)
    r.drops && !r.failed && r.colour == 4 * (link % 32) + w
/-- FLIT_RECEIVE (R225): bit 0 of `good` says that the flit arrives whole, bits [7:1] and [9:8] give its fibre plane and its
colour among the sender's four (log 6). -/
def execFlitReceive (pkg link seq good : Nat) (s : State) : Host.Outcome State Fault Refusal :=
  let l := s.linkNo pkg link
  let behind := (l.expect + 65536 - seq % 65536) % 65536
  if l.state != 3 then s.same
  else if good % 2 == 0 || !(s.pkg pkg).lit link (good / 2 % 128) (good / 2 ^ 8 % 4) then s.by_ (s.replay pkg link l)
  else if behind == 0 then s.by_ [modLink pkg link fun l => { l with expect := (l.expect + 1) % 65536, again := 0 }]
  else if behind <= 4096 then s.same
  else s.by_ (s.replay pkg link l)

/-- LOSS_OF_LIGHT (T12.1). -/
def execLossOfLight (pkg link : Nat) (s : State) : Host.Outcome State Fault Refusal :=
  let st := (s.linkNo pkg link).state
  if st == 0 || st == 4 then s.same else s.by_ (s.linkDown pkg link)

/-- LIGHT_PRESENT (T12.1). -/
def execLightPresent (pkg link : Nat) (s : State) : Host.Outcome State Fault Refusal :=
  if s.isLink pkg link && (s.linkNo pkg link).state == 0 then
    s.by_ [modLink pkg link fun l => { l with state := 1, held := [] }]
  else s.same

/-- LINK_ENABLE (R226): the driver starts a link that is down or quarantined, bits [7:0] of the operand; the bits above set
the threshold of its egress queue (R223, log 6). -/
def execLinkEnable (pkg link : Nat) (s : State) : Host.Outcome State Fault Refusal :=
  let n := link % 256
  let st := (s.linkNo pkg n).state
  if !s.isLink pkg n then s.same
  else s.by_ [modLink pkg n fun l =>
    { l with
      egress := link / 256, state := if st == 0 || st == 4 then 1 else l.state
      held := if st == 0 || st == 4 then [] else l.held }]

/-- OPTICAL_LOCK (T12.1): authentication begins, with 2 ms for it. -/
def execOpticalLock (pkg link : Nat) (s : State) : Host.Outcome State Fault Refusal :=
  if (s.linkNo pkg link).state != 1 then s.same
  else s.by_ [modLink pkg link (fun l => { l with state := 2, attempts := 0, since := s.gtc pkg }),
    .dropTimer (.authTimeout pkg link),
    .addTimer { pkg := pkg, tick := s.gtc pkg + 2000000, ev := .authTimeout pkg link }]

/-- AUTH_ATTEMPT (R226): `good` says that both checks hold. -/
def execAuthAttempt (pkg link good : Nat) (s : State) : Host.Outcome State Fault Refusal :=
  let l := s.linkNo pkg link
  if l.state != 2 then s.same
  else if good != 0 then
    s.by_ [modLink pkg link fun l => { l with state := 3, attempts := l.attempts + 1, replays := 0, again := 0, held := [] }]
  else if 3 <= l.attempts + 1 then s.by_ (s.quarantine pkg link (l.attempts + 1))
  else s.by_ [modLink pkg link fun l => { l with attempts := l.attempts + 1 }]

def State.authLate (s : State) (p n : Nat) : Bool :=
  (s.linkNo p n).state == 2 && (s.linkNo p n).since + 2000000 <= s.gtc p
/-- AUTH_TIMEOUT (R226). -/
def execAuthTimeout (pkg link : Nat) (s : State) : Host.Outcome State Fault Refusal :=
  if s.authLate pkg link then s.by_ (s.quarantine pkg link (s.linkNo pkg link).attempts) else s.same

/-! ## Service commands (R260, R445) -/

/-- Bytes of the service command queue are written. -/
def Pkg.putQueue (off : Nat) (bs : List Byte) (k : Pkg) : Pkg :=
  { k with queueMem := (bs.zipIdx.foldl (fun m x => mput (off + x.2) x.1 m) k.queueMem) }
/-- The status word of the command under way is written into its entry, and the service interrupt raised (R445). -/
def serviceDone (p code index : Nat) : List Upd :=
  [.pkg p (fun k =>
    { k.putQueue (64 * k.cmdNo + 0x38) (toBytes 8 (code % 256 + index % 256 * 256)) with cmdNo := (k.cmdNo + 1) % 256 }),
   interrupt p 4]
/-- A command is under way: a flip waits for the release, or a circuit is torn down. -/
def Pkg.busy (k : Pkg) : Bool := k.flipWait || k.conns.any fun e => e.2.state == 3
def State.serviceBusy (s : State) (p : PkgId) : Bool := (s.pkg p).busy
/-- Some router has not passed every marker. -/
def State.flipping (s : State) : Bool := s.pkgs.any fun e => !e.2.draining.isEmpty
/-- A command that cannot complete yet: a routing update before the release of the copy (R224), an invalidation while a
walk of its partition and space is under way (R168). -/
def State.cmdWaits (s : State) (i : Instr) : Bool :=
  match i with
  | .routingUpdate _ _ _ => s.flipping
  | .invalidateTranslation pkg part space _ _ =>
    ((List.range 8).map (dieId pkg)).any fun d => (s.die d).walks.any fun w => w.part == part && w.space == space
  | _ => false
/-- It is a command's turn: none is under way, and it is the oldest one that waits, or none waits (R260). -/
def State.cmdTurn (s : State) (i : Instr) (p : PkgId) : Bool :=
  !s.serviceBusy p && !s.cmdWaits i && (s.pkg p).queue.head?.all (· == i)
/-- A command joins the queue, which holds 256 with the one under way; there is no room for another. -/
def Pkg.enqueue (i : Instr) (k : Pkg) : Pkg :=
  if k.queue.length + (if k.busy then 1 else 0) < 256 then { k with queue := k.queue ++ [i] } else k
/-- A command leaves the queue as it begins. -/
def takeCmd (p : Nat) : Upd := .pkg p fun k => { k with queue := k.queue.drop 1 }
/-- A command: it waits for those before it, is refused with the lowest code whose condition holds, or is done. -/
def State.service (s : State) (i : Instr) (p index : Nat) (codes : List (Bool × Nat)) (us : List Upd) :
    Host.Outcome State Fault Refusal :=
  if !s.cmdTurn i p then s.by_ [.pkg p (Pkg.enqueue i)]
  else match codes.find? (·.1) with
    | some c => s.by_ (takeCmd p :: serviceDone p c.2 index)
    | none => s.by_ (takeCmd p :: us ++ serviceDone p 0 index)
/-- The oldest waiting command of a package, once it can begin. -/
def State.commandDue (s : State) (p : PkgId) : Option Instr :=
  (s.pkg p).queue.head?.bind fun i => if s.cmdTurn i p then some i else none

/-- UNKNOWN_COMMAND (R445). -/
def execUnknownCommand (pkg code : Nat) (s : State) : Host.Outcome State Fault Refusal :=
  s.service (.unknownCommand pkg code) pkg 0 [(true, 0x0A)] []

/-! ## Routing (R224) -/

/-- ROUTING_UPDATE (R224): the inactive copy of a fabric die's table takes an entry; bits [9:0] of the operand are the
destination, bit 10 the fabric die (log 6); it waits for the release of that copy. -/
def execRoutingUpdate (pkg dest entry : Nat) (s : State) : Host.Outcome State Fault Refusal :=
  let i := routeKey (6 + dest / 1024) (dest % 1024)
  s.service (.routingUpdate pkg dest entry) pkg dest [(2048 <= dest || 2 ^ 44 <= entry, 2)]
    [.pkg pkg fun k =>
      if k.version then { k with table0 := mput i entry k.table0 } else { k with table1 := mput i entry k.table1 }]

/-- Every source stamps the new version, and its markers are on their way. -/
def State.flipAll (s : State) : List Upd :=
  s.packages.map fun p => .pkg p fun k => { k with version := !k.version, draining := s.packages }
/-- ROUTING_FLIP (R224): a second flip waits for the release. -/
def execRoutingFlip (pkg : Nat) (s : State) : Host.Outcome State Fault Refusal :=
  if s.flipping && s.cmdTurn (.routingFlip pkg) pkg then
    s.by_ [takeCmd pkg, .pkg pkg fun k => { k with flipWait := true }]
  else s.service (.routingFlip pkg) pkg 0 [] s.flipAll

/-- The waiting flip is carried out at the release. -/
def State.flipNext (s : State) : List Upd :=
  match s.pkgs.find? fun e => e.2.flipWait with
  | some e => .pkg e.1 (fun k => { k with flipWait := false }) :: s.flipAll ++ serviceDone e.1 0 0
  | none => []
/-- A source has packets of the old version on their way; its markers come behind the last of them. -/
def State.oldPackets (s : State) (src : PkgId) : Bool :=
  (s.reqs.any fun r => diePkg r.die == src && r.open_ && r.way.isSome && r.stamp != (s.pkg src).version) ||
  s.hidden.any fun h => h.src / 64 == src && h.way.isSome && h.stamp != (s.pkg src).version
/-- DRAIN_MARKER (R224): the markers of a source have passed the router of a package. -/
def execDrainMarker (pkg src : Nat) (s : State) : Host.Outcome State Fault Refusal :=
  if !(s.pkg pkg).draining.contains src || s.oldPackets src then s.same
  else
    let u : Upd := .pkg pkg fun k => { k with draining := k.draining.erase src }
    let s' := s.apply u
    s.by_ (u :: if s'.flipping then [] else s'.flipNext)

/-! ## Optics (R232, R233, R236, R266) -/

/-- Plane number of a port's plane, as OPSEL selects it. -/
def planeNo (port plane : Nat) : Nat := 72 * (port % 2) + plane
def modRing (p i : Nat) (f : Ring → Ring) : Upd := .pkg p fun k => { k with rings := mmod k.rings i .blank f }

/-- BIAS_LIMIT (R232): the controller's BIAS comes to 0 or 4,095. -/
def execBiasLimit (pkg port plane mzm high : Nat) (s : State) : Host.Outcome State Fault Refusal :=
  let i := mzmKey (planeNo port plane) mzm
  if plane < 72 && mzm < 4 && ((s.pkg pkg).mzm i).auto then
    s.by_ [.pkg pkg (fun k => { k with mzms := mmod k.mzms i .blank fun m =>
      { m with bias := if high == 0 then 0 else 4095, qalarm := true } }), interrupt pkg 2]
  else s.same

/-- HEATER_APPLY (R233): the heater takes the code written last. -/
def execHeaterApply (pkg port plane ring : Nat) (s : State) : Host.Outcome State Fault Refusal :=
  s.by_ [modRing pkg (ringKey (planeNo port plane) ring) fun r => { r with applied := r.heat }]

/-- MON_UPDATE (R233): at a tick that is a multiple of 1,000; a ring without a colour reads a level below 1,024 (R439). -/
def execMonUpdate (pkg port plane ring reading : Nat) (s : State) : Host.Outcome State Fault Refusal :=
  if s.gtc pkg % 1000 == 0 && plane < 72 && ring < 17 then
    s.by_ [modRing pkg (ringKey (planeNo port plane) ring) fun r =>
      { r with mon := if r.cv then reading % 65536 else reading % 1024 }]
  else s.same

/-- The data of a ring's colour is dropped by it, and by no other ring of the plane that held the colour. -/
def Pkg.takeColour (pl ring : Nat) (k : Pkg) : Pkg :=
  let c := (k.ring (ringKey pl ring)).colour
  { k with rings := (List.range 17).foldl (fun m i =>
      let r := mget m (ringKey pl i) .blank
      if i == ring then mput (ringKey pl i) { r with drops := true } m
      else if r.drops && (r.colour == c || !r.cv) then mput (ringKey pl i) { r with drops := false } m
      else m) k.rings }
/-- COLOUR_TAKEOVER (R236): at the next flit boundary a colour's data is taken from the ring that holds it now. -/
def execColourTakeover (pkg port plane ring : Nat) (s : State) : Host.Outcome State Fault Refusal :=
  let pl := planeNo port plane
  if ring < 17 && ((s.pkg pkg).ring (ringKey pl ring)).cv then s.by_ [.pkg pkg (Pkg.takeColour pl ring)] else s.same

/-- A ring fails; its colour goes to the plane's spare, if that is free (R266). In a die cycle in which slots write rings the
processor goes by the rings as they stood without those writes, but with its own, and its write applies after theirs (R236,
R440). -/
def Pkg.ringFails (now pl ring : Nat) (k : Pkg) : Pkg :=
  let r := (k.ringsBefore now).ring (ringKey pl ring)
  let sp := (k.ringsBefore now).ring (ringKey pl 16)
  let k' := { k with rings := mmod k.rings (ringKey pl ring) .blank fun x => { x with failed := true } }
  if !r.cv then k'
  else if ring == 16 || (k.ring (ringKey pl 16)).failed || sp.cv then k'.setHealth fun h => h ||| (1#64 <<< 63)
  else
    let v := 2 ^ 39 + r.colour % 128 * 2 ^ 32 + sp.heat % 4096
    let k' := if k.ringsOpen now then k'.keepRing now ⟨0, pl, 16, v⟩ else k'
    (k'.writeRing pl 16 v).setHealth fun h => setBits 15 0 (min 65535 (bits h.toNat 15 0 + 1)) h
/-- RING_FAILURE (R266). -/
def execRingFailure (pkg port plane ring : Nat) (s : State) : Host.Outcome State Fault Refusal :=
  let pl := planeNo port plane
  if plane < 72 && ring < 17 && !((s.pkg pkg).ring (ringKey pl ring)).failed then
    s.by_ [.pkg pkg (Pkg.ringFails s.now pl ring)]
  else s.same

/-! ## The connection table (R237): entry 8 × source + destination -/

def State.conn (s : State) (p i : Nat) : Conn := mget (s.pkg p).conns i .blank
def modConn (p i : Nat) (c : Conn) : Upd := .pkg p fun k => { k with conns := mput i c k.conns }
/-- CIRCUIT_UP (R237): 2 µs after the setup request. -/
def execCircuitUp (pkg src dst : Nat) (s : State) : Host.Outcome State Fault Refusal :=
  let c := s.conn pkg (8 * src + dst)
  if c.state == 1 && c.since + 2000 <= s.gtc pkg then s.by_ [modConn pkg (8 * src + dst) { c with state := 2 }] else s.same

/-- Far sides of an operation that have not been served. -/
def CopyOp.openPtrs (o : CopyOp) : List Word :=
  match o.kind with
  | .atom => [o.dst]
  | .red => [o.dst]
  | k => ((List.range (max o.reads.count o.writes.count)).filter fun i => !o.farDone.contains i).map o.farPtr ++
      (if k == .putf then [o.flag] else [])
/-- Accesses of any die, issued by a tick, that go over the circuit between two dies of a package, there or with their
answers, and have not completed: requests, copies and the output of encoders. -/
def State.onCircuit (s : State) (p src dst t : Nat) : Bool :=
  let uses := fun pt ptr => (s.circuitPairs pt ptr).any fun x => x == (p, src, dst) || x == (p, dst, src)
  (s.reqs.any fun r => r.issued <= t && uses r.party r.ptr) ||
  s.dies.any fun e =>
    ([0, 1].any fun ch => (e.2.chan ch).any fun o =>
      o.tick <= t && o.fault.isNone && o.openPtrs.any (uses (o.party s e.1 ch))) ||
    e.2.encQ.any fun c => c.tick <= t && (uses (c.party s e.1) c.out || c.writing.any (uses (c.party s e.1)))
/-- The operand by which the processor looks again at a teardown under way; no command carries it (log 6). -/
def lookAgain : Nat := 2 ^ 16
/-- A circuit is gone, or the teardown that began at tick `t` waits for another tick. -/
def State.tearDown (s : State) (p src dst t : Nat) : List Upd :=
  let i := 8 * src + dst
  if s.onCircuit p src dst t then
    [modConn p i { count := 0, state := 3, since := t },
     .addTimer { pkg := p, tick := s.gtc p + 1, ev := .connectionTableEntry p src dst lookAgain }]
  else modConn p i .blank :: serviceDone p 0 i
/-- CONNECTION_TABLE_ENTRY (R237): the setup or teardown of a circuit between two dies of a package. -/
def execConnectionTableEntry (pkg src dst count : Nat) (s : State) : Host.Outcome State Fault Refusal :=
  let i := 8 * src + dst
  let c := s.conn pkg i
  let cmd := Instr.connectionTableEntry pkg src dst count
  if count == lookAgain && c.state == 3 then s.by_ (s.tearDown pkg src dst c.since)
  else if 8 <= src || 8 <= dst || src == dst || 16 < count then s.service cmd pkg i [(true, 2)] []
  else if count == 0 && c.state == 2 && s.cmdTurn cmd pkg then s.by_ (takeCmd pkg :: s.tearDown pkg src dst (s.gtc pkg))
  else if count == 0 then s.service cmd pkg i [] [modConn pkg i .blank]
  else if c.state == 0 then
    s.service cmd pkg i [] [modConn pkg i { count := count, state := 1, since := s.gtc pkg },
      .addTimer { pkg := pkg, tick := s.gtc pkg + 2000, ev := .circuitUp pkg src dst }]
  else s.service cmd pkg i [] [modConn pkg i { c with count := count }]

end Sys2Proof.Machine
end

