-- ==== Sys2Proof/Machine/Scalar.lean ====
section
/-! DEFINITION. S-slot arithmetic, logic, predicates and counts. Each writes its destination at issue + latency
(T15.11) when its predicate holds. -/

namespace Sys2Proof.Machine

/-- NOP (R355). -/
def execNop (_slot : SlotName) (s : State) : Host.Outcome State Fault Refusal := s.same

/-- ADD (R294). -/
def execAdd (f : SF) (s : State) : Host.Outcome State Fault Refusal :=
  scalarOp f 1 (fun c => satScalar f (· + ·) (f.av c) (f.bv c)) s
/-- SUB (R379). -/
def execSub (f : SF) (s : State) : Host.Outcome State Fault Refusal :=
  scalarOp f 1 (fun c => satScalar f (· - ·) (f.av c) (f.bv c)) s
/-- MUL (R352). -/
def execMul (f : SF) (s : State) : Host.Outcome State Fault Refusal :=
  scalarOp f 3 (fun c => satScalar f (· * ·) (f.av c) (f.bv c)) s
/-- MULH (R352): bits [127:64] of the product. -/
def execMulh (f : SF) (s : State) : Host.Outcome State Fault Refusal :=
  scalarOp f 3 (fun c =>
    if f.uns then word ((f.av c).toNat * (f.bv c).toNat / 2 ^ 64)
    else wordI ((f.av c).toInt * (f.bv c).toInt / 2 ^ 64)) s
/-- DIV (R327). -/
def execDiv (f : SF) (s : State) : Host.Outcome State Fault Refusal :=
  scalarOp f 20 (fun c => word (divRem 64 (!f.uns) (f.av c).toNat (f.bv c).toNat).1) s
/-- REM (R367). -/
def execRem (f : SF) (s : State) : Host.Outcome State Fault Refusal :=
  scalarOp f 20 (fun c => word (divRem 64 (!f.uns) (f.av c).toNat (f.bv c).toNat).2) s
/-- AND (R294). -/
def execAnd (f : SF) (s : State) : Host.Outcome State Fault Refusal :=
  scalarOp f 1 (fun c => f.av c &&& f.bv c) s
/-- ANDN (R294). -/
def execAndn (f : SF) (s : State) : Host.Outcome State Fault Refusal :=
  scalarOp f 1 (fun c => f.av c &&& ~~~(f.bv c)) s
/-- OR (R356). -/
def execOr (f : SF) (s : State) : Host.Outcome State Fault Refusal :=
  scalarOp f 1 (fun c => f.av c ||| f.bv c) s
/-- XOR (R427). -/
def execXor (f : SF) (s : State) : Host.Outcome State Fault Refusal :=
  scalarOp f 1 (fun c => f.av c ^^^ f.bv c) s
/-- SHL (R369). -/
def execShl (f : SF) (s : State) : Host.Outcome State Fault Refusal :=
  scalarOp f 1 (fun c => word (shl 64 (f.av c).toNat (shiftAmt 64 (f.bv c).toNat))) s
/-- SHR (R369). -/
def execShr (f : SF) (s : State) : Host.Outcome State Fault Refusal :=
  scalarOp f 1 (fun c => word (shr 64 (f.av c).toNat (shiftAmt 64 (f.bv c).toNat))) s
/-- SRA (R369). -/
def execSra (f : SF) (s : State) : Host.Outcome State Fault Refusal :=
  scalarOp f 1 (fun c => word (sra 64 (f.av c).toNat (shiftAmt 64 (f.bv c).toNat))) s
/-- ROL (R369). -/
def execRol (f : SF) (s : State) : Host.Outcome State Fault Refusal :=
  scalarOp f 1 (fun c => word (rol 64 (f.av c).toNat (shiftAmt 64 (f.bv c).toNat))) s
/-- MIN (R342). -/
def execMin (f : SF) (s : State) : Host.Outcome State Fault Refusal :=
  scalarOp f 1 (fun c =>
    let a := f.av c
    let b := f.bv c
    if (if f.uns then BitVec.ule a b else BitVec.sle a b) then a else b) s
/-- MAX (R342). -/
def execMax (f : SF) (s : State) : Host.Outcome State Fault Refusal :=
  scalarOp f 1 (fun c =>
    let a := f.av c
    let b := f.bv c
    if (if f.uns then BitVec.ule a b else BitVec.sle a b) then b else a) s
/-- CLZ (R317). -/
def execClz (f : SF) (s : State) : Host.Outcome State Fault Refusal :=
  scalarOp f 1 (fun c => word (clz64 (f.av c).toNat)) s
/-- POPC (R358). -/
def execPopc (f : SF) (s : State) : Host.Outcome State Fault Refusal :=
  scalarOp f 1 (fun c => word (popcount 64 (f.av c).toNat)) s
/-- SEL (R373). -/
def execSel (f : SF) (s : State) : Host.Outcome State Fault Refusal :=
  scalarOp f 1 (fun c => if c.p (f.mod.toNat % 16) != f.mod.getLsbD 4 then f.av c else f.bv c) s
/-- MOV (R349). -/
def execMov (f : SF) (s : State) : Host.Outcome State Fault Refusal :=
  scalarOp f 1 (fun c => f.av c) s
/-- LI (R338). -/
def execLi (f : SF) (s : State) : Host.Outcome State Fault Refusal :=
  scalarOp f 1 (fun c => f.bv c) s
/-- CMP (R318). -/
def execCmp (f : SF) (s : State) : Host.Outcome State Fault Refusal :=
  predOp f (fun c => cmpCond (f.mod.toNat % 16) (f.av c) (f.bv c)) s
/-- PAND (R357). -/
def execPand (f : SF) (s : State) : Host.Outcome State Fault Refusal :=
  predOp f (fun c => c.p f.a.toNat && c.p f.b.toNat) s
/-- POR (R357). -/
def execPor (f : SF) (s : State) : Host.Outcome State Fault Refusal :=
  predOp f (fun c => c.p f.a.toNat || c.p f.b.toNat) s
/-- PXOR (R357). -/
def execPxor (f : SF) (s : State) : Host.Outcome State Fault Refusal :=
  predOp f (fun c => c.p f.a.toNat != c.p f.b.toNat) s
/-- PNOT (R357). -/
def execPnot (f : SF) (s : State) : Host.Outcome State Fault Refusal :=
  predOp f (fun c => !c.p f.a.toNat) s
/-- KPOP without a count (R333). -/
def execKpop (f : SF) (s : State) : Host.Outcome State Fault Refusal :=
  scalarOp f 1 (fun c => word (popcount 1024 (c.k f.a.toNat).toNat)) s
/-- KPOP of the low n bits (R333). -/
def execKpopN (f : SF) (s : State) : Host.Outcome State Fault Refusal :=
  scalarOp f 1 (fun c => word (popcount f.imm.toNat (c.k f.a.toNat).toNat)) s

end Sys2Proof.Machine
end

