-- ==== Sys2Proof/Machine/Service.lean ====
section
/-! DEFINITION. The management and security processor and the host: start and attestation (R261–R263), the host's windows
(R258), interrupts (R259), installations (R164, R168, R209, R210, R220, R229, R238, R45), power (R264) and parts that fail
(R69, R266). -/

namespace Sys2Proof.Machine

/-! ## Start (R261–R263) -/

/-- Compute dies named by a mask of six bits, as HEALTH.DIES and a self-test give them. -/
def maskedDies (h : Word) : Nat := bits h.toNat 25 20
/-- A die after reset: what has been retired stays so. -/
def Die.restart (ok : Bool) (d : Die) : Die :=
  { Die.blank with
    service := ok, edge := d.edge, period := d.period, tick := d.tick, retired := d.retired, spares := d.spares
    dead := d.dead }
/-- SLIPMAX as the processor sets it at boot (T3.2): bits [26:15] of RESET's operand, up to 2,500, under bit 27; else the
value that Config gives (log 6). -/
def bootSlipmax (outcome : Nat) : Nat := if bit outcome 27 then min 2500 (bits outcome 26 15) else Config.slipmax
/-- A package at the beginning of a start (R261): its time, its health and its failed starts stay. What a reset does to the
discipline of Table 3.1 the spec does not say (DESIGN CHOICE, log 31): the GTC goes on, the PTP ports are disabled, so that
DISC is 0, with no time interrupt where it was 2, and the package may step forward once again when it next acquires. -/
def Pkg.restart (k : Pkg) : Pkg :=
  { Pkg.blank with
    grantAt := k.gtc
    present := k.present, gtc := k.gtc, tickAt := k.tickAt, starting := true, minimal := k.minimal, fails := k.fails
    reason := k.reason, health := k.health, starts := k.starts, resetAt := k.gtc, fdFailed := k.fdFailed
    hbmOut := k.hbmOut, pmax := k.pmax, rings := k.rings.map fun e => (e.1, { Ring.blank with failed := e.2.failed }) }
/-- The digests of the firmware images: SM3 of bytes that the spec does not give, free values (log 31). -/
def State.digest (s : State) (p : PkgId) : List Upd :=
  [.pkg p fun k => { k with digests := (List.range 16).map s.freeWord }, .drawn 16]
/-- Everything that a package's dies and its Milliner hold goes. A device in minimal mode stays so until a full start
succeeds (R263): no die comes into service before that. -/
def State.beginStart (s : State) (p : PkgId) : List Upd :=
  let mine := fun (part : Nat) => part / 2 ^ 22 == p
  (s.timers.filter fun t => t.pkg == p).map (fun t => .dropTimer t.ev) ++
  ((s.slots.filter fun e => keyPkg e.1 == p).map fun e => .slot e.1 fun _ => .blank) ++
  ((s.nodes.filter fun e => ridPkg e.1 == p).map fun e => .node e.1 fun _ => .blank) ++
  ((s.reqs.filter fun r => diePkg r.die == p).map fun r => .dropReq r.id) ++
  ((s.ranges.filter fun e => e.1 / 256 % 1024 == p).map fun e => .range e.1 none) ++
  ((s.roots.filter fun e => e.1 / 2 % 1024 == p).map fun e => .root e.1 none) ++
  ((s.planes.filter fun e => mine (e.1 / 64)).map fun e => .plane e.1 fun _ => none) ++
  ((s.barriers.filter fun e => mine (e.1 / 64)).map fun e => .barrier e.1 fun _ => none) ++
  ((s.windows.filter fun e => mine (e.1 / 16)).map fun e => .window e.1 none) ++
  ((s.circuits.filter fun e => circKeyPkg e.1 == p).map fun e => .circuit e.1 fun _ => none) ++
  ((List.range 6).map fun i => .die (dieId p i) (Die.restart (!bit (maskedDies (s.pkg p).health) i &&
    (!(s.pkg p).minimal || (s.die (dieId p i)).service)))) ++
  [.pkg p Pkg.restart, .addTimer { pkg := p, tick := s.gtc p + 2000000000, ev := .readyTimeout p }] ++ s.digest p

/-- The dies that pass self-test. -/
def passing (failing : Nat) : List Nat := (List.range 6).filter fun i => !bit failing i
/-- READY is set: a full start has succeeded. -/
def startDone (p : PkgId) (failing : Nat) : List Upd :=
  (List.range 6).map (fun i => .die (dieId p i) fun d => { d with service := !bit failing i }) ++
  [.pkg p fun k =>
    { k with
      starting := false, ready := true, minimal := false, fails := 0, reason := 0, starts := k.starts + 1
      hbmOut := BitVec.ofNat 12 (bits k.health.toNat 39 28) }.setHealth (setBits 25 20 failing), .dropTimer (.readyTimeout p)]
/-- A failed start (R263); the dies that failed their self-test are recorded (R266); the third in a row leaves one die, its
two stacks, and the ways to it: its links go down. -/
def State.startFailed (s : State) (p : PkgId) (reason failing : Nat) : List Upd :=
  let k := s.pkg p
  let min_ := k.minimal || 3 <= k.fails + 1
  let one := (passing failing).head?
  .pkg p (fun k =>
    { k with
      starting := false, ready := false, minimal := min_, fails := min 255 (k.fails + 1), reason := reason
      starts := k.starts + 1
      hbmOut := if min_ then
          match one with
          | some i => ~~~(3#12 <<< (2 * i)) ||| BitVec.ofNat 12 (bits k.health.toNat 39 28)
          | none => BitVec.allOnes 12
        else k.hbmOut }.setHealth (setBits 25 20 failing)) ::
  (if min_ then
    ((k.links.filter fun e => e.2.state != 0).flatMap fun e => s.linkDown p e.1) ++
    [.pkg p fun k => { k with links := [] }] ++
    (List.range 6).map fun i => .die (dieId p i) fun d => { d with service := one == some i }
   else []) ++
  [.dropTimer (.readyTimeout p)]

/-- RESET (R261, R263): a reset, unless a start is under way, and what comes of the start, which begins with the digests. The operand holds a REASON
in bits [7:0], the dies that fail self-test in [13:8], in [14] that the start is still under way, and SLIPMAX (log 6). -/
def execReset (pkg outcome : Nat) (s : State) : Host.Outcome State Fault Refusal :=
  let boot : List Upd := .pkg pkg (fun k => { k with failing := BitVec.ofNat 6 (bits outcome 13 8) }) ::
    (List.range 6).map fun i => .die (dieId pkg i) fun d => { d with slipmax := bootSlipmax outcome }
  let k := s.pkg pkg
  let begin := (if !k.starting then s.beginStart pkg else if k.digests.isEmpty then s.digest pkg else []) ++ boot
  let s' := s.commit begin
  let failing := bits outcome 13 8 ||| maskedDies (s'.pkg pkg).health
  let reason := if outcome % 256 == 0 && (passing failing).isEmpty then 5 else outcome % 256
  if bit outcome 14 then s.by_ begin
  else if reason == 0 then s'.by_ (startDone pkg failing)
  else s'.by_ (s'.startFailed pkg reason failing)

def State.readyLate (s : State) (p : PkgId) : Bool := (s.pkg p).starting && (s.pkg p).resetAt + 2000000000 <= s.gtc p
/-- READY_TIMEOUT (R263). -/
def execReadyTimeout (pkg : Nat) (s : State) : Host.Outcome State Fault Refusal :=
  if s.readyLate pkg then
    s.by_ ((if (s.pkg pkg).digests.isEmpty then s.digest pkg else []) ++ s.startFailed pkg 6 ((s.pkg pkg).failing.toNat ||| maskedDies (s.pkg pkg).health))
  else s.same

/-- BOOTSTAT (T14.2). -/
def Pkg.bootstat (k : Pkg) : Word :=
  word (k.reason % 256 * 2 ^ 16 + min k.fails 255 * 2 ^ 8 + flag k.minimal 1 + flag k.ready 0)

/-- The words of a report (R262), with the digests of the last start: nonce, part number, device key, firmware digests, HEALTH, start counter. -/
def Pkg.reportWords (p : PkgId) (nonce : Nat) (k : Pkg) : List Word :=
  [word nonce, Config.partNumber] ++
  (List.range 8).map (fun i => (Config.deviceKey p).extractLsb' (64 * i) 64) ++ k.digests ++ [k.health, word k.starts]
/-- ATTESTATION_REQUEST (R262). -/
def execAttestationRequest (pkg nonce : Nat) (s : State) : Host.Outcome State Fault Refusal :=
  s.by_ [.pkg pkg fun k => { k with report := some (k.reportWords pkg nonce, Config.signature (k.reportWords pkg nonce)) }]

/-! ## The host (R258, R259) -/

/-- Where a byte of the host's device-memory window is: its pointers are translated by the tables numbered 0 (log 22). -/
def State.hostByte (s : State) (p : PkgId) (need : Need) (ptr : Word) : Option Nat :=
  let off := offsetBits ptr
  if spaceOf ptr != 2 || !ptrOk 0 ptr then none
  else
    let t := match s.range? 0 p 0 off with
      | some r => some (r.pbase * 4096 + (off - r.vbase * 4096), r.perm)
      | none => (s.walkNow 0 p 0 off).map fun w => (w.1 + off % w.2.1, w.2.2)
    match t with
    | some (pa, perm) =>
      if devOk pa && permits perm need && !(s.pkg p).hbmOut.getLsbD (pa / 2 ^ 36) then some (devAddr p pa) else none
    | none => none
/-- The bytes of an access, if every one can be reached. -/
def State.hostBytes (s : State) (p : PkgId) (need : Need) (ptr : Word) (n : Nat) : Option (List Nat) :=
  (List.range n).mapM fun i => s.hostByte p need (ptrAdd ptr i)
/-- The service command queue in the register block: 256 entries of 64 bytes (log 6). -/
def inQueue (off n : Nat) : Bool := 0x4000 <= off && off + n <= 0x8000
/-- A read of the register block (log 6): BOOTSTAT, HEALTH, INTSTAT, the service command queue; a free value elsewhere. -/
def State.hostReg (s : State) (p : PkgId) (off n : Nat) : Word :=
  let k := s.pkg p
  if inQueue off n then word (ofBytes ((List.range n).map fun i => mget k.queueMem (off - 0x4000 + i) 0))
  else if off == 0 then k.bootstat else if off == 8 then k.health else if off == 16 then k.intstat else s.freeWord 0

/-- INTSTAT_WRITE (R259): each 1 clears its bit. -/
def execIntstatWrite (pkg bits : Nat) (s : State) : Host.Outcome State Fault Refusal :=
  s.by_ [.pkg pkg fun k => { k with intstat := k.intstat &&& ~~~(word bits) }]

/-- A write of the register block (R258, R30, R259): the launch port, INTSTAT, the service command queue. -/
def hostRegWrite (pkg off size data : Nat) (s : State) : Host.Outcome State Fault Refusal :=
  if inQueue off size then s.by_ [.pkg pkg (Pkg.putQueue (off - 0x4000) (toBytes size data))]
  else if off == 16 then execIntstatWrite pkg data s
  else if off == 24 then execLaunchPortStore pkg data s
  else s.same
/-- HOST_ACCESS (R258): a read or write of up to 8 bytes; below 2¹⁶ the operand is an offset of the register block, and a
pointer of space 0x5 names the companion's own memory (log 6). -/
def execHostAccess (pkg write ptr size data : Nat) (s : State) : Host.Outcome State Fault Refusal :=
  let read := fun (v : Word) => s.by_ [.pkg pkg (fun k => { k with hostRead := v }), .drawn 1]
  let own := hostAddr pkg (offsetBits (word ptr))
  if size == 0 || 8 < size then s.same
  else if ptr < 2 ^ 16 then
    if write == 0 then read (s.hostReg pkg ptr size) else hostRegWrite pkg ptr size data s
  else if spaceOf (word ptr) == 5 then
    if write == 0 then read (word (s.num own size)) else s.by_ (writeBytes own (toBytes size data))
  else if write == 0 then
    match s.hostBytes pkg .read (word ptr) size with
    | some l => read (word (ofBytes (l.map fun a => memByte s.mem a)))
    | none => read (s.freeWord 0)
  else
    match s.hostBytes pkg .write (word ptr) size with
    | some l => s.by_ ((l.zip (toBytes size data)).flatMap fun x => writeBytes x.1 [x.2])
    | none => s.same

/-! ## Translation (R164, R168) -/

/-- Reserved bits of a range entry. -/
def Range.reserved (r : Range) : Bool :=
  bits r.w0.toNat 63 54 != 0 || bits r.w0.toNat 11 0 != 0 || bits r.w1.toNat 63 54 != 0 || bits r.w1.toNat 11 0 != 0 ||
  bits r.w2.toNat 63 52 != 0 || bits r.w2.toNat 11 0 != 0 || bits r.w3.toNat 63 8 != 0 || bits r.w3.toNat 1 0 != 0
/-- A device range that translates beyond 40 bits. -/
def Range.beyond (r : Range) : Bool :=
  r.valid && r.spc == 0 && r.vbase <= r.vlast && 2 ^ 28 <= r.pbase + (r.vlast - r.vbase)
/-- INSTALL_RANGE_ENTRY (R164): entries 0–255; numbers 256 and 257 are the page-table roots of device and host space, a
table address in `w0` and V in `w3` (log 6). -/
def execInstallRangeEntry (pkg part index w0 w1 w2 w3 : Nat) (s : State) : Host.Outcome State Fault Refusal :=
  let r : Range := { w0 := word w0, w1 := word w1, w2 := word w2, w3 := word w3 }
  let cmd := Instr.installRangeEntry pkg part index w0 w1 w2 w3
  if index < 256 then
    s.service cmd pkg index [(r.reserved, 1), (r.beyond, 2)] [.range ((1024 * part + pkg) * 256 + index) (some r)]
  else
    s.service cmd pkg index [(bits w0 11 0 != 0 || bits w0 63 52 != 0, 1), (258 <= index, 2)]
      [.root ((1024 * part + pkg) * 2 + (index - 256)) (if r.valid then some (word w0) else none)]

/-- INVALIDATE_TRANSLATION (R168): it completes when no walk of the partition and space is under way and no entry of a
named page remains. -/
def execInvalidateTranslation (pkg part space first last : Nat) (s : State) : Host.Outcome State Fault Refusal :=
  s.service (.invalidateTranslation pkg part space first last) pkg 0 [(2 <= space, 2)]
    ((List.range 8).map fun i => .die (dieId pkg i) fun k => { k with tcache := k.tcache.filter fun e =>
      !(e.part == part && e.space == space && e.vbase < (last + 1) * 4096 && first * 4096 < e.vbase + e.size) })

/-! ## Planes, barriers, windows, circuits (R209, R210, R220, R229, R238) -/

/-- The descriptor of eight words (T11.4). -/
def planeOf (w0 w1 w2 w3 w4 : Nat) : Plane :=
  { base := word w0, nbase := word w1, mbase := word w2, lines := bits w3 23 0, group := bits w4 15 12
    rule := bits w4 11 10, ty := bits w4 4 0, frozen := false }
/-- The three areas, as first byte and length. -/
def Plane.spans (p : Plane) : List (Word × Nat) :=
  [(p.base, 64 * p.lines), (p.nbase, 64 * p.lines), (p.mbase, p.markBytes)]
/-- Fields within their ranges: one placement for the three areas, lines aligned. -/
def Plane.inRange (p : Plane) : Bool :=
  let place := fun (q : Word) => if spaceOf q == 1 then q.toNat / 2 ^ 56 else q.toNat / 2 ^ 29 % 2 ^ 25 + 3 * 2 ^ 60
  0 < p.lines && p.lines < 2 ^ 23 && p.rule < 3 && p.ty <= 14 && (spaceOf p.base == 1 || spaceOf p.base == 3) &&
  p.base.toNat % 64 == 0 && p.nbase.toNat % 64 == 0 && p.areas.all (ptrOk 6) &&
  p.areas.all fun q => spaceOf q == spaceOf p.base && place q == place p.base
def spansMeet (a b : Word × Nat) : Bool := overlaps (ptrPlain a.1) a.2 (ptrPlain b.1) b.2
/-- Areas overlap one another or those of another descriptor. -/
def Plane.meets (p : Plane) (others : List Plane) : Bool :=
  match p.spans with
  | [a, b, c] => spansMeet a b || spansMeet a c || spansMeet b c ||
      others.any fun o => o.spans.any fun x => p.spans.any (spansMeet x)
  | _ => false
/-- A crown area lies in one allocation of the partition. -/
def State.crownArea (s : State) (part : Nat) (x : Word × Nat) : Bool :=
  let off := x.1.toNat % 2 ^ 29
  (s.alloc? part (ptrPkg x.1) (if x.1.getLsbD 29 then 1 else 0) off).any fun a => off + x.2 <= (a.bank + a.units) * 65536
/-- A region of the partition issues on a die that names a group. -/
def State.groupRuns (s : State) (part g : Nat) : Bool :=
  s.nodes.any fun e => e.2.part == part && e.2.st == 3 &&
    e.2.placed.any fun x => (s.members part g).contains (x.slot * 2 ^ 10 + x.pkg)
/-- Zero is written to `n` bytes of bank space of a slot, row by row. -/
def Ctx.clearBank (c : Ctx) (off n : Nat) : List Upd :=
  (((List.range (n / 2 ^ 17 + 2)).map fun i => off / 2 ^ 17 + i).filterMap fun r =>
    let lo := max off (r * 2 ^ 17)
    let hi := min (off + n) ((r + 1) * 2 ^ 17)
    if lo < hi && r < c.rows.length then some (lo, hi) else none).flatMap fun x =>
      let line := c.lineNo (x.1 / 2 ^ 17) 0
      [.zero (c.bankAt x.1) (x.2 - x.1), .die c.die (Die.zeroed 0 (line + (x.1 % 2 ^ 17 + 63) / 64)
        (line + (x.2 - x.1 / 2 ^ 17 * 2 ^ 17) / 64))]
/-- The mark area of a region is zeroed. An area of bank space names no region (R210): it is zeroed in the rows of every
die slot of its number that a region of the partition holds then, and in no region that starts later (DESIGN CHOICE, log
32). -/
def State.clearMarks (s : State) (part : Nat) (p : Plane) : List Upd :=
  if spaceOf p.mbase == 1 then
    (s.slots.filter fun e => (s.node (keyRid e.1)).part == part && keySlot e.1 == ptrSlot p.mbase).flatMap fun e =>
      e.2.clearBank (offsetBits p.mbase) p.markBytes
  else
    let fd := if p.mbase.getLsbD 29 then 1 else 0
    let off := p.mbase.toNat % 2 ^ 29
    match s.alloc? part (ptrPkg p.mbase) fd off with
    | some a =>
      if a.lost then []
      else (a.home :: a.mirror.toList).flatMap fun q =>
        [.zero (homeAddr 2 q fd off) p.markBytes, .die (crownDie q) (Die.zeroedCrown fd off p.markBytes)]
    | none => []
/-- INSTALL_PLANE_DESCRIPTOR (R209, R210): V = 0 removes a descriptor. -/
def execInstallPlaneDescriptor (pkg part index w0 w1 w2 w3 w4 w5 w6 w7 : Nat) (s : State) :
    Host.Outcome State Fault Refusal :=
  let p := planeOf w0 w1 w2 w3 w4
  let p := { p with frozen := s.planeLost part p }
  let i := 64 * part + index
  let cmd := Instr.installPlaneDescriptor pkg part index w0 w1 w2 w3 w4 w5 w6 w7
  let others := (s.planes.filter fun e => e.1 / 64 == part && e.1 != i).map fun e => e.2
  let busy := s.groupRuns part p.group && bit w5 0 || (mfind i s.planes).any fun o => s.groupRuns part o.group
  let bad := bits w3 63 24 != 0 || bits w4 63 16 != 0 || bits w4 9 5 != 0 || bits w5 63 1 != 0 || w6 != 0 || w7 != 0
  if bit w5 0 then
    s.service cmd pkg index
      [(bad, 1), (64 <= index || !p.inRange, 2), (p.meets others, 3),
       (spaceOf p.base == 3 && !p.spans.all (s.crownArea part), 4),
       (spaceOf p.base == 1 && !p.spans.all (fun x => offsetBits x.1 + x.2 <= 2 ^ 28), 5),
       (p.rule == 1 && !(11 <= p.ty && p.ty <= 14), 6), (busy, 9)]
      (.plane i (fun _ => some p) :: s.clearMarks part p)
  else s.service cmd pkg index [(bad, 1), (64 <= index, 2), (busy, 9)] [.plane i fun _ => none]

/-- INSTALL_BARRIER_ENTRY (R220): members in the writer form of R212. -/
def execInstallBarrierEntry (pkg part index : Nat) (members : List Nat) (s : State) : Host.Outcome State Fault Refusal :=
  let i := 64 * part + index
  s.service (.installBarrierEntry pkg part index members) pkg index
    [(members.any fun m => 2 ^ 13 <= m, 1),
     (64 <= index || members.isEmpty || 64 < members.length || members.eraseDups.length != members.length ||
       members.any (fun m => 6 <= m / 2 ^ 10 % 8), 2),
     (members.any fun m => rowOf (m % 1024) != rowOf (members.headD 0 % 1024), 8)]
    [.barrier i fun b => some { Barrier.blank with members := members, phase := (b.map (·.phase)).getD 0 }]

/-- INSTALL_REDUCTION_WINDOW (R229). -/
def execInstallReductionWindow (pkg part index base size ty op : Nat) (s : State) : Host.Outcome State Fault Refusal :=
  let sp := spaceOf (word base)
  s.service (.installReductionWindow pkg part index base size ty op) pkg index
    [(16 <= index || sp < 2 || 4 < sp || !ptrOk 0 (word base) || size == 0 || !(ty ≤ 1 || (11 <= ty && ty <= 14)) || 3 <= op, 2)]
    [.window (16 * part + index) (some { base := word base, size := size, ty := ty, op := op })]

/-- Reserved bits of a circuit descriptor (T12.5). -/
def circReserved (w0 w2 w3 : Nat) : Bool :=
  bits w0 63 48 != 0 || bits w0 31 26 != 0 || bit w0 15 || bit w0 3 || bits w2 31 16 != 0 || w3 != 0
/-- INSTALL_CIRCUIT_DESCRIPTOR (R238): the peer is one optical hop away. -/
def execInstallCircuitDescriptor (pkg part slot index w0 w1 w2 w3 : Nat) (s : State) : Host.Outcome State Fault Refusal :=
  let d : BitVec 256 := ofElems 256 64 [w0, w1, w2, w3]
  let q := circPeerPkg d
  let hop := q != pkg && (if circPort d == 0 then rowOf q == rowOf pkg else colOf q == colOf pkg)
  s.service (.installCircuitDescriptor pkg part slot index w0 w1 w2 w3) pkg index
    [(circReserved w0 w2 w3, 1),
     (256 <= index || 6 <= slot || (circValid d && (circLen d == 0 || 50000 < circLen d || 6 <= circPeerSlot d)), 2),
     (circValid d && !hop, 7)]
    [.circuit (circKey part pkg slot index) fun c => some { c.getD .blank with desc := d }]

/-- SET_BAND_QUANTUM (R45). -/
def execSetBandQuantum (pkg band value : Nat) (s : State) : Host.Outcome State Fault Refusal :=
  s.service (.setBandQuantum pkg band value) pkg band [(8 <= band, 2)] [.pkg pkg fun k => { k with quanta := mput band value k.quanta }]

/-! ## Power (R264, R265): in units of a watt ÷ 600 -/

/-- The node that issues on a die. -/
def State.issuer (s : State) (d : DieId) : Option Node := (s.runner d).map s.node
/-- The part of an allotment that a category takes (T14.3): the compute die, its home stacks, the fabric dies. An
allotment on which no region issues is split as class 0 (log 46). -/
def powerPart (pmax : Nat) (n : Option Node) (category : Nat) : Nat :=
  pmax * (if n.any (fun n => n.pclass == 1) then at0 [58, 28, 14] category 0 else at0 [78, 10, 12] category 0)
/-- A consumer of a category: its own part, its demand in watts, and whether it has a part of its own. -/
structure Consumer where
  own    : Nat
  demand : Nat
  busy   : Bool
/-- What a consumer leaves to the pool of its category, and what it lacks. -/
def Consumer.spare (c : Consumer) : Nat := if c.busy then c.own - 600 * c.demand else c.own
def Consumer.unmet (c : Consumer) : Nat := if c.busy then 600 * c.demand - c.own else 0
/-- The grants of a category, in watts: pooled and unused parts go to unmet demand, in proportion to it. -/
def powerGrants (l : List Consumer) : List Nat :=
  let pool := l.foldl (fun t c => t + c.spare) 0
  let total := l.foldl (fun t c => t + c.unmet) 0
  l.map fun c => if c.busy then (c.own + (if total == 0 then 0 else pool * c.unmet / total)) / 600 else 0
/-- The grants of a package: of its six compute dies, their home stacks, and the fabric dies. -/
def State.grantsOf (s : State) (p : PkgId) (demands : List Nat) : List Nat :=
  let node := fun i => s.issuer (dieId p i)
  let part := fun i c => powerPart (s.pkg p).pmax (node i) c
  let each := fun c => (List.range 6).map fun i =>
    { own := part i c, demand := at0 demands (6 * c + i) 0, busy := (node i).isSome : Consumer }
  let sum := fun (b : Bool) => (List.range 6).foldl (fun t i => if (node i).isSome == b then t + part i 2 else t) 0
  powerGrants (each 0) ++ powerGrants (each 1) ++
  (powerGrants [{ own := sum true, demand := at0 demands 12 0, busy := true }, { own := sum false, demand := 0, busy := false }]).take 1
/-- POWER_GRANT (R264): at a tick that is a multiple of 1,000, under the demands that have been measured, in watts: of the
six compute dies, of their home stacks, and of the fabric dies. -/
def execPowerGrant (pkg : Nat) (demands : List Nat) (s : State) : Host.Outcome State Fault Refusal :=
  let g := s.grantsOf pkg demands
  if s.gtc pkg % 1000 != 0 then s.same
  else s.by_ (.pkg pkg (fun k =>
      { k with grantAt := k.gtc, powDemand := (List.range 7).map fun i => at0 demands (6 + i) 0, powGrant := g.drop 6 }) ::
    .drawn 13 :: (List.range 6).map fun i => .die (dieId pkg i) fun d =>
      { d with grant := at0 g i 0, demand := at0 demands i 0, short := at0 g i 0 < at0 demands i 0 })
/-- The grant that falls by itself at such a tick; the demands that the arbiter has measured are free values (log 5). -/
def State.powerDue (s : State) (p : PkgId) : Option Instr :=
  let k := s.pkg p
  if k.present && k.gtc % 1000 == 0 && k.grantAt != k.gtc then
    some (.powerGrant p ((List.range 13).map fun i => (s.freeWord i).toNat % 65536))
  else none

/-! ## Parts that fail (R69, R266) -/

/-- STACK_FAILURE (R266). -/
def execStackFailure (pkg stack : Nat) (s : State) : Host.Outcome State Fault Refusal :=
  if 12 <= stack then s.same
  else s.by_ [.pkg pkg fun k =>
    { k with hbmOut := k.hbmOut ||| (1#12 <<< stack) }.setHealth fun h => h ||| (1#64 <<< (28 + stack))]

/-- BANK_RETIRE (R69, R266): while no region issues on the die, a bank is copied into a spare that takes its number, which
mends correctable errors; with no spare left every access to it raises the machine trap. -/
def execBankRetire (die bank : Nat) (s : State) : Host.Outcome State Fault Refusal :=
  let d := s.die die
  if 2048 <= bank || d.run.isSome || d.dead.contains bank then s.same
  else if d.spares < 32 then
    s.by_ [.die die (fun d =>
        { d with
          spares := d.spares + 1, retired := d.retired ++ [bank]
          badLines := d.badLines.filter fun e => e.2 || e.1 % 2048 != bank || 2 ^ 40 <= e.1 }),
      .pkg (diePkg die) fun k => k.setHealth fun h => setBits 50 43 (bits h.toNat 50 43 + 1) h]
  else
    s.by_ [.die die (fun d => { d with dead := d.dead ++ [bank] }),
      .pkg (diePkg die) fun k => k.setHealth fun h => h ||| (1#64 <<< 63)]

/-- COMPUTE_DIE_FAILURE (R266): the die in focus leaves every die set; a region issuing on it stops with the machine trap. -/
def execComputeDieFailure (s : State) : Host.Outcome State Fault Refusal :=
  let d := s.cur
  let p := diePkg d
  let i := diePhys d
  if 6 <= i || !(s.die d).service then s.same
  else
    let stop := match (s.die d).run with
      | some k => unhandled s k (trapAt 0 .machine 0)
      | none => []
    s.by_ (stop ++
      ((s.nodes.filter fun e => e.2.kind == .part).map fun e => .node e.1 fun n =>
        { n with dieSets := n.dieSets.map fun x => if x.1 == p then (x.1, x.2 &&& ~~~(1#6 <<< i)) else x }) ++
      [.die d (fun k =>
        { k with service := false, run := none, chan0 := [], chan1 := [], encQ := [], streams := [], spine := [], walks := [] }),
       .pkg p fun k => k.setHealth fun h => h ||| (1#64 <<< (20 + i))])

end Sys2Proof.Machine
end

