-- ==== Sys2Proof/Machine/Time.lean ====
section
/-! DEFINITION. Time between packages (R57–R59) and the slip of a die (R54, R55). -/

namespace Sys2Proof.Machine

/-- A departure from state 2 raises the time interrupt (R58). -/
def timeAlarm (p disc : Nat) : List Upd := if disc == 2 then [interrupt p 1] else []

/-- The largest rate correction, in ppm. -/
def slewMax : Int := 100
/-- The sync interval, 2⁻⁷ s, in ticks (R57). -/
def syncInterval : Nat := 7812500

/-! ### The grandmaster (R57): the best clock that the enabled ports reach -/

/-- Two packages exchange sync messages: over a row on which both have the row port enabled, or over a column, whatever the
state of the link between them (DESIGN CHOICE, log 43). -/
def State.ptpLink (s : State) (p q : PkgId) : Bool :=
  p != q && (s.pkg q).present && ((rowOf p == rowOf q && (s.pkg p).ptp.getLsbD 0 && (s.pkg q).ptp.getLsbD 0) ||
    (colOf p == colOf q && (s.pkg p).ptp.getLsbD 1 && (s.pkg q).ptp.getLsbD 1))
/-- The packages that `n` messages reach from a list of packages. -/
def State.ptpReach (s : State) : Nat → List PkgId → List PkgId
  | 0, l => l
  | n + 1, l => s.ptpReach n (l ++ (s.pkgs.map (·.1)).filter fun q => !l.contains q && l.any fun p => s.ptpLink p q)
/-- The better of two clocks: lower priority, then lower package number (log 43). -/
def State.better (s : State) (p q : PkgId) : PkgId :=
  let a := (s.pkg p).ptpPrio
  let b := (s.pkg q).ptpPrio
  if b < a || b == a && q < p then q else p
/-- The package whose clock a package follows. -/
def State.grandmaster (s : State) (p : PkgId) : PkgId := (s.ptpReach s.pkgs.length [p]).foldl s.better p
/-- GTC of one package less that of another at this instant. -/
def State.gtcDiff (s : State) (p q : PkgId) : Int := signed 64 ((s.gtc p + 2 ^ 64 - s.gtc q) % 2 ^ 64)

/-! ### Two locked packages (R59) -/

/-- How far apart two locked packages may be: 40 ns in one row, 80 ns otherwise. -/
def lockBound (p q : PkgId) : Int := if rowOf p == rowOf q then 40 else 80
/-- The other packages that are locked. -/
def State.lockedBeside (s : State) (p : PkgId) : List PkgId :=
  (s.pkgs.filter fun e => e.1 != p && e.2.present && e.2.disc == 2).map (·.1)
/-- A package is as near to every locked one as R59 asks of locked packages, with 2 ns to spare. -/
def State.nearLocked (s : State) (p : PkgId) (ahead : Int) : Bool :=
  (s.lockedBeside p).all fun q => (s.gtcDiff p q + ahead).natAbs ≤ lockBound p q - 2
/-- How far a counter in holdover may lag, in ppm: R436 lets one lose 55 ticks in 10,000, and the spec gives no bound
(DESIGN CHOICE, log 43). -/
def driftMax : Int := 10000
/-- The lag of a counter in holdover: a free value (log 5). It never gains, so that the B(n) of R55 and R67 keeps its force
in ticks (log 43). -/
def driftOf (free : Word) : Int := clampInt (-driftMax) 0 free.toInt
/-- How far the rate of a package's counter is from nominal: by its rate correction (R58); in holdover it lags besides, by
what its oscillator has lost, as R436 shows; and a locked one that comes to the end of R59's bound slews back. -/
def State.rate (s : State) (p : PkgId) : Int :=
  let k := s.pkg p
  if k.disc == 3 then k.slew + k.drift
  else if k.disc != 2 then k.slew
  else if (s.lockedBeside p).any fun q => lockBound p q - 2 ≤ s.gtcDiff p q then -slewMax
  else if (s.lockedBeside p).any fun q => s.gtcDiff p q ≤ 2 - lockBound p q then slewMax
  else k.slew

/-! ### The discipline (R58) -/

/-- A run of good intervals after a sync in interval `m`: an interval counts once, and one without a sync breaks the run
(log 43). -/
def goodRun (last m run : Nat) (good : Bool) : Nat :=
  if !good then 0 else if m == last then run else if m == last + 1 then run + 1 else 1
/-- The run of bad intervals that ends before the interval `m` of a sync; `last` is the interval of the sync before, `run`
the run that it ended and `before` the one before that. -/
def badBefore (last m run before : Nat) : Nat := if m == last then before else if m == last + 1 then run else 0
/-- The run of bad intervals that ends with the present one: it is bad when any of its offsets is. -/
def badRun (last m run before : Nat) (bad : Bool) : Nat :=
  if bad then badBefore last m run before + 1 else if m == last then run else 0
/-- What a sync makes of a package's clock: the offset is kept, runs of good and bad intervals count, states 1 and 3 lock
after 16 good ones, state 2 goes to holdover after 4 bad ones. `rate` is the rate correction of states 1 and 2,
`held` the one that has been applied last, on which holdover runs, `drift` how far it lags in holdover, and `jump` the ticks of
the one forward step. -/
def Pkg.sync (ofs : Int) (rate held drift : Int) (jump : Nat) (k : Pkg) : Pkg :=
  let m := k.gtc / syncInterval
  let inside := goodRun k.syncNo m k.inside (-10 ≤ ofs && ofs ≤ 10)
  let outside := badRun k.syncNo m k.outside k.before (ofs < -20 || 20 < ofs)
  let k := { k with
    ofs := ofs, inside := inside, outside := outside, before := badBefore k.syncNo m k.outside k.before
    lastSync := k.gtc + jump, gtc := k.gtc + jump, syncNo := (k.gtc + jump) / syncInterval
    drift := drift, slew := if k.disc == 3 then k.slew else rate, stepped := k.stepped || jump != 0 }
  if (k.disc == 1 || k.disc == 3) && 16 <= inside then { k with disc := 2, outside := 0, before := 0, stepped := true }
  else if k.disc == 2 && 4 <= outside then { k with disc := 3, holdAt := k.gtc, slew := held }
  else k

/-- PTP_SYNC (R57, R58): the measured offset is the package's GTC less its grandmaster's, with the error of the measurement
that bits [63:1] of the operand hold in two's complement; bit 0 asks for the forward step (log 6). The rate correction is a
free value within 100 ppm (log 5). A record that would lock a package beyond R59's bound says what cannot have been
measured, and has no effect. -/
def execPtpSync (pkg offset : Nat) (s : State) : Host.Outcome State Fault Refusal :=
  let k := s.pkg pkg
  let ofs := s.gtcDiff pkg (s.grandmaster pkg) + signed 63 (offset / 2)
  let rate := clampInt (-slewMax) slewMax (s.freeWord 0).toInt
  let jump := if bit offset 0 && k.disc == 1 && !k.stepped && ofs < 0 then (-ofs).toNat else 0
  let sync := Pkg.sync ofs rate (s.rate pkg) (driftOf (s.freeWord 1)) jump
  let k' := sync k
  if k.ptp == 0 || k.disc == 0 then s.same
  else if k.disc != 2 && k'.disc == 2 && !s.nearLocked pkg jump then s.same
  else
    s.by_ ([.pkg pkg sync, .drawn 2] ++ (if k'.disc != k.disc then timeAlarm pkg k.disc else []))

def State.syncLate (s : State) (p : PkgId) : Bool := (s.pkg p).disc == 2 && (s.pkg p).lastSync + 62500000 <= s.gtc p
/-- SYNC_TIMEOUT (R58): 8 sync intervals of 2⁻⁷ s without a sync. -/
def execSyncTimeout (pkg : Nat) (s : State) : Host.Outcome State Fault Refusal :=
  if s.syncLate pkg then
    s.by_ ([.pkg pkg fun k =>
      { k with disc := 3, holdAt := k.gtc, inside := 0, outside := 0, before := 0, slew := s.rate pkg
               drift := driftOf (s.freeWord 0) }, .drawn 1] ++ timeAlarm pkg 2)
  else s.same

def State.holdoverLate (s : State) (p : PkgId) : Bool :=
  (s.pkg p).disc == 3 && (s.pkg p).holdAt + 1000000000 <= s.gtc p
/-- HOLDOVER_TIMEOUT (R58): state 3 has lasted 1 s. -/
def execHoldoverTimeout (pkg : Nat) (s : State) : Host.Outcome State Fault Refusal :=
  if s.holdoverLate pkg then s.by_ [.pkg pkg fun k => { k with disc := 1, outside := 0, before := 0 }] else s.same

/-- PTP_PORT_ENABLE (T3.1, R57): port 0 row, 1 column; bit 0 of `enable` enables it, and the bits above are
the priority of the package's clock that the driver sets (log 6). Without a port the clock runs free; the first port starts
state 1. -/
def execPtpPortEnable (pkg port enable : Nat) (s : State) : Host.Outcome State Fault Refusal :=
  let k := s.pkg pkg
  let prio := enable / 2
  let ptp := if enable % 2 == 0 then k.ptp &&& ~~~(1#2 <<< port) else k.ptp ||| (1#2 <<< port)
  if 2 <= port || k.minimal then s.same
  else if ptp == 0 then
    s.by_ (.pkg pkg (fun k => { k with ptp := ptp, ptpPrio := prio, disc := 0, slew := 0 }) :: timeAlarm pkg k.disc)
  else
    s.by_ [.drawn 1, .pkg pkg fun k =>
      let k := { k with ptp := ptp, ptpPrio := prio }
      if k.disc == 0 then
        { k with disc := 1, drift := driftOf (s.freeWord 0), inside := 0, outside := 0, before := 0, lastSync := k.gtc, syncNo := k.gtc / syncInterval }
      else k]

/-! ## Slip (R54, R55) -/

/-- What one die cycle of `period` ps adds to the largest excess of a run of cycles that ends with it, in ps ÷ 20. -/
def slipAfter (slip : Int) (slipmax period : Nat) : Int := max 0 (slip + 20 * period - (10000 + slipmax))
/-- 256 ticks. -/
def slipLimit : Int := 5120000
/-- The same excess counted in ticks, as R55 counts it, in 10⁻⁶ of the unit of `slipAfter`: under a rate correction of
`rate` ppm a cycle of `period` ps is `period` × (1 + `rate` × 10⁻⁶) thousandths of a tick. -/
def slipTicks (excess : Int) (slipmax period : Nat) (rate : Int) : Int :=
  max 0 (excess + 20 * period * (1000000 + rate) - (10000 + slipmax) * 1000000)
/-- The excess of a die in ticks: what its picoseconds give, and what rate corrections have added. -/
def Die.excess (k : Die) : Int := k.slip * 1000000 + k.slewed
/-- The contexts of a die, running or stopped. -/
def State.contextsOf (s : State) (d : DieId) : List (SlotKey × Ctx) :=
  s.slots.filter fun e => e.2.mode != .idle && e.2.die == d
/-- The bound of R55 is broken, and a context of the die has not recorded it. -/
def State.slipDue (s : State) (d : DieId) : Bool :=
  slipLimit * 1000000 < (s.die d).excess && (s.contextsOf d).any fun e => !e.2.slipSeen
/-- SLIP_EXCEEDED (R55): TSTAT.SLIPX of the slots of the die in focus. -/
def execSlipExceeded (s : State) : Host.Outcome State Fault Refusal :=
  if s.slipDue s.cur then
    s.by_ ((s.contextsOf s.cur).map fun e => .slot e.1 fun c => { c with slipSeen := true })
  else s.same

end Sys2Proof.Machine
end

