-- ==== Sys2Proof/Machine/Dispatch.lean ====
section
/-! DEFINITION. The dispatch of a step to its meaning: one arm for each constructor of Instr, one direct call each. -/

namespace Sys2Proof.Machine

def exec (i : Instr) (s : State) : Host.Outcome State Fault Refusal :=
  match i with
  | .launchPortStore pkg ptr => Sys2Proof.Machine.execLaunchPortStore pkg ptr s
  | .launchValidate pkg => Sys2Proof.Machine.execLaunchValidate pkg s
  | .gangStart rid choice => Sys2Proof.Machine.execGangStart rid choice s
  | .startTick rid choice => Sys2Proof.Machine.execStartTick rid choice s
  | .startLate rid => Sys2Proof.Machine.execStartLate rid s
  | .regionDone rid => Sys2Proof.Machine.execRegionDone rid s
  | .periodStart rid => Sys2Proof.Machine.execPeriodStart rid s
  | .budgetExhausted rid => Sys2Proof.Machine.execBudgetExhausted rid s
  | .deadlineMiss rid => Sys2Proof.Machine.execDeadlineMiss rid s
  | .quantumExpiry rid => Sys2Proof.Machine.execQuantumExpiry rid s
  | .dispatch pkg choice => Sys2Proof.Machine.execDispatch pkg choice s
  | .preemptStop rid => Sys2Proof.Machine.execPreemptStop rid s
  | .windowOverrun rid => Sys2Proof.Machine.execWindowOverrun rid s
  | .resume rid choice => Sys2Proof.Machine.execResume rid choice s
  | .cancelObserved rid => Sys2Proof.Machine.execCancelObserved rid s
  | .cancelComplete rid => Sys2Proof.Machine.execCancelComplete rid s
  | .millinerTakeover pkg => Sys2Proof.Machine.execMillinerTakeover pkg s
  | .ptpSync pkg offset => Sys2Proof.Machine.execPtpSync pkg offset s
  | .syncTimeout pkg => Sys2Proof.Machine.execSyncTimeout pkg s
  | .holdoverTimeout pkg => Sys2Proof.Machine.execHoldoverTimeout pkg s
  | .spineLineTransfer die chan => Sys2Proof.Machine.execSpineLineTransfer die chan s
  | .peerBankAccess die req => Sys2Proof.Machine.execPeerBankAccess die req s
  | .cuffLanding die cuff => Sys2Proof.Machine.execCuffLanding die cuff s
  | .copyComplete die chan => Sys2Proof.Machine.execCopyComplete die chan s
  | .cgathEntryWrite die chan => Sys2Proof.Machine.execCgathEntryWrite die chan s
  | .cputfFlagIncrement die chan => Sys2Proof.Machine.execCputfFlagIncrement die chan s
  | .pageWalk die part space vpage => Sys2Proof.Machine.execPageWalk die part space vpage s
  | .homeAccess die chan item => Sys2Proof.Machine.execHomeAccess die chan item s
  | .loadReturn req => Sys2Proof.Machine.execLoadReturn req s
  | .storeAck req => Sys2Proof.Machine.execStoreAck req s
  | .atomicResend req => Sys2Proof.Machine.execAtomicResend req s
  | .atomicTimeout req => Sys2Proof.Machine.execAtomicTimeout req s
  | .resultCacheExpiry pkg src seq => Sys2Proof.Machine.execResultCacheExpiry pkg src seq s
  | .routerCredReceive pkg req => Sys2Proof.Machine.execRouterCredReceive pkg req s
  | .mergeForward pkg merge => Sys2Proof.Machine.execMergeForward pkg merge s
  | .mergeAnswer pkg merge => Sys2Proof.Machine.execMergeAnswer pkg merge s
  | .mirrorAck req => Sys2Proof.Machine.execMirrorAck req s
  | .crownAllocatorAnswer slot => Sys2Proof.Machine.execCrownAllocatorAnswer slot s
  | .fabricDieFailed pkg fd => Sys2Proof.Machine.execFabricDieFailed pkg fd s
  | .failoverComplete pkg fd => Sys2Proof.Machine.execFailoverComplete pkg fd s
  | .barrierArrival part entry writer => Sys2Proof.Machine.execBarrierArrival part entry writer s
  | .planeMerge part group home => Sys2Proof.Machine.execPlaneMerge part group home s
  | .phaseFlip part entry => Sys2Proof.Machine.execPhaseFlip part entry s
  | .flitReceive pkg link seq good => Sys2Proof.Machine.execFlitReceive pkg link seq good s
  | .lossOfLight pkg link => Sys2Proof.Machine.execLossOfLight pkg link s
  | .opticalLock pkg link => Sys2Proof.Machine.execOpticalLock pkg link s
  | .authAttempt pkg link good => Sys2Proof.Machine.execAuthAttempt pkg link good s
  | .authTimeout pkg link => Sys2Proof.Machine.execAuthTimeout pkg link s
  | .drainMarker pkg src => Sys2Proof.Machine.execDrainMarker pkg src s
  | .biasLimit pkg port plane mzm high => Sys2Proof.Machine.execBiasLimit pkg port plane mzm high s
  | .heaterApply pkg port plane ring => Sys2Proof.Machine.execHeaterApply pkg port plane ring s
  | .monUpdate pkg port plane ring reading => Sys2Proof.Machine.execMonUpdate pkg port plane ring reading s
  | .colourTakeover pkg port plane ring => Sys2Proof.Machine.execColourTakeover pkg port plane ring s
  | .circuitUp pkg src dst => Sys2Proof.Machine.execCircuitUp pkg src dst s
  | .circuitWaitTimeout req => Sys2Proof.Machine.execCircuitWaitTimeout req s
  | .xsendLaunch circ => Sys2Proof.Machine.execXsendLaunch circ s
  | .unitLanding circ => Sys2Proof.Machine.execUnitLanding circ s
  | .windowEnd circ => Sys2Proof.Machine.execWindowEnd circ s
  | .hostAccess pkg write ptr size data => Sys2Proof.Machine.execHostAccess pkg write ptr size data s
  | .reset pkg outcome => Sys2Proof.Machine.execReset pkg outcome s
  | .readyTimeout pkg => Sys2Proof.Machine.execReadyTimeout pkg s
  | .attestationRequest pkg nonce => Sys2Proof.Machine.execAttestationRequest pkg nonce s
  | .installRangeEntry pkg part index w0 w1 w2 w3 => Sys2Proof.Machine.execInstallRangeEntry pkg part index w0 w1 w2 w3 s
  | .invalidateTranslation pkg part space first last => Sys2Proof.Machine.execInvalidateTranslation pkg part space first last s
  | .installPlaneDescriptor pkg part index w0 w1 w2 w3 w4 w5 w6 w7 => Sys2Proof.Machine.execInstallPlaneDescriptor pkg part index w0 w1 w2 w3 w4 w5 w6 w7 s
  | .installBarrierEntry pkg part index members => Sys2Proof.Machine.execInstallBarrierEntry pkg part index members s
  | .installReductionWindow pkg part index base size ty op => Sys2Proof.Machine.execInstallReductionWindow pkg part index base size ty op s
  | .installCircuitDescriptor pkg part slot index w0 w1 w2 w3 => Sys2Proof.Machine.execInstallCircuitDescriptor pkg part slot index w0 w1 w2 w3 s
  | .routingUpdate pkg dest entry => Sys2Proof.Machine.execRoutingUpdate pkg dest entry s
  | .routingFlip pkg => Sys2Proof.Machine.execRoutingFlip pkg s
  | .connectionTableEntry pkg src dst count => Sys2Proof.Machine.execConnectionTableEntry pkg src dst count s
  | .setBandQuantum pkg band value => Sys2Proof.Machine.execSetBandQuantum pkg band value s
  | .linkEnable pkg link => Sys2Proof.Machine.execLinkEnable pkg link s
  | .powerGrant pkg demands => Sys2Proof.Machine.execPowerGrant pkg demands s
  | .stackFailure pkg stack => Sys2Proof.Machine.execStackFailure pkg stack s
  | .bankRetire die bank => Sys2Proof.Machine.execBankRetire die bank s
  | .ringFailure pkg port plane ring => Sys2Proof.Machine.execRingFailure pkg port plane ring s
  | .tstatRead f => Sys2Proof.Machine.execTstatRead f s
  | .mstatRead f => Sys2Proof.Machine.execMstatRead f s
  | .xstatWrite f => Sys2Proof.Machine.execXstatWrite f s
  | .vflagsWrite f => Sys2Proof.Machine.execVflagsWrite f s
  | .rrbWrite f => Sys2Proof.Machine.execRrbWrite f s
  | .grbWrite f => Sys2Proof.Machine.execGrbWrite f s
  | .tguardWrite f => Sys2Proof.Machine.execTguardWrite f s
  | .fsrWrite f => Sys2Proof.Machine.execFsrWrite f s
  | .waitlimWrite f => Sys2Proof.Machine.execWaitlimWrite f s
  | .opselWrite f => Sys2Proof.Machine.execOpselWrite f s
  | .ringWrite f => Sys2Proof.Machine.execRingWrite f s
  | .mzmWrite f => Sys2Proof.Machine.execMzmWrite f s
  | .elogstatWrite f => Sys2Proof.Machine.execElogstatWrite f s
  | .injctlWrite f => Sys2Proof.Machine.execInjctlWrite f s
  | .intstatWrite pkg bits => Sys2Proof.Machine.execIntstatWrite pkg bits s
  | .nop slot => Sys2Proof.Machine.execNop slot s
  | .add f => Sys2Proof.Machine.execAdd f s
  | .sub f => Sys2Proof.Machine.execSub f s
  | .mul f => Sys2Proof.Machine.execMul f s
  | .mulh f => Sys2Proof.Machine.execMulh f s
  | .div f => Sys2Proof.Machine.execDiv f s
  | .rem f => Sys2Proof.Machine.execRem f s
  | .and_ f => Sys2Proof.Machine.execAnd f s
  | .andn f => Sys2Proof.Machine.execAndn f s
  | .or_ f => Sys2Proof.Machine.execOr f s
  | .xor f => Sys2Proof.Machine.execXor f s
  | .shl f => Sys2Proof.Machine.execShl f s
  | .shr f => Sys2Proof.Machine.execShr f s
  | .sra f => Sys2Proof.Machine.execSra f s
  | .rol f => Sys2Proof.Machine.execRol f s
  | .min f => Sys2Proof.Machine.execMin f s
  | .max f => Sys2Proof.Machine.execMax f s
  | .clz f => Sys2Proof.Machine.execClz f s
  | .popc f => Sys2Proof.Machine.execPopc f s
  | .sel f => Sys2Proof.Machine.execSel f s
  | .mov f => Sys2Proof.Machine.execMov f s
  | .li f => Sys2Proof.Machine.execLi f s
  | .cmp f => Sys2Proof.Machine.execCmp f s
  | .pand f => Sys2Proof.Machine.execPand f s
  | .por f => Sys2Proof.Machine.execPor f s
  | .pxor f => Sys2Proof.Machine.execPxor f s
  | .pnot f => Sys2Proof.Machine.execPnot f s
  | .kpop f => Sys2Proof.Machine.execKpop f s
  | .kpopN f => Sys2Proof.Machine.execKpopN f s
  | .ld f => Sys2Proof.Machine.execLd f s
  | .st f => Sys2Proof.Machine.execSt f s
  | .atom f => Sys2Proof.Machine.execAtom f s
  | .atomCas f => Sys2Proof.Machine.execAtomCas f s
  | .red f => Sys2Proof.Machine.execRed f s
  | .lqpop f => Sys2Proof.Machine.execLqpop f s
  | .apush f => Sys2Proof.Machine.execApush f s
  | .fence f => Sys2Proof.Machine.execFence f s
  | .waitw f => Sys2Proof.Machine.execWaitw f s
  | .brRel f => Sys2Proof.Machine.execBrRel f s
  | .brReg f => Sys2Proof.Machine.execBrReg f s
  | .jmpImm f => Sys2Proof.Machine.execJmpImm f s
  | .jmpReg f => Sys2Proof.Machine.execJmpReg f s
  | .jmpLong f => Sys2Proof.Machine.execJmpLong f s
  | .callRel f => Sys2Proof.Machine.execCallRel f s
  | .callReg f => Sys2Proof.Machine.execCallReg f s
  | .ret f => Sys2Proof.Machine.execRet f s
  | .loop f => Sys2Proof.Machine.execLoop f s
  | .trap f => Sys2Proof.Machine.execTrap f s
  | .tret f => Sys2Proof.Machine.execTret f s
  | .end_ f => Sys2Proof.Machine.execEnd f s
  | .yield f => Sys2Proof.Machine.execYield f s
  | .launch f => Sys2Proof.Machine.execLaunch f s
  | .twait f => Sys2Proof.Machine.execTwait f s
  | .twaitAbs f => Sys2Proof.Machine.execTwaitAbs f s
  | .wtagall f => Sys2Proof.Machine.execWtagall f s
  | .wtagany f => Sys2Proof.Machine.execWtagany f s
  | .tagff f => Sys2Proof.Machine.execTagff f s
  | .tagclr f => Sys2Proof.Machine.execTagclr f s
  | .qwait f => Sys2Proof.Machine.execQwait f s
  | .qadv f => Sys2Proof.Machine.execQadv f s
  | .qset f => Sys2Proof.Machine.execQset f s
  | .bara f => Sys2Proof.Machine.execBara f s
  | .barw f => Sys2Proof.Machine.execBarw f s
  | .step f => Sys2Proof.Machine.execStep f s
  | .pstat f => Sys2Proof.Machine.execPstat f s
  | .sysrd f => Sys2Proof.Machine.execSysrd f s
  | .syswr f => Sys2Proof.Machine.execSyswr f s
  | .tidset f => Sys2Proof.Machine.execTidset f s
  | .falloc f => Sys2Proof.Machine.execFalloc f s
  | .fallocAt f => Sys2Proof.Machine.execFallocAt f s
  | .fallocQuery f => Sys2Proof.Machine.execFallocQuery f s
  | .ffree f => Sys2Proof.Machine.execFfree f s
  | .vadd f => Sys2Proof.Machine.execVadd f s
  | .vsub f => Sys2Proof.Machine.execVsub f s
  | .vmul f => Sys2Proof.Machine.execVmul f s
  | .vfma f => Sys2Proof.Machine.execVfma f s
  | .vfms f => Sys2Proof.Machine.execVfms f s
  | .vmin f => Sys2Proof.Machine.execVmin f s
  | .vmax f => Sys2Proof.Machine.execVmax f s
  | .vabs f => Sys2Proof.Machine.execVabs f s
  | .vneg f => Sys2Proof.Machine.execVneg f s
  | .vand f => Sys2Proof.Machine.execVand f s
  | .vor f => Sys2Proof.Machine.execVor f s
  | .vxor f => Sys2Proof.Machine.execVxor f s
  | .vnot f => Sys2Proof.Machine.execVnot f s
  | .vshl f => Sys2Proof.Machine.execVshl f s
  | .vshr f => Sys2Proof.Machine.execVshr f s
  | .vsra f => Sys2Proof.Machine.execVsra f s
  | .vcmp f => Sys2Proof.Machine.execVcmp f s
  | .vsel f => Sys2Proof.Machine.execVsel f s
  | .vmov f => Sys2Proof.Machine.execVmov f s
  | .vbcastIdx f => Sys2Proof.Machine.execVbcastIdx f s
  | .vbcastFirst f => Sys2Proof.Machine.execVbcastFirst f s
  | .viota f => Sys2Proof.Machine.execViota f s
  | .vext f => Sys2Proof.Machine.execVext f s
  | .vdot f => Sys2Proof.Machine.execVdot f s
  | .vred f => Sys2Proof.Machine.execVred f s
  | .vamax f => Sys2Proof.Machine.execVamax f s
  | .vcvt f => Sys2Proof.Machine.execVcvt f s
  | .vwid f => Sys2Proof.Machine.execVwid f s
  | .vnar f => Sys2Proof.Machine.execVnar f s
  | .vquant f => Sys2Proof.Machine.execVquant f s
  | .vperm f => Sys2Proof.Machine.execVperm f s
  | .vcompact f => Sys2Proof.Machine.execVcompact f s
  | .vld f => Sys2Proof.Machine.execVld f s
  | .vst f => Sys2Proof.Machine.execVst f s
  | .kand f => Sys2Proof.Machine.execKand f s
  | .kor f => Sys2Proof.Machine.execKor f s
  | .kxor f => Sys2Proof.Machine.execKxor f s
  | .knot f => Sys2Proof.Machine.execKnot f s
  | .vexp2 f => Sys2Proof.Machine.execVexp2 f s
  | .vlog2 f => Sys2Proof.Machine.execVlog2 f s
  | .vrcp f => Sys2Proof.Machine.execVrcp f s
  | .vrsq f => Sys2Proof.Machine.execVrsq f s
  | .vsqrt f => Sys2Proof.Machine.execVsqrt f s
  | .vtanh f => Sys2Proof.Machine.execVtanh f s
  | .scan f => Sys2Proof.Machine.execScan f s
  | .selk f => Sys2Proof.Machine.execSelk f s
  | .sortk f => Sys2Proof.Machine.execSortk f s
  | .rsolve f => Sys2Proof.Machine.execRsolve f s
  | .mcfgHead f => Sys2Proof.Machine.execMcfgHead f s
  | .mcfgLevel f => Sys2Proof.Machine.execMcfgLevel f s
  | .mroute f => Sys2Proof.Machine.execMroute f s
  | .mgath f => Sys2Proof.Machine.execMgath f s
  | .mgo f => Sys2Proof.Machine.execMgo f s
  | .mcommit f => Sys2Proof.Machine.execMcommit f s
  | .mwaitb f => Sys2Proof.Machine.execMwaitb f s
  | .mdrain f => Sys2Proof.Machine.execMdrain f s
  | .mzero f => Sys2Proof.Machine.execMzero f s
  | .mlda f => Sys2Proof.Machine.execMlda f s
  | .mstop f => Sys2Proof.Machine.execMstop f s
  | .cget f => Sys2Proof.Machine.execCget f s
  | .cput f => Sys2Proof.Machine.execCput f s
  | .cputf f => Sys2Proof.Machine.execCputf f s
  | .cgath f => Sys2Proof.Machine.execCgath f s
  | .cscat f => Sys2Proof.Machine.execCscat f s
  | .catom f => Sys2Proof.Machine.execCatom f s
  | .cred f => Sys2Proof.Machine.execCred f s
  | .cfence f => Sys2Proof.Machine.execCfence f s
  | .czero f => Sys2Proof.Machine.execCzero f s
  | .croute f => Sys2Proof.Machine.execCroute f s
  | .cbund f => Sys2Proof.Machine.execCbund f s
  | .cencOpen f => Sys2Proof.Machine.execCencOpen f s
  | .cencFrame f => Sys2Proof.Machine.execCencFrame f s
  | .cencClose f => Sys2Proof.Machine.execCencClose f s
  | .xsend f => Sys2Proof.Machine.execXsend f s
  | .xrecv f => Sys2Proof.Machine.execXrecv f s
  | .lightPresent pkg link => Sys2Proof.Machine.execLightPresent pkg link s
  | .ptpPortEnable pkg port enable => Sys2Proof.Machine.execPtpPortEnable pkg port enable s
  | .barrierRootAnswer slot => Sys2Proof.Machine.execBarrierRootAnswer slot s
  | .takeoverComplete pkg => Sys2Proof.Machine.execTakeoverComplete pkg s
  | .unknownCommand pkg code => Sys2Proof.Machine.execUnknownCommand pkg code s
  | .bundleIssue => Sys2Proof.Machine.execBundleIssue s
  | .anchoredBundleIssue => Sys2Proof.Machine.execAnchoredBundleIssue s
  | .lateTickExpiry => Sys2Proof.Machine.execLateTickExpiry s
  | .resultLanding => Sys2Proof.Machine.execResultLanding s
  | .waitLimit => Sys2Proof.Machine.execWaitLimit s
  | .slipExceeded => Sys2Proof.Machine.execSlipExceeded s
  | .contextEvict => Sys2Proof.Machine.execContextEvict s
  | .cuffOverrun => Sys2Proof.Machine.execCuffOverrun s
  | .matrixStepStart => Sys2Proof.Machine.execMatrixStepStart s
  | .matrixStepComplete => Sys2Proof.Machine.execMatrixStepComplete s
  | .tableMove => Sys2Proof.Machine.execTableMove s
  | .xrecvTake => Sys2Proof.Machine.execXrecvTake s
  | .waitwReread => Sys2Proof.Machine.execWaitwReread s
  | .computeDieFailure => Sys2Proof.Machine.execComputeDieFailure s
  | .encodeComplete => Sys2Proof.Machine.execEncodeComplete s

end Sys2Proof.Machine
end

