-- ==== Sys2Proof/Machine/Due.lean ====
section
/-! DEFINITION. What happens next by itself: the events whose instant the spec fixes (`State.due`), the record that the
agenda holds next (`State.fetch`), and the passing of time (`State.advance`; R4, R54–R56). -/

namespace Sys2Proof.Machine

/-! ## A slot in its die cycle -/

/-- The pending table can move (R347). -/
def Ctx.tableDue (c : Ctx) : Bool :=
  match c.matrix.active with
  | some t => t.idx.isEmpty && c.matrix.freeAt <= c.pos
  | none => c.matrix.pending.isSome
/-- A step of the active table starts (R133). -/
def Ctx.startDue (c : Ctx) : Bool :=
  match c.matrix.active with
  | some t => t.start == c.pos && !t.idx.isEmpty
  | none => false
/-- A step completes (R125). -/
def Ctx.stepDone (c : Ctx) : Bool := c.matrix.steps.any fun st => st.done <= c.pos

/-- The next result of the die in focus: a landing, or an XRECV at its place among the writes of registers. -/
def State.resultDue (s : State) : Option Instr :=
  let c := s.curCtx
  let running := (s.die s.cur).run.isSome
  let before := fun (q : Nat) (l : Landing) => l.ph < phReg || (l.ph == phReg && l.seq < q)
  match (if running && c.mode != .halted then c.xrecvDue (s.dieTick s.cur) else none) with
  | some x =>
    if (s.slotLanding s.cur).any (before x.2.2.2) || (s.spineLanding s.cur).any (before x.2.2.2) then some .resultLanding
    else some .xrecvTake
  | none => if (s.slotLanding s.cur).isSome || (s.spineLanding s.cur).isSome then some .resultLanding else none

/-- The waiting WAITW reads its word again, at most 1,000 ticks after the last read (R425). -/
def State.rereadDue (s : State) : Bool :=
  let c := s.curCtx
  c.wait.active && c.wait.sent && c.mode == .run && c.wait.word.isNone && c.wait.fault.isNone &&
  c.wait.lastRead + 1000 <= s.dieTick s.cur && (s.waitwReq? s.curKey).isNone &&
  match slotDecode s.stageBundle 0 with
  | some (.ok (.waitw f)) => f.on c
  | _ => false

/-- What the issue stage of the die in focus does in this die cycle: issue, a look, or the end of a wait. -/
def State.stageDue (s : State) : Option Instr :=
  let c := s.curCtx
  let b := s.stageBundle
  let tick := s.dieTick s.cur
  if !s.atStage then none
  else if s.waitsAtStage && (c.cuffLate tick).isSome then some .cuffOverrun
  else if s.waitsAtStage && hdrAnchored b && c.anchorTarget b + c.tguard < tick then some .lateTickExpiry
  else if s.waitsAtStage && c.waitedOut tick then some .waitLimit
  else if hdrAnchored b && (afterTrap c).isNone then some .anchoredBundleIssue
  else some .bundleIssue

/-- A Milliner is up and not in a takeover. -/
def State.scheduling (s : State) (r : Rid) : Bool := (s.pkg (ridPkg r)).up && !(s.pkg (ridPkg r)).takeover
/-- Stops come before anything else of the die cycle but the start of matrix steps (R252). -/
def State.stopDue (s : State) (r : Rid) : Bool :=
  s.preemptDue r && (s.scheduling r || s.stopBegun (s.node r) r)

/-- The next event of the die in focus. A matrix step that completes in the die cycle in which a read clears MSTAT comes
before the clearing, which then wipes its MNAN and MINF too (log 45). -/
def State.dieDue (s : State) : Option Instr :=
  let d := s.die s.cur
  let c := s.curCtx
  let running := d.run.isSome
  if running && c.mode != .halted && c.tableDue then some .tableMove
  else if running && c.mode != .halted && c.startDue then some .matrixStepStart
  else if running && s.stopDue c.rid then some (.preemptStop c.rid)
  else if running && c.stepDone then some .matrixStepComplete
  else match s.resultDue with
  | some i => some i
  | none =>
    match d.cuffIn.find? fun x => x.2.tick <= s.gtc (diePkg s.cur) with
    | some x => some (.cuffLanding s.cur (x.1 % 4))
    | none =>
      if s.slipDue s.cur then some .slipExceeded
      else if running && s.rereadDue then some .waitwReread
      else match s.stageDue with
      | some i => some i
      | none =>
        if 4 <= d.shadow.length && (d.shadow.any (fun k => (s.node (keyRid k)).server.isNone) || 2 < (s.contracts s.cur).length)
        then some .contextEvict
        else if running && c.haltTrap.isSome then some .bundleIssue
        else if s.copyDue s.cur 0 then some (.copyComplete s.cur 0)
        else if s.copyDue s.cur 1 then some (.copyComplete s.cur 1)
        else none

/-- The compute dies, in the order in which they act at one instant: by the die slot that runs. -/
def State.dieOrder (s : State) : List DieId :=
  let ds := (s.dies.filter fun e => diePhys e.1 < 6 && (s.pkg (diePkg e.1)).present).map fun e => e.1
  (List.range 9).flatMap fun q => ds.filter fun d => (match (s.die d).run with
    | some k => keySlot k
    | none => 8) == q
/-- The next event of a die, with the die that it falls on. -/
def State.diesDue (s : State) : Option (DieId × Instr) :=
  s.dieOrder.findSome? fun d => ({ s with cur := d } : State).dieDue.map fun i => (d, i)

/-! ## Elsewhere -/

/-- The unit at the head of a list has come to its tick. -/
def headDue (now : Nat) : List (Nat × XUnit) → Bool
  | (t, _) :: _ => t <= now
  | [] => false
/-- Timed circuits (R239, R241). -/
def State.circuitDue (s : State) : Option Instr :=
  s.circuits.findSome? fun e =>
    let now := s.gtc (circKeyPkg e.1)
    if headDue now e.2.out then some (.xsendLaunch e.1)
    else if headDue now e.2.flying then some (.unitLanding e.1)
    else match e.2.bound with
      | some k => if (e.2.purge (s.slot k).tbase now).buf.length < e.2.buf.length then some (.windowEnd e.1) else none
      | none => if (e.2.expire now).buf.length < e.2.buf.length then some (.windowEnd e.1) else none

/-- Time limits of requests (R228, R237). -/
def State.requestDue (s : State) : Option Instr :=
  s.reqs.findSome? fun r =>
    if s.timeoutDue r then some (.atomicTimeout r.id)
    else if s.resendDue r then some (.atomicResend r.id)
    else if s.reqLate r then some (.circuitWaitTimeout r.id)
    else none
/-- Time limits of the pieces of copies and of the encoder's output (R237). -/
def State.pieceDue (s : State) : Option Instr :=
  s.dies.findSome? fun e =>
    let code := fun (ch i k : Nat) => Instr.circuitWaitTimeout (2 ^ 63 + e.1 * 2 ^ 40 + ch * 2 ^ 36 + i * 2 ^ 28 + k)
    let ops := fun ch => (e.2.chan ch).zipIdx.findSome? fun o =>
      ((List.range (max o.1.reads.count o.1.writes.count)).find? fun k => s.pieceLate e.1 ch o.1 k).map (code ch o.2)
    match ops 0 with
    | some i => some i
    | none => match ops 1 with
      | some i => some i
      | none => (e.2.encQ.zipIdx.find? fun c => s.encLate e.1 c.1).map fun c => code 2 c.2 0

/-- Merges and result caches of a package (R228, R230; a survivor keeps its results through a failover, R207), its clock
(R58), its service commands (R260) and its power (R264). -/
def State.packageDue (s : State) : Option Instr :=
  s.pkgs.findSome? fun e =>
    let k := e.2
    let old := fun (t : Nat) => decide (t + 30000 <= k.gtc)
    match k.merges.find? fun m => !m.sent && m.opened + 256 <= k.gtc with
    | some m => some (.mergeForward e.1 m.id)
    | none => match k.cache.find? fun c => old c.tick && !s.keepsCache e.1 with
      | some c => some (.resultCacheExpiry e.1 c.src c.seq)
      | none => match k.merges.find? fun m => m.answered.any old with
        | some m => (m.folded.head?).map fun x => .resultCacheExpiry e.1 x.1 x.2.1
        | none =>
          if s.syncLate e.1 then some (.syncTimeout e.1)
          else if s.holdoverLate e.1 then some (.holdoverTimeout e.1)
          else match s.commandDue e.1 with
            | some i => some i
            | none => s.powerDue e.1

/-- What the Milliner does at instants that the spec fixes (R33, R37, R43, R44, R46, R53): a miss is found before the
next period starts. -/
def State.nodeDue (s : State) : Option Instr :=
  s.nodes.findSome? fun e =>
    let r := e.1
    if !s.scheduling r then none
    else if s.startTickDue r then some (.startTick r 0)
    else if s.startLateDue r then some (.startLate r)
    else if s.predFailed r then some (.gangStart r 0)
    else if s.preemptDue r then some (.preemptStop r)
    else if s.overrunDue r then some (.windowOverrun r)
    else if s.budgetDue r then some (.budgetExhausted r)
    else if s.deadlineDue r then some (.deadlineMiss r)
    else if s.periodDue r && !((s.under r).any s.deadlineDue) then some (.periodStart r)
    else if s.quantumDue r then some (.quantumExpiry r)
    else if s.doneDue r then some (.regionDone r)
    else if s.nodeTick r % 10000 == 0 && s.cancelSeen r then some (.cancelObserved r)
    else if s.cancelDue r then some (.cancelComplete r)
    else none

/-- What the Milliners have to do by now (R45, R52). -/
def State.millinerDue (s : State) : Option Instr := s.pkgs.findSome? fun e => s.dispatchDue e.1

/-- The next event that falls now by itself, and the die that it happens on. -/
def State.due (s : State) : Option (DieId × Instr) :=
  match s.diesDue with
  | some x => some x
  | none =>
    ([s.circuitDue, s.requestDue, s.pieceDue, s.packageDue, s.nodeDue, s.millinerDue].findSome? id).map fun i => (s.cur, i)

/-- A timer whose tick has come. -/
def State.timerDue (s : State) : Option Timer := s.timers.find? fun t => t.tick <= s.gtc t.pkg

/-! ## The agenda -/

/-- The agenda's first event, once its instant has come. -/
def State.fetch (s : State) : Option Event :=
  match s.agenda with
  | e :: _ => if e.at_ <= s.now then some e else none
  | [] => none

/-! ## Time -/

/-- A tick of a package passes (R4, R56): the GTC counts one, and the next tick comes a nanosecond later, as the rate
correction in ppm, and in holdover the lag, make it (R58); `frac` keeps what is less than a picosecond, in 10⁻³ ps. -/
def Pkg.clock (rate : Int) (k : Pkg) : Pkg :=
  let f := k.frac - rate
  { k with tickAt := (k.tickAt + Config.tickPs + f / 1000 : Int).toNat, gtc := (k.gtc + 1) % 2 ^ 64, frac := f % 1000 }
/-- The GTC as a die reads it, less than 0.25 ns late and never a step back (R56). -/
def State.sample (s : State) (d : DieId) : Nat :=
  let k := s.pkg (diePkg d)
  if s.now < k.tickAt - Config.tickPs + Config.gtcSkew d % 249 then min k.gtc (max (s.die d).tick (k.gtc - 1)) else k.gtc
/-- The length of a die cycle in ps: a free value from 0.5 to 0.625 ns (R54; log 5), above 0.5 ns while the die's grant is
below its demand (R15, R264), and at most 0.625 ticks while a rate correction shortens ticks (the first term of R55). -/
def cycleLength (short : Bool) (rate : Int) (free : Word) : Nat :=
  let least := Config.cycleMin + (if short then 1 else 0)
  let most := Config.cycleMax - (if 0 < rate then 1 else 0)
  least + free.toNat % (most - least + 1)
/-- A die cycle begins (R54, R55). -/
def Die.cycle (tick period : Nat) (rate : Int) (k : Die) : Die :=
  let slip := slipAfter k.slip k.slipmax period
  { k with
    cyc := k.cyc + 1, edge := k.edge + period, period := period, tick := tick
    slip := slip, slewed := slipTicks k.excess k.slipmax period rate - slip * 1000000, bundOld := [] }
/-- What a die cycle brings to the slot that runs on a die: a position once its time has come (R36, R47), at which a slot
that was stopped at its YIELD waits on (R429); or the stop of its gang (R251). -/
def State.slotCycle (s : State) (k : SlotKey) (tick : Nat) (c : Ctx) : Ctx :=
  let c := if tick < c.startAt then c else
    { c with pos := c.pos + 1, atYield := false, mode := if c.atYield && c.mode == .run then .yielded else c.mode }
  if s.halts k then c.halt else c
/-- A bundle whose wait is for a tick counted from TBASE: an anchored one (R62), or a TWAIT (R388). -/
def State.waitsForTick (s : State) (c : Ctx) (b : Line) : Bool :=
  hdrAnchored b || (State.active c b).any fun x => match x.2 with | .twait f => !f.mod.getLsbD 0 | _ => false
/-- The first bundle of a contract's activation is at the issue stage: TBASE is the tick of this die cycle on the whole gang,
and ALAST is set with it as at a start (R43), until that bundle issues. For one that waits for a tick counted from TBASE that
is the tick of its arrival (DESIGN CHOICE, log 42). -/
def State.activation (s : State) (k : SlotKey) (tick : Nat) : List Upd :=
  let c := s.slot k
  let r := keyRid k
  let n := s.node r
  if n.newAct && n.st == 3 && c.mode == .run && c.startAt <= tick && !c.early (s.bundle c) then
    .node r (fun n => { n with newAct := !s.waitsForTick c (s.bundle c), tbase := tick }) ::
    (n.keys r).map fun j => .slot j fun c => { c with tbase := tick, alast := (tick : Int) - 1 }
  else []
/-- A die cycle of a die, of the slot that runs on it, of its arrays (R257), and of its spine (R72). -/
def State.dieCycle (s : State) (d : DieId) : List Upd :=
  let tick := s.sample d
  let rate := s.rate (diePkg d)
  seqUpds s [
    fun s => [.die d (Die.cycle tick (cycleLength (s.die d).short rate (s.freeWord 0)) rate), .drawn 1] ++
      (match (s.die d).run with
       | some k => [.slot k (s.slotCycle k tick)]
       | none => []),
    fun s => match (s.die d).run with
      | some k => s.activation k tick
      | none => [],
    fun s => s.arrayErrors d,
    fun s => s.grants d]

/-- The packages that are present, and their compute dies. -/
def State.clocked (s : State) : List DieId :=
  (s.dies.filter fun e => diePhys e.1 < 6 && (s.pkg (diePkg e.1)).present).map fun e => e.1
/-- The next instant at which anything is due: a tick, a die cycle, or an event of the agenda. -/
def State.nextInstant (s : State) : Option Nat :=
  if s.packages.isEmpty then none
  else lowestOf (s.packages.map (fun p => (s.pkg p).tickAt) ++ s.clocked.map (fun d => (s.die d).edge) ++
    (s.agenda.take 1).map fun e => e.at_)
/-- What an instant brings: first the ticks of packages, then the die cycles. -/
def State.instant (s : State) : State :=
  let ticks := s.packages.filter fun p => (s.pkg p).tickAt <= s.now
  let s1 := s.also fun s => ticks.flatMap fun p => chargeUpds s p ++ [.pkg p (Pkg.clock (s.rate p))]
  (s1.clocked.filter fun d => (s1.die d).edge <= s1.now).foldl (fun s d => s.commit (s.dieCycle d)) s1
/-- Time passes to the next instant. -/
def State.advance (s : State) : Option State :=
  s.nextInstant.map fun t => ({ s with now := max s.now t } : State).instant

end Sys2Proof.Machine
end

