-- ==== Sys2Proof/Machine/Step.lean ====
section
/-! DEFINITION. One step of the machine: the slots of a bundle that has issued act first, in slot order; then what falls now
by itself; then timers; then the agenda's event whose instant has come; then time passes (log 6). -/

namespace Sys2Proof.Machine

/-- A record of the agenda is decoded and carried out. -/
def State.carryOut (s : State) (e : Event) : Host.Outcome State Fault Refusal :=
  match decode e.bytes with
  | .ok (i, _) => exec i { s with agenda := s.agenda.drop 1, cur := e.die.getD s.cur }
  | .error _ => .refused .badRecord

/-- The next step. -/
def step (s : State) : Host.Outcome State Fault Refusal :=
  match s.micro with
  | i :: rest => exec i { s with micro := rest }
  | [] =>
    match s.due with
    | some (d, i) => exec i { s with cur := d }
    | none =>
      match s.timerDue with
      | some t => exec t.ev { s with timers := s.timers.erase t }
      | none =>
        match s.fetch with
        | some e => s.carryOut e
        | none =>
          match s.advance with
          | some s' => .next s'
          | none => .fault .noPackage

/-- The instruction of a table word stands at the head of the agenda, at once and on the die in focus. -/
def State.withFetchWord (s : State) (nbits w : Nat) : State :=
  { s with agenda := { at_ := s.now, die := none, bytes := tableRecord nbits w } :: s.agenda }

end Sys2Proof.Machine
end

