-- ==== Sys2Proof/Safety.lean ====
section
/-! DEFINITION. What counts as a well-formed state, and the terms in which the statements say what a step changes and
what it leaves alone. -/

namespace Sys2Proof.Machine

/-! ## The form of a state -/

/-- Memory lists rising addresses and no byte of value 0, and every map lists rising keys: equal contents are equal
data (log 1). -/
structure State.Canon (s : State) : Prop where
  mem      : s.mem.wf = true
  pkgs     : keysFrom 0 s.pkgs = true
  dies     : keysFrom 0 s.dies = true
  slots    : keysFrom 0 s.slots = true
  nodes    : keysFrom 0 s.nodes = true
  ranges   : keysFrom 0 s.ranges = true
  roots    : keysFrom 0 s.roots = true
  planes   : keysFrom 0 s.planes = true
  barriers : keysFrom 0 s.barriers = true
  windows  : keysFrom 0 s.windows = true
  circuits : keysFrom 0 s.circuits = true
  seqs     : keysFrom 0 s.seqs = true

/-! ## One part replaced, everything else as it was -/

/-- The state with context `c` in die slot `k`. -/
def State.withCtx (s : State) (k : SlotKey) (c : Ctx) : State := { s with slots := mput k c s.slots }
/-- The state with die `d` replaced. -/
def State.withDie (s : State) (d : DieId) (x : Die) : State := { s with dies := mput d x s.dies }
/-- The state with package `p` replaced. -/
def State.withPkg (s : State) (p : PkgId) (x : Pkg) : State := { s with pkgs := mput p x s.pkgs }

/-- The running slot of the die in focus, changed by `f`; nothing else differs. -/
def State.running (s : State) (f : Ctx → Ctx) : State := s.withCtx s.curKey (f s.curCtx)
/-- The running slot has a result that falls due `lat` die cycles after the issue of its bundle (R146, R284). -/
def State.owes (s : State) (lat : Nat) (e : Effect) : State := s.running fun c => c.later lat phReg e

/-! ## Frames -/

/-- Every byte of memory reads as it did. -/
def SameMemory (s t : State) : Prop := ∀ a, memByte t.mem a = memByte s.mem a
/-- Only contexts of die slots differ, and only that of slot `k`. -/
def OnlySlot (k : SlotKey) (s t : State) : Prop :=
  ∃ c, t = s.withCtx k c
/-- Registers, masks, predicates and accumulators of a slot read as they did. -/
def SameRegisters (c d : Ctx) : Prop :=
  d.sregs = c.sregs ∧ d.pregs = c.pregs ∧ d.vregs = c.vregs ∧ d.masks = c.masks ∧ d.accs = c.accs

/-- The dies differ in armed injections and in the locations that are stored wrong alone (R257). -/
def SameButErrors (s t : State) : Prop :=
  ∀ d, t.die d = { s.die d with inject := (t.die d).inject, badLines := (t.die d).badLines }

/-- A copy operation stands at the end of the channel of a C slot; its tag is cleared with TE = 1, the count of R50 starts
again, and `taken` indices have left the address queue. -/
def State.joined (s : State) (f : CF) (o : CopyOp) (taken : Nat) : State :=
  let c := s.curCtx
  let k := s.die c.die
  let k' := { k with nextSeq := k.nextSeq + 1 }
  (s.withDie c.die (if f.c1 then { k' with chan1 := k.chan1 ++ [o] } else { k' with chan0 := k.chan0 ++ [o] })).withCtx
    s.curKey { c with
      tags := if f.te = 1 then c.tags &&& ~~~(1#64 <<< f.tag.toNat) else c.tags
      progress := c.iss.tick, aq := c.aq.drop taken }
/-- A package that has answered a service command: the status word in bytes 0x38–0x3F of the command's queue entry, the next
entry, and the service interrupt (R445). -/
def Pkg.replied (code index : Nat) (k : Pkg) : Pkg :=
  { k.putQueue (64 * k.cmdNo + 0x38) (toBytes 8 (code % 256 + index % 256 * 256)) with
    cmdNo := (k.cmdNo + 1) % 256, intstat := k.intstat ||| 16 }

/-! ## Operands -/

/-- No operand of a V-slot instruction names a queue (R278). -/
def VInfo.inRegs (v : VInfo) : Prop :=
  (v.na = 0 ∨ isQ v.f.a.toNat = false) ∧ (v.nb = 0 ∨ isQ v.f.b.toNat = false) ∧ (v.nc = 0 ∨ isQ v.f.c.toNat = false) ∧
  (v.nd = 0 ∨ isQ v.f.d.toNat = false)

end Sys2Proof.Machine
end

