-- ==== Sys2Proof/Certificates/Slice0/Obligations.lean ====
section
/-! DEFINITION. The statements for the provers: what the rules of spec/ say that each instruction and the machine do. -/

open Sys2Proof Sys2Proof.Machine

/-! ## S slot: arithmetic, logic, predicates -/

/-- ADD, SUB, MUL, MULH (R294, R379, R352): when the predicate holds each answers a next state in which the running slot
has one more result, for sD, at issue + 1 (at issue + 3 for the products), and nothing else differs. The result wraps,
or saturates as i64 or as n64. -/
def Obligations.ScalarSumsAndProducts : Prop := ∀ (f : SF) (s : State), f.on s.curCtx = true →
  let a := f.av s.curCtx
  let b := f.bv s.curCtx
  (∃ v, exec (.add f) s = .next (s.owes 1 (.scalar f.d.toNat v)) ∧
    (f.mod = 0 → v = a + b) ∧
    (f.mod = 1 → v.toInt = max (-2 ^ 63) (min (2 ^ 63 - 1) (a.toInt + b.toInt))) ∧
    (f.mod = 3 → v.toNat = min (2 ^ 64 - 1) (a.toNat + b.toNat))) ∧
  (∃ v, exec (.sub f) s = .next (s.owes 1 (.scalar f.d.toNat v)) ∧
    (f.mod = 0 → v = a - b) ∧
    (f.mod = 1 → v.toInt = max (-2 ^ 63) (min (2 ^ 63 - 1) (a.toInt - b.toInt))) ∧
    (f.mod = 3 → v.toNat = a.toNat - b.toNat)) ∧
  (∃ v, exec (.mul f) s = .next (s.owes 3 (.scalar f.d.toNat v)) ∧
    (f.mod = 0 → v = a * b) ∧
    (f.mod = 1 → v.toInt = max (-2 ^ 63) (min (2 ^ 63 - 1) (a.toInt * b.toInt))) ∧
    (f.mod = 3 → v.toNat = min (2 ^ 64 - 1) (a.toNat * b.toNat))) ∧
  (∃ v, exec (.mulh f) s = .next (s.owes 3 (.scalar f.d.toNat v)) ∧
    (f.mod = 0 → v.toInt = a.toInt * b.toInt / 2 ^ 64) ∧
    (f.mod = 2 → v.toNat = a.toNat * b.toNat / 2 ^ 64))

/-- DIV and REM (R327, R367, T6.7): at issue + 20, truncating toward zero, with the remainder's sign that of the
dividend; a divisor of 0 gives all ones and the dividend, and the signed minimum by −1 gives itself and 0. -/
def Obligations.ScalarDivision : Prop := ∀ (f : SF) (s : State), f.on s.curCtx = true →
  let a := f.av s.curCtx
  let b := f.bv s.curCtx
  (∃ v, exec (.div f) s = .next (s.owes 20 (.scalar f.d.toNat v)) ∧
    (b = 0 → v = BitVec.allOnes 64) ∧
    (b ≠ 0 → f.mod = 0 → v = BitVec.ofInt 64 (a.toInt.tdiv b.toInt)) ∧
    (b ≠ 0 → f.mod = 2 → v.toNat = a.toNat / b.toNat)) ∧
  (∃ v, exec (.rem f) s = .next (s.owes 20 (.scalar f.d.toNat v)) ∧
    (b = 0 → v = a) ∧
    (b ≠ 0 → f.mod = 0 → v.toInt = a.toInt.tmod b.toInt) ∧
    (b ≠ 0 → f.mod = 2 → v.toNat = a.toNat % b.toNat))

/-- AND, ANDN, OR, XOR and LI (R294, R356, R427, R338), at issue + 1.
MIN and MAX (R342), SEL (R373), KPOP (R333), at issue + 1. -/
def Obligations.ScalarLogicAndSelections : Prop :=
  (∀ (f : SF) (s : State), f.on s.curCtx = true →
  let a := f.av s.curCtx
  let b := f.bv s.curCtx
  exec (.and_ f) s = .next (s.owes 1 (.scalar f.d.toNat (a &&& b))) ∧
  exec (.andn f) s = .next (s.owes 1 (.scalar f.d.toNat (a &&& ~~~b))) ∧
  exec (.or_ f) s = .next (s.owes 1 (.scalar f.d.toNat (a ||| b))) ∧
  exec (.xor f) s = .next (s.owes 1 (.scalar f.d.toNat (a ^^^ b))) ∧
  exec (.li f) s = .next (s.owes 1 (.scalar f.d.toNat b))) ∧
  (∀ (f : SF) (s : State), f.on s.curCtx = true →
  let a := f.av s.curCtx
  let b := f.bv s.curCtx
  (∃ v, exec (.min f) s = .next (s.owes 1 (.scalar f.d.toNat v)) ∧
    (f.mod = 0 → v.toInt = min a.toInt b.toInt) ∧ (f.mod = 2 → v.toNat = min a.toNat b.toNat)) ∧
  (∃ v, exec (.max f) s = .next (s.owes 1 (.scalar f.d.toNat v)) ∧
    (f.mod = 0 → v.toInt = max a.toInt b.toInt) ∧ (f.mod = 2 → v.toNat = max a.toNat b.toNat)) ∧
  exec (.sel f) s = .next (s.owes 1 (.scalar f.d.toNat
    (if s.curCtx.p (f.mod.toNat % 16) = f.mod.getLsbD 4 then b else a))) ∧
  exec (.kpop f) s = .next (s.owes 1 (.scalar f.d.toNat
    (word (((List.range 1024).filter (s.curCtx.k f.a.toNat).getLsbD).length)))) ∧
  (f.imm.toNat ≤ 1024 → exec (.kpopN f) s = .next (s.owes 1 (.scalar f.d.toNat
    (word (((List.range f.imm.toNat).filter (s.curCtx.k f.a.toNat).getLsbD).length))))))

/-- SHL, SHR, SRA and ROL (R369) at issue + 1, by n = b[7:0]: an amount of 64 or more empties the register, or fills
it with the sign; ROL takes n mod 64. -/
def Obligations.ScalarShifts : Prop := ∀ (f : SF) (s : State), f.on s.curCtx = true →
  let a := f.av s.curCtx
  let n := (f.bv s.curCtx).toNat % 256
  exec (.shl f) s = .next (s.owes 1 (.scalar f.d.toNat (if 64 ≤ n then 0 else a <<< n))) ∧
  exec (.shr f) s = .next (s.owes 1 (.scalar f.d.toNat (if 64 ≤ n then 0 else a >>> n))) ∧
  (∃ v, exec (.sra f) s = .next (s.owes 1 (.scalar f.d.toNat v)) ∧
    (64 ≤ n → ∀ i, i < 64 → v.getLsbD i = a.getLsbD 63) ∧
    (n < 64 → v.toInt = a.toInt / 2 ^ n)) ∧
  (∃ v, exec (.rol f) s = .next (s.owes 1 (.scalar f.d.toNat v)) ∧
    ∀ i, i < 64 → v.getLsbD ((i + n) % 64) = a.getLsbD i)

/-- CMP (R318, T16.8) and PAND, POR, PXOR, PNOT (R357): a predicate, at issue + 1. -/
def Obligations.PredicateResults : Prop := ∀ (f : SF) (s : State), f.on s.curCtx = true →
  let a := f.av s.curCtx
  let b := f.bv s.curCtx
  let p := s.curCtx.p f.a.toNat
  let q := s.curCtx.p f.b.toNat
  (∃ v, exec (.cmp f) s = .next (s.owes 1 (.pred f.d.toNat v)) ∧
    (f.mod = 0 → (v = true ↔ a = b)) ∧ (f.mod = 1 → (v = true ↔ a ≠ b)) ∧
    (f.mod = 2 → (v = true ↔ a.toInt < b.toInt)) ∧ (f.mod = 3 → (v = true ↔ a.toInt ≤ b.toInt)) ∧
    (f.mod = 4 → (v = true ↔ a.toInt > b.toInt)) ∧ (f.mod = 5 → (v = true ↔ a.toInt ≥ b.toInt)) ∧
    (f.mod = 6 → (v = true ↔ a.toNat < b.toNat)) ∧ (f.mod = 7 → (v = true ↔ a.toNat ≤ b.toNat)) ∧
    (f.mod = 8 → (v = true ↔ a.toNat > b.toNat)) ∧ (f.mod = 9 → (v = true ↔ a.toNat ≥ b.toNat))) ∧
  exec (.pand f) s = .next (s.owes 1 (.pred f.d.toNat (p && q))) ∧
  exec (.por f) s = .next (s.owes 1 (.pred f.d.toNat (p || q))) ∧
  exec (.pxor f) s = .next (s.owes 1 (.pred f.d.toNat (p ^^ q))) ∧
  exec (.pnot f) s = .next (s.owes 1 (.pred f.d.toNat (!p)))

/-- R349, whole: MOV's encoding, its breaches (an illegal slot encoding of slot 0; FM 10 is the template mismatch that
R275 puts first), its result at issue + 1, its worked encoding, and s0 as its source or destination. -/
def Obligations.MovRule : Prop :=
  (∀ w : Word, w.extractLsb' 0 8 = 0x14 → w.extractLsb' 8 2 ≠ 2 →
    decodeS w none = if w.extractLsb' 8 2 = 0 ∧ w.extractLsb' 27 6 = 0 ∧ w.extractLsb' 33 21 = 0 ∧ w.extractLsb' 54 10 = 0
      then .ok (.mov (unpackS w none)) else .error .slot) ∧
  (∀ (b : Line) (e : DecodeErr), slotDecode b 0 = some (.error e) → e ≠ .template →
    Guard.trap (trapAt 0 .illegalSlot 0) ∈ encodingGuards b) ∧
  (∀ (f : SF) (s : State), f.on s.curCtx = true →
    exec (.mov f) s = .next (s.owes 1 (.scalar f.d.toNat (s.curCtx.s f.a.toNat)))) ∧
  (∃ f : SF, decodeS 0x0000000007E20014 none = .ok (.mov f) ∧ f.d = 4 ∧ f.a = 63) ∧
  (∀ c : Ctx, c.s 0 = 0) ∧ (∀ (c : Ctx) (v : Word), c.setS 0 v = c)

/-- R358, whole: POPC's encoding, its breaches, its result at issue + 1 and its worked encoding; no trap of its own and
no access to memory: nothing but the result in flight differs. -/
def Obligations.PopcRule : Prop :=
  (∀ w : Word, w.extractLsb' 0 8 = 0x12 → w.extractLsb' 8 2 ≠ 2 →
    decodeS w none = if w.extractLsb' 8 2 = 0 ∧ w.extractLsb' 27 6 = 0 ∧ w.extractLsb' 33 21 = 0 ∧ w.extractLsb' 54 10 = 0
      then .ok (.popc (unpackS w none)) else .error .slot) ∧
  (∀ (b : Line) (e : DecodeErr), slotDecode b 0 = some (.error e) → e ≠ .template →
    Guard.trap (trapAt 0 .illegalSlot 0) ∈ encodingGuards b) ∧
  (∀ (f : SF) (s : State), f.on s.curCtx = true → ∃ v,
    exec (.popc f) s = .next (s.owes 1 (.scalar f.d.toNat v)) ∧
    v.toNat = ((List.range 64).filter (f.av s.curCtx).getLsbD).length ∧ v.toNat ≤ 64) ∧
  (∃ f : SF, decodeS 0x0000000001220012 none = .ok (.popc f) ∧ f.d = 4 ∧ f.a = 9)

/-- R317, whole: CLZ's encoding and breaches, and the number of zero bits above the most significant one bit of sA. -/
def Obligations.ClzRule : Prop :=
  (∀ w : Word, w.extractLsb' 0 8 = 0x11 → w.extractLsb' 8 2 ≠ 2 →
    decodeS w none = if w.extractLsb' 8 2 = 0 ∧ w.extractLsb' 27 6 = 0 ∧ w.extractLsb' 33 21 = 0 ∧ w.extractLsb' 54 10 = 0
      then .ok (.clz (unpackS w none)) else .error .slot) ∧
  (∀ (b : Line) (e : DecodeErr), slotDecode b 0 = some (.error e) → e ≠ .template →
    Guard.trap (trapAt 0 .illegalSlot 0) ∈ encodingGuards b) ∧
  (∀ (f : SF) (s : State), f.on s.curCtx = true → ∃ v,
    exec (.clz f) s = .next (s.owes 1 (.scalar f.d.toNat v)) ∧
    (f.av s.curCtx = 0 → v = 64) ∧
    (f.av s.curCtx ≠ 0 → v.toNat < 64 ∧ (f.av s.curCtx).getLsbD (63 - v.toNat) = true ∧
      ∀ i, 63 - v.toNat < i → i < 64 → (f.av s.curCtx).getLsbD i = false))

/-- R356 and R427, whole: OR and XOR's encodings with FM 00, 01 and 10, their breaches (an illegal slot encoding of slot
0), operand b, the result at issue + 1, s0 as a destination, an immediate −1, and the worked encodings. -/
def Obligations.OrAndXorRules : Prop :=
  (∀ w : Word, w.extractLsb' 0 8 = 8 ∨ w.extractLsb' 0 8 = 9 → w.extractLsb' 8 2 ≠ 2 →
    decodeS w none = if w.extractLsb' 54 10 = 0 ∧ ((w.extractLsb' 8 2 = 0 ∧ w.extractLsb' 33 21 = 0) ∨
        (w.extractLsb' 8 2 = 1 ∧ w.extractLsb' 27 6 = 0))
      then .ok (if w.extractLsb' 0 8 = 8 then .or_ (unpackS w none) else .xor (unpackS w none)) else .error .slot) ∧
  (∀ (w : Word) (x : Word), w.extractLsb' 0 8 = 8 ∨ w.extractLsb' 0 8 = 9 → w.extractLsb' 8 2 = 2 →
    w.extractLsb' 27 6 = 0 → w.extractLsb' 33 21 = 0 →
    decodeS w (some x) = if w.extractLsb' 54 10 = 0
      then .ok (if w.extractLsb' 0 8 = 8 then .or_ (unpackS w (some x)) else .xor (unpackS w (some x))) else .error .slot) ∧
  (∀ (b : Line) (e : DecodeErr), slotDecode b 0 = some (.error e) → e ≠ .template →
    Guard.trap (trapAt 0 .illegalSlot 0) ∈ encodingGuards b) ∧
  (∀ (f : SF) (s : State), f.on s.curCtx = true →
    exec (.or_ f) s = .next (s.owes 1 (.scalar f.d.toNat (f.av s.curCtx ||| f.bv s.curCtx))) ∧
    exec (.xor f) s = .next (s.owes 1 (.scalar f.d.toNat (f.av s.curCtx ^^^ f.bv s.curCtx))) ∧
    (f.fm = 1 → f.imm = -1 →
      exec (.or_ f) s = .next (s.owes 1 (.scalar f.d.toNat (BitVec.allOnes 64))) ∧
      exec (.xor f) s = .next (s.owes 1 (.scalar f.d.toNat (~~~(f.av s.curCtx)))))) ∧
  (∀ (f : SF) (c : Ctx), (f.fm = 0 → f.bv c = c.s f.b.toNat) ∧ (f.fm = 1 → f.bv c = f.imm.signExtend 64) ∧
    (∀ x, f.fm = 2 → f.long = some x → f.bv c = x)) ∧
  (∀ (c : Ctx) (v : Word), c.setS 0 v = c) ∧
  (∃ f : SF, decodeS 0x0000000038C28008 none = .ok (.or_ f) ∧ decodeS 0x0000000038C28009 none = .ok (.xor f) ∧
    f.fm = 0 ∧ f.d = 5 ∧ f.a = 6 ∧ f.b = 7)

/-! ## Records, steps, the form of a state -/

/-- Decode and encode agree: the record of every well-formed instruction of the table, whatever follows it, decodes to
that instruction with every operand as it stood, and leaves what follows. -/
def Obligations.DecodeOfEncode : Prop := ∀ (i : Instr) (rest : List Byte), i.wf = true → decode (encode i ++ rest) = .ok (i, rest)

/-- The other direction: what decodes is well-formed, and the bytes read are exactly its record (one spelling each). -/
def Obligations.EncodeOfDecode : Prop := ∀ (bs rest : List Byte) (i : Instr), decode bs = .ok (i, rest) → i.wf = true ∧ bs = encode i ++ rest

/-- Words written out from the spec's worked encodings, one or two of each kind of slot, decode to the instructions they
stand for: ADD s5, s6, −3 (R294); (!p3) SUB s4, s4, s1 (R379); CMP.ltu p2, s3, s4 (R318); JMP 0x1000 (R331); LOOP s12, 3
(R340); SYSRD s5, 0x000 (R380); VAND.i32.x1 v5, v6, 255 (R393); MDRAIN a3, tid7; CGET s10, s11, s12, tag5 in C0 (R171);
XRECV oc9, v300, 100. -/
def Obligations.WorkedEncodings : Prop := decodeS 0x003FFFFA00C28101 none = .ok (.add { fm := 1, pg := 0, pn := 0, d := 5, a := 6, b := 0, imm := -3, mod := 0, long := none }) ∧
  decodeS 0x0000000008824C02 none = .ok (.sub { fm := 0, pg := 3, pn := 1, d := 4, a := 4, b := 1, imm := 0, mod := 0, long := none }) ∧
  decodeS 0x0180000020610016 none = .ok (.cmp { fm := 0, pg := 0, pn := 0, d := 2, a := 3, b := 4, imm := 0, mod := 6, long := none }) ∧
  decodeS 0x0000008000000131 none = .ok (.jmpImm { fm := 1, pg := 0, pn := 0, d := 0, a := 0, b := 0, imm := 64, mod := 0, long := none }) ∧
  decodeS 0x0000000601800134 none = .ok (.loop { fm := 1, pg := 0, pn := 0, d := 0, a := 12, b := 0, imm := 3, mod := 0, long := none }) ∧
  decodeS 0x0000000000028150 none = .ok (.sysrd { fm := 1, pg := 0, pn := 0, d := 5, a := 0, b := 0, imm := 0, mod := 0, long := none }) ∧
  decodeV 0x1FE00003005B010A false none = .ok (.vand { v1 := false, fm := 1, km := 0, sp := 0, ty := 11, d := 5, a := 6, b := 0, c := 255, long := none }) ∧
  decodeM 0x0000000E00001807 none = .ok (.mdrain { bt := 0, ac := 3, ta := 0, tb := 0, tc := 7, lv := 0, imm := 0, long := none }) ∧
  decodeC 0x0000000061654501 false none = .ok (.cget { c1 := false, tag := 5, te := 1, sd := 10, ss := 11, sn := 12, tid := 0, qh := 0, mod := 0, imm8 := 0, long := none }) ∧
  decodeX 0x3212C092 = .ok (.xrecv { oc := 9, v := 300, off := 100 })

/-- A step runs the decoded instruction: first what a bundle has left to do, slot by slot, and then, when nothing falls
by itself, the record at the head of the agenda, once its instant has come (log 6). -/
def Obligations.StepRunsTheDecodedInstruction : Prop := ∀ (s : State),
  (∀ (i : Instr) (rest : List Instr), s.micro = i :: rest → step s = exec i { s with micro := rest }) ∧
  (∀ (e : Event) (i : Instr) (rest : List Byte), s.micro = [] → s.due = none → s.timerDue = none →
    s.agenda.head? = some e → e.at_ ≤ s.now → decode e.bytes = .ok (i, rest) →
    step s = exec i { s with agenda := s.agenda.drop 1, cur := e.die.getD s.cur }) ∧
  (∀ (d : DieId) (i : Instr), s.micro = [] → s.due = some (d, i) → step s = exec i { s with cur := d })

/-- Every step keeps the canonical form of memory and of every map, from every state that has it. -/
def Obligations.StepKeepsCanonicalForm : Prop := ∀ (s t : State), s.Canon → step s = .next t → t.Canon

/-- Reset has the canonical form. -/
def Obligations.ResetIsCanonical : Prop := State.reset.Canon

/-- Time (R4, R54–R56). No step lowers the instant. When nothing is due, time passes to the next instant: the GTC of every
package whose tick has come counts one, modulo 2⁶⁴, and no other does; every die whose cycle ends begins the next one, of
500 to 625 ps (above 500 while its grant is below its demand), reads the GTC of its package at most one tick late, and
keeps the excess over SLIPMAX, which never falls below 0; no other die begins one, and no byte of memory changes. -/
def Obligations.TimeNeverGoesBack : Prop :=
  (∀ (s t : State), step s = .next t → s.now ≤ t.now) ∧
  (∀ (s t : State), s.Canon → s.micro = [] → s.due = none → s.timerDue = none → s.fetch = none → step s = .next t →
    t.mem = s.mem ∧
    (∀ p, (s.pkg p).present = true →
      ((s.pkg p).tickAt ≤ t.now → (t.pkg p).gtc = ((s.pkg p).gtc + 1) % 2 ^ 64) ∧
      (t.now < (s.pkg p).tickAt → t.pkg p = s.pkg p)) ∧
    (∀ d, d ∈ s.clocked → let k := s.die d
      let k' := t.die d
      (k.edge ≤ t.now → k'.cyc = k.cyc + 1 ∧ k'.edge = k.edge + k'.period ∧ 500 ≤ k'.period ∧ k'.period ≤ 625 ∧
        (k.short = true → 500 < k'.period) ∧ k'.slip = max 0 (k.slip + 20 * k'.period - (10000 + k.slipmax)) ∧
        k'.tick ≤ (t.pkg (diePkg d)).gtc ∧ (t.pkg (diePkg d)).gtc ≤ k'.tick + 1) ∧
      (t.now < k.edge → k' = k)))

/-- Every instruction of the table has a meaning that completes: exec answers a next state, never a fault or a refusal,
whatever the state and the operands; and a step stops only when no package is present or a record is of no form. -/
def Obligations.NoInstructionStopsTheMachine : Prop :=
  (∀ (i : Instr) (s : State), ∃ t, exec i s = .next t) ∧
  (∀ s : State, (∃ t, step s = .next t) ∨ step s = .fault .noPackage ∨ step s = .refused .badRecord)

/-- What reset leaves: no package has started (BOOTSTAT 0, R263), its region identifiers begin at sequence number 1,
its compute dies are in service with the shortest die cycle (R54) and SLIPMAX at its default (R60); nothing is placed,
queued or listed, and the 2 s of R263 run. The parts that the model chose are log 3 and log 4.
A die slot before its region starts holds the values of T5.1 and R94: registers 0, TAGS all ones, the rest empty;
and the fixed members of R92 read 0, 1 and all ones whatever is written to them (R93). -/
def Obligations.ResetValues : Prop :=
  ((State.reset.pkg 0).present = true ∧ (State.reset.pkg 0).bootstat = 0 ∧ (State.reset.pkg 0).launchQ = [] ∧
  (State.reset.pkg 0).nextRid = 1 ∧
  State.reset.mem = [] ∧ State.reset.nodes = [] ∧ State.reset.slots = [] ∧
  (∀ d < 6, (State.reset.die d).service = true ∧ (State.reset.die d).slipmax = Config.slipmax ∧
    (State.reset.die d).period = Config.cycleMin ∧ (State.reset.die d).run = none) ∧
  State.reset.timers = [{ pkg := 0, tick := 2000000000, ev := .readyTimeout 0 }]) ∧
  ((∀ n, Ctx.blank.s n = 0 ∧ Ctx.blank.v n = 0 ∧ Ctx.blank.tid n = 0 ∧ Ctx.blank.g n = false ∧ (Ctx.blank.q n).depth = 0) ∧
  (∀ n, n ≠ 0 → Ctx.blank.p n = false ∧ Ctx.blank.k n = 0) ∧ (∀ a i j, Ctx.blank.acc a i j = 0) ∧
  Ctx.blank.tags = BitVec.allOnes 64 ∧ Ctx.blank.fsr = 0 ∧ Ctx.blank.xstat = 0 ∧
  (∀ (c : Ctx) (n m : Nat) (v : Word), (c.setS n v).s m = if m = 0 then 0 else if m = n then v else c.s m) ∧
  (∀ (c : Ctx) (n m : Nat) (v : Bool), (c.setP n v).p m = if m = 0 then true else if m = n then v else c.p m) ∧
  (∀ (c : Ctx) (n m : Nat) (v : Mask), (c.setK n v).k m = if m = 0 then BitVec.allOnes 1024 else if m = n then v else c.k m) ∧
  (∀ (c : Ctx) (n m : Nat) (v : VReg), (c.setV n v).v m = if m = n then v else c.v m))

/-- NOP, and every S-slot instruction whose predicate does not hold (R277): a next state in which every die slot, and
everything else, is as it was. A LOOP whose predicate does not hold skips its body (R339), and changes nothing else. -/
def Obligations.FalsePredicateDoesNothing : Prop :=
  (∀ (n : SlotName) (s : State), exec (.nop n) s = .next s) ∧
  (∀ (i : Instr) (o : BitVec 8) (f : SF) (s : State), i.sParts = some (o, f) → f.on s.curCtx = false →
    (∀ g, i ≠ .loop g) → ∃ t, exec i s = .next t ∧ (∀ k, t.slot k = s.slot k) ∧ t = { s with slots := t.slots }) ∧
  (∀ (f : SF) (s : State), f.on s.curCtx = false →
    exec (.loop f) s = .next (s.running fun c => { c with pc := c.iss.pc + 64 + 64 * (f.imm.toNat % 128) }))

/-- The result that comes first in the die's present cycle lands (R146): the scalar, predicate, mask, vector or flag
result of a slot changes that register alone (of a mask or vector, the enabled bits), a load-queue entry takes its value,
QSET its queue, a loop its delta, MZERO its accumulators; the result leaves the list of results in flight, and nothing else
differs.
Bank accesses perform (R71, R74, R78, R91, R140), on lines without an error. LD reads its bytes, zero or sign extended,
for sD at issue + 6; ATOM and RED read the old value, whose new value is written in the same die cycle and whose old one
fills ATOM's entry; VLD reads each line that its route names, and zeros elsewhere, for its registers; MDRAIN reads its tile,
whose lines leave over the write gauntlet and whose largest magnitude follows; a store's bytes are written; VST's lines are
written where its route sends them. No register changes, and no other byte of memory. -/
def Obligations.ResultsLand : Prop :=
  (∀ (s : State) (l : Landing), s.slotLanding s.cur = some l →
  (∀ m, s.spineLanding s.cur = some m → l.ph < m.ph) →
  let rest := fun (c : Ctx) => { c with land := c.land.filter fun x => x.seq != l.seq }
  (∀ r v, l.eff = .scalar r v → exec .resultLanding s = .next (s.running fun c => (rest c).setS r v)) ∧
  (∀ r v, l.eff = .pred r v → exec .resultLanding s = .next (s.running fun c => (rest c).setP r v)) ∧
  (∀ r v en, l.eff = .mask r v en →
    exec .resultLanding s = .next (s.running fun c => (rest c).setK r ((v &&& en) ||| (c.k r &&& ~~~en)))) ∧
  (∀ r v en, l.eff = .vec r v en →
    exec .resultLanding s = .next (s.running fun c => (rest c).setV r ((v &&& en) ||| (c.v r &&& ~~~en)))) ∧
  (∀ v, l.eff = .flags v →
    exec .resultLanding s = .next (s.running fun c => { rest c with vflags := c.vflags ||| (v &&& 0x3F) })) ∧
  (∀ e v, l.eff = .lqFill e v → exec .resultLanding s = .next (s.running fun c =>
    { rest c with lq := c.lq.map fun x => if x.id == e then { x with st := .value v } else x })) ∧
  (∀ q b n, l.eff = .qset q b n → exec .resultLanding s = .next (s.running fun c =>
    { rest c with queues := mput q { qb := b, depth := n, rp := 0, wp := 0 } c.queues })) ∧
  (∀ n v, l.eff = .loopDelta { isTid := false, num := n, delta := v } →
    exec .resultLanding s = .next (s.running fun c => (rest c).setS n (c.s n + v))) ∧
  (∀ a n, l.eff = .accZero a n → exec .resultLanding s = .next (s.running fun c =>
    { rest c with accs := c.accs.filter fun e => decide (e.1 / 16384 < a) || decide (a + n ≤ e.1 / 16384) }))) ∧
  (∀ (s : State) (l : Landing), s.slotLanding s.cur = some l →
  (∀ m, s.spineLanding s.cur = some m → l.ph < m.ph) →
  let c := s.curCtx
  let k := s.die c.die
  let sound := fun (row bank : Nat) =>
    mfind (c.lineNo row bank) k.badLines = none ∧ c.lineNo row bank % 2048 ∉ k.dead
  let reads := fun (new : List (Nat × Nat × Effect)) => ∃ d, exec .resultLanding s = .next (s.withCtx s.curKey d) ∧
    SameRegisters c d ∧ d.land = (c.land.filter fun x => x.seq != l.seq) ++
      new.zipIdx.map fun x => ⟨x.1.1, x.1.2.1, c.nextSeq + x.2, x.1.2.2⟩
  let writes := fun (mem : Memory) => ∃ t, exec .resultLanding s = .next t ∧ t.mem = mem ∧
    SameRegisters c (t.slot s.curKey) ∧ (∀ k, k ≠ s.curKey → t.slot k = s.slot k) ∧
    t.pkgs = s.pkgs ∧ t.nodes = s.nodes ∧ t.reqs = s.reqs
  (∀ off n g d, l.eff = .ldRead off n g d → 0 < n → n ≤ 8 → sound (off / 2 ^ 17) (off / 64 % 2048) →
    ∃ v, reads [(l.due + 4, phReg, .scalar d v)] ∧ (g = false → v.toNat = s.num (c.bankAt off) n) ∧
      (g = true → v.toInt = signed (8 * n) (s.num (c.bankAt off) n))) ∧
  (∀ off n op b x q, l.eff = .bankAtom off n op b x q → sound (off / 2 ^ 17) (off / 64 % 2048) →
    let old := s.num (c.bankAt off) n
    reads ((l.due, phSlotWrite, .bankWrite off (toBytes n (atomNew op n old b.toNat x.toNat))) ::
      (match q with
       | some e => [(l.due + 1, phSys, .lqFill e (word old))]
       | none => []))) ∧
  (∀ v1 regs en rt row, l.eff = .vldRead v1 regs en rt row →
    let src := (c.routeOr (s.node c.rid).routes 0 rt).source
    let base := if v1 then 512 else 0
    (∀ x ∈ groupLines src (if v1 then 1 else 0) row, x.1 < (s.node c.rid).brows ∧ sound x.1 x.2) →
    reads ((regs.zip en).zipIdx.map fun x => (l.due + 3, phReg, .vec x.1.1 (ofLines ((List.range 8).map fun j =>
      match src (base + 8 * x.2 + j) with
      | some b => s.bankLine c (row + b.2) b.1
      | none => 0)) x.1.2))) ∧
  (∀ a t e, l.eff = .drainRead a t e → ∃ m, reads (((List.range (drainLr (tidOfmt e) / 2)).map fun y =>
      (l.due + 3 + y, phPort, Effect.wLines ((List.range 256).map fun j => (1024 + j, drainLine c a e (256 * y + j))) none 0)) ++
      [(l.due + 7, phReg, .amax t m)]) ∧ (∀ i < 128, ∀ j < 128, (c.acc a i j).toNat % 2 ^ 31 ≤ m) ∧
      (m = 0 ∨ ∃ i < 128, ∃ j < 128, m = (c.acc a i j).toNat % 2 ^ 31)) ∧
  (∀ off bs, l.eff = .bankWrite off bs ∨ (l.eff = .bankBytes off bs ∧ sound (off / 2 ^ 17) (off / 64 % 2048)) →
    writes (memWrite (c.bankAt off) bs s.mem)) ∧
  (∀ ports rt row, l.eff = .wLines ports (some rt) row →
    let lines := ports.filterMap fun p => ((c.routeOr (s.node c.rid).routes 1 rt).sink p.1).map fun b => (row + b.2, b.1, p.2)
    (∀ x ∈ lines, x.1 < (s.node c.rid).brows ∧ c.lineNo x.1 x.2.1 % 2048 ∉ k.dead) →
    writes (lines.foldl (fun m x => memWrite (bankAddr c.die (c.physRow x.1) x.2.1 0) (bytesOfLine x.2.2) m) s.mem)))

/-! ## S slot: memory -/

/-- LD and ST of the own banks (R336, R377): the address sA + b passes the space check, is aligned to the size and
reaches its line; LD reads it at issue + 2 for sD, ST writes the low bytes of sV at issue + 3, and the count of R50
starts again. Only the running slot differs; no byte of memory changes at issue.
LD and ST elsewhere (R336, R377): LD takes the next load-queue entry, ST one of the store queue, and one request of
the slot is on its way; no register and no byte of memory changes. -/
def Obligations.LoadAndStore : Prop :=
  (∀ (f : SF) (s : State) (a : Nat), f.on s.curCtx = true →
  let p := f.av s.curCtx + f.bv s.curCtx
  let n := 2 ^ (f.mod.toNat % 8)
  ptrOk (s.node (keyRid s.curKey)).slots p = true → p.toNat % n = 0 → spaceOf p = 0 →
  s.bankReach (s.slot s.curKey) (offsetBits p) = .ready a none →
  exec (.ld f) s = .next (s.running fun c => c.later 2 phRead (.ldRead (offsetBits p) n (f.mod.getLsbD 3) f.d.toNat)) ∧
  exec (.st f) s = .next (s.running fun c =>
    (c.later 3 phSlotWrite (.bankBytes (offsetBits p) (toBytes n (c.s f.d.toNat).toNat))).progressed c.iss.tick)) ∧
  (∀ (f : SF) (s : State), f.on s.curCtx = true →
  let p := f.av s.curCtx + f.bv s.curCtx
  let n := 2 ^ (f.mod.toNat % 8)
  let c := s.curCtx
  ptrOk (s.node (keyRid s.curKey)).slots p = true → p.toNat % n = 0 → spaceOf p ≠ 0 →
  (c.lq.length < 256 → ∃ t r, exec (.ld f) s = .next t ∧
    t = { s.withCtx s.curKey c.lqAlloc with reqs := s.reqs ++ [r], nextReq := s.nextReq + 1 } ∧
    r.id = s.nextReq ∧ r.key = s.curKey ∧ r.kind = .load n (f.mod.getLsbD 3) ∧ r.ptr = p ∧ r.lq = some c.nextLq ∧
    r.st = .flying) ∧
  (c.sq.length < 256 → ∃ t r, exec (.st f) s = .next t ∧
    t = { s.withCtx s.curKey ((c.sqPush s.nextReq).progressed c.iss.tick) with
      reqs := s.reqs ++ [r], nextReq := s.nextReq + 1 } ∧
    r.id = s.nextReq ∧ r.key = s.curKey ∧ r.kind = .store n (c.s f.d.toNat) ∧ r.ptr = p ∧ r.lq = none ∧ r.st = .flying))

/-- ATOM, ATOM.cas and RED without an ordering modifier (R298, R297, R366): in the own banks the access performs at
issue + 3, and an ATOM takes a load-queue entry for the old value; elsewhere one numbered request is on its way, an
ATOM's with its entry, a RED's in the store queue. -/
def Obligations.Atomics : Prop := ∀ (f : SF) (s : State) (a : Nat), f.on s.curCtx = true → f.ord = 0 →
  let c := s.curCtx
  let p := f.av c
  let n := if f.mod.getLsbD 4 then 4 else 8
  let op := f.mod.toNat % 16
  ptrOk (s.node (keyRid s.curKey)).slots p = true → p.toNat % n = 0 →
  (spaceOf p = 0 → s.bankReach (s.slot s.curKey) (offsetBits p) = .ready a none → c.lq.length < 256 →
    (exec (.atom f) s = .next (s.running fun c =>
      (c.lqAlloc.later 3 phRead (.bankAtom (offsetBits p) n op (f.bv c) 0 (some c.nextLq))).progressed c.iss.tick)) ∧
    (exec (.atomCas f) s = .next (s.running fun c =>
      (c.lqAlloc.later 3 phRead (.bankAtom (offsetBits p) n op (f.bv c) (f.cv c) (some c.nextLq))).progressed c.iss.tick))) ∧
  (spaceOf p = 0 → s.bankReach (s.slot s.curKey) (offsetBits p) = .ready a none →
    exec (.red f) s = .next (s.running fun c =>
      (c.later 3 phRead (.bankAtom (offsetBits p) n op (f.bv c) 0 none)).progressed c.iss.tick)) ∧
  (spaceOf p ≠ 0 → c.lq.length < 256 → ∃ t r, exec (.atom f) s = .next t ∧ t.reqs = s.reqs ++ [r] ∧
    r.kind = .atom op n (f.bv c) 0 ∧ r.ptr = p ∧ r.lq = some c.nextLq ∧ t.slot s.curKey = c.lqAlloc.progressed c.iss.tick ∧
    t.mem = s.mem) ∧
  (spaceOf p ≠ 0 → c.lq.length < 256 → ∃ t r, exec (.atomCas f) s = .next t ∧ t.reqs = s.reqs ++ [r] ∧
    r.kind = .atom op n (f.bv c) (f.cv c) ∧ r.ptr = p ∧ r.lq = some c.nextLq ∧
    t.slot s.curKey = c.lqAlloc.progressed c.iss.tick ∧ t.mem = s.mem) ∧
  (spaceOf p ≠ 0 → c.sq.length < 256 → ∃ t r, exec (.red f) s = .next t ∧ t.reqs = s.reqs ++ [r] ∧
    r.kind = .red op n (f.bv c) ∧ r.ptr = p ∧ r.lq = none ∧
    t.slot s.curKey = (c.sqPush s.nextReq).progressed c.iss.tick ∧ t.mem = s.mem)

/-- LQPOP, APUSH and FENCE (R341, R177, R191). LQPOP on a returned entry removes it and delivers its value at issue + 1,
or 0 with the entry's fault before the next bundle, unless an earlier trap is pending; on an empty queue it traps
load-queue-empty, DETAIL 32. APUSH appends the low 32 bits of sA. A FENCE.acq in an elastic bundle issues and holds later
bundles for what its scope leaves outstanding; with nothing outstanding, and as a FENCE.rel whose release is complete, it
completes, and the count of R50 starts again. -/
def Obligations.QueuesAndFence : Prop := ∀ (f : SF) (s : State), f.on s.curCtx = true →
  (∀ e rest v, s.curCtx.lq = e :: rest → e.st = .value v →
    exec (.lqpop f) s = .next (s.running fun c => { c with lq := rest }.later 1 phReg (.scalar f.d.toNat v))) ∧
  (∀ e rest x, s.curCtx.lq = e :: rest → e.st = .fault x →
    exec (.lqpop f) s = .next (s.running fun c =>
      { c with lq := rest, pending := c.pending <|> some (trapAfter 0 x.cause x.ptr.toNat x.detail) }.later 1 phReg (.scalar f.d.toNat 0))) ∧
  (s.curCtx.lq = [] →
    exec (.lqpop f) s = .next (s.commit (takeTrap s s.curKey (trapAt 0 .loadQueueEmpty 0 32)))) ∧
  (s.curCtx.aq.length < 1024 →
    exec (.apush f) s = .next (s.running fun c => { c with aq := c.aq ++ [(f.av c).truncate 32] })) ∧
  (s.curCtx.iss.elastic = true → f.mod.toNat % 4 = 1 → s.acquireRefs s.curKey (f.mod.toNat / 4) ≠ [] →
    exec (.fence f) s = .next (s.running fun c =>
      { c with acqUntil := c.acqUntil ++ s.acquireRefs s.curKey (f.mod.toNat / 4) ++ [refFence] })) ∧
  (s.curCtx.iss.elastic = true → f.mod.toNat % 4 = 1 → s.acquireRefs s.curKey (f.mod.toNat / 4) = [] →
    exec (.fence f) s = .next (s.running fun c => c.progressed c.iss.tick)) ∧
  (s.curCtx.iss.elastic = true → f.mod.toNat % 4 = 2 → s.released s.curKey (f.mod.toNat / 4) = true →
    exec (.fence f) s = .next (s.running fun c => c.progressed c.iss.tick))

/-- WAITW in an elastic bundle, once a read has returned a word that satisfies it and its acquire is complete (R425):
sD takes the word at completion + 1, and the count of R50 starts again; nothing else differs.
TWAIT and TWAIT.abs at or after their target, and not later than TGUARD, complete (R388): the count of R50 starts
again and ALAST stays. Past the target plus TGUARD they raise late-tick with the target in FAR. -/
def Obligations.WaitsComplete : Prop :=
  (∀ (f : SF) (s : State) (w : Word), f.on s.curCtx = true →
  s.curCtx.iss.elastic = true → ptrOk (s.node (keyRid s.curKey)).slots (f.av s.curCtx) = true →
  (f.av s.curCtx).toNat % 8 = 0 → spaceOf (f.av s.curCtx) ≠ 0 → s.curCtx.wait.sent = true →
  s.curCtx.wait.fault = none → s.curCtx.wait.word = some w → s.acquired s.curKey (f.mod.toNat / 128) = true →
  exec (.waitw f) s = .next (s.running fun c => (c.later 1 phReg (.scalar f.d.toNat w)).progressed c.iss.tick)) ∧
  (∀ (f : SF) (s : State), f.on s.curCtx = true → s.curCtx.iss.elastic = true →
  s.curCtx.wait.sent = true →
  let b := s.curCtx.wait.operand
  let t : Int := if f.mod.getLsbD 0 then b.toNat else s.curCtx.tbase + b.toInt
  (t ≤ s.curCtx.iss.tick → (s.curCtx.iss.tick : Int) ≤ t + s.curCtx.tguard →
    exec (.twait f) s = .next (s.running fun c => c.progressed c.iss.tick) ∧
    exec (.twaitAbs f) s = .next (s.running fun c => c.progressed c.iss.tick)) ∧
  (t + s.curCtx.tguard < s.curCtx.iss.tick →
    ∃ d, exec (.twait f) s = .next (s.commit (takeTrap s s.curKey d)) ∧
      exec (.twaitAbs f) s = .next (s.commit (takeTrap s s.curKey d)) ∧ d.cause = .lateTick ∧ d.kind = .atBundle ∧
      d.addr = (wordI t).toNat))

/-! ## S slot: control -/

/-- Transfers (R303, R304, R331, R368): a target that is a multiple of 64 inside the bundle memory becomes PC, its
bundle issues no earlier than issue + IDLE + 3 and begins a span; a CALL writes the return offset to s63 at issue + 1;
nothing else differs. With a target that is no multiple of 64 each of them raises misalignment, and with one that is
negative or at or beyond BMEM × 4096 permission, with nothing of the transfer.
LOOP, when its checks pass (R155–R157, R340): the slot keeps a copy of the body and of the scalar registers as they
stand, and reads the descriptor at issue + 2; a descriptor that breaks a reserved or range rule leaves reserved-field, one
with a tensor identifier beyond TIDS permission, kind after, and the loop is discarded; with passes g32 is 1 and the other
stage predicates 0, named under the GRB of LOOP's issue (R97); without passes PC goes to the exit. (That g32 is 0 without
passes is the model's choice: log 15.) -/
def Obligations.TransfersAndLoops : Prop :=
  (∀ (f : SF) (s : State), f.on s.curCtx = true →
  let c := s.curCtx
  let size : Int := (s.node (keyRid s.curKey)).bmem * 4096
  let goes := fun (t : Int) => s.running fun c => { c with pc := t.toNat, earliest := c.iss.pos + c.iss.idle + 3, fresh := true }
  let calls := fun (t : Int) => s.running fun c =>
    { c with pc := t.toNat, earliest := c.iss.pos + c.iss.idle + 3, fresh := true }.later 1 phReg (.scalar 63 (word (c.iss.pc + 64)))
  let rel : Int := c.iss.pc + 64 * f.imm.toInt
  let reg : Int := (f.av c).toNat
  let does := fun (i : Instr) (t : Int) (after : Int → State) =>
    (t % 64 = 0 → 0 ≤ t → t < size → exec i s = .next (after t)) ∧
    (t % 64 ≠ 0 → exec i s = .next (s.commit (takeTrap s s.curKey (trapAt 0 .misalignment (wordI t).toNat)))) ∧
    (t % 64 = 0 → t < 0 ∨ size ≤ t →
      exec i s = .next (s.commit (takeTrap s s.curKey (trapAt 0 .permission (wordI t).toNat))))
  does (.brRel f) rel goes ∧ does (.callRel f) rel calls ∧
  does (.brReg f) reg goes ∧ does (.jmpReg f) reg goes ∧ does (.callReg f) reg calls ∧
  does (.jmpImm f) (64 * (f.imm.toNat : Int)) goes ∧
  (∀ x, f.long = some x → does (.jmpLong f) x.toNat goes) ∧
  does (.ret f) (c.s 63).toNat goes) ∧
  ((∀ (f : SF) (s : State), f.on s.curCtx = true → loopGuard f s = .go →
    ∃ t l, exec (.loop f) s = .next t ∧
      t = s.running (fun c => { c with loop := some l, loopHeld := false }.later 2 phRead .loopRead) ∧
      l.pc = s.curCtx.iss.pc + 64 ∧ l.body = loopBody f s ∧ l.counts = (List.range 64).map (fun i => (s.curCtx.s i).toNat) ∧
      l.desc = offsetBits (f.av s.curCtx) ∧ l.grb = s.curCtx.iss.grb ∧ l.ready = false) ∧
  (∀ (s : State) (l : Landing), s.slotLanding s.cur = some l → (∀ m, s.spineLanding s.cur = some m → l.ph < m.ph) →
    let c := s.curCtx
    let rest := fun (c : Ctx) => { c with land := c.land.filter fun x => x.seq != l.seq }
    (∀ x, l.eff = .loopRead → c.loop = some x →
      (∀ i < 8, let line := c.lineNo ((x.desc + 64 * i) / 2 ^ 17) ((x.desc + 64 * i) / 64 % 2048)
        mfind line (s.die c.die).badLines = none ∧ line % 2048 ∉ (s.die c.die).dead) →
      let d := s.descBytes c x.desc
      let reads := fun (t : Option Trap) => exec .resultLanding s =
        .next (s.running fun c => (rest c).later 3 phSys (.loopCheck t (loopOf d x)))
      (descReserved d x.counts x.body.length = true → reads (some (trapAfter 0 .reservedField x.desc))) ∧
      (descReserved d x.counts x.body.length = false → descTids d (s.node c.rid).tids = true →
        reads (some (trapAfter 0 .permission x.desc))) ∧
      (descReserved d x.counts x.body.length = false → descTids d (s.node c.rid).tids = false → descStages d < 2 →
        reads none)) ∧
    (∀ t x, l.eff = .loopCheck (some t) x → c.loopHeld = false → exec .resultLanding s =
      .next (s.running fun c => { rest c with loop := none, pending := c.pending <|> some t })) ∧
    (∀ x, l.eff = .loopCheck none x → x.stages ≤ 15 → c.loopHeld = false →
      ∃ d, exec .resultLanding s = .next (s.withCtx s.curKey d) ∧ SameRegisters c d ∧
        (∀ i < x.stages, d.g (physG x.grb (32 + i)) = (decide (i = 0) && decide (x.total ≠ 0))) ∧
        (x.total ≠ 0 → d.loop = some x ∧ d.pc = c.pc) ∧
        (x.total = 0 → d.loop = none ∧ d.pc = x.pc + 64 * x.body.length))))

/-- TRAP and TRET (R250): TRAP leaves the software trap, kind after, with its code, to be taken before the next bundle,
unless an earlier trap is pending.
TRET, in a handler and an elastic bundle, clears FSR.IN and goes back to RPC × 64, no earlier than issue + IDLE + 3, with
the loop whose bundle RPC names (one without passes goes on at its exit); a TRET outside a handler raises the illegal-bundle trap.
Handler entry (R249, T13.2): in a region with a handler, a trap outside it changes the trapping slot alone: FSR holds
the cause, class, unit, kind, slot, detail and RPC with IN = 1, FAR the address, PC the handler, whose first bundle
issues 3 die cycles later; registers, masks, accumulators and results in flight stay. -/
def Obligations.TrapsAndReturns : Prop :=
  (∀ (f : SF) (s : State), f.on s.curCtx = true →
  (exec (.trap f) s = .next (s.running fun c =>
    { c with pending := c.pending <|> some (trapAfter 0 .software 0 (f.imm.toNat % 65536)) })) ∧
  (s.curCtx.iss.elastic = true → s.curCtx.fsr.getLsbD 11 = true →
    bits s.curCtx.fsr.toNat 63 47 * 64 < (s.node (keyRid s.curKey)).bmem * 4096 →
    ∃ c, exec (.tret f) s = .next (s.withCtx s.curKey c) ∧ c.fsr = s.curCtx.fsr &&& ~~~(1#64 <<< 11) ∧
      c.earliest = s.curCtx.iss.pos + s.curCtx.iss.idle + 3 ∧ c.fresh = true ∧ c.far = s.curCtx.far ∧ SameRegisters s.curCtx c ∧
      (let back := bits s.curCtx.fsr.toNat 63 47 * 64
       (s.curCtx.loop = none → c.pc = back ∧ c.loop = none) ∧
       ∀ l, s.curCtx.loop = some l →
        (l.pc + 64 * l.at_ ≠ back → c.pc = back ∧ c.loop = none) ∧
        (l.pc + 64 * l.at_ = back → ¬(l.ready = true ∧ l.total = 0) → c.pc = back ∧ c.loop = some l) ∧
        (l.pc + 64 * l.at_ = back → l.ready = true → l.total = 0 → c.pc = l.pc + 64 * l.body.length ∧ c.loop = none))) ∧
  (s.curCtx.iss.elastic = true → s.curCtx.fsr.getLsbD 11 = false →
    exec (.tret f) s = .next (s.commit (takeTrap s s.curKey (trapAt 0 .illegalBundle 0))))) ∧
  (∀ (s : State) (k : SlotKey) (h : Nat) (t : Trap),
  (s.node (keyRid k)).handler = some h → (s.slot k).fsr.getLsbD 11 = false → t.detail < 65536 → t.unit < 64 → t.slot < 8 →
  ∃ c, s.commit (takeTrap s k t) = s.withCtx k c ∧ c.pc = h ∧ c.far = word t.addr ∧ c.fresh = true ∧
    bits c.fsr.toNat 7 0 = t.cause.code ∧ bits c.fsr.toNat 10 8 = t.cause.class_ ∧ c.fsr.getLsbD 11 = true ∧
    bits c.fsr.toNat 17 12 = t.unit ∧ bits c.fsr.toNat 19 18 = t.kind.code ∧ bits c.fsr.toNat 22 20 = t.slot ∧
    bits c.fsr.toNat 39 24 = t.detail ∧ bits c.fsr.toNat 46 40 = min t.count 127 ∧
    bits c.fsr.toNat 63 47 = (s.slot k).pc / 64 % 2 ^ 17 ∧ SameRegisters (s.slot k) c ∧ c.land = (s.slot k).land ∧
    c.tags = (s.slot k).tags ∧ c.lq = (s.slot k).lq ∧
    c.earliest = (if t.kind = .after ∨ t.kind = .engine then (s.slot k).iss.pos + (s.slot k).iss.idle else (s.slot k).pos) + 3)

/-- LAUNCH posts a space-0x2, 512-byte aligned RCB address, once it is released at row scope and the launch queue has a
place (R32, R334). -/
def Obligations.LaunchPosts : Prop :=
  (∀ (f : SF) (s : State), f.on s.curCtx = true → s.curCtx.iss.elastic = true → spaceOf (f.av s.curCtx) = 2 →
    ptrOk (s.node s.curCtx.rid).slots (f.av s.curCtx) = true → (f.av s.curCtx).toNat % 512 = 0 →
    s.released s.curKey 2 = true → (s.pkg s.curCtx.pkg).launchQ.length < 64 → s.curCtx.keeps 64 = false →
    ∃ t, exec (.launch f) s = .next t ∧ (t.pkg s.curCtx.pkg).launchQ = (s.pkg s.curCtx.pkg).launchQ ++
        [{ ptr := f.av s.curCtx, fromKey := some s.curKey, part := (s.node s.curCtx.rid).part, tbase := s.curCtx.tbase, hits := [] }] ∧
      SameRegisters s.curCtx (t.slot s.curKey) ∧ t.mem = s.mem ∧ t.nodes = s.nodes ∧ (t.slot s.curKey).keeps 64 = false)

/-! ## S slot: waits -/

/-- Tag waits and tag instructions (R426, R382, R248): WTAGALL completes when every tag of the mask is set, WTAGANY when
one is, with the lowest for sD; a tag of the mask with its XSTAT bit set leaves its engine trap for the next bundle.
TAGFF gives the lowest tag, or 64; TAGCLR clears at issue.
QWAIT, QADV and QSET on a queue below QUEUES (R364, R361, R363): QWAIT completes on enough entries or room, QADV
moves its pointer at issue + 1, QSET binds at issue + 1 an aligned area inside BROWS, or unbinds with depth 0; and an
unbound queue, and for QWAIT more entries than its depth, raises the reserved-field trap. -/
def Obligations.TagsAndOperandQueues : Prop :=
  (∀ (f : SF) (s : State), f.on s.curCtx = true →
  let b := f.bv s.curCtx
  (s.curCtx.iss.elastic = true → s.curCtx.tags &&& b = b → s.curCtx.xstat &&& b = 0 →
    exec (.wtagall f) s = .next (s.running fun c => c.progressed c.iss.tick)) ∧
  (s.curCtx.iss.elastic = true → s.curCtx.tags &&& b = b → ∀ n < 64, (s.curCtx.xstat &&& b).getLsbD n = true →
    (∀ m < n, (s.curCtx.xstat &&& b).getLsbD m = false) → ∃ e,
    exec (.wtagall f) s = .next (s.running fun c => { c.progressed c.iss.tick with pending := c.pending <|> some (trapEngine 0 n e) })) ∧
  (s.curCtx.iss.elastic = true → s.curCtx.xstat &&& b = 0 → ∀ n < 64, (s.curCtx.tags &&& b).getLsbD n = true →
    (∀ m < n, (s.curCtx.tags &&& b).getLsbD m = false) →
    exec (.wtagany f) s = .next (s.running fun c => (c.later 1 phReg (.scalar f.d.toNat (word n))).progressed c.iss.tick)) ∧
  (∀ n < 64, (s.curCtx.tags &&& b).getLsbD n = true → (∀ m < n, (s.curCtx.tags &&& b).getLsbD m = false) →
    exec (.tagff f) s = .next (s.owes 1 (.scalar f.d.toNat (word n)))) ∧
  (s.curCtx.tags &&& b = 0 → exec (.tagff f) s = .next (s.owes 1 (.scalar f.d.toNat 64))) ∧
  (exec (.tagclr f) s = .next (s.running fun c => { c with tags := c.tags &&& ~~~b }))) ∧
  (∀ (f : SF) (s : State), f.on s.curCtx = true →
  f.qnum < (s.node s.curCtx.rid).queues →
  let q := s.curCtx.q f.qnum
  let room := if f.qwhich then f.qn ≤ q.depth - q.count else f.qn ≤ q.count
  let a := (f.av s.curCtx).toNat
  (s.curCtx.iss.elastic = true → q.depth ≠ 0 → f.qn ≤ q.depth → room →
    exec (.qwait f) s = .next (s.running fun c => c.progressed c.iss.tick)) ∧
  (q.depth ≠ 0 → room →
    exec (.qadv f) s = .next (s.running fun c => c.later 1 phSys (.qadv f.qnum f.qwhich f.qn))) ∧
  (f.qdepth = 0 ∨ (a / 2 ^ 54 = 0 ∧ a % 512 = 0 ∧ a + 512 * f.qdepth ≤ 0x400000 ∧
      (a + 512 * f.qdepth - 1) / 2 ^ 17 < (s.node s.curCtx.rid).brows) →
    exec (.qset f) s = .next (s.running fun c => c.later 1 phSys (.qset f.qnum (a / 512) f.qdepth))) ∧
  (s.curCtx.iss.elastic = true → q.depth = 0 ∨ q.depth < f.qn →
    exec (.qwait f) s = .next (s.commit (takeTrap s s.curKey (trapAt 0 .reservedField 0 f.qnum)))) ∧
  (q.depth = 0 →
    exec (.qadv f) s = .next (s.commit (takeTrap s s.curKey (trapAt 0 .reservedField 0 f.qnum)))))

/-! ## S slot: barriers, steps, crown allocation -/

/-- BARA, BARW and STEP (R221, R217, R378), in elastic bundles, with the entry installed. BARA, released and not yet
arrived, sends its arrival and records the phase; BARW completes once the phase that it recorded has flipped, or with none
recorded, and its acquire is complete; STEP completes once the flip past its arrival has come, with the collisions of the merge for sD.
The barrier root (R215, R220, R221). An arrival of a member is counted once; the last one of a step group starts the
merge at its homes; each home that merges writes what its elements give (a written one becomes present, unless its region
is of the FAULT rule and it has collided, and its mark is cleared; one not written stays) and leaves the list, unless the merge must wait for a failover or for a load that a
member issued before; with the last home the step of the group is counted and its collisions are the group's; and when
none is left the phase flips and the arrivals are forgotten. What passes between the root and another package waits while no
path carries it, which is the model's choice (log 27). -/
def Obligations.Barriers : Prop :=
  (∀ (f : SF) (s : State) (x : Barrier), f.on s.curCtx = true →
  s.curCtx.iss.elastic = true →
  let part := (s.node s.curCtx.rid).part
  let b := f.imm.toNat % 64
  let g := f.imm.toNat % 16
  let me := memberOf s.curKey
  (16 ≤ b → mfind (64 * part + b) s.barriers = some x → x.has me = false → s.curCtx.keeps b = false →
    s.released s.curKey (f.mod.toNat / 4 % 8) = true →
    ∃ t, exec (.bara f) s = .next t ∧
      mfind (64 * part + b) t.barriers = some { x with moving := x.moving ++ [me] } ∧
      mget (t.slot s.curKey).phases b 0 = x.phase + 1 ∧ SameRegisters s.curCtx (t.slot s.curKey) ∧ t.mem = s.mem) ∧
  (16 ≤ b → mfind (64 * part + b) s.barriers = some x → mget s.curCtx.phases b (x.phase + 2) ≠ x.phase + 1 →
    mfind b s.curCtx.phases ≠ none → s.acquired s.curKey (f.mod.toNat / 4 % 8) = true →
    exec (.barw f) s = .next (s.running fun c => c.progressed c.iss.tick)) ∧
  (16 ≤ b → mfind (64 * part + b) s.barriers = some x → mfind b s.curCtx.phases = none →
    s.acquired s.curKey (f.mod.toNat / 4 % 8) = true →
    exec (.barw f) s = .next (s.running fun c => c.progressed c.iss.tick)) ∧
  (mfind (64 * part + g) s.barriers = some x → s.curCtx.keeps g = true → (mget s.curCtx.kept g (x.phase, 0)).1 ≠ x.phase →
    x.frozeAt = false → x.faultColl = false → x.has me = false →
    ∃ c, exec (.step f) s = .next (s.withCtx s.curKey c) ∧ SameRegisters s.curCtx c ∧
      (⟨s.curCtx.iss.pos + 1, phReg, s.curCtx.nextSeq, .scalar f.d.toNat (word (min x.coll (2 ^ 32 - 1)))⟩ : Landing) ∈ c.land ∧
      c.progress = s.curCtx.iss.tick ∧ c.pending = s.curCtx.pending)) ∧
  (∀ (s : State) (part entry : Nat) (b : Barrier),
  mfind (64 * part + entry) s.barriers = some b →
  (∀ w, w ∈ b.moving → s.rootReaches b (w % 1024) = false → exec (.barrierArrival part entry w) s = .next s) ∧
  (∀ w, w ∈ b.moving → w ∈ b.members → w ∉ b.arrived → s.rootReaches b (w % 1024) = true →
    ∃ t, exec (.barrierArrival part entry w) s = .next t ∧
    t = { s with barriers := t.barriers } ∧ (∃ y, mfind (64 * part + entry) t.barriers = some y ∧
      y.arrived = b.arrived ++ [w] ∧ y.moving = b.moving.erase w ∧ y.phase = b.phase ∧
      (b.merging = none → (∀ m ∈ b.members, m ∈ b.arrived ++ [w]) →
        y.merging = some (if entry < 16 then s.groupHomes part entry else []) ∧ y.mcoll = 0))) ∧
  (∀ hs home, b.merging = some hs → home ∈ hs → s.mergeWaits part entry = false → s.rootReaches b (homeOwner home) = true →
    ∃ t, exec (.planeMerge part entry home) s = .next t ∧ t.mem = (s.commit (s.mergeAt part entry home).us).mem ∧
      t.slots = s.slots ∧
      (∃ y, mfind (64 * part + entry) t.barriers = some y ∧ y.merging = some (hs.erase home) ∧ b.mcoll ≤ y.mcoll ∧
        y.phase = b.phase ∧ y.coll = (if hs.erase home = [] then y.mcoll else b.coll) ∧
        y.steps = (if hs.erase home = [] then b.steps + 1 else b.steps))) ∧
  (b.merging = some [] → (∀ w ∈ b.members, s.rootReaches b (w % 1024) = true) →
    ∃ t, exec (.phaseFlip part entry) s = .next t ∧ t = { s with barriers := t.barriers } ∧
    mfind (64 * part + entry) t.barriers = some { b with
      phase := b.phase + 1, merging := none, arrived := [] }) ∧
  (∀ (pt : Party) (p : Plane) (e x n m : Nat), 8 ≤ width p.ty → s.areaAt pt p.base (e * width p.ty / 8) false = .ok (x, none) →
    s.areaAt pt p.nbase (e * width p.ty / 8) false = .ok (n, none) →
    s.markRuns pt p.mbase e false = .ok [((m, none), 16)] →
    let mark := s.num m 16
    let size := width p.ty / 8
    let r := mergeElem s pt p e
    (bit mark 80 = false → r = ([], false)) ∧
    (bit mark 80 = true → r.2 = bit mark 81 ∧ (s.commit r.1).mem = memWrite m (List.replicate 16 0)
      (if p.rule = 2 ∧ bit mark 81 = true then s.mem else memWrite x (toBytes size (s.num n size)) s.mem))))

/-- Requests for crown memory and group status (R202–R205, R219, R329, R359). In an elastic bundle a PSTAT, FALLOC,
FALLOC.at, FALLOC.query or FFREE whose answer has come writes it to sD at issue + 1, and its request is gone; the count of
R50 starts again with PSTAT here, and for the others with their answer.
The allocator and the barrier root answer a slot's request (R201–R205, R219), which is a progress event. A FALLOC takes
the lowest free run of the first package and fabric die that has one, zero filled, charges the quota (twice for a mirrored
one, whose mirror takes the same run on another package of the row), and gives its pointer; a size of 0 or above the crown
banks, a package outside the row, a quota exceeded and no free run give their failure values, and take nothing. A query
gives the status word of an allocation of the partition; FFREE removes one and its mirror and returns the charge; of
anything else they give 0xF000_0000_0000_0006 and 6, and FFREE of one with an installed plane region 7. A mirrored FALLOC
gives 0xF000_0000_0000_0005 where a run is free and no mirror of it. A request that no
path carries completes with circuit-down. A group's status is that of the last merge that its homes have reported.
In part the model's choice: that such a request, and a PSTAT, completes with circuit-down, as R226 has it for an access
(log 27); and that FFREE returns the charge that the allocation has still, which is single once its mirror is lost (log
26). -/
def Obligations.CrownAllocationAndStatus : Prop :=
  (∀ (f : SF) (s : State) (r : Req) (v : Word), f.on s.curCtx = true →
  s.curCtx.iss.elastic = true → r.st = .performed v →
  let owes := fun (c : Ctx) => c.later 1 phReg (.scalar f.d.toNat v)
  let gone := fun (t : State) => { t with reqs := s.reqs.filter fun q => q.id != r.id }
  let done := gone (s.running owes)
  (s.asked ReqKind.isStat = some r → (s.barrier? (f.imm.toNat % 16)).isSome = true →
    exec (.pstat f) s = .next (gone (s.running fun c => (owes c).progressed c.iss.tick))) ∧
  (s.asked ReqKind.isAlloc = some r → exec (.falloc f) s = .next done ∧ exec (.fallocAt f) s = .next done) ∧
  (s.asked ReqKind.isAlloc = some r → crownPtr (f.av s.curCtx) = true →
    exec (.fallocQuery f) s = .next done ∧ exec (.ffree f) s = .next done)) ∧
  (∀ (s : State) (k : SlotKey) (r : Req),
  let own := keyPkg k
  (s.reqs.find? (fun q => q.key == k && q.open_ && ReqKind.isAlloc q.kind) = some r →
    let gets := fun (t : State) (v : Word) =>
      t.commit [setReq r.id (.performed v), .slot k fun c => c.progressed (s.gtc own)]
    let answers := fun (v : Word) => exec (.crownAllocatorAnswer k) s = .next (gets s v)
    let carried := s.allocPath own (r.kind.crownOf own).1 = .carried
    (s.allocFails r = none → s.allocPath own (r.kind.crownOf own).1 = .cut → exec (.crownAllocatorAnswer k) s =
      .next (s.commit [setReq r.id (.failed { cause := .circuitDown, ptr := (r.kind.crownOf own).2, detail := 0 })])) ∧
    (∀ p, r.kind = .query p → carried →
      (∀ a, s.allocAt? r.part p = some a → answers a.status) ∧
      (s.allocAt? r.part p = none → answers 0xF000000000000006)) ∧
    (∀ size at_ fd m, r.kind = .alloc size at_ fd m →
      let n := (size.toNat + 65535) / 65536
      let charge := if m then 2 * n else n
      let near := ∀ q, at_ = some q → q ∈ s.row own
      let room := (s.node r.part).crownUse + charge ≤ (s.node r.part).crownq
      let places := (match at_ with
        | some q => [q]
        | none => own :: (s.row own).filter (· != own)).flatMap fun q => (if fd = 0 then [0, 1] else [fd - 1]).map fun f => (q, f)
      let a := fun (q b : Nat) (mirror : Option PkgId) (of_ : Option PkgId) =>
        { part := r.part, bank := b, units := n, home := q, mirror := mirror, isMirror := of_, degraded := false, lost := false,
          failing := none : Alloc }
      let list := fun (t : State) (q f : Nat) => mget (t.pkg q).allocs f []
      let makes := fun (q f b : Nat) (p : State → Prop) => ∃ t u, exec (.crownAllocatorAnswer k) s = .next t ∧
        t = gets u (word (3 * 2 ^ 60 + q * 2 ^ 44 + f * 2 ^ 29 + b * 65536)) ∧
        (t.node r.part).crownUse = (s.node r.part).crownUse + charge ∧ p t
      (n = 0 ∨ 8192 < n → answers 0xF000000000000004) ∧
      (0 < n → n ≤ 8192 → ¬ near → answers 0xF000000000000003) ∧
      (0 < n → n ≤ 8192 → near → ¬ room → answers 0xF000000000000001) ∧
      (carried → 0 < n → n ≤ 8192 → near → room → (∀ x ∈ places, s.freeRun x.1 x.2 n = none) →
        (m = true → ∀ x ∈ places, s.freePair x.1 x.2 n = none) → answers 0xF000000000000002) ∧
      (carried → 0 < n → n ≤ 8192 → near → room → m = true → (∀ x ∈ places, s.freePair x.1 x.2 n = none) →
        (∃ x ∈ places, s.freeRun x.1 x.2 n ≠ none) → answers 0xF000000000000005) ∧
      (∀ q f b, carried → 0 < n → n ≤ 8192 → near → room → m = false →
        places.findSome? (fun x => (s.freeRun x.1 x.2 n).map fun b => (x.1, x.2, b)) = some (q, f, b) → makes q f b fun t =>
        list t q f = list s q f ++ [a q b none none] ∧ t.mem = memClear (homeAddr 2 q f (b * 65536)) (n * 65536) s.mem) ∧
      (∀ q f b o, carried → 0 < n → n ≤ 8192 → near → room → m = true →
        places.findSome? (fun x => (s.freePair x.1 x.2 n).map fun y => (x.1, x.2, y)) = some (q, f, b, o) → makes q f b fun t =>
        list t q f = list s q f ++ [a q b (some o) none] ∧ list t o f = list s o f ++ [a o b none (some q)] ∧
        t.mem = memClear (homeAddr 2 o f (b * 65536)) (n * 65536)
          (memClear (homeAddr 2 q f (b * 65536)) (n * 65536) s.mem))) ∧
    (∀ p, r.kind = .free p → carried →
      let fd := if p.getLsbD 29 then 1 else 0
      let list := fun (t : State) (q : Nat) => mget (t.pkg q).allocs fd []
      let used := fun (a : Alloc) => s.planes.any fun e => decide (e.1 / 64 = r.part) && e.2.areas.any (areaIn (ptrPkg p) fd a)
      (s.allocAt? r.part p = none → answers 6) ∧
      (∀ a, s.allocAt? r.part p = some a → used a = true → answers 7) ∧
      (∀ a, s.allocAt? r.part p = some a → used a = false → ∃ t u, exec (.crownAllocatorAnswer k) s = .next t ∧
        t = gets u 0 ∧ t.mem = s.mem ∧
        (t.node r.part).crownUse = (s.node r.part).crownUse - (if a.mirror.isSome then 2 * a.units else a.units) ∧
        (∀ x ∈ list t (ptrPkg p), ¬(x.isMirror = none ∧ x.bank = a.bank)) ∧
        (∀ q, ∀ x ∈ list s q, x.bank ≠ a.bank → x ∈ list t q) ∧
        (∀ o, a.mirror = some o → ∀ x ∈ list t o, ¬(x.isMirror = some (ptrPkg p) ∧ x.bank = a.bank))))) ∧
  (∀ q f n b, s.freeRun q f n = some b → s.runFree q f b n = true ∧ ∀ x < b, s.runFree q f x n = false) ∧
  (∀ g b, s.reqs.find? (fun q => q.key == k && q.open_ && ReqKind.isStat q.kind) = some r → r.kind = .pstat g false →
    mfind (64 * r.part + g) s.barriers = some b →
    let ends := fun (st : ReqState) => exec (.barrierRootAnswer k) s = .next (s.commit [setReq r.id st])
    (s.roundTrip (keyPkg r.key) b.root = .carried → ends (.performed (s.groupStatus r.part g b))) ∧
    (s.roundTrip (keyPkg r.key) b.root = .cut → ends (.failed { cause := .circuitDown, ptr := 0, detail := g }))))

/-! ## S slot: system registers -/

/-- SYSRD, the reads of TSTAT and MSTAT that also clear their sticky bits at issue + 1, and the permission fault of the
injection registers outside a service region (R380, R381, T5.3): the value is that of the register at issue:
the time, die and region registers, the queues' counts and pointers, MSTAT, the rings of the plane that OPSEL selects and
the links. The two free values are for the readings of an optical register that the spec leaves open (log 5). -/
def Obligations.SystemRegisterReads : Prop := ∀ (f : SF) (s : State), f.on s.curCtx = true →
  let n := f.imm.toNat % 4096
  (n < 0x900 ∨ (s.node s.curCtx.rid).service = true →
    exec (.sysrd f) s = .next { s.owes 1 (.scalar f.d.toNat (s.sysRead n)) with fresh := s.fresh + 2 } ∧
    exec (.tstatRead f) s = .next { s.running fun c =>
      (c.later 1 phReg (.scalar f.d.toNat (s.sysRead n))).later 1 phSys .tstatClear with fresh := s.fresh + 2 } ∧
    exec (.mstatRead f) s = .next { s.running fun c =>
      (c.later 1 phReg (.scalar f.d.toNat (s.sysRead n))).later 1 phSys .mstatClear with fresh := s.fresh + 2 }) ∧
  (0x900 ≤ n → (s.node s.curCtx.rid).service = false →
    exec (.sysrd f) s = .next (s.commit (takeTrap s s.curKey (trapAt 0 .permission n)))) ∧
  s.sysRead 0x000 = word s.curCtx.iss.tick ∧ s.sysRead 0x001 = word s.curCtx.tbase ∧
  s.sysRead 0x002 = word s.curCtx.tguard ∧ s.sysRead 0x008 = word s.curCtx.iss.rrb ∧ s.sysRead 0x009 = word s.curCtx.iss.grb ∧
  s.sysRead 0x00A = s.curCtx.vflags ∧ s.sysRead 0x010 = s.curCtx.fsr ∧ s.sysRead 0x011 = s.curCtx.far ∧
  s.sysRead 0x01B = word s.curCtx.rid ∧ s.sysRead 0x022 = s.curCtx.xstat ∧ s.sysRead 0x024 = word s.curCtx.waitlim ∧
  (let c := s.curCtx
   let k := s.pkg c.pkg
   let t := s.sysRead 0x005
   let q := fun (n : Nat) => s.sysRead (0x030 + n)
   let ring := fun (n : Nat) => s.sysRead (0x110 + n)
   let row := fun (n : Nat) => s.sysRead (0x140 + n)
   let col := fun (n : Nat) => s.sysRead (0x160 + n)
   let reads := fun (w : Word) (l : Link) => w.extractLsb' 0 3 = BitVec.ofNat 3 l.state ∧
     (w.extractLsb' 4 2).toNat = min l.attempts 3 ∧ (w.extractLsb' 16 16).toNat = min l.replays 65535
   s.sysRead 0x003 = word (s.die c.die).slipmax ∧ s.sysRead 0x004 = BitVec.ofInt 64 c.iss.alast ∧
   (t.extractLsb' 0 2 = BitVec.ofNat 2 k.disc ∧ t.getLsbD 2 = c.slipSeen ∧
     (t.extractLsb' 32 16).toInt = max (-32767) (min 32767 k.ofs)) ∧
   s.sysRead 0x018 = word (c.pkg * 16 + c.phys) ∧ s.sysRead 0x019 = word c.slot ∧ s.sysRead 0x01A = word c.placegen ∧
   s.sysRead 0x020 = word (c.aq.length * 2 ^ 18 + lqReady c.lq * 2 ^ 9 + c.lq.length) ∧
   s.sysRead 0x021 = c.iss.mstat ∧ (∀ b, (s.issueOf c b).mstat = c.matrix.stat) ∧
   (∀ n < 32, (q n).extractLsb' 0 9 = BitVec.ofNat 9 (c.q n).rp ∧ (q n).extractLsb' 9 9 = BitVec.ofNat 9 (c.q n).wp ∧
     (q n).extractLsb' 18 13 = BitVec.ofNat 13 (c.q n).qb ∧ (q n).extractLsb' 31 33 = BitVec.ofNat 33 (c.q n).depth) ∧
   s.sysRead 0x100 = word c.opsel ∧
   (∀ n < 17, let x := k.ring ((72 * (c.opsel / 256 % 2) + c.opsel % 256) * 17 + n)
     (ring n).getLsbD 39 = x.cv ∧ (ring n).extractLsb' 32 7 = BitVec.ofNat 7 x.colour ∧
     (ring n).getLsbD 30 = decide (x.mon < 1024) ∧ (ring n).extractLsb' 12 16 = BitVec.ofNat 16 x.mon ∧
     (ring n).extractLsb' 0 12 = BitVec.ofNat 12 x.heat) ∧
   (∀ n < 32, n ≠ c.pkg % 32 → reads (row n) (s.link c.pkg 0 n)) ∧ row (c.pkg % 32) = 0 ∧
   (∀ n < 32, n ≠ c.pkg / 32 → reads (col n) (s.link c.pkg 1 n)))

/-- SYSWR (R380, T5.3, T18.5): a register that the region may write takes its value at issue + 1, TGUARD at once; any
other raises the permission fault.
What a SYSWR writes when it lands (T5.3, R118, R248): the register's own bits, a 1 clearing in XSTAT, and nothing
else of the slot.
TIDSET (R384, R385): a word of a tensor identifier below TIDS, at issue + 1; any other raises permission. -/
def Obligations.SystemRegisterWrites : Prop :=
  (∀ (f : SF) (s : State), f.on s.curCtx = true →
  let n := f.imm.toNat % 4096
  let later := s.running fun c => c.later 1 phSys (.sysReg (n + 4096 * c.opsel) (f.av c))
  (sysWritable n = true ∨ (0x100 ≤ n ∧ (s.node s.curCtx.rid).service = true) →
    exec (.syswr f) s = .next later ∧ exec (.xstatWrite f) s = .next later ∧ exec (.vflagsWrite f) s = .next later ∧
    exec (.rrbWrite f) s = .next later ∧ exec (.grbWrite f) s = .next later ∧ exec (.fsrWrite f) s = .next later ∧
    exec (.waitlimWrite f) s = .next later ∧ exec (.opselWrite f) s = .next later ∧ exec (.ringWrite f) s = .next later ∧
    exec (.mzmWrite f) s = .next later ∧ exec (.elogstatWrite f) s = .next later ∧ exec (.injctlWrite f) s = .next later ∧
    exec (.tguardWrite f) s = .next (s.running fun c => { c with tguard := (f.av c).toNat % 65536 })) ∧
  (sysWritable n = false → (n < 0x100 ∨ (s.node s.curCtx.rid).service = false) →
    exec (.syswr f) s = .next (s.commit (takeTrap s s.curKey (trapAt 0 .permission n))))) ∧
  (∀ (s : State) (k : SlotKey) (o : Nat) (w : Word),
  s.commit (sysLand s k (0x008 + 4096 * o) w) = s.withCtx k { s.slot k with rrb := w.toNat % 512 } ∧
  s.commit (sysLand s k (0x009 + 4096 * o) w) = s.withCtx k { s.slot k with grb := w.toNat % 32 } ∧
  s.commit (sysLand s k (0x00A + 4096 * o) w) = s.withCtx k { s.slot k with vflags := w &&& 0x13F } ∧
  s.commit (sysLand s k (0x010 + 4096 * o) w) = s.withCtx k { s.slot k with fsr := w &&& ~~~(1#64 <<< 23) } ∧
  s.commit (sysLand s k (0x011 + 4096 * o) w) = s.withCtx k { s.slot k with far := w } ∧
  s.commit (sysLand s k (0x022 + 4096 * o) w) = s.withCtx k { s.slot k with xstat := (s.slot k).xstat &&& ~~~w } ∧
  s.commit (sysLand s k (0x024 + 4096 * o) w) = s.withCtx k { s.slot k with waitlim := w.toNat % 2 ^ 32 }) ∧
  (∀ (f : SF) (s : State), f.on s.curCtx = true →
  let t := f.imm.toNat % 256
  (t < (s.node s.curCtx.rid).tids →
    exec (.tidset f) s = .next (s.running fun c => c.later 1 phSys (.tidWord t (f.imm.toNat / 256 % 8) (f.av c)))) ∧
  ((s.node s.curCtx.rid).tids ≤ t →
    exec (.tidset f) s = .next (s.commit (takeTrap s s.curKey (trapAt 0 .permission t)))))

/-! ## S slot: END and YIELD -/

/-- END and YIELD (R33, R34, R328, R429), in an elastic bundle: END, with no engine fault to report, no copy, batch or
encoder command incomplete and its accesses performed, ends the slot; YIELD, when every slot of the gang has ended or
has come to its YIELD and no window is open, suspends it. Neither changes a register or a byte of memory. (That a slot
which has ended counts for the gang's YIELD is the model's choice: log 26.) -/
def Obligations.EndAndYield : Prop := ∀ (f : SF) (s : State), f.on s.curCtx = true → s.curCtx.iss.elastic = true →
  let r := s.curCtx.rid
  let me := (s.curCtx.pkg, s.curCtx.slot)
  (endFault s.curCtx = none → (∀ n < 8, (s.curCtx.matrix.batch n).st ≠ .opened) → s.enginesDone s.curKey = true →
    s.released s.curKey (if (s.node r).pkgs.isEmpty then 1 else 2) = true →
    ∃ t, exec (.end_ f) s = .next t ∧ (t.slot s.curKey).mode = .ended ∧ (t.node r).endedS = (s.node r).endedS ++ [me] ∧
      (t.slot s.curKey).lq = [] ∧ SameRegisters s.curCtx (t.slot s.curKey) ∧ t.mem = s.mem) ∧
  (me ∈ (s.node r).yieldS → (s.node r).allYield = true → s.windowOpen r = false →
    ∃ t, exec (.yield f) s = .next t ∧ (t.slot s.curKey).mode = .yielded ∧ SameRegisters s.curCtx (t.slot s.curKey) ∧
      t.mem = s.mem ∧ t.node r = s.node r)

/-! ## V slots -/

/-- Every V-slot instruction that computes, with register operands (R277, R284, T8.1, T15.11): it reads its operands at
issue, and its registers, mask and flags follow at issue + latency; nothing else differs, memory among it. VQUANT needs a
tensor identifier below TIDS in a KB format and a destination that ends by v1535; SELK and SORTK share one unit, 8 die
cycles apart. -/
def Obligations.VectorResultsFollow : Prop := ∀ (f : VF) (s : State),
  let c := s.curCtx
  let runs := fun (i : Instr) (lat : Nat) (mark : Ctx → Ctx) => ∃ v, vinfo i c = some v ∧ v.f = f ∧ v.lat = lat ∧
    (v.inRegs → exec i s = .next (s.running fun x =>
      (mark x).pushAll (vlandings v c.iss (vcapture v c) (vresult i (vcapture v c) c))))
  let ready := mget c.vclass 1 0 = 0 ∨ mget c.vclass 1 0 + 8 ≤ c.iss.pos + 1
  let mark := fun (x : Ctx) => { x with vclass := mput 1 (c.iss.pos + 1) x.vclass }
  (∀ x ∈ [(Instr.vadd f, 4), (.vsub f, 4), (.vmul f, 4), (.vmin f, 4), (.vmax f, 4), (.vabs f, 4), (.vneg f, 4),
      (.vand f, 4), (.vor f, 4), (.vxor f, 4), (.vnot f, 4), (.vshl f, 4), (.vshr f, 4), (.vsra f, 4), (.vsel f, 4),
      (.vmov f, 4), (.vcmp f, 4), (.vbcastIdx f, 4), (.vbcastFirst f, 4), (.viota f, 4), (.kand f, 4), (.kor f, 4),
      (.kxor f, 4), (.knot f, 4)], runs x.1 x.2 id) ∧
  (∀ x ∈ [(Instr.vcvt f, 5), (.vwid f, 5), (.vnar f, 5), (.vfma f, 6), (.vfms f, 6), (.vext f, 6), (.vdot f, 6),
      (.vperm f, 6), (.vcompact f, 6), (.vred f, 8), (.vamax f, 8), (.scan f, 8), (.vrcp f, 10), (.vrsq f, 10),
      (.vsqrt f, 12), (.vexp2 f, 14), (.vlog2 f, 14), (.vtanh f, 16)], runs x.1 x.2 id) ∧
  (let q := quantRegs f (quantFmt f c)
   f.c.toNat % 256 < (s.node c.rid).tids → isKb (quantFmt f c) = true → f.d.toNat + (q.1 + q.2.1 + q.2.2) ≤ 1536 →
   runs (.vquant f) 10 id) ∧
  (ready → runs (.selk f) 24 mark ∧ runs (.sortk f) 32 mark)

/-- Queue operands (R95, R99, R144): an instruction that reads a queue and passes its checks issues, and its entries are
read one die cycle later; no register and no byte of memory changes. With fewer entries than its span, in a rigid span, it
raises queue-underrun with the queue's number; and without a queue of that number, permission. -/
def Obligations.QueueOperands : Prop := ∀ (f : VF) (s : State) (i : Instr) (v : VInfo), vinfo i s.curCtx = some v →
  let c := s.curCtx
  let q := v.f.a.toNat - 1536
  isQ v.f.a.toNat = true → v.na ≠ 0 →
  (vGuard i v s = .go → (c.q q).depth ≠ 0 → ∃ c', exec i s = .next (s.withCtx s.curKey c') ∧ SameRegisters c c' ∧
    c'.land = c.land ++ [⟨c.iss.pos + 1, phRead, c.nextSeq, .vlate i c.iss (vcapture v c)⟩] ∧ c'.queues = c.queues ∧
    (vcapture v c).aq = (List.range v.na).map fun j => 512 * (c.q q).qb + 512 * (((c.q q).rp + j) % (c.q q).depth)) ∧
  (i ∈ [Instr.vabs f, .vneg f, .vnot f, .vmov f] → v.f = f → isQ f.d.toNat = false →
    (q < (s.node c.rid).queues → (c.q q).count < f.span → c.iss.elastic = false →
      exec i s = .next (s.commit (takeTrap s s.curKey (trapAt f.fslot .queueUnderrun 0 q)))) ∧
    (q < (s.node c.rid).queues → (c.q q).count < f.span → c.iss.elastic = true → exec i s = .next s) ∧
    ((s.node c.rid).queues ≤ q → exec i s = .next (s.commit (takeTrap s s.curKey (trapAt f.fslot .permission 0 q)))))

/-- Values of V-slot instructions, element by element (R96, R120–R122, R152, R153, R332, R390–R423), for an integer type
and register operands of one span; the mask then enables the elements that are written (R96). -/
def Obligations.VectorElements : Prop := ∀ (f : VF) (o : VOps) (c : Ctx), f.fm = 0 → f.long = none →
  isIntTy f.ty.toNat = true → o.a.length = f.span → o.b.length = f.span →
  let w := wOf f
  let ty := f.ty.toNat
  let a := elemsOf w o.a
  let b := elemsOf w o.b
  let n := nOf f
  let els := fun (i : Instr) => elemsOf w (vresult i o c).vals
  let lim := fun (sat : Bool) (z : Int) => wrap w (if sat then max (tyMin ty) (min (tyMax ty) z) else z)
  let sat := f.c.getLsbD 0
  (els (.vand f) = List.zipWith (· &&& ·) a b ∧ els (.vor f) = List.zipWith (· ||| ·) a b ∧
    els (.vxor f) = List.zipWith (· ^^^ ·) a b ∧ els (.vnot f) = a.map (fun x => 2 ^ w - 1 - x) ∧ els (.vmov f) = a) ∧
  (els (.vadd f) = List.zipWith (fun x y => lim sat (intVal ty x + intVal ty y)) a b ∧
    els (.vsub f) = List.zipWith (fun x y => lim sat (intVal ty x - intVal ty y)) a b ∧
    els (.vmul f) = List.zipWith (fun x y => lim sat (intVal ty x * intVal ty y)) a b ∧
    els (.vmin f) = List.zipWith (fun x y => wrap w (min (intVal ty x) (intVal ty y))) a b ∧
    els (.vmax f) = List.zipWith (fun x y => wrap w (max (intVal ty x) (intVal ty y))) a b ∧
    els (.vneg f) = a.map (fun x => lim sat (-intVal ty x)) ∧
    els (.vabs f) = a.map (fun x => lim sat |intVal ty x|)) ∧
  (els (.vsel f) = (List.range n).map (fun e => if o.km.getLsbD (e % 1024) then a.getD e 0 else b.getD e 0) ∧
    els (.viota f) = (List.range n).map (fun (e : Nat) => wrap w (f.c.toInt + e)) ∧
    els (.vext f) = (List.range n).map (fun e => (a ++ b).getD (e + f.c.toNat) 0) ∧
    els (.vcompact f) = (fun l => l ++ List.replicate (n - l.length) 0)
      (((List.range n).filter fun e => o.km.getLsbD (e % 1024)).map fun e => a.getD e 0)) ∧
  ((vresult (.vadd f) o c).ens = (List.range f.span).map (enables w o.km) ∧
    (∀ i < f.span, ∀ e < 4096 / w, ∀ t < w,
      (enables w o.km i).getLsbD (w * e + t) = o.km.getLsbD ((i * (4096 / w) + e) % 1024))) ∧
  ((vresult (.kand f) o c).mask = some (f.d.toNat % 16, c.k f.a.toNat &&& c.k f.b.toNat, BitVec.allOnes 1024) ∧
    (vresult (.kor f) o c).mask = some (f.d.toNat % 16, c.k f.a.toNat ||| c.k f.b.toNat, BitVec.allOnes 1024) ∧
    (vresult (.kxor f) o c).mask = some (f.d.toNat % 16, c.k f.a.toNat ^^^ c.k f.b.toNat, BitVec.allOnes 1024) ∧
    (vresult (.knot f) o c).mask = some (f.d.toNat % 16, ~~~(c.k f.a.toNat), BitVec.allOnes 1024))

/-- VLD, VST and RSOLVE (R404, R422, R371). With the lines of its route inside BROWS and readable, a VLD reads the banks
at issue + 1; with its lines inside BROWS, a VST takes its registers at issue and writes at issue + 3. A VLD that reaches a
row beyond BROWS raises permission. RSOLVE, 8 die cycles after the die's last solve, delivers the route, the number of losers
and their masks at issue + 40. No register and no byte of memory changes at issue. -/
def Obligations.VectorMemory : Prop := ∀ (f : VF) (s : State),
  let c := s.curCtx
  let brows := (s.node c.rid).brows
  let rl := groupLines (s.readRoute c c.iss.rrt).source f.vslot c.iss.rrow
  let wl := groupLines (s.writeRoute c c.iss.wrt).sink f.vslot c.iss.wrow
  ((∀ l ∈ rl, l.1 < brows ∧ (s.die c.die).lineBad (c.lineNo l.1 l.2) true = false) →
    exec (.vld f) s = .next (s.running fun c => c.later 1 phRead (.vldRead f.v1
      ((List.range f.span).map (spanPhys c.iss.rrb f.d.toNat))
      ((List.range f.span).map (enables (wOf f) (c.k f.km.toNat))) c.iss.rrt c.iss.rrow))) ∧
  (∀ l rest, rl = l :: rest → brows ≤ l.1 →
    exec (.vld f) s = .next (s.commit (takeTrap s s.curKey (trapAt f.fslot .permission (l.1 * 2 ^ 17 + l.2 * 64))))) ∧
  ((∀ l ∈ wl, l.1 < brows ∧ (s.die c.die).lineBad (c.lineNo l.1 l.2) false = false) →
    ∃ ports, exec (.vst f) s = .next (s.running fun c =>
      (c.later 3 phPort (.wLines ports (some c.iss.wrt) c.iss.wrow)).progressed c.iss.tick) ∧
      ∀ i < f.span, ∀ k < 8, (512 * f.vslot + 8 * i + k, lineOf (c.v (spanPhys c.iss.rrb f.a.toNat i)) k) ∈ ports) ∧
  ((s.die c.die).solveAt = 0 ∨ (s.die c.die).solveAt + 8 ≤ (s.die c.die).cyc + 1 →
    let r := solve (elemsOf 32 (c.vspan c.iss.rrb f.a.toNat f.span))
    ∃ c', exec (.rsolve f) s = .next ((s.withDie c.die
      { s.die c.die with solveAt := (s.die c.die).cyc + 1 }).withCtx s.curKey c') ∧ SameRegisters c c' ∧
      (⟨c.iss.pos + 40, phSys, c.nextSeq, .solver (if f.c.getLsbD 4 then 1 else 0) (f.c.toNat % 16) r.1⟩ : Landing) ∈ c'.land ∧
      (⟨c.iss.pos + 40, phReg, c.nextSeq + 1, .scalar (f.d.toNat % 64) (word r.2.length)⟩ : Landing) ∈ c'.land ∧
      (⟨c.iss.pos + 40, phReg, c.nextSeq + 2, .mask f.km.toNat (loserMask r.2 0) (BitVec.allOnes 1024)⟩ : Landing) ∈ c'.land ∧
      (f.sp = 4 → (⟨c.iss.pos + 40, phReg, c.nextSeq + 3,
        .mask (f.km.toNat + 1) (loserMask r.2 1024) (BitVec.allOnes 1024)⟩ : Landing) ∈ c'.land))

/-! ## M slot -/

/-- Configuration and accumulator instructions (R130, R131, R135, R139, R140, R343, R350, R354): each owes one change of
the configuration, the solver slots or the accumulators; memory and registers stay. MCFG.head of which a tensor identifier
lies beyond TIDS raises permission, and a set bit above 48 of its word the reserved-field trap; MZERO of a run in which
an incomplete batch uses an accumulator raises accumulator-busy. -/
def Obligations.MatrixConfiguration : Prop := ∀ (f : MF) (s : State),
  let c := s.curCtx
  let w := cfgWord f c
  let h := headOf f w
  let tids := (s.node c.rid).tids
  let busy := c.matrix.busy none
  let n := f.imm.toNat % 64 + 1
  (bits w.toNat 63 49 = 0 → h.row0 + h.m ≤ 128 → h.ta < tids → h.tb < tids → h.tc < tids → busy = 0 →
    exec (.mcfgHead f) s = .next (s.running fun c => c.later 1 phSys (.mhead h))) ∧
  (bits w.toNat 63 49 ≠ 0 →
    exec (.mcfgHead f) s = .next (s.commit (takeTrap s s.curKey (trapAt 3 .reservedField 0)))) ∧
  (bits w.toNat 63 49 = 0 → h.row0 + h.m ≤ 128 → (tids ≤ h.ta ∨ tids ≤ h.tb ∨ tids ≤ h.tc) →
    exec (.mcfgHead f) s = .next (s.commit (takeTrap s s.curKey (trapAt 3 .permission 0)))) ∧
  (bits w.toNat 63 49 = 0 → exec (.mcfgLevel f) s = .next (s.running fun c => c.later 1 phSys
    (.mlevel (f.imm.toNat % 8) (w.toNat % 2 ^ 16 + 1) (signed 16 (w.toNat / 2 ^ 16)) (signed 16 (w.toNat / 2 ^ 32))
      (bits w.toNat 48 48)))) ∧
  ((c.route (s.node c.rid).routes 2 (bits f.imm.toNat 13 3)).isSome = true →
    exec (.mroute f) s = .next (s.running fun c => c.later 1 phSys (.mroute (f.imm.toNat % 8) (bits f.imm.toNat 13 3)))) ∧
  ((s.die c.die).solveAt = 0 ∨ (s.die c.die).solveAt + 8 ≤ (s.die c.die).cyc + 1 →
    let r := solve (elemsOf 32 (c.vspan c.iss.rrb (f.imm.toNat % 2048) 16))
    ∃ c', exec (.mgath f) s = .next ((s.withDie c.die
      { s.die c.die with solveAt := (s.die c.die).cyc + 1 }).withCtx s.curKey c') ∧ SameRegisters c c' ∧ c'.matrix = c.matrix ∧
      (⟨c.iss.pos + 40, phSys, c.nextSeq, .solver 2 (bits f.imm.toNat 14 11) r.1⟩ : Landing) ∈ c'.land ∧
      (⟨c.iss.pos + 40, phReg, c.nextSeq + 1, .scalar f.lv.toNat (word r.2.length)⟩ : Landing) ∈ c'.land) ∧
  ((∀ i < n, busy.getLsbD (f.ac.toNat + i) = false) →
    exec (.mzero f) s = .next (s.running fun c => c.later 1 phSys (.accZero f.ac.toNat n))) ∧
  ((∃ i < n, busy.getLsbD (f.ac.toNat + i) = true) →
    exec (.mzero f) s = .next (s.commit (takeTrap s s.curKey (trapAt 3 .accumulatorBusy 0)))) ∧
  (let e := c.tid f.tc.toNat
   c.drainEnd ≤ c.iss.pos + 4 → f.tc.toNat < tids → busy.getLsbD f.ac.toNat = false → tidOfmt e ≤ 4 → tidRnd e ≤ 4 →
   exec (.mdrain f) s = .next (s.running fun c =>
    { c with drainEnd := c.iss.pos + 4 + drainLr (tidOfmt e) / 2 }.later 1 phRead (.drainRead f.ac.toNat f.tc.toNat e)))

/-- Batches (R132, R136, R139, R141, R344, R351, R353). MGO, with its conditions met, enters the shadow table with the
tensor identifiers as they stand and opens its batch; MLDA enters a load; MCOMMIT commits an open batch; MWAITB, in an
elastic bundle, completes on an idle batch, which is a progress event, and reports its fault as an engine trap, unless
a trap of the bundle other than TRAP's stands (R245, R386); MSTOP discards the tables and idles
the batches, and completes when no step runs. Registers, accumulators and memory stay.
The engine's own events (R125, R133, R347). A step due at this position starts, with one read for each of its cycles;
a step whose die cycle has come completes, its elements written and its batch's count one less; and a table that its last
step has released gives way to the pending one. Nothing else of the machine differs. A step
writes element (row0 + i, j) of each enabled unit's tile, and an integer sum of at most 32 products that starts from 0 and
is no larger than 2^24 is exact (R124). -/
def Obligations.MatrixBatches : Prop :=
  (∀ (f : MF) (s : State),
  let c := s.curCtx
  let m := c.matrix
  let b := f.bt.toNat
  let does := fun (i : Instr) (p : Ctx → Prop) =>
    ∃ c', exec i s = .next (s.withCtx s.curKey c') ∧ SameRegisters c c' ∧ c'.land = c.land ∧ p c'
  (let h := m.shadow.head
   let ta := c.tid h.ta
   h.bt = b → (m.batch b).st ≠ .committed → m.pending = none → tidFmt ta = tidFmt (c.tid h.tb) →
   (matShape (tidFmt ta) h.k).map (fun x => x.2.1) = some true → (h.op = 2 → tidFmt (c.tid h.tc) = 0) →
   (h.dual = true ∨ ∀ l ∈ m.shadow.levels, l.cstr = 0) → tidSpace ta = 0 → tidSpace (c.tid h.tb) = 0 →
   (h.op = 2 → tidSpace (c.tid h.tc) = 0) → planesAligned ta = true → planesAligned (c.tid h.tb) = true →
   does (.mgo f) fun c' => (c'.matrix.batch b).st = .opened ∧ c'.matrix.shadow = m.shadow ∧
     ∃ t, (if m.active = none then c'.matrix.active else c'.matrix.pending) = some t ∧ t.tidA = ta ∧
       t.tidB = c.tid h.tb ∧ t.tidC = c.tid h.tc ∧ t.head = h ∧ t.start = max (c.iss.pos + 2) (m.lastS + m.lastP)) ∧
  (let e := c.tid f.tc.toNat
   (m.batch b).st ≠ .committed → m.pending = none → (c.route (s.node c.rid).routes 2 (f.imm.toNat % 2048)).isSome = true →
   f.tc.toNat < (s.node c.rid).tids → (m.busy none).getLsbD f.ac.toNat = false → tidFmt e ≤ 2 → tidSpace e = 0 →
   does (.mlda f) fun c' => (c'.matrix.batch b).st = .opened ∧
     ∃ t, (if m.active = none then c'.matrix.active else c'.matrix.pending) = some t ∧ t.isLoad = true ∧
       t.acc = f.ac.toNat ∧ t.tidA = e) ∧
  ((m.batch b).st = .opened → does (.mcommit f) fun c' =>
    (c'.matrix.batch b).st = if (m.batch b).left = 0 then .idle else .committed) ∧
  ((m.batch b).st ≠ .opened →
    exec (.mcommit f) s = .next (s.commit (takeTrap s s.curKey (trapAt 3 .illegalBundle 0)))) ∧
  (c.iss.elastic = true → (m.batch b).st = .idle →
    ((m.batch b).err = false → exec (.mwaitb f) s = .next (s.running fun c => c.progressed c.iss.tick)) ∧
    (∀ x, (m.batch b).err = true → mfind (64 + b) c.engine = some x → does (.mwaitb f) fun c' =>
      (c'.matrix.batch b).err = false ∧ c'.pending = (c.firmTrap <|> some (trapEngine 3 b x)))) ∧
  (c.iss.elastic = true → (m.batch b).st = .committed → exec (.mwaitb f) s = .next s) ∧
  (c.iss.elastic = true → does (.mstop f) fun c' => c'.matrix.active = none ∧ c'.matrix.pending = none ∧
    c'.matrix.batches = [] ∧ c'.matrix.abort = true ∧ ∀ st ∈ c'.matrix.steps, st.start + st.reads ≤ c.pos)) ∧
  (∀ (s : State),
  let c := s.curCtx
  let m := c.matrix
  (∀ t, m.active = some t → t.start = c.pos → t.idx ≠ [] → t.dead = false →
    ∃ c', exec .matrixStepStart s = .next (s.withCtx s.curKey c') ∧ SameRegisters c c' ∧
      c'.matrix.steps = m.steps ++ [stepOf t] ∧ c'.matrix.batches = m.batches ∧
      c'.land.length = c.land.length + (stepOf t).reads ∧
      ∀ i < (stepOf t).reads, (⟨c.pos + i, phRead, c.nextSeq + i, .matRead c.pos i⟩ : Landing) ∈ c'.land) ∧
  (∀ st rest, m.steps = st :: rest → st.done ≤ c.pos → st.applied = false →
    (∀ x ∈ rest, st.start < x.start) →
    ∃ c', exec .matrixStepComplete s = .next (s.withCtx s.curKey c') ∧ c'.matrix.steps = rest ∧
      c'.sregs = c.sregs ∧ c'.vregs = c.vregs ∧ c'.land = c.land ∧
      c'.accs = (stepWrites c st).foldl (fun a w => mput w.1 w.2 a) c.accs ∧
      (c'.matrix.batch st.batch).left = (m.batch st.batch).left - 1) ∧
  (∀ t, m.active = some t → t.idx = [] → m.freeAt ≤ c.pos →
    exec .tableMove s = .next (s.running fun c =>
      { c with matrix := { c.matrix with active := c.matrix.pending, pending := none } })) ∧
  (∀ st : MStep, st.isLoad = false →
    (∀ x v, (x, v) ∈ stepWrites c st ↔ ∃ u < 32, ∃ i < st.head.m, ∃ j < st.head.n, st.head.umask.getLsbD u = true ∧
      x = accIdx (u + 32 * st.half) (st.head.row0 + i) j ∧ v = BitVec.ofNat 32 (stepElem c st u i j)) ∧
    (∀ u i j, isIntTy (tidFmt st.tidA) = true → st.head.op = 1 → st.head.k ≤ 32 →
      let sum := ((List.range st.head.k).map fun k => panelInt st u 0 i k * panelInt st u 1 j k).sum
      sum.natAbs ≤ 2 ^ 24 → ((ffmt 0).val (stepElem c st u i j)).cmp (ofIntVal sum) = 0)))

/-! ## C slots -/

/-- Every copy instruction whose pointers, identifier, queue and length pass its checks joins its channel, which holds
fewer than 16 operations (R170, R172–R177, R187, R293, R305–R326): nothing is copied at issue, its tag is cleared with
TE = 1, and CGATH and CSCAT take their indices. A side that must be the own banks and is not raises space.
The model's choice (log 18): CROUTE with a count of 0 checks FIRST = 0 alone, CSCAT takes its rows as they stand at issue,
and CFENCE's matrix members are the steps scheduled then. -/
def Obligations.CopiesJoinTheirChannel : Prop := ∀ (f : CF) (s : State), (s.chanOf f).length < 16 →
  let c := s.curCtx
  let nd := s.node c.rid
  let d := cDst f c
  let x := cSrc f c
  let n := cNum f c
  let e := c.tid f.tid.toNat
  let q := c.q f.qh.toNat
  let ok := fun (p : Word) => ptrOk nd.slots p = true
  let own := fun (p : Word) => ok p ∧ spaceOf p = 0
  let tid := f.tid = 0 ∨ f.tid.toNat < nd.tids
  let fmts := f.tid = 0 ∨ (tidFmt e ≤ 14 ∧ (f.mod.toNat % 32 = 31 ∨ f.mod.toNat % 32 ≤ 14) ∧ tidRnd e ≤ 4)
  let row := fmtOk (tidFmt e) = true ∧ 1 ≤ rowLines e ∧ rowLines e ≤ 8
  let joins := fun (i : Instr) (kind : CopyKind) (taken : Nat) (p : CopyOp → Prop) =>
    ∃ o, exec i s = .next (s.joined f o taken) ∧ o.kind = kind ∧ o.key = s.curKey ∧ o.tag = f.tag.toNat ∧
      o.te = (f.te == 1) ∧ o.issued = (s.die c.die).cyc ∧ p o
  let whole := fun (o : CopyOp) => o.dst = d ∧ o.src = x ∧ o.n = n ∧ o.tid = f.tid.toNat ∧ o.entry = e
  (own d → ok x → tid → n < 2 ^ 32 → fmts →
    joins (.cget f) .get 0 fun o => whole o ∧ o.bfmt = f.mod.toNat % 32) ∧
  (ok d → own x → tid → n < 2 ^ 32 → fmts →
    joins (.cput f) .put 0 fun o => whole o ∧ o.bfmt = f.mod.toNat % 32) ∧
  (let flag := c.s (f.mod.toNat % 64)
   ok d → spaceOf d ≠ 0 → own x → ok flag → flag.toNat % 8 = 0 → n < 2 ^ 32 →
    joins (.cputf f) .putf 0 fun o => whole o ∧ o.flag = flag) ∧
  (ok d → n < 2 ^ 32 → joins (.czero f) .zero 0 whole) ∧
  (ok x → tid → f.qh.toNat < nd.queues → row → q.depth ≠ 0 → n ≤ c.aq.length →
    joins (.cgath f) .gath n fun o => whole o ∧ o.q = f.qh.toNat ∧ o.idx = c.aq.take n) ∧
  (ok d → tid → f.qh.toNat < nd.queues → row → n ≤ c.aq.length → n ≤ q.count →
    joins (.cscat f) .scat n fun o => whole o ∧ o.idx = c.aq.take n ∧ o.rowsIn = scatRows s c f.qh.toNat n) ∧
  (ok d → d.toNat % catomSize f = 0 → own x → x.toNat % 16 = 0 →
    joins (.catom f) .atom 0 fun o => whole o ∧ o.aop = f.mod.toNat % 16 ∧ o.size = catomSize f) ∧
  (ok d → 2 ≤ spaceOf d → spaceOf d ≤ 4 → d.toNat % credSize (f.mod.toNat % 16) = 0 →
    joins (.cred f) .red 0 fun o => o.dst = d ∧ o.opb = x ∧ o.aop = f.mod.toNat / 16 % 4 ∧ o.size = f.mod.toNat % 16 ∧
      o.ord = f.mod.getLsbD 6) ∧
  (joins (.cfence f) .fence 0 fun o => o.aop = f.mod.toNat % 16 ∧ o.preds = fenceMembers s (f.mod.toNat % 16)) ∧
  (ok x → x.toNat % 64 = 0 → d.toNat / 2 ^ 13 = 0 → bits d.toNat 12 11 ≠ 3 → n ≤ 2031 → d.toNat % 2048 ≠ 0 →
    (n = 0 ∨ d.toNat % 2048 + n - 1 ≤ nd.routes) →
    joins (.croute f) .route 0 fun o => whole o ∧ o.q = bits d.toNat 12 11 ∧ o.aop = d.toNat % 2048) ∧
  (ok x → d.toNat % 64 = 0 → n % 64 = 0 → d.toNat + n ≤ (s.node (keyRid s.curKey)).bmem * 4096 →
    joins (.cbund f) .bund 0 whole) ∧
  (spaceOf d ≠ 0 → exec (.cget f) s = .next (s.commit (takeTrap s s.curKey (trapAt (if f.c1 then 5 else 4) .space d.toNat)))) ∧
  (ok d → spaceOf x ≠ 0 →
    exec (.cput f) s = .next (s.commit (takeTrap s s.curKey (trapAt (if f.c1 then 5 else 4) .space x.toNat))))

/-- The encoder (R310–R313). With fewer than 32 commands waiting, CENC.open of an aligned block in the own banks,
CENC.frame of an open stream in an anchored bundle, and CENC.close join its queue, the frame with its lines. An open
command opens its stream with the block that it has read over the spine, where that is valid, fits and the stream is not
open; a close command closes it; each sets its tag. Else, and after a fault of its read, it completes with an error. A
frame whose lines have been read is coded: the count and the coded bytes, which are free values (log 8), or, where they do
not fit, the count with bit 63 alone; it is written piece by piece, the bytes from sD + 8 on before the count at sD, and
the command leaves after the last. The model's choice (log 19): a close command takes its effect in the step that completes
it. -/
def Obligations.EncoderCommands : Prop := ∀ (f : CF) (s : State),
  let c := s.curCtx
  let x := cSrc f c
  let own := ptrOk (s.node c.rid).slots x = true ∧ spaceOf x = 0 ∧ x.toNat % 64 = 0
  let joins := fun (i : Instr) (kind : EncKind) (lines : Nat) => ∃ t e, exec i s = .next t ∧
    t = { s with dies := t.dies, slots := t.slots } ∧ (t.die c.die).encQ = (s.die c.die).encQ ++ [e] ∧ e.kind = kind ∧
    e.key = s.curKey ∧ e.tag = f.tag.toNat ∧ e.stream = f.imm8.toNat ∧ e.ptr = x ∧ e.out = cDst f c ∧ e.cap = cNum f c ∧
    e.lines = lines ∧ e.bad = none ∧ SameRegisters c (t.slot s.curKey)
  let k := s.die s.cur
  ((s.die c.die).encQ.length < 32 →
    (own → joins (.cencOpen f) .opened 1) ∧
    (∀ y, c.iss.anchored = true → ptrOk (s.node c.rid).slots (cDst f c) = true → own →
      s.stream? c.die f.imm8.toNat = some y → offsetBits x + 64 * encLines y.params ≤ (s.node c.rid).brows * 2 ^ 17 →
      joins (.cencFrame f) .frame (encLines y.params)) ∧
    joins (.cencClose f) .close 0) ∧
  (∀ e rest, k.encQ = e :: rest →
    let old := s.slot e.key
    let bit := 1#64 <<< e.tag
    let leaves := fun (p : State → Prop) => ∃ t, exec .encodeComplete s = .next t ∧ (t.die s.cur).encQ = rest ∧
      (t.slot e.key).tags = (if e.te then old.tags ||| bit else old.tags) ∧ t.mem = s.mem ∧ p t
    let well := fun (p : State → Prop) => leaves fun t => (t.slot e.key).xstat = old.xstat ∧ p t
    let fails := fun (x : EngFault) => leaves fun t => t.stream? s.cur = s.stream? s.cur ∧
      (t.slot e.key).xstat = (if e.te then old.xstat ||| bit else old.xstat) ∧
      (e.te = true → old.xstat.getLsbD e.tag = false → mfind e.tag (t.slot e.key).engine = some x)
    let reserved : EngFault := { cause := .reservedField, ptr := e.ptr, detail := 0 }
    (e.kind = .opened →
      (encStarts s s.cur ≠ [] ↔ e.readAt = 0) ∧
      (∀ x, e.bad = some x → fails x) ∧
      (∀ p l, e.bad = none → e.frame = p :: l →
        let ok := encBlockOk p = true ∧ s.stream? s.cur e.stream = none ∧
          encFits (p :: k.streams.map fun x => x.2.params) = true
        (ok → well fun t => t.stream? s.cur e.stream = some { params := p, key := e.key, frames := 0, keyDue := true }) ∧
        (¬ok → fails reserved))) ∧
    (e.kind = .close →
      ((s.stream? s.cur e.stream).isSome = true → well fun t => t.stream? s.cur e.stream = none) ∧
      (s.stream? s.cur e.stream = none → fails reserved)) ∧
    (e.kind = .frame → e.issued + 2 + ceilDiv e.lines 128 ≤ k.cyc →
      let still := ∀ l ∈ k.spine, ∀ j, l.eff ≠ .encWrite e.id j
      (∀ x, e.bad = some x → still → fails x) ∧
      (∀ y, e.bad = none → e.coded = none → (∀ z ∈ rest, z.id ≠ e.id) → s.stream? s.cur e.stream = some y →
        let n := Config.codedSize s.fresh
        ∃ t, exec .encodeComplete s = .next t ∧ t.slots = s.slots ∧ t.mem = s.mem ∧ t.fresh = s.fresh + (n + 1) ∧
          (t.die s.cur).encQ = { e with coded := some <|
            if n + 8 ≤ e.cap then toBytes 8 n ++ s.freeBytes n else toBytes 8 (2 ^ 63 + n) } :: rest ∧
          t.stream? s.cur e.stream = some { y with frames := y.frames + 1, keyDue := decide (e.cap < n + 8) }) ∧
      (∀ bs, e.bad = none → e.coded = some bs → e.outs ≤ e.outAt → still → well fun t => t.stream? s.cur = s.stream? s.cur))) ∧
  (∀ (e : EncCmd) i, i < e.outs →
    let side := if i < e.data.count then e.data else e.count
    let p := side.piece (if i < e.data.count then i else i - e.data.count)
    let bytes := e.coded.getD []
    e.data.base = ptrAdd e.out 8 ∧ e.data.len = bytes.length - 8 ∧ e.count.base = e.out ∧
    e.outPiece i = (p.ptr, ((bytes.drop (if i < e.data.count then 8 + p.start else p.start)).take p.len))) ∧
  (∀ e l i a, k.encQ.find? (fun y => y.id == e.id) = some e → e.bad = none → s.spineLanding s.cur = some l →
    s.slotLanding s.cur = none → l.eff = .encWrite e.id i → (s.hidden.any fun h => h.ref == (Ref.item s.cur 2 e.id i).code) = false →
    let x := e.outPiece i
    let pt := s.sendAs (e.party s s.cur) x.1
    s.pieceBehind pt x.1 = false → s.reach pt x.1 .write (x.2.length == 64) = .ready a none →
    s.answerPath pt a = .carried → s.isHidden a x.2.length = false → s.planeHit pt.part x.1 x.2.length = .none →
    ∃ t, exec .resultLanding s = .next t ∧ t.mem = memWrite a x.2 s.mem ∧ t.slots = s.slots)

/-- How copies move on (R72, R102, R165, R168, R174, R178). A channel claims a line of the next die cycle, and as that
cycle begins the spine grants it where its bank has a lane and nothing else claims one; a line that an operation reads enters its buffer, and
a line that it writes takes the bytes that are due there; the oldest operation completes when
all it does has performed, with its tag and, on an error, its XSTAT bit; an entry of a CGATH that is written moves WP; the
flag increment of a CPUTF leaves where a request is free; a page walk, whose tables its die can reach, enters its page in
the translation cache. -/
def Obligations.CopyProgress : Prop := ∀ (s : State) (die ch : Nat), ch < 2 →
  let k := s.die die
  (∀ l, s.chanLane die ch = some l →
    exec (.spineLineTransfer die ch) s = .next (s.withDie die { k with claims := mmod k.claims ch 0 fun n => n + 1 }) ∧
    (k.claims = [(ch, 1)] → k.peers = [] → encStarts s die = [] → l.bank ∉ encBanks s die k.cyc → (encBanks s die k.cyc).length < 256 →
      ∃ k', s.commit (s.grants die) = s.withDie die k' ∧ k'.spine = k.spine ++
        [⟨k.cyc, phSpine, k.nextSeq, if l.reads then .spineRead ch l.after.id l.k else .spineWrite ch l.after.id l.k⟩] ∧
        k'.claims = [] ∧ k'.encQ = k.encQ ∧ k'.tcache = k.tcache)) ∧
  (∀ o l n a m, s.op? die ch o.id = some o → die = s.cur → s.spineLanding die = some l → s.slotLanding die = none →
    (l.eff = .spineRead ch o.id n → o.kind ≠ .atom →
      let p := o.reads.piece n
      s.bankReach (s.slot o.key) (offsetBits p.ptr) = .ready a m →
      ∃ t, exec .resultLanding s = .next t ∧ t.mem = s.mem ∧ t.slots = s.slots ∧
        t.op? die ch o.id = some (o.arrive (p.row * o.reads.len + p.start) (s.bytes a p.len))) ∧
    (∀ w, l.eff = .spineWrite ch o.id n → o.kind ∉ [CopyKind.gath, .bund, .atom, .putf] →
      let p := o.writes.piece n
      let bs := o.out p.row p.start w
      o.writable p = some w → 0 < w → s.bankReach (s.slot o.key) (offsetBits p.ptr) (bs.length == 64) = .ready a m →
      ∃ t, exec .resultLanding s = .next t ∧ t.mem = memWrite a bs s.mem ∧ t.slots = s.slots)) ∧
  (∀ o rest, k.chan ch = o :: rest → o.kind ≠ .route → o.issued < k.cyc → s.opDone die ch o = true →
    ∃ t, exec (.copyComplete die ch) s = .next t ∧ (t.die die).chan ch = rest ∧
      (t.die die).chan (1 - ch) = k.chan (1 - ch) ∧ t.mem = s.mem ∧ SameRegisters (s.slot o.key) (t.slot o.key) ∧
      (t.slot o.key).tags = (if o.te then (s.slot o.key).tags ||| (1#64 <<< o.tag) else (s.slot o.key).tags) ∧
      (t.slot o.key).xstat = (if o.te && o.fault.isSome then (s.slot o.key).xstat ||| (1#64 <<< o.tag)
        else (s.slot o.key).xstat)) ∧
  (∀ o, (k.chan ch).find? (fun o => o.kind == .gath && o.seq < o.n) = some o → o.wseq = 8 * (o.seq + 1) →
    s.moving die ch o.id = false → o.fault = none → ((s.slot o.key).q o.q).depth ≠ 0 →
    ∃ t, exec (.cgathEntryWrite die ch) s = .next t ∧ t.mem = s.mem ∧ SameRegisters (s.slot o.key) (t.slot o.key) ∧
      (t.slot o.key).q o.q = { (s.slot o.key).q o.q with
        wp := (((s.slot o.key).q o.q).wp + 1) % (2 * ((s.slot o.key).q o.q).depth) }) ∧
  (∀ o, (k.chan ch).find? (fun o => o.kind == .putf && !(opRequest s die ch o).isEmpty) = some o →
    (∀ r ∈ s.reqs, r.id ≠ s.nextReq) → s.copyRoom die = true → o.starved = false → ∃ r, r.id = s.nextReq ∧ r.kind = .red 2 8 1 ∧ r.ptr = o.flag ∧
    (let s' := s.commit (opRequest s die ch o)
     s'.reqs = s.reqs ++ [r] ∧ exec (.cputfFlagIncrement die ch) s = .next (s'.commit (homeReq s' r 0)))) ∧
  (∀ w, w ∈ k.walks → k.walks.find? (fun x => x.part == w.part && x.space == w.space && x.page == w.page) = some w →
    s.walkBlocked die w.part w.space (w.page * 4096) = false →
    (∀ n ∈ s.walkStacks w.part (diePkg die) w.space (w.page * 4096), (s.pkg (diePkg die)).hbmOut.getLsbD n = false) →
    (∀ pa size perm, s.walkNow w.part (diePkg die) w.space (w.page * 4096) = some (pa, size, perm) →
      ∃ k', exec (.pageWalk die w.part w.space w.page) s = .next (s.withDie die k') ∧ k'.walks = k.walks.erase w ∧
        (⟨w.part, w.space, w.page * 4096 / size * size, pa, size, BitVec.ofNat 3 perm⟩ : TcEntry) ∈ k'.tcache) ∧
    (∀ i r, s.walkNow w.part (diePkg die) w.space (w.page * 4096) = none → w.waiters = [2 * i] → s.req? i = some r →
      r.open_ = true → ∃ t, exec (.pageWalk die w.part w.space w.page) s = .next t ∧ (t.die die).walks = k.walks.erase w ∧
        (t.req? i).map (fun q => q.st) = some (.failed { cause := .translation, ptr := r.ptr, detail := 0 })))

/-- Requests perform at their homes (R72, R182, R183, R297). A load of sound bytes that no plane region and no mirror
holds back performs with their value and leaves memory alone; a store replaces exactly its bytes; an atomic operation
replaces them by its new value, and its result is the old one; an access that its home refuses fails with the cause. An
access to peer banks joins those that wait for a lane of that die. The path is the one fixed at injection. -/
def Obligations.HomesPerform : Prop := ∀ (s : State) (r : Req) (die : Nat), r.id < 2 ^ 32 → s.req? r.id = some r →
  r.st = .flying → s.sendable r = true → s.blocked r = false → s.folded r = false → s.routed r = false →
  let n := r.kind.size
  let x := s.inject r
  let quiet := s.readNote x.party r.ptr n r.kind.need = []
  let done := fun (v : Word) (t : State) => (t.req? r.id).map (fun q => q.st) = some (.performed v)
  (∀ a, s.behind x = false → s.reach x.party r.ptr r.kind.need = .ready a none → spaceOf r.ptr ≠ 1 →
    s.isHidden a n = false → s.planeHit r.part r.ptr n = .none → 8192 ≤ a / 2 ^ 64 →
    (∀ z g, r.kind = .load z g → quiet → s.unsound a n = false → ∃ t, exec (.homeAccess die 2 r.id) s = .next t ∧ t = { s with reqs := t.reqs } ∧
      done (extendVal z g (s.num a z)) t) ∧
    (∀ z v, r.kind = .store z v → ∃ t, exec (.homeAccess die 2 r.id) s = .next t ∧
      t.mem = memWrite a (toBytes z v.toNat) s.mem ∧ t.slots = s.slots ∧ done 0 t) ∧
    (∀ op z b c, r.kind = .atom op z b c → s.unsound a n = false → ∃ t, exec (.homeAccess die 2 r.id) s = .next t ∧
      t.mem = memWrite a (toBytes z (atomNew op z (s.num a z) b.toNat c.toNat)) s.mem ∧ t.slots = s.slots ∧
      done (word (s.num a z)) t)) ∧
  (∀ c, r.kind.toHome = true → s.behind x = false → s.reach x.party r.ptr r.kind.need = .fault c → spaceOf r.ptr ≠ 1 →
    (c = .machine → quiet) →
    ∃ t, exec (.homeAccess die 2 r.id) s = .next t ∧ t = { s with reqs := t.reqs } ∧
      (t.req? r.id).map (fun q => q.st) = some (.failed { cause := c, ptr := r.ptr, detail := 0 })) ∧
  (let d := (s.slot (slotKey (keyRid r.key) (keyPkg r.key) (ptrSlot r.ptr))).die
   r.kind.toHome = true → spaceOf r.ptr = 1 → ((s.die d).spine.any fun l => l.eff == .peer (2 * r.id)) = false →
   2 * r.id ∉ (s.die d).peers →
   exec (.peerBankAccess die r.id) s = .next (s.withDie d { s.die d with peers := (s.die d).peers ++ [2 * r.id] }))

/-! ## Timed circuits -/

/-- XSEND and XRECV (R238–R242), in an anchored bundle, on a valid descriptor of their direction that no other region
holds, with its window no longer than CWMAX, its link up, the die's circuit to the port there, and T inside a window. XSEND hands over the register's unit to be
launched at T; XRECV at its tick takes the oldest unit that has arrived, and before it waits for T. Elsewhere they raise
circuit-down with T and the circuit's number. The model's choice (log 24): the die's own circuit to the port counts among
the conditions, and FAR of circuit-down holds T.
Units on their way (R239, R241, R242): a unit leaves at T and lands FLIGHT ticks later; a receiving circuit that is not
bound keeps it, up to 16, with its arrival tick; at the end of a window its units go, those that a stopped region has left too; and a waiting XRECV takes its unit
at T. No memory changes. -/
def Obligations.TimedCircuits : Prop :=
  (∀ (f : XF) (s : State),
  let c := s.curCtx
  let k := xCirc f s c
  let x := s.circuit k
  let t := xAt f c
  let ready := fun (dir : Nat) => circValid x.desc = true ∧ circDir x.desc = dir ∧
    (∀ y, x.bound = some y → keyRid y = c.rid) ∧ circLen x.desc ≤ (s.node c.rid).cwmax ∧ s.circUp c x.desc = true ∧
    (circWindow x.desc c.tbase t).isSome = true
  let held := s.boundCirc c f.oc.toNat
  let r := physV c.iss.rrb f.v.toNat
  c.iss.anchored = true →
  (ready 0 → (∀ l, x.launch = some l → l + 4 ≤ t) → ∃ u, exec (.xsend f) s = .next u ∧
    (u.circuit k).out = held.out ++ [(t, { data := c.v r, good := true, arrival := 0, ends := 0 })] ∧
    (u.circuit k).launch = some t ∧ (u.slot s.curKey).progress = c.iss.tick ∧ SameRegisters c (u.slot s.curKey) ∧
    u.mem = s.mem) ∧
  (ready 0 → (∃ l, x.launch = some l ∧ t < l + 4) →
    exec (.xsend f) s = .next (s.commit (takeTrap s s.curKey (trapAt 6 .circuitDown t f.oc.toNat)))) ∧
  (¬ ready 0 → exec (.xsend f) s = .next (s.commit (takeTrap s s.curKey (trapAt 6 .circuitDown t f.oc.toNat)))) ∧
  (∀ y rest, ready 1 → t = c.iss.tick → held.buf = y :: rest → y.arrival ≤ t → held.badUnit = false → held.overflow = false →
    ∃ u, exec (.xrecv f) s = .next u ∧ (u.circuit k).buf = rest ∧ (u.slot s.curKey).vregs = mput r y.data c.vregs ∧
      (u.slot s.curKey).sregs = c.sregs ∧ u.mem = s.mem) ∧
  (ready 1 → t ≠ c.iss.tick → ∃ u n, exec (.xrecv f) s = .next u ∧
    (u.slot s.curKey).xrecvs = c.xrecvs ++ [(f.oc.toNat, r, t, n)] ∧ SameRegisters c (u.slot s.curKey) ∧ u.mem = s.mem)) ∧
  (∀ (s : State) (k : Nat), k < 2 ^ 56 →
  let x := s.circuit k
  (∀ t u rest, x.out = (t, u) :: rest → t ≤ s.gtc (circKeyPkg k) →
    let x' := { x with out := rest, flying := x.flying ++ [(t + circFlight x.desc, u)] }
    exec (.xsendLaunch k) s = .next { s with circuits := mput k x' s.circuits }) ∧
  (∀ t u rest y, x.flying = (t, u) :: rest → t ≤ s.gtc (circKeyPkg k) → u.good = true →
    let q := circPeerPkg x.desc
    let peer := circKey (circKeyPart k) q (circPeerSlot x.desc) (circPeerOc x.desc)
    peer ≠ k → mfind peer s.circuits = some y → circValid y.desc = true → circDir y.desc = 1 → y.bound = none →
    y.buf.length < 16 → ∃ v, exec (.unitLanding k) s = .next v ∧ v = { s with circuits := v.circuits } ∧
      (v.circuit k).flying = rest ∧ (v.circuit peer).buf = y.buf ++ [{ u with arrival := s.gtc q }] ∧
      (v.circuit peer).overflow = y.overflow) ∧
  (∀ b, x.bound = some b → ∃ v, exec (.windowEnd k) s = .next v ∧ v = { s with circuits := v.circuits } ∧
    (v.circuit k).buf = x.buf.filter fun u => match circWindow x.desc (s.slot b).tbase u.arrival with
      | some e => decide (s.gtc (circKeyPkg k) < e)
      | none => false) ∧
  (mfind k s.circuits = some x → x.bound = none → ∃ v, exec (.windowEnd k) s = .next v ∧ v = { s with circuits := v.circuits } ∧
    (v.circuit k).buf = x.buf.filter fun u => u.ends == 0 || decide (s.gtc (circKeyPkg k) < u.ends)) ∧
  (∀ n r t q y rest, s.curCtx.xrecvDue (s.dieTick s.cur) = some (n, r, t, q) →
    (s.boundCirc s.curCtx n).buf = y :: rest → y.arrival ≤ t → (s.boundCirc s.curCtx n).badUnit = false →
    (s.boundCirc s.curCtx n).overflow = false → ∃ v, exec .xrecvTake s = .next v ∧ v.mem = s.mem ∧
      (v.slot s.curKey).vregs = mput r y.data s.curCtx.vregs ∧
      (v.slot s.curKey).xrecvs = s.curCtx.xrecvs.filter fun z => z.2.2.2 != q))

/-! ## The issue stage -/

/-- A bundle issues (R29, R62, R270). When the slot stands at the issue stage of a die cycle with no trap waiting, its
place in the timetable has come and no acquire holds it, and all its checks pass (`State.lookGuards`, whose conditions the
other statements spell out), it issues there: its instructions are due in slot order, the next bundle is the following one
no earlier than 1 + IDLE die cycles later, an anchored one sets ALAST to its target, and no register and no byte of memory
changes. Out of the loop buffer (R155–R158) slots whose stage predicate is 0 are squashed; after the last body bundle
comes the next pass, with g32 set while it has an iteration to start and the deltas of the level that moved due as it
begins, and after the last of T + STAGES − 1 passes the exit bundle. With the one difference of the anchor, this is BUNDLE_ISSUE and ANCHORED_BUNDLE_ISSUE. -/
def Obligations.BundleIssues : Prop := ∀ (s : State),
  let c := s.curCtx
  let b := s.stageBundle
  let s1 := s.commit [.slot s.curKey fun c => { c with
    iss := s.issueOf c b, tried := c.pos + 1
    wait := if c.wait.active then c.wait else { Wait.blank with active := true, pos := c.pos, tick := s.dieTick c.die } }]
  let i := if hdrAnchored b then Instr.anchoredBundleIssue else .bundleIssue
  s.atStage = true → c.pending = none → c.early b = false → c.acqUntil = [] →
  (c.looping = none → c.pc + 64 ≤ (s.node (keyRid s.curKey)).bmem * 4096) → (s1.lookGuards b).choose (hdrElastic b) = .go →
  (hdrElastic b = true → ∀ x ∈ State.active s1.curCtx b, ∀ u : State, slotArrive x.2 u = []) →
  ∃ t, exec i s = .next t ∧ t.micro = (State.active s1.curCtx b).map (fun x => x.2) ∧ t.mem = s.mem ∧
    let d := t.slot s.curKey
    SameRegisters c d ∧ d.earliest = c.pos + hdrIdle b + 1 ∧ d.fresh = false ∧
    d.iss = s.issueOf c b ∧ d.alast = (if hdrAnchored b then ((c.anchorTarget b).toNat : Int) else c.alast) ∧
    d.rrb = (if hdrRot b then (c.rrb + 511) % 512 else c.rrb) ∧
    (c.looping = none → d.pc = c.pc + 64 ∧ d.loop = c.loop) ∧
    (∀ l, c.looping = some l →
      (∀ x ∈ State.active s1.curCtx b, let code := bits (at0 l.codes l.at_ 0).toNat (4 * x.1 + 3) (4 * x.1)
        code < 15 → c.g (physG c.grb (32 + code)) = true) ∧
      (l.at_ + 1 < l.body.length → d.pc = c.pc + 64 ∧ d.loop = some { l with at_ := l.at_ + 1 }) ∧
      (l.body.length ≤ l.at_ + 1 →
        let more := l.pass + 1 < l.total
        let next := loopAdvance l.levels l.idx
        d.g (physG d.grb 32) = decide more ∧
        (more → ∀ x ∈ next.2, ∃ y ∈ d.land, y.due = c.pos + hdrIdle b + 1 ∧ y.ph = phDelta ∧ y.eff = .loopDelta x) ∧
        (l.pass + 1 < l.total + l.stages - 1 → d.pc = l.pc ∧
          d.loop = some { l with at_ := 0, pass := l.pass + 1, idx := if more then next.1 else l.idx } ∧
          (c.continues b = true → d.origin = c.origin + l.len)) ∧
        (l.total + l.stages - 1 ≤ l.pass + 1 → d.pc = l.pc + 64 * l.body.length ∧ d.loop = none)))

/-- Traps at the issue stage (R50, R62, R89, R245, R249). A bundle that stands there, or waits there when its anchor's
limit, the wait limit or the limit of a cuff send has passed, takes the trap that the order of R245 chooses: a rigid bundle
any of its checks, an elastic one a trap that ends its wait (`Look.prompt`; which ones do so is the model's choice, log 14). In a region with a handler the handler is
entered, with the cause in FSR and the address in FAR, and no register and no byte of memory changes. -/
def Obligations.StageTraps : Prop := ∀ (s : State) (t : Trap) (h : Nat),
  let c := s.curCtx
  let b := s.stageBundle
  let tick := s.dieTick c.die
  let s1 := s.commit [.slot s.curKey fun c => { c with
    iss := s.issueOf c b, tried := c.pos + 1
    wait := if c.wait.active then c.wait else { Wait.blank with active := true, pos := c.pos, tick := s.dieTick c.die } }]
  s.atStage = true → c.pending = none → c.early b = false → c.acqUntil = [] →
  (c.looping = none → c.pc + 64 ≤ (s.node (keyRid s.curKey)).bmem * 4096) →
  (s1.lookGuards b).choose (hdrElastic b) = .trap t → (hdrElastic b = true → (s1.lookGuards b).prompt ≠ []) → t.kind = .atBundle →
  (s.node (keyRid s.curKey)).handler = some h → c.fsr.getLsbD 11 = false →
  let enters := fun (i : Instr) => ∃ u, exec i s = .next u ∧ SameRegisters c (u.slot s.curKey) ∧ u.mem = s.mem ∧
    (u.slot s.curKey).pc = h ∧ (u.slot s.curKey).far = word t.addr ∧
    bits (u.slot s.curKey).fsr.toNat 7 0 = t.cause.code ∧ (u.slot s.curKey).fsr.getLsbD 11 = true ∧ u.micro = s.micro
  (hdrAnchored b = false → enters .bundleIssue) ∧ (hdrAnchored b = true → enters .anchoredBundleIssue) ∧
  (c.wait.active = true → hdrAnchored b = true → c.anchorTarget b + c.tguard < tick → enters .lateTickExpiry) ∧
  (c.wait.active = true → c.waitlim ≠ 0 → c.progress + c.waitlim < tick → enters .waitLimit) ∧
  (c.wait.active = true → (c.cuffLate tick).isSome = true → enters .cuffOverrun)

/-- Beside the stage (R55, R87, R89, R254, R425): a send lands in a buffer that holds fewer than 136, and is lost in a full
one; a broken bound of R55 marks every slot of the die; a waiting WAITW reads its word again; and when shadow storage is
full the first best-effort context in it moves to device memory. -/
def Obligations.BesideTheStage : Prop := ∀ (s : State) (die : Nat),
  (∀ x cuff, cuff < 3 → (s.die die).cuffIn.find? (fun x => x.1 % 4 == cuff && decide (x.2.tick ≤ s.gtc (diePkg die))) = some x →
    let k := x.1 / 4
    let c := s.slot k
    ∃ k', ((c.cuff cuff).length < 136 → exec (.cuffLanding die cuff) s =
      .next ((s.withDie die k').withCtx k { c with cuffs := mput cuff (c.cuff cuff ++ [x.2]) c.cuffs })) ∧
    ((c.cuff cuff).length ≥ 136 → exec (.cuffLanding die cuff) s =
      .next ((s.withDie die k').withCtx k { c with lost := if c.lost.contains cuff then c.lost else c.lost ++ [cuff] })) ∧
    k' = { s.die die with cuffIn := (s.die die).cuffIn.erase x }) ∧
  (s.Canon → s.slipDue s.cur = true → ∃ t, exec .slipExceeded s = .next t ∧ t = { s with slots := t.slots } ∧
    ∀ k c, mfind k s.slots = some c →
      mfind k t.slots = some (if c.mode != .idle && c.die == s.cur then { c with slipSeen := true } else c)) ∧
  (∀ f, s.curCtx.wait.active = true → s.curCtx.wait.sent = true → s.curCtx.mode = .run →
    slotDecode s.stageBundle 0 = some (.ok (.waitw f)) → f.on s.curCtx = true → s.waitwReq? s.curKey = none →
    s.curCtx.wait.word = none → s.curCtx.wait.fault = none → ∃ t r, exec .waitwReread s = .next t ∧ t.reqs = s.reqs ++ [r] ∧
      r.kind = .load 8 false ∧ r.ptr = f.av s.curCtx ∧ r.key = s.curKey ∧ t.mem = s.mem ∧
      (t.slot s.curKey).wait.lastRead = s.dieTick s.curCtx.die ∧ SameRegisters s.curCtx (t.slot s.curKey)) ∧
  (∀ k, 4 ≤ (s.die s.cur).shadow.length →
    (s.die s.cur).shadow.find? (fun k => (s.node (keyRid k)).server.isNone) = some k →
    exec .contextEvict s = .next ((s.withDie s.cur { s.die s.cur with shadow := (s.die s.cur).shadow.erase k }).withCtx k
      { s.slot k with shadowed := false }))

/-! ## Answers, resends, merges, mirrors -/

/-- Answers reach the slot (R103, R162, R169, R206, R222, R226–R228, R237). Over a path that carries it a load's value
fills its load-queue entry, and a response that fails its check fills it with the check-mismatch fault; an acknowledged
store leaves the store queue, a failed one leaving its deferred fault; where the path is cut off the access ends with
circuit-down; an unanswered numbered request is sent again and at last ends with circuit-down;
a mirror's acknowledgement makes the write visible at both homes, over a path that carries it to the mirror and back, and
where that path is cut off the write ends with circuit-down (the model's choice: log 27). Registers stay, and but for that
memory too.
Router merges and the result cache (R228–R230). A router on the way of a mergeable CRED opens a merge with its value,
or folds it into the open one of the same address by the window's operation; the merge is forwarded as one CRED of the
router's own; its answer, over a path that carries it, is given to every folded source; and results go 30 µs after they were
recorded, but for a survivor's during a failover (R207). -/
def Obligations.AnswersAndMerges : Prop :=
  (∀ (s : State) (r : Req), r.id < 2 ^ 32 → s.req? r.id = some r →
  r.owner = none →
  let c := s.slot r.key
  let out := fun (i : Instr) (p : State → Prop) => ∃ t, exec i s = .next t ∧ SameRegisters c (t.slot r.key) ∧ p t
  let fills := fun (e : Nat) (st : LqState) => c.lq.map fun x => if x.id == e then { x with st := st } else x
  let gone := s.reqs.filter fun q => q.id != r.id
  let back := s.path (s.answerer r) (diePkg r.die)
  (∀ n g e v, r.kind = .load n g → r.lq = some e → r.st = .performed v → back = .carried →
    out (.loadReturn r.id) (fun t => (t.slot r.key).lq = fills e (.value v) ∧ t.reqs = gone ∧ t.mem = s.mem) ∧
    ∀ damage, 0 < damage → damage < 2 ^ 32 → out (.loadReturn (r.id + 2 ^ 32 * damage)) fun t =>
      (t.slot r.key).lq = fills e (.fault { cause := .checkMismatch, ptr := r.ptr, detail := 0 }) ∧ t.reqs = gone) ∧
  (∀ n g e v, r.kind = .load n g → r.lq = some e → r.st = .performed v → back = .cut → out (.loadReturn r.id) fun t =>
    (t.slot r.key).lq = fills e (.fault { cause := .circuitDown, ptr := r.ptr, detail := 0 }) ∧ t.reqs = gone ∧
    t.mem = s.mem) ∧
  (∀ n v w, r.kind = .store n v → r.st = .performed w → back = .carried → out (.storeAck r.id) fun t =>
    (t.slot r.key).sq = c.sq.filter (· != r.id) ∧ (t.slot r.key).deferred = c.deferred ∧ t.reqs = gone ∧ t.mem = s.mem) ∧
  (∀ n v x, r.kind = .store n v → r.st = .failed x → back ≠ .cut → (∀ a b c, back ≠ .held a b c) → out (.storeAck r.id) fun t =>
    (t.slot r.key).deferred = c.deferred ++ [⟨x, r.pc⟩] ∧ t.reqs = gone ∧ t.mem = s.mem) ∧
  (s.resendDue r = true → exec (.atomicResend r.id) s = .next { s with
    reqs := s.reqs.map fun q => if q.id == r.id then { q with resends := q.resends + 1 } else q }) ∧
  (∀ op n b x e, r.kind = .atom op n b x → r.lq = some e → s.timeoutDue r = true → out (.atomicTimeout r.id) fun t =>
    (t.slot r.key).lq = fills e (.fault { cause := .circuitDown, ptr := r.ptr, detail := 0 }) ∧ t.req? r.id = none ∧
    t.mem = s.mem) ∧
  (s.reqLate r = true → exec (.circuitWaitTimeout r.id) s =
    .next (s.commit [setReq r.id (.failed { cause := .circuitDown, ptr := r.ptr, detail := 0 })])) ∧
  (∀ n v a m i h, r.kind = .store n v → s.hidden[i]? = some h → h.ref = 2 * r.id →
    s.reach r.party r.ptr .write = .ready a (some m) → s.planeHit r.part r.ptr n = .none → 8192 ≤ a / 2 ^ 64 →
    8192 ≤ m / 2 ^ 64 →
    let shown := fun (t : State) => t.hidden = s.hidden.filter (fun x => x.ref != 2 * r.id)
    (s.mirrorPath a (some m) = .carried → out (.mirrorAck i) fun t =>
      t.mem = memWrite m (toBytes n v.toNat) (memWrite a (toBytes n v.toNat) s.mem) ∧ shown t ∧
      (t.req? r.id).map (fun q => q.st) = some (.performed 0)) ∧
    (s.mirrorPath a (some m) = .cut → out (.mirrorAck i) fun t => t.mem = s.mem ∧ shown t ∧
      (t.req? r.id).map (fun q => q.st) = some (.failed { cause := .circuitDown, ptr := r.ptr, detail := 0 })))) ∧
  (∀ (s : State) (pkg : Nat),
  let k := s.pkg pkg
  (∀ r op ty v o, s.req? r.id = some r → r.kind = .cred op ty v o → s.mergeable r = true → r.open_ = true →
    s.folded r = false → s.sendable r = true → r.ofMerge = none →
    let x := s.inject r
    x.way.any (s.along · == .carried) = true → pkg ∈ x.routers →
    let s' : State := { s with reqs := s.reqs.map fun (q : Req) => if q.id == r.id then { q with way := x.way, stamp := x.stamp } else q }
    let me := (r.src, r.seq, r.die, (r.owner.getD (0, 0)).1, (r.owner.getD (0, 0)).2)
    (k.merges = [] → exec (.routerCredReceive pkg r.id) s = .next (s'.withPkg pkg { k with
      merges := [⟨k.nextMerge, r.ptr, r.part, op, ty, v, k.gtc, false, none, [me]⟩], nextMerge := k.nextMerge + 1 })) ∧
    (∀ m, k.merges = [m] → m.sent = false → ptrPlain m.addr = ptrPlain r.ptr → m.part = r.part → m.op = op → m.ty = ty →
      exec (.routerCredReceive pkg r.id) s = .next (s'.withPkg pkg { k with
        merges := [{ m with value := word (credNew op ty m.value.toNat v.toNat), folded := m.folded ++ [me] }] }))) ∧
  (∀ m rest, k.merges = m :: rest → m.sent = false → ∃ t r, exec (.mergeForward pkg m.id) s = .next t ∧
    t.reqs = s.reqs ++ [r] ∧ r.kind = .cred m.op m.ty m.value false ∧ r.ptr = m.addr ∧ r.owner = some (3, m.id) ∧
    r.st = .flying ∧ (t.pkg pkg).merges.head? = some { m with sent := true } ∧ t.mem = s.mem ∧ t.slots = s.slots) ∧
  (∀ m r q v, k.merges.find? (fun x => x.id == m.id) = some m →
    s.reqs.find? (fun x => x.ofMerge == some m.id && diePkg x.die == pkg && x.answered) = some r → s.answerOn r = some (.performed v) →
    q ∈ s.reqs → q.open_ = true → q.id ≠ r.id → (m.folded.any fun x => x.1 == q.src && x.2.1 == q.seq) = true →
    ∃ t, exec (.mergeAnswer pkg m.id) s = .next t ∧ (∃ z ∈ t.reqs, z.id = q.id ∧ z.st = .performed v) ∧
      (∀ z ∈ t.reqs, z.id ≠ r.id) ∧ t.mem = s.mem ∧ t.slots = s.slots) ∧
  (∀ src seq, exec (.resultCacheExpiry pkg src seq) s = .next (s.withPkg pkg { k with
    cache := k.cache.filter (fun e => s.keepsCache pkg || !(e.src == src && e.seq == seq && decide (e.tick + 30000 ≤ k.gtc))),
    merges := k.merges.filter fun m => !(m.answered.any (fun t => decide (t + 30000 ≤ k.gtc)) &&
      m.folded.any fun x => x.1 == src && x.2.1 == seq) })))

/-! ## Links, routing, optics -/

/-- Links (R223, R225, R226, T12.1). A flit that is expected and that a ring of its plane drops advances the number, one that
fails its CRC or that no ring drops is counted as a replay, and the sixteenth replay in a row takes the link down; light,
lock and authentication take a link from down to up; the third failed attempt, or 2 ms, quarantines it. A link that goes
down is down at both of its ends, what has been sent over it loses its path, and the link interrupt is raised; so it is at
quarantine. The model's choice (log 27): both ends go down together, and the path of what is not acknowledged is given
up.
Routing and photonic circuits (R224, R237), with no service command under way or waiting. A routing entry of a fabric die
is written into the inactive copy, with a service status; a flip changes the version of every package at once and sets its markers on their
way; a marker of a source without packets of the old version that passes is no longer awaited; a circuit is set up 2 µs
after its entry. -/
def Obligations.LinksAndRouting : Prop :=
  (∀ (s : State) (p n : Nat),
  let l := s.linkNo p n
  let k := s.pkg p
  let q := linkPeer p n
  let set := fun (l' : Link) (irq : Bool) =>
    s.withPkg p { k with links := mput n l' k.links, intstat := if irq then k.intstat ||| 4 else k.intstat }
  let seen := fun (good : Nat) => good % 2 = 1 ∧ k.lit n (good / 2 % 128) (good / 2 ^ 8 % 4) = true
  let down := fun (i : Instr) (l' : Link) => ∃ t, exec i s = .next t ∧
    t.linkNo p n = { l' with state := 0, held := [] } ∧ (t.pkg p).intstat = k.intstat ||| 4 ∧
    ((s.linkNo q.1 q.2).state ≠ 4 → (t.linkNo q.1 q.2).state = 0) ∧
    (∀ r ∈ t.reqs, r.open_ = true → ∀ w, r.way = some w → w.any (Hop.on p n) = false) ∧ t.mem = s.mem ∧ t.slots = s.slots
  (∀ no good, l.state = 3 → l.expect < 65536 → no = l.expect → seen good →
    exec (.flitReceive p n no good) s = .next (set { l with expect := (l.expect + 1) % 65536, again := 0 } false)) ∧
  (∀ no good, l.state = 3 → l.again < 15 → ¬ seen good → exec (.flitReceive p n no good) s =
    .next (set { l with replays := min 65535 (l.replays + 1), again := l.again + 1 } false)) ∧
  (∀ no good, s.isLink p n = true → l.state = 3 → l.again = 15 → ¬ seen good →
    down (.flitReceive p n no good) { l with replays := min 65535 (l.replays + 1), again := 16 }) ∧
  (s.isLink p n = true → l.state = 1 ∨ l.state = 2 ∨ l.state = 3 → down (.lossOfLight p n) l) ∧
  (s.isLink p n = true → l.state = 0 → exec (.lightPresent p n) s = .next (set { l with state := 1, held := [] } false)) ∧
  (∀ th, s.isLink p n = true → l.state = 0 ∨ l.state = 4 →
    exec (.linkEnable p (n + 256 * th)) s = .next (set { l with egress := th, state := 1, held := [] } false)) ∧
  (l.state = 1 → ∃ t, exec (.opticalLock p n) s = .next t ∧
    t = { set { l with state := 2, attempts := 0, since := k.gtc } false with timers := t.timers } ∧
    (⟨p, k.gtc + 2000000, .authTimeout p n⟩ : Timer) ∈ t.timers) ∧
  (∀ good, l.state = 2 → 0 < good → exec (.authAttempt p n good) s = .next
    (set { l with state := 3, attempts := l.attempts + 1, replays := 0, again := 0, held := [] } false)) ∧
  (l.state = 2 → l.attempts < 2 → exec (.authAttempt p n 0) s = .next (set { l with attempts := l.attempts + 1 } false)) ∧
  (l.state = 2 → l.attempts = 2 → l.held = [] →
    exec (.authAttempt p n 0) s = .next (set { l with state := 4, attempts := 3, held := [] } true)) ∧
  (l.state = 2 → l.since + 2000000 ≤ k.gtc → l.held = [] →
    exec (.authTimeout p n) s = .next (set { l with state := 4, held := [] } true))) ∧
  (∀ (s : State) (p : Nat),
  let k := s.pkg p
  let free := s.serviceBusy p = false ∧ k.queue = []
  (∀ q e, s.flipping = false → free →
    (q < 2048 → e < 2 ^ 44 →
      let i := routeKey (6 + q / 1024) (q % 1024)
      exec (.routingUpdate p q e) s = .next (s.withPkg p (Pkg.replied 0 q (if k.version then
        { k with table0 := mput i e k.table0 } else { k with table1 := mput i e k.table1 })))) ∧
    (2048 ≤ q ∨ 2 ^ 44 ≤ e → exec (.routingUpdate p q e) s = .next (s.withPkg p (Pkg.replied 2 q k)))) ∧
  (s.Canon → s.flipping = false → free → ∃ t, exec (.routingFlip p) s = .next t ∧
    t = { s with pkgs := t.pkgs } ∧ ∀ q ∈ s.packages, (t.pkg q).version = !(s.pkg q).version ∧
      (t.pkg q).draining = s.packages ∧ (t.pkg q).table0 = (s.pkg q).table0 ∧ (t.pkg q).table1 = (s.pkg q).table1) ∧
  (s.flipping = true → free → exec (.routingFlip p) s = .next (s.withPkg p { k with flipWait := true })) ∧
  (∀ src, src ∈ k.draining → s.oldPackets src = false → (∀ e ∈ s.pkgs, e.2.flipWait = false) → mfind p s.pkgs = some k →
    exec (.drainMarker p src) s = .next (s.withPkg p { k with draining := k.draining.erase src })) ∧
  (∀ src dst n, src < 8 → dst < 8 → src ≠ dst → 0 < n → n ≤ 16 → free →
    (s.conn p (8 * src + dst)).state = 0 → exec (.connectionTableEntry p src dst n) s = .next
      { s.withPkg p (Pkg.replied 0 (8 * src + dst) { k with conns := mput (8 * src + dst) ⟨n, 1, k.gtc⟩ k.conns }) with
        timers := s.timers ++ [⟨p, k.gtc + 2000, .circuitUp p src dst⟩] }) ∧
  (∀ src dst, (s.conn p (8 * src + dst)).state = 1 → (s.conn p (8 * src + dst)).since + 2000 ≤ k.gtc →
    exec (.circuitUp p src dst) s = .next (s.withPkg p { k with
      conns := mput (8 * src + dst) { s.conn p (8 * src + dst) with state := 2 } k.conns })))

/-- Optics (R232, R233, R236, R266): a bias at its limit raises QALARM and the link interrupt; a heater takes the code
written last; MON takes its reading at a tick that is a multiple of 1,000, below 1,024 without a colour; a ring that takes a colour over drops its data;
and a failed ring with a colour moves it to the free spare of its plane, counted in HEALTH.RINGS. The
model's choice (log 33): a ring that fails without a colour is only marked. -/
def Obligations.Optics : Prop := ∀ (s : State) (p port plane : Nat), port < 2 → plane < 72 →
  let k := s.pkg p
  let pl := 72 * port + plane
  (∀ m, m < 4 → (k.mzm (4 * pl + m)).auto = true →
    exec (.biasLimit p port plane m 1) s = .next (s.withPkg p
      { k with mzms := mput (4 * pl + m) { k.mzm (4 * pl + m) with bias := 4095, qalarm := true } k.mzms,
               intstat := k.intstat ||| 4 }) ∧
    exec (.biasLimit p port plane m 0) s = .next (s.withPkg p
      { k with mzms := mput (4 * pl + m) { k.mzm (4 * pl + m) with bias := 0, qalarm := true } k.mzms,
               intstat := k.intstat ||| 4 })) ∧
  (∀ r, r < 17 →
    let i := 17 * pl + r
    let x := k.ring i
    exec (.heaterApply p port plane r) s = .next (s.withPkg p { k with rings := mput i { x with applied := x.heat } k.rings }) ∧
    (∀ v, v < 65536 → k.gtc % 1000 = 0 → exec (.monUpdate p port plane r v) s =
      .next (s.withPkg p { k with rings := mput i { x with mon := if x.cv then v else v % 1024 } k.rings })) ∧
    (x.cv = true → ∃ k', exec (.colourTakeover p port plane r) s = .next (s.withPkg p k') ∧ (k'.ring i).drops = true ∧
      (∀ j, j < 17 → j ≠ r → (k.ring (17 * pl + j)).colour = x.colour → (k'.ring (17 * pl + j)).drops = false) ∧
      k'.links = k.links ∧ k'.health = k.health) ∧
    (k.ringsOpen s.now = false → x.failed = false → x.cv = false →
      exec (.ringFailure p port plane r) s = .next (s.withPkg p { k with rings := mput i { x with failed := true } k.rings })) ∧
    (k.ringsOpen s.now = false → x.failed = false → x.cv = true → x.colour < 128 → r < 16 → (k.ring (17 * pl + 16)).failed = false →
      (k.ring (17 * pl + 16)).cv = false → ∃ k', exec (.ringFailure p port plane r) s = .next (s.withPkg p k') ∧
      (k'.ring i).failed = true ∧ (k'.ring i).cv = false ∧ (k'.ring (17 * pl + 16)).cv = true ∧
      (k'.ring (17 * pl + 16)).colour = x.colour ∧
      bits k'.health.toNat 15 0 = min 65535 (bits k.health.toNat 15 0 + 1)))

/-! ## Service commands, the host, starts, failures, time -/

/-- Service commands (R45, R164, R168, R209, R220, R229, R238, R260, R445). While another command is under way a command
joins the queue. With none under way and none waiting, a valid descriptor takes its place and nothing else changes but the
status word 0 with its index in its queue entry, and the service interrupt; a range entry with reserved bits is refused with
code 1, an unknown command with code 0x0A, and nothing is installed. The
model's choice (log 32): V = 0 removes a plane descriptor, a window has a line at least, the reserved bits of word 0x28
count, and a command is answered in the next entry of the queue. -/
def Obligations.ServiceInstallations : Prop := ∀ (s : State) (p part i : Nat),
  let k := s.pkg p
  (s.serviceBusy p = true → ∀ c v,
    exec (.unknownCommand p c) s = .next (s.withPkg p (k.enqueue (.unknownCommand p c))) ∧
    exec (.setBandQuantum p i v) s = .next (s.withPkg p (k.enqueue (.setBandQuantum p i v)))) ∧
  (s.serviceBusy p = false → k.queue = [] →
  let done := fun (t : State) => t.withPkg p (Pkg.replied 0 i k)
  (∀ w0 w1 w2 w3, i < 256 →
    let r : Range := ⟨word w0, word w1, word w2, word w3⟩
    (r.reserved = false → r.beyond = false → exec (.installRangeEntry p part i w0 w1 w2 w3) s =
      .next (done { s with ranges := mput ((1024 * part + p) * 256 + i) r s.ranges })) ∧
    (r.reserved = true →
      exec (.installRangeEntry p part i w0 w1 w2 w3) s = .next (s.withPkg p (Pkg.replied 1 i k)))) ∧
  (∀ space first last, space < 2 → (∀ d < 8, ∀ w ∈ (s.die (dieId p d)).walks, w.part = part → w.space ≠ space) →
    ∃ t, exec (.invalidateTranslation p part space first last) s = .next t ∧
      t = { s with dies := t.dies, pkgs := (s.withPkg p (Pkg.replied 0 0 k)).pkgs } ∧ ∀ d < 8,
        t.die (dieId p d) = { s.die (dieId p d) with tcache := (s.die (dieId p d)).tcache.filter fun e =>
          !(e.part == part && e.space == space && e.vbase < (last + 1) * 4096 && first * 4096 < e.vbase + e.size) }) ∧
  (∀ w0 w1 w2 w3 w4, i < 64 → bits w3 63 24 = 0 → bits w4 63 16 = 0 → bits w4 9 5 = 0 →
    let x := { planeOf w0 w1 w2 w3 w4 with frozen := s.planeLost part (planeOf w0 w1 w2 w3 w4) }
    x.inRange = true → x.meets ((s.planes.filter fun e => e.1 / 64 == part && e.1 != 64 * part + i).map fun e => e.2) = false →
    (spaceOf x.base = 3 → ∀ a ∈ x.spans, s.crownArea part a = true) →
    (spaceOf x.base = 1 → ∀ a ∈ x.spans, offsetBits a.1 + a.2 ≤ 2 ^ 28) → (x.rule = 1 → 11 ≤ x.ty ∧ x.ty ≤ 14) →
    s.groupRuns part x.group = false → (∀ o, mfind (64 * part + i) s.planes = some o → s.groupRuns part o.group = false) →
    (let t := s.commit (s.clearMarks part x)
     exec (.installPlaneDescriptor p part i w0 w1 w2 w3 w4 1 0 0) s = .next (done
      { s with planes := mput (64 * part + i) x s.planes, mem := t.mem, dies := t.dies })) ∧
    exec (.installPlaneDescriptor p part i w0 w1 w2 w3 w4 0 0 0) s = .next (done
      { s with planes := mdel (64 * part + i) s.planes })) ∧
  (∀ ms : List Nat, i < 64 → ms ≠ [] → ms.length ≤ 64 → ms.Nodup →
    (∀ m ∈ ms, m < 2 ^ 13 ∧ m / 2 ^ 10 % 8 < 6 ∧ rowOf (m % 1024) = rowOf (ms.headD 0 % 1024)) →
    exec (.installBarrierEntry p part i ms) s = .next (done { s with barriers := mput (64 * part + i) { Barrier.blank with
      members := ms, phase := ((mfind (64 * part + i) s.barriers).map fun b => b.phase).getD 0 } s.barriers })) ∧
  (∀ base size ty op, i < 16 → 2 ≤ spaceOf (word base) → spaceOf (word base) ≤ 4 → ptrOk 0 (word base) = true → 0 < size →
    ty ≤ 1 ∨ (11 ≤ ty ∧ ty ≤ 14) → op < 3 →
    exec (.installReductionWindow p part i base size ty op) s = .next (done
      { s with windows := mput (16 * part + i) ⟨word base, size, ty, op⟩ s.windows })) ∧
  (∀ slot w0 w1 w2 w3, i < 256 → slot < 6 → circReserved w0 w2 w3 = false →
    let d : BitVec 256 := ofElems 256 64 [w0, w1, w2, w3]
    (circValid d = true → 0 < circLen d ∧ circLen d ≤ 50000 ∧ circPeerSlot d < 6 ∧ circPeerPkg d ≠ p ∧
      (if circPort d = 0 then rowOf (circPeerPkg d) = rowOf p else colOf (circPeerPkg d) = colOf p)) →
    let c := circKey part p slot i
    exec (.installCircuitDescriptor p part slot i w0 w1 w2 w3) s =
      .next (done { s with circuits := mput c { s.circuit c with desc := d } s.circuits })) ∧
  (∀ v, i < 8 → exec (.setBandQuantum p i v) s =
    .next (s.withPkg p (Pkg.replied 0 i { k with quanta := mput i v k.quanta }))) ∧
  (∀ code, exec (.unknownCommand p code) s = .next (s.withPkg p (Pkg.replied 0x0A 0 k))))

/-- The host (R30, R258, R259): a post joins the launch queue while it has a place; INTSTAT is cleared by ones; a read
of the register block gives BOOTSTAT, HEALTH, INTSTAT and the bytes of the service command queue, and a write of it posts a
launch, clears INTSTAT or writes the queue's bytes (the offsets are log 6); the companion reads and writes its own memory; a
window read gives the bytes, and a window write its bytes. The model's choice: a free value where a window does not reach
(log 5), translation by the tables numbered 0 (log 22), and space 0x5 for the companion's own memory (log 6). -/
def Obligations.HostAccesses : Prop := ∀ (s : State) (p : Nat),
  let k := s.pkg p
  let read := fun (v : Word) => { s.withPkg p { k with hostRead := v } with fresh := s.fresh + 1 }
  (∀ ptr, k.launchQ.length < 64 → exec (.launchPortStore p ptr) s =
    .next (s.withPkg p { k with launchQ := k.launchQ ++ [⟨word ptr, none, 0, 0, []⟩] })) ∧
  (∀ v, exec (.intstatWrite p v) s = .next (s.withPkg p { k with intstat := k.intstat &&& ~~~(word v) })) ∧
  (∀ n d, 0 < n → n ≤ 8 →
    exec (.hostAccess p 0 0 n d) s = .next (read k.bootstat) ∧ exec (.hostAccess p 0 8 n d) s = .next (read k.health) ∧
    exec (.hostAccess p 0 16 n d) s = .next (read k.intstat) ∧
    exec (.hostAccess p 1 16 n d) s = exec (.intstatWrite p d) s ∧
    exec (.hostAccess p 1 24 n d) s = exec (.launchPortStore p d) s) ∧
  (∀ off n d, 0 < n → n ≤ 8 → 0x4000 ≤ off → off + n ≤ 0x8000 →
    exec (.hostAccess p 0 off n d) s = .next (read (word (ofBytes
      ((List.range n).map fun j => mget k.queueMem (off - 0x4000 + j) 0)))) ∧
    exec (.hostAccess p 1 off n d) s = .next (s.withPkg p (k.putQueue (off - 0x4000) (toBytes n d)))) ∧
  (∀ ptr n d, 2 ^ 16 ≤ ptr → 0 < n → n ≤ 8 → spaceOf (word ptr) = 5 →
    let a := hostAddr p (offsetBits (word ptr))
    exec (.hostAccess p 0 ptr n d) s = .next (read (word (s.num a n))) ∧
    ∃ t, exec (.hostAccess p 1 ptr n d) s = .next t ∧ t = { s with mem := t.mem } ∧ t.mem = memWrite a (toBytes n d) s.mem) ∧
  (∀ ptr n d l, 2 ^ 16 ≤ ptr → 0 < n → n ≤ 8 → s.hostBytes p .read (word ptr) n = some l →
    exec (.hostAccess p 0 ptr n d) s = .next (read (word (ofBytes (l.map (memByte s.mem)))))) ∧
  (∀ ptr n d, 2 ^ 16 ≤ ptr → 0 < n → n ≤ 8 → spaceOf (word ptr) ≠ 5 → s.hostBytes p .read (word ptr) n = none →
    exec (.hostAccess p 0 ptr n d) s = .next (read (s.freeWord 0))) ∧
  (∀ ptr n d l, 2 ^ 16 ≤ ptr → 0 < n → n ≤ 8 → s.hostBytes p .write (word ptr) n = some l →
    ∃ t, exec (.hostAccess p 1 ptr n d) s = .next t ∧ t.slots = s.slots ∧ t.pkgs = s.pkgs ∧ t.nodes = s.nodes ∧
      t.mem = (l.zip (toBytes n d)).foldl (fun m x => memSet x.1 x.2 m) s.mem)

/-- Starts and attestation (R261–R263): a start that succeeds sets READY, counts, and puts the dies that pass in service;
one that fails counts, leaves its REASON and records the dies that failed in HEALTH, the third in a row minimal mode,
with the link interrupt for a link that was not down; 2 s without an end of it are a failure with
reason 6; a reset clears what the package holds and computes the digests; until READY or minimal mode its Milliner does
nothing; a report carries the nonce, the digests and its signature. SLIPMAX is set at boot (T3.2; the coding and the value
are log 6 and log 5). The model's choice (log 31): memory, time and health stay over a reset, contexts are cleared, the
counter counts attempts, and the digests are free values. -/
def Obligations.StartsAndAttestation : Prop := ∀ (s : State) (p : Nat),
  let k := s.pkg p
  (∀ nonce, exec (.attestationRequest p nonce) s = .next (s.withPkg p { k with
    report := some (k.reportWords p nonce, Config.signature (k.reportWords p nonce)) })) ∧
  (k.starting = true → passing (maskedDies k.health) ≠ [] → ∃ t, exec (.reset p 0) s = .next t ∧
    (t.pkg p).ready = true ∧ (t.pkg p).starting = false ∧ (t.pkg p).minimal = false ∧ (t.pkg p).fails = 0 ∧
    (t.pkg p).starts = k.starts + 1 ∧
    (t.pkg p).digests = (if k.digests = [] then (List.range 16).map s.freeWord else k.digests) ∧ (∀ i < 6, (t.die (dieId p i)).service = !bit (maskedDies k.health) i) ∧
    t.mem = s.mem ∧ t.slots = s.slots ∧ t.nodes = s.nodes) ∧
  (∀ r f, 0 < r → r < 256 → f < 64 → k.starting = true → k.minimal = false → k.fails < 2 →
    ∃ t, exec (.reset p (256 * f + r)) s = .next t ∧
    t.pkg p = Pkg.setHealth { k with
      starting := false, ready := false, fails := k.fails + 1, reason := r, starts := k.starts + 1, failing := BitVec.ofNat 6 f
      digests := if k.digests = [] then (List.range 16).map s.freeWord else k.digests }
      (setBits 25 20 (f ||| maskedDies k.health)) ∧
    (∀ i < 6, t.die (dieId p i) = { s.die (dieId p i) with slipmax := Config.slipmax }) ∧ t.mem = s.mem ∧
    t.slots = s.slots) ∧
  (∀ v, v ≤ 2500 → k.starting = true → ∃ t, exec (.reset p (2 ^ 27 + v * 2 ^ 15 + 2 ^ 14)) s = .next t ∧
    t = { s with pkgs := t.pkgs, dies := t.dies, fresh := t.fresh } ∧ ∀ i < 6, (t.die (dieId p i)).slipmax = v) ∧
  (k.ready = false → k.minimal = false → ∀ r c, ridPkg r = p →
    exec (.launchValidate p) s = .next s ∧ exec (.dispatch p c) s = .next s ∧ exec (.gangStart r c) s = .next s ∧
    exec (.resume r c) s = .next s) ∧
  (∀ r, 0 < r → r < 256 → k.starting = true → k.fails = 2 → ∃ t, exec (.reset p r) s = .next t ∧
    (t.pkg p).minimal = true ∧ (t.pkg p).ready = false ∧ (t.pkg p).fails = 3 ∧ (t.pkg p).reason = r ∧ (t.pkg p).links = [] ∧
    ((∃ e ∈ k.links, e.2.state ≠ 0) → (t.pkg p).intstat.getLsbD 2 = true) ∧
    (∀ i < 6, (t.die (dieId p i)).service = true ↔ (passing (maskedDies k.health)).head? = some i) ∧ t.mem = s.mem) ∧
  (k.starting = false → ∃ t, exec (.reset p (2 ^ 14)) s = .next t ∧ (t.pkg p).starting = true ∧ (t.pkg p).ready = false ∧
    (t.pkg p).resetAt = k.gtc ∧ (t.pkg p).gtc = k.gtc ∧ (t.pkg p).health = k.health ∧ (t.pkg p).launchQ = [] ∧
    (t.pkg p).digests = (List.range 16).map s.freeWord ∧
    (∀ x, keyPkg x = p → t.slot x = .blank) ∧ (∀ x, keyPkg x ≠ p → t.slot x = s.slot x) ∧ t.mem = s.mem) ∧
  (k.starting = true → k.resetAt + 2000000000 ≤ k.gtc → ∃ t, exec (.readyTimeout p) s = .next t ∧
    (t.pkg p).starting = false ∧ (t.pkg p).ready = false ∧ (t.pkg p).fails = min 255 (k.fails + 1) ∧ (t.pkg p).reason = 6 ∧
    t.mem = s.mem ∧ t.slots = s.slots)

/-- Power and parts that fail (R207, R264, R266, R52): at a tick that is a multiple of 1,000 an idle die is granted
nothing and a running one its own part at least, and so for the stacks and the fabric dies; a failed stack, bank, compute die or fabric die leaves service and
stands in HEALTH; a failover ends; the standby Milliner takes over, and then carries out what fell meanwhile, with the stops whose tick has passed. The model's choice: grants in
whole watts and the split of an idle die's allotment (log 46), and what a die's failure does to its slots (log 34). -/
def Obligations.PowerAndFailures : Prop := ∀ (s : State) (p : Nat),
  let k := s.pkg p
  (∀ demands, k.gtc % 1000 = 0 → ∃ t, exec (.powerGrant p demands) s = .next t ∧
    t = { s with dies := t.dies, pkgs := t.pkgs, fresh := s.fresh + 13 } ∧ (t.pkg p).grantAt = k.gtc ∧
    (∀ c ≤ 6, (t.pkg p).powGrant.getD c 0 = (s.grantsOf p demands).getD (6 + c) 0) ∧
    ∀ i < 6, ∃ g, t.die (dieId p i) = { s.die (dieId p i) with
        grant := g, demand := demands.getD i 0, short := decide (g < demands.getD i 0) } ∧
      (s.issuer (dieId p i) = none → g = 0) ∧
      (∀ n, s.issuer (dieId p i) = some n → k.pmax * (if n.pclass = 1 then 58 else 78) / 600 ≤ g)) ∧
  (∀ n, n < 12 → ∃ x, exec (.stackFailure p n) s = .next (s.withPkg p x) ∧ x.hbmOut = k.hbmOut ||| (1#12 <<< n) ∧
    x.health = k.health ||| (1#64 <<< (28 + n))) ∧
  (∀ d b, b < 2048 → (s.die d).run = none → b ∉ (s.die d).dead → ∃ t, exec (.bankRetire d b) s = .next t ∧
    t = { s with dies := t.dies, pkgs := t.pkgs } ∧
    ((s.die d).spares < 32 → (t.die d).spares = (s.die d).spares + 1 ∧ (t.die d).retired = (s.die d).retired ++ [b]) ∧
    (32 ≤ (s.die d).spares → (t.die d).dead = (s.die d).dead ++ [b] ∧ (t.pkg (diePkg d)).health.getLsbD 63 = true)) ∧
  (diePkg s.cur = p → diePhys s.cur < 6 → (s.die s.cur).service = true → ∃ t, exec .computeDieFailure s = .next t ∧
    (t.die s.cur).service = false ∧ (t.die s.cur).run = none ∧ (t.pkg p).health.getLsbD (20 + diePhys s.cur) = true ∧
    ((s.die s.cur).run = none → t.mem = s.mem ∧ t.slots = s.slots)) ∧
  (∀ f, f < 2 → k.fdFailed.getLsbD f = false → k.present = true → ∃ t, exec (.fabricDieFailed p f) s = .next t ∧
    (t.pkg p).fdFailed = k.fdFailed ||| (1#2 <<< f) ∧ (t.pkg p).failover = k.failover ||| (1#2 <<< f) ∧
    (t.pkg p).health.getLsbD (26 + f) = true ∧ t.slots = s.slots ∧
    (⟨p, k.gtc + 200000, .failoverComplete p f⟩ : Timer) ∈ t.timers) ∧
  (∀ f, f < 2 → k.failover.getLsbD f = true → ∃ t, exec (.failoverComplete p f) s = .next t ∧
    (t.pkg p).failover = k.failover &&& ~~~(1#2 <<< f) ∧ t.slots = s.slots ∧ t.mem = s.mem) ∧
  (k.takeover = false → k.standby = false →
    exec (.millinerTakeover p) s = .next (s.withPkg p { k with takeover := true, standby := true })) ∧
  (s.Canon → k.takeover = true → ∃ t, exec (.takeoverComplete p) s = .next t ∧
    t = { s.withPkg p { k with takeover := false, heldWork := [] } with micro := k.heldWork ++ s.micro, nodes := t.nodes } ∧
    ∀ r, (t.node r).stopping = if ridPkg r = p ∧ s.stopBegun (s.node r) r = false
      then (s.node r).stopping.map fun x => max x (s.soon r) else (s.node r).stopping)

/-- Time between packages (R57–R59, T3.1): the first enabled port leaves the free-running state; a sync keeps the offset
from the grandmaster and a rate correction of at most 100 ppm; 16 good intervals in a row lock, where every locked package is
within the bound of R59; 4 bad ones in a row, or 8 intervals without a sync, leave the lock with the time interrupt and the
rate that was applied last; one forward step is allowed before the first lock; 1 s of holdover ends it. The model's choice
(log 43): the syncs of one interval count once, which is bad when one of them is, an interval without a sync breaks a run,
the run stands when holdover ends, the oscillator's error is a free value, and a record that would lock beyond R59's bound
has no effect. -/
def Obligations.TimeBetweenPackages : Prop := ∀ (s : State) (p : Nat),
  let k := s.pkg p
  let m := k.gtc / syncInterval
  let from_ := fun (o : Nat) => s.gtcDiff p (s.grandmaster p) + signed 63 o
  (∀ port prio, port < 2 → k.minimal = false → k.disc = 0 →
    exec (.ptpPortEnable p port (2 * prio + 1)) s = .next { s.withPkg p { k with
      ptp := k.ptp ||| (1#2 <<< port), ptpPrio := prio, disc := 1, drift := driftOf (s.freeWord 0), inside := 0, outside := 0
      before := 0, lastSync := k.gtc, syncNo := m } with fresh := s.fresh + 1 }) ∧
  (∀ port prio, port < 2 → k.minimal = false → k.ptp &&& ~~~(1#2 <<< port) = 0 → k.disc = 2 →
    exec (.ptpPortEnable p port (2 * prio)) s = .next (s.withPkg p
      { k with ptp := 0, ptpPrio := prio, disc := 0, slew := 0, intstat := k.intstat ||| 2 })) ∧
  (∀ o, k.ptp ≠ 0 → 1 ≤ k.disc → k.disc ≤ 3 → k.disc = 2 ∨ s.nearLocked p 0 = true →
    let ofs := from_ o
    let good := -10 ≤ ofs ∧ ofs ≤ 10
    let bad := ofs < -20 ∨ 20 < ofs
    ∃ x, exec (.ptpSync p (2 * o)) s = .next { s.withPkg p x with fresh := s.fresh + 2 } ∧
    x.ofs = ofs ∧ x.gtc = k.gtc ∧ x.lastSync = k.gtc ∧ x.syncNo = m ∧ (k.disc = 3 → x.slew = k.slew) ∧
    (k.disc ≠ 3 → x.disc ≠ 3 → -100 ≤ x.slew ∧ x.slew ≤ 100) ∧
    (¬ good → x.inside = 0) ∧ (good → m = k.syncNo + 1 → x.inside = k.inside + 1) ∧
    (good → m = k.syncNo → x.inside = k.inside) ∧ (good → k.syncNo + 1 < m → x.inside = 1) ∧
    (k.disc ≠ 2 → x.disc = if 16 ≤ x.inside then 2 else k.disc) ∧
    (k.disc = 2 →
      let leaves := x.disc = 3 ∧ x.holdAt = k.gtc ∧ x.intstat = k.intstat ||| 2 ∧ x.slew = s.rate p
      (bad → m = k.syncNo + 1 → 3 ≤ k.outside → leaves) ∧
      (bad → m = k.syncNo + 1 → k.outside < 3 → x.disc = 2 ∧ x.outside = k.outside + 1 ∧ x.intstat = k.intstat) ∧
      (bad → m = k.syncNo → 3 ≤ k.before → leaves) ∧
      (bad → m = k.syncNo → k.before < 3 → x.disc = 2 ∧ x.outside = k.before + 1 ∧ x.intstat = k.intstat) ∧
      (¬ bad → m ≠ k.syncNo → x.disc = 2 ∧ x.outside = 0 ∧ x.intstat = k.intstat))) ∧
  (∀ o, k.disc = 1 ∨ k.disc = 3 → -10 ≤ from_ o → from_ o ≤ 10 → m = k.syncNo + 1 → 15 ≤ k.inside →
    s.nearLocked p 0 = false → exec (.ptpSync p (2 * o)) s = .next s) ∧
  (∀ o, k.ptp ≠ 0 → k.disc = 1 → k.stepped = false → from_ o < 0 → s.nearLocked p (-(from_ o)).toNat = true → ∃ x,
    exec (.ptpSync p (2 * o + 1)) s = .next { s.withPkg p x with fresh := s.fresh + 2 } ∧
    x.gtc = k.gtc + (-(from_ o)).toNat ∧ x.stepped = true) ∧
  (k.disc = 2 → k.lastSync + 62500000 ≤ k.gtc → exec (.syncTimeout p) s = .next { s.withPkg p
    { k with disc := 3, holdAt := k.gtc, inside := 0, outside := 0, before := 0, slew := s.rate p
             drift := driftOf (s.freeWord 0), intstat := k.intstat ||| 2 } with fresh := s.fresh + 1 }) ∧
  (k.disc = 3 → k.holdAt + 1000000000 ≤ k.gtc →
    exec (.holdoverTimeout p) s = .next (s.withPkg p { k with disc := 1, outside := 0, before := 0 }))

/-! ## Regions -/

/-- Launches (R23, R26, R30, R32, R37, R53): the oldest post of a package that is not taking over is validated; a pointer that
breaks R30 (its space, its alignment, or that it does not translate) leaves the fault interrupt, or a LAUNCH's a notice
(before READY nothing is validated, as StartsAndAttestation says); a post of a live RCB changes nothing; one whose CANCEL
word is not zero takes STATE 8 and DONE 4 and becomes no node; a refused RCB takes STATE 7, its reason, and DONE 3; an accepted one stands as a
node, a partition or inner region in STATE 3 and a timetable region in STATE 2. During a takeover the work is kept.
A region whose domain, partition or parent has been stopped or cancelled since its post never starts: it takes the STATE and
DONE of that stop (`State.launchStopped`; R51, R53).
In part the model's choice: that validation writes zeros to the words 0x0D0–0x1FF, of which those from 0x110 on are no word
of R23, that a post of an RCB whose node has ended launches it again, and which launches such a stop takes (log 28); and
which reason a refusal writes where several hold (log 40). -/
def Obligations.LaunchesAreValidated : Prop := ∀ (s : State) (p : Nat) (l : Launch) (q : List Launch),
  let k := s.pkg p
  let r := p * 2 ^ 22 + k.nextRid
  k.launchQ = l :: q → k.up = true →
  (k.takeover = true → exec (.launchValidate p) s =
    .next (s.withPkg p { k with heldWork := k.heldWork ++ [.launchValidate p] })) ∧
  (k.takeover = false → spaceOf l.ptr ≠ 2 ∨ l.ptr.toNat % 512 ≠ 0 ∨ s.launchAddr p l.part l.ptr = none →
    (l.fromKey = none → exec (.launchValidate p) s =
      .next (s.withPkg p { k with launchQ := q, intstat := k.intstat ||| 1 })) ∧
    (∀ x, l.fromKey = some x → exec (.launchValidate p) s =
      .next ((s.withPkg p { k with launchQ := q }).commit (notice s (s.domainOf (keyRid x)))))) ∧
  (∀ a, k.takeover = false → spaceOf l.ptr = 2 → l.ptr.toNat % 512 = 0 → s.launchAddr p l.part l.ptr = some a →
    ((s.nodeByRcb a).isSome = true → exec (.launchValidate p) s = .next (s.withPkg p { k with launchQ := q })) ∧
    (s.nodeByRcb a = none →
    let parent := word (s.num (a + 0x18) 8)
    let par := s.parentOf p l (bits (s.num a 8) 1 0) parent
    let up := (par <|> s.deadParent p l parent).getD (0, rootNode)
    let n := s.nodeAt a l.ptr r up.1 up.2 (if l.fromKey.isSome then l.tbase else 0)
    let rest := { k with launchQ := q, nextRid := (k.nextRid + 1) % 2 ^ 22 }
    let fresh := (s.commit (rcbFresh a r)).mem
    let ended := fun (st reason done : Nat) => ∃ t, exec (.launchValidate p) s = .next t ∧ SameButErrors s t ∧
      t = { s.withPkg p rest with dies := t.dies
                                  mem := memWrite (a + 0x010) (toBytes 8 done) (memWrite (a + 0x008) (rcbState r reason st) fresh) }
    (bits (s.num (a + 0x78) 8) 63 32 ≠ 0 → ended 8 0 4) ∧
    (bits (s.num (a + 0x78) 8) 63 32 = 0 →
      (∀ x, s.launchStopped l up n = some x → ended x.1 0 x.2) ∧
      (s.launchStopped l up n = none → ∀ reason, s.refusal p l a r par n = some reason → ended 7 reason 3) ∧
      (s.launchStopped l up n = none → s.refusal p l a r par n = none → ∃ t, exec (.launchValidate p) s = .next t ∧
        t = { s with nodes := t.nodes, pkgs := t.pkgs, mem := t.mem, dies := t.dies } ∧ SameButErrors s t ∧ t.pkg p = rest ∧ (∀ x, x ≠ r → t.node x = s.node x) ∧
        (t.node r).st = (if n.kind = .timetable then 2 else 3) ∧ (t.node r).rcb = a ∧ (t.node r).part = n.part ∧
        (t.node r).parent = up.1 ∧ t.mem = memWrite (a + 0x008) (rcbState r 0 (t.node r).st) fresh))))

/-- Starts (R36–R40, R44, R45): a held region whose predecessors are done, with nothing ready ahead of it and its gang
placed on dies that are not kept for others, starts all its slots together: STATE 3, and its slots run from the TBASE; so does the first region of a dispatch
and one whose start tick has come; a failed predecessor refuses or ends it, and a late start ends it. -/
def Obligations.RegionsStart : Prop := ∀ (s : State) (r c : Nat),
  let n := s.node r
  let running := fun (t : State) (l : List Place) (tb : Nat) =>
    (t.node r).st = 3 ∧ (t.node r).placed = l ∧ (t.node r).tbase = tb ∧
    memRead t.mem (n.rcb + 0x008) 8 = rcbState r 0 3 ∧ ∀ x ∈ l,
      (t.slot (slotKey r x.pkg x.slot)).mode = .run ∧ (t.slot (slotKey r x.pkg x.slot)).rid = r ∧
      (t.slot (slotKey r x.pkg x.slot)).tbase = tb ∧ (t.slot (slotKey r x.pkg x.slot)).startAt = tb
  let ends := fun (t : State) (st done : Nat) => (t.node r).st = st ∧ (t.node r).done = done ∧ t.slots = s.slots
  s.Canon → n.kind = .timetable → (s.pkg (ridPkg r)).takeover = false → (s.pkg (ridPkg r)).up = true →
  (∀ l, n.st = 2 → n.start = 0 → (∀ d ∈ s.predsDone n, d = 1) → n.halting = false → s.outranked r = false →
    s.freePlaces r c (s.keptAhead r) = some l → ∃ t, exec (.gangStart r c) s = .next t ∧ running t l (s.soon r)) ∧
  (∀ l, n.st = 2 → n.start = 0 → n.halting = false → (∀ d ∈ s.predsDone n, d = 1) →
    (s.byRank (s.rids.filter s.ready)).head? = some r → (n.on r).contains (ridPkg r) = true →
    s.freePlaces r c = some l → ∃ t, exec (.dispatch (ridPkg r) c) s = .next t ∧ running t l (s.soon r)) ∧
  (∀ d, n.st = 2 → n.start = 0 → d ∈ s.predsDone n → 2 ≤ d → d ≤ 4 →
    ∃ t, exec (.gangStart r c) s = .next t ∧ ends t 7 3 ∧ memRead t.mem (n.rcb + 0x010) 8 = toBytes 8 3) ∧
  (∀ l, s.startTickDue r = true → (∀ d ∈ s.predsDone n, d = 1) →
    let s' := s.apply (.node r fun n => { n with due := true, readyAt := s.nodeTick r })
    s'.outranked r = false → s'.freePlaces r c (s'.keptAhead r) = some l →
    s.gangTick r ≤ n.start + 1 → s.gangTick r ≤ n.start + n.tguard →
    ∃ t, exec (.startTick r c) s = .next t ∧ running t l n.start) ∧
  (s.startTickDue r = true → (∃ d ∈ s.predsDone n, d ≠ 1) → ∃ t, exec (.startTick r c) s = .next t ∧ ends t 6 2) ∧
  (s.startTickDue r = true → n.start + n.tguard < s.gangTick r → ∃ t, exec (.startTick r c) s = .next t ∧ ends t 6 2) ∧
  (s.startLateDue r = true → ∃ t, exec (.startLate r) s = .next t ∧ ends t 6 2)

/-- Contracts and quanta (R42–R44): a period start gives a fresh deadline, goes on with the activation of each region under
the contract and begins one of each that is suspended, and of none that has never started; an exhausted budget and a missed deadline are counted in the RCB; an expired quantum orders the stop at
the next elastic point when a region of the band waits for a die of its own, and else begins again. The model's choice
(log 29): an exhausted activation that takes the next budget is a contract again, and the stop of a quantum has no tick
before its elastic point. -/
def Obligations.ContractsAndQuanta : Prop := ∀ (s : State) (r : Nat), s.Canon → (s.pkg (ridPkg r)).takeover = false →
  (s.pkg (ridPkg r)).up = true →
  let n := s.node r
  (s.periodDue r = true → ∃ t, exec (.periodStart r) s = .next t ∧ t = { s with nodes := t.nodes } ∧
    (t.node r).nextAt = n.nextAt + n.period ∧ (t.node r).dueAt = n.nextAt + n.deadline ∧
    ((∀ v ∈ s.under r, (s.node v).active = false) → (t.node r).used = []) ∧
    ∀ v ∈ s.under r,
      ((s.node v).active = true ∨ (s.node v).st = 4 →
        (t.node v).active = true ∧ (t.node v).spent = false ∧ (t.node v).missed = false) ∧
      ((s.node v).active = false → (s.node v).st = 4 → (t.node v).newAct = true) ∧
      ((s.node v).active = false → (s.node v).st ≠ 4 → (t.node v).active = false)) ∧
  (s.budgetDue r = true → ∃ t, exec (.budgetExhausted r) s = .next t ∧
    t = { s with nodes := t.nodes, mem := memWrite (n.rcb + 0x100) (toBytes 4 ((n.bover + 1) % 2 ^ 32)) s.mem, dies := t.dies } ∧
    SameButErrors s t ∧
    t.node r = { n with spent := true, bover := (n.bover + 1) % 2 ^ 32, quantumAt := s.nodeTick r }) ∧
  (s.deadlineDue r = true → ∃ t, exec (.deadlineMiss r) s = .next t ∧ (t.node r).missed = true ∧
    (t.node r).dmiss = (n.dmiss + 1) % 2 ^ 32 ∧ (t.node r).st = n.st ∧ t.slots = s.slots) ∧
  (s.quantumDue r = true →
    let waits := ∃ v ∈ s.rids, v ≠ r ∧ s.ready v = true ∧ s.wants v r = true ∧ s.preempts r v = false
    let becomes := fun (m : Node) => exec (.quantumExpiry r) s = .next { s with nodes := mput r m s.nodes }
    (waits → becomes { n with stopping := some (s.soon r), expired := true }) ∧
    (¬ waits → becomes { n with quantumAt := s.nodeTick r }))

/-- Stops, resumption, ends (R33, R34, R46, R53, R252, R253): the last slot that stops leaves the region pre-empted; a
window at its limit forces the stop; a pre-empted region that is placed where it was resumes with its TBASE moved by the
pre-emption's length; a region whose slots have ended takes STATE 5 and DONE 1 and frees what it held; a cancellation
stops what runs, ends what waits, and completes with STATE 8 and DONE 4. In part the model's choice (log 30): after DONE the
registers stand in the slots' records as they were, for R33 frees budgets alone and the worked programs give registers after
the end (R431, R433, R435, R443). -/
def Obligations.RegionsStop : Prop := ∀ (s : State) (r : Nat), s.Canon →
  let n := s.node r
  let works := (s.pkg (ridPkg r)).takeover = false ∧ (s.pkg (ridPkg r)).up = true
  (∀ x, n.placed = [x] → n.st = 3 → n.halting = false →
    let k := slotKey r x.pkg x.slot
    let c := s.slot k
    works → c.mode = .run → c.land = [] → s.defers r n = false → s.stopsNow n k = true →
    ∃ t, exec (.preemptStop r) s = .next t ∧ (t.node r).st = 4 ∧ (t.node r).stopping = none ∧
      (t.slot k).mode = .stopped ∧ (t.slot k).pc = c.pc ∧ SameRegisters c (t.slot k) ∧ (t.die c.die).run = none ∧
      k ∈ (t.die c.die).shadow ∧ memRead t.mem (n.rcb + 0x008) 8 = rcbState r 0 4) ∧
  (s.overrunDue r = true → works → ∃ t, exec (.windowOverrun r) s = .next t ∧
    (t.node r).forced = true ∧ (t.node r).wover = (n.wover + 1) % 2 ^ 32 ∧ (t.node r).stopping = n.stopping ∧
    t.slots = s.slots) ∧
  (∀ x c, n.kind = .timetable → n.st = 4 → s.ready r = true → s.outranked r = false → s.freePlaces r c (s.keptAhead r) = some [x] →
    works → n.newAct = false → (s.slot (slotKey r x.pkg x.slot)).phys = x.phys →
    (s.slot (slotKey r x.pkg x.slot)).mode = .stopped →
    ∃ t, exec (.resume r c) s = .next t ∧ (t.node r).st = 3 ∧ (t.node r).tbase = n.tbase + (s.soon r - n.stopTick) ∧
      (t.slot (slotKey r x.pkg x.slot)).mode = .run ∧
      (t.slot (slotKey r x.pkg x.slot)).tbase = (s.slot (slotKey r x.pkg x.slot)).tbase + (s.soon r - n.stopTick) ∧
      SameRegisters (s.slot (slotKey r x.pkg x.slot)) (t.slot (slotKey r x.pkg x.slot)) ∧
      (t.die (dieId x.pkg x.phys)).run = some (slotKey r x.pkg x.slot)) ∧
  (s.doneDue r = true → n.st = 3 → works → ∃ t, exec (.regionDone r) s = .next t ∧
    (t.node r).st = 5 ∧ (t.node r).done = 1 ∧ (t.node r).placed = [] ∧ (∀ k ∈ n.keys r, t.slot k = (s.slot k).release ∧ SameRegisters (s.slot k) (t.slot k)) ∧
    memRead t.mem (n.rcb + 0x010) 8 = toBytes 8 1) ∧
  (s.cancelSeen r = true → works → ∃ t, exec (.cancelObserved r) s = .next t ∧
    ∀ v ∈ s.cancelled r,
      ((s.node v).kind = .timetable → (s.node v).st ≤ 2 → (t.node v).st = 8 ∧ (t.node v).done = 4) ∧
      ((s.node v).kind = .timetable → 3 ≤ (s.node v).st → (t.node v).cancel = true ∧ (t.node v).halting = true) ∧
      ((s.node v).kind ≠ .timetable → (t.node v).cancel = true)) ∧
  (s.cancelDue r = true → works → ∃ t, exec (.cancelComplete r) s = .next t ∧
    (t.node r).st = 8 ∧ (t.node r).done = 4 ∧ memRead t.mem (n.rcb + 0x010) 8 = toBytes 8 4)

/-! ## V slots: the other values -/

/-- Values of the other V-slot computations, and of the floating-point types (R107–R123, R148–R154, R389–R423): a
floating-point result is the exact one (sums and products lose nothing) rounded once, and a finite code rounds to itself;
shifts; VCMP; conversions; VDOT; VPERM; VRED, SCAN and VAMAX, which go in element order; SELK and SORTK of integers;
VQUANT's codes and exponents; the special functions, of which a rounded result moves by at most two codes, VSQRT's by
none. An instruction of which no element is enabled sets no flag. -/
def Obligations.VectorComputations : Prop := ∀ (f : VF) (o : VOps) (c : Ctx), f.long = none → f.ty.toNat ≤ 14 →
  o.a.length = f.span →
  let w := wOf f
  let ty := f.ty.toNat
  let int := isIntTy ty
  let z := intVal ty
  let t := ffmt ty
  let n := nOf f
  let a := elemsOf w o.a
  let b := elemsOf w o.b
  let rd := t.read o.ftz
  let rnd := fun v => (t.round 0 o.ftz v).1
  let els := fun (i : Instr) => elemsOf w (vresult i o c).vals
  let op := f.c.toNat % 4
  let sel := ((a.zipIdx.filter fun x => maskBit o.km x.2).map (·.1))
  let first : Nat := if op = 0 then 0 else if int then wrap w (if op = 1 then tyMin ty else tyMax ty)
    else t.signed (op == 1) (t.maxCode + 1)
  let comb := fun (x y : Nat) =>
    if int then wrap w (if op = 0 then z x + z y else if op = 1 then max (z x) (z y) else min (z x) (z y))
    else if op = 0 then rnd ((rd x).add (rd y)).1 else (t.round 0 false (FVal.minmax (op == 1) (rd x) (rd y)).1).1
  (f.fm = 0 → ty ≤ 4 → o.b.length = f.span →
    els (.vadd f) = List.zipWith (fun x y => rnd ((rd x).add (rd y)).1) a b ∧
    els (.vsub f) = List.zipWith (fun x y => rnd ((rd x).add (rd y).neg).1) a b ∧
    els (.vmul f) = List.zipWith (fun x y => rnd ((rd x).mul (rd y)).1) a b ∧
    els (.vmin f) = List.zipWith (fun x y => (t.round 0 false (FVal.minmax false (rd x) (rd y)).1).1) a b ∧
    els (.vmax f) = List.zipWith (fun x y => (t.round 0 false (FVal.minmax true (rd x) (rd y)).1).1) a b ∧
    els (.vabs f) = a.map (fun x => (t.round 0 false (rd x).abs).1) ∧
    els (.vneg f) = a.map (fun x => (t.round 0 false (rd x).neg).1) ∧
    (o.c.length = f.span → ∀ e < n,
      let x := rd (a.getD e 0)
      let y := rd (b.getD e 0)
      let q := rd ((elemsOf w o.c).getD e 0)
      (els (.vfma f)).getD e 0 = rnd (x.fma y q).1 ∧ (els (.vfms f)).getD e 0 = rnd (x.fma y q.neg).1)) ∧
  ((∀ na ma ea nb mb eb, ∃ n' m', ((FVal.fin na ma ea).add (.fin nb mb eb)).1 = .fin n' m' (min ea eb) ∧
      ∀ k, k ≤ ea → k ≤ eb → scaled n' m' (min ea eb) k = scaled na ma ea k + scaled nb mb eb k) ∧
    (∀ na ma ea nb mb eb, ∃ n' m', ((FVal.fin na ma ea).mul (.fin nb mb eb)).1 = .fin n' m' (ea + eb) ∧
      ∀ j ≤ ea, ∀ k ≤ eb, scaled n' m' (ea + eb) (j + k) = scaled na ma ea j * scaled nb mb eb k) ∧
    (∀ x < 2 ^ w, ∀ mode, ty ≤ 4 → (t.val x).isNan = false → t.round mode false (t.val x) = (x, 0))) ∧
  (f.fm = 0 → int = true → o.b.length = f.span →
    let m := fun (y : Nat) => if w = 4 then y % 16 else y % 256
    els (.vshl f) = List.zipWith (fun x y => x * 2 ^ m y % 2 ^ w) a b ∧
    els (.vshr f) = List.zipWith (fun x y => x / 2 ^ m y) a b ∧
    els (.vsra f) = List.zipWith (fun x y => wrap w (signed w x / 2 ^ m y)) a b) ∧
  (o.b.length = f.span → n ≤ 1024 → ∃ m en, (vresult (.vcmp f) o c).mask = some (f.d.toNat % 16, m, en) ∧
    ∀ e < 1024, en.getLsbD e = (decide (n ≤ e) || o.km.getLsbD e) ∧
      (n ≤ e → m.getLsbD e = false) ∧
      (e < n →
        let rel := fun (d : Int) => [d == 0, d != 0, d < 0, d ≤ 0, 0 < d, 0 ≤ d].getD (f.c.toNat % 16) false
        let x := a.getD e 0
        let y := b.getD e 0
        (int = true → m.getLsbD e = rel (z x - z y)) ∧
        (int = false → ((rd x).isNan || (rd y).isNan) = true →
          m.getLsbD e = (f.c.toNat % 16 == 1 || f.c.toNat % 16 == 6)) ∧
        (int = false → ((rd x).isNan || (rd y).isNan) = false → m.getLsbD e = rel ((rd x).cmp (rd y))))) ∧
  (f.dst ≤ 14 →
    let wd := width f.dst
    let conv := fun (x : Nat) =>
      if int then
        if isIntTy f.dst then wrap wd (if f.cvtSat then max (tyMin f.dst) (min (tyMax f.dst) (z x)) else z x)
        else ((ffmt f.dst).round f.rmode o.ftz (ofIntVal (z x))).1
      else if isIntTy f.dst then
        match rd x with
        | .nan _ => 0
        | .inf neg => wrap wd (if neg then tyMin f.dst else tyMax f.dst)
        | .fin neg m e => wrap wd (max (tyMin f.dst) (min (tyMax f.dst) (FVal.toInt f.rmode neg m e).1))
      else ((ffmt f.dst).round f.rmode o.ftz (rd x)).1
    let gives := fun (i : Instr) => ∀ e < n, (elemsOf wd (vresult i o c).vals).getD e 0 = conv (a.getD e 0)
    (wd = w → gives (.vcvt f)) ∧ (wd = 2 * w ∨ wd = 4 * w → gives (.vwid f)) ∧
    (w = 2 * wd ∨ w = 4 * wd → w / wd ≤ f.span → gives (.vnar f))) ∧
  (o.b.length = f.span → o.c.length = f.span → ∀ j < f.span * 128,
    let g := 32 / w
    let cj := (elemsOf 32 o.c).getD j 0
    let d := (elemsOf 32 (vresult (.vdot f) o c).vals).getD j 0
    (int = true → w ≤ 16 → d = wrap 32 (signed 32 cj +
      ((List.range g).map fun i => z (a.getD (g * j + i) 0) * z (b.getD (g * j + i) 0)).sum)) ∧
    (1 ≤ ty → ty ≤ 4 → d = ((ffmt 0).round 0 o.ftz ((List.range g).foldl (fun v i =>
      (v.add ((rd (a.getD (g * j + i) 0)).mul (rd (b.getD (g * j + i) 0))).1).1) ((ffmt 0).read o.ftz cj))).1)) ∧
  (n ≤ 4096 → o.b.length = (n + 255) / 256 → els (.vperm f) = (List.range n).map fun e =>
    let x := (elemsOf 16 o.b).getD e 0
    if x < n then a.getD x 0 else 0) ∧
  ((int = true ∨ ty ≤ 2) →
    ((els (.vred f)).getD 0 0 = sel.foldl comb first ∧ ∀ e, 0 < e → (els (.vred f)).getD e 0 = 0) ∧
    (∀ e < n,
      let starts := e = 0 ∨ (f.c.getLsbD 3 = true ∧ maskBit o.km e = true)
      let r := els (.scan f)
      (f.c.getLsbD 2 = false → r.getD e 0 = comb (if starts then first else r.getD (e - 1) 0) (a.getD e 0)) ∧
      (f.c.getLsbD 2 = true →
        r.getD e 0 = if starts then first else comb (r.getD (e - 1) 0) (a.getD (e - 1) 0)))) ∧
  (ty ≤ 4 →
    let d := (elemsOf 32 (vresult (.vamax f) o c).vals).getD 0 0
    let xs := sel.map rd
    (xs.any FVal.isNan = true → d = 0x7FC00000) ∧
    (xs.any FVal.isNan = false → ∃ m, (m = .fin false 0 0 ∨ ∃ x ∈ xs, m = x.abs) ∧ d = ((ffmt 0).round 0 false m).1 ∧
      ∀ x ∈ xs, x.abs.cmp m ≤ 0)) ∧
  (int = true → 0 < f.selR → f.selK ≤ f.selR →
    let r := vresult (.selk f) o c
    ∃ picks : Nat → List Nat, (∀ j < n / f.selR,
      let x := fun row => z (a.getD (j * f.selR + row) 0)
      let ahead := fun p q => x q < x p ∨ (x q = x p ∧ p < q)
      (picks j).length = f.selK ∧ (∀ p ∈ picks j, p < f.selR) ∧ (picks j).Pairwise ahead ∧
      (∀ q < f.selR, q ∉ picks j → ∀ p ∈ picks j, ahead p q) ∧
      ∀ i < f.selK, (elemsOf 16 r.vals).getD (j * f.selK + i) 0 = (picks j).getD i 0) ∧
      ∃ m, r.mask = some (f.km.toNat, m, BitVec.allOnes 1024) ∧
        ∀ e < 1024, m.getLsbD e = decide (e / f.selR < n / f.selR ∧ e % f.selR ∈ picks (e / f.selR))) ∧
  (int = true → o.b.length = f.span → 0 < f.sortG → f.sortG ∣ n → ∀ g < n / f.sortG,
    let v := (vresult (.sortk f) o c).vals
    let group := fun (keys rest : List Nat) => ((keys.zip rest).drop (g * f.sortG)).take f.sortG
    let out := group (elemsOf w (v.take f.span)) (elemsOf w (v.drop f.span))
    out.Perm (group a b) ∧
    out.Pairwise (fun p q => if f.c.getLsbD 4 then z q.1 ≤ z p.1 else z p.1 ≤ z q.1) ∧
    ∀ key : Nat, (out.filter fun p => p.1 == key) = (group a b).filter fun p => p.1 == key) ∧
  (let fmt := (o.tid.extractLsb' 256 5).toNat
   let v := (vresult (.vquant f) o c).vals
   let r := quantRegs f fmt
   ty ≤ 2 → 16 ≤ fmt → fmt ≤ 18 → n ≤ 4096 → ∀ j < n / 32,
    let q := kbQuant (fmt - 16) (o.tid.extractLsb' 280 4).toNat ((List.range 32).map fun i => rd (a.getD (32 * j + i) 0))
    (elemsOf 8 (v.drop (r.1 + r.2.1))).getD (2 * j) 0 = q.1 ∧
    (elemsOf 8 (v.drop (r.1 + r.2.1))).getD (2 * j + 1) 0 = q.2.1 ∧
    ∀ i < 32,
      let code := q.2.2.1.getD i 0
      (fmt = 18 → (elemsOf 8 (v.take r.1)).getD (32 * j + i) 0 = code) ∧
      (fmt = 16 → (elemsOf 4 (v.take r.1)).getD (32 * j + i) 0 = code) ∧
      (fmt = 17 → (elemsOf 4 (v.take r.1)).getD (32 * j + i) 0 = code / 4 ∧
        (elemsOf 2 ((v.drop r.1).take r.2.1)).getD (32 * j + i) 0 = code % 4)) ∧
  (∀ k gap (xs : List FVal), k < 3 →
    let q := kbQuant k gap xs
    (xs.any FVal.isNan = true → q.1 = 255 ∧ q.2.1 = 255 ∧ q.2.2.1 = xs.map fun _ => 0) ∧
    (xs.any FVal.isNan = false → q.1 ≤ 254 ∧ q.2.1 = q.1 - (if gap = 0 then kbW k else gap) ∧
      ∀ i < xs.length,
        let x := xs.getD i (.nan false)
        let code := q.2.2.1.getD i 0
        bit code (kbW k + 1) = x.isNeg ∧
        (kbMag (kbW k) q.2.1 x < 2 ^ kbW k → bit code (kbW k) = true ∧ code % 2 ^ kbW k = kbMag (kbW k) q.2.1 x) ∧
        (2 ^ kbW k ≤ kbMag (kbW k) q.2.1 x → bit code (kbW k) = false ∧
          code % 2 ^ kbW k = min (kbMag (kbW k) q.1 x) (2 ^ kbW k - 1)))) ∧
  (ty ≤ 2 → ∀ x ∈ [(Instr.vexp2 f, SfOp.exp2), (.vlog2 f, .log2), (.vrcp f, .rcp), (.vrsq f, .rsq), (.vsqrt f, .sqrt),
      (.vtanh f, .tanh)], els x.1 = a.map fun y => (special x.2 ty o.ftz y).1) ∧
  ((∀ op y sig, sfF32 op y (.nan sig) = (0x7FC00000, if sig then 16 else 0)) ∧
    (∀ y neg e, sfF32 .exp2 y (.fin neg 0 e) = (0x3F800000, 0) ∧ sfF32 .log2 y (.fin neg 0 e) = (0xFF800000, 8) ∧
      sfF32 .rcp y (.fin neg 0 e) = (if neg then 0xFF800000 else 0x7F800000, 8) ∧
      sfF32 .rsq y (.fin neg 0 e) = (if neg then 0xFF800000 else 0x7F800000, 8) ∧
      sfF32 .sqrt y (.fin neg 0 e) = (if neg then 0x80000000 else 0, 0) ∧
      sfF32 .tanh y (.fin neg 0 e) = (if neg then 0x80000000 else 0, 0)) ∧
    (∀ y m e, 0 < m → ∀ op ∈ [SfOp.log2, .rsq, .sqrt], sfF32 op y (.fin true m e) = (0x7FC00000, 16)) ∧
    (∀ y neg, sfF32 .exp2 y (.inf neg) = (if neg then 0 else 0x7F800000, 0) ∧
      sfF32 .rcp y (.inf neg) = (if neg then 0x80000000 else 0, 0) ∧
      sfF32 .tanh y (.inf neg) = (if neg then 0xBF800000 else 0x3F800000, 0)) ∧
    (∀ op y v exact, let d : Int := ((sfRound op y v exact).1 : Int) - ((ffmt 0).round 0 false v).1
      d.natAbs ≤ 2 ∧ (exact = true ∨ op = .sqrt → d = 0)) ∧
    (∀ y, isqrt y * isqrt y ≤ y ∧ y < (isqrt y + 1) * (isqrt y + 1))) ∧
  (o.km = 0 → ∀ i ∈ [Instr.vadd f, .vsub f, .vmul f, .vmin f, .vmax f, .vabs f, .vneg f, .vfma f, .vfms f, .vcvt f,
      .vwid f, .vnar f, .vdot f, .vred f, .vamax f, .vcmp f, .vexp2 f, .vlog2 f, .vrcp f, .vrsq f, .vsqrt f, .vtanh f],
    (vresult i o c).flags = 0)
end

