-- ==== Sys2Proof/Laws/Codec.lean ====
section
/-! SUPPORT. The field maps, the bytes of a record and the numbers of an event read back what was written, in both
directions. -/

namespace Sys2Proof

/-! ## Field maps -/

theorem opc_packS (o : BitVec 8) (f : SF) : (packS o f).extractLsb' 0 8 = o := by
  simp (disch := decide) only [packS, BitVec.extractLsb'_append_eq_of_add_le, BitVec.extractLsb'_eq_self]
theorem unpackS_packS (o : BitVec 8) (f : SF) : unpackS (packS o f) f.long = f := by
  simp (disch := decide) only [unpackS, packS, BitVec.extractLsb'_append_eq_of_le,
    BitVec.extractLsb'_append_eq_of_add_le, Nat.sub_self, BitVec.extractLsb'_eq_self]
theorem packS_unpackS (w : Word) (l : Option Word) : packS (w.extractLsb' 0 8) (unpackS w l) = w := by
  simp only [unpackS, packS]
  ext i hi
  simp only [BitVec.getElem_append, BitVec.getElem_extractLsb']
  repeat' split
  all_goals (rw [← BitVec.getLsbD_eq_getElem]; congr 1; omega)

theorem opc_packV (o : BitVec 8) (f : VF) : (packV o f).extractLsb' 0 8 = o := by
  simp (disch := decide) only [packV, BitVec.extractLsb'_append_eq_of_add_le, BitVec.extractLsb'_eq_self]
theorem unpackV_packV (o : BitVec 8) (f : VF) : unpackV (packV o f) f.v1 f.long = f := by
  simp (disch := decide) only [unpackV, packV, BitVec.extractLsb'_append_eq_of_le,
    BitVec.extractLsb'_append_eq_of_add_le, Nat.sub_self, BitVec.extractLsb'_eq_self]
theorem packV_unpackV (w : Word) (v1 : Bool) (l : Option Word) : packV (w.extractLsb' 0 8) (unpackV w v1 l) = w := by
  simp only [unpackV, packV]
  ext i hi
  simp only [BitVec.getElem_append, BitVec.getElem_extractLsb']
  repeat' split
  all_goals (rw [← BitVec.getLsbD_eq_getElem]; congr 1; omega)

theorem opc_packM (o : BitVec 8) (f : MF) : (packM o f).extractLsb' 0 8 = o := by
  simp (disch := decide) only [packM, BitVec.extractLsb'_append_eq_of_add_le, BitVec.extractLsb'_eq_self]
theorem unpackM_packM (o : BitVec 8) (f : MF) : unpackM (packM o f) f.long = f := by
  simp (disch := decide) only [unpackM, packM, BitVec.extractLsb'_append_eq_of_le,
    BitVec.extractLsb'_append_eq_of_add_le, Nat.sub_self, BitVec.extractLsb'_eq_self]
theorem packM_unpackM (w : Word) (l : Option Word) : packM (w.extractLsb' 0 8) (unpackM w l) = w := by
  simp only [unpackM, packM]
  ext i hi
  simp only [BitVec.getElem_append, BitVec.getElem_extractLsb']
  repeat' split
  all_goals (rw [← BitVec.getLsbD_eq_getElem]; congr 1; omega)

theorem opc_packC (o : BitVec 8) (f : CF) : (packC o f).extractLsb' 0 8 = o := by
  simp (disch := decide) only [packC, BitVec.extractLsb'_append_eq_of_add_le, BitVec.extractLsb'_eq_self]
theorem unpackC_packC (o : BitVec 8) (f : CF) : unpackC (packC o f) f.c1 f.long = f := by
  simp (disch := decide) only [unpackC, packC, BitVec.extractLsb'_append_eq_of_le,
    BitVec.extractLsb'_append_eq_of_add_le, Nat.sub_self, BitVec.extractLsb'_eq_self]
theorem packC_unpackC (w : Word) (c1 : Bool) (l : Option Word) : packC (w.extractLsb' 0 8) (unpackC w c1 l) = w := by
  simp only [unpackC, packC]
  ext i hi
  simp only [BitVec.getElem_append, BitVec.getElem_extractLsb']
  repeat' split
  all_goals (rw [← BitVec.getLsbD_eq_getElem]; congr 1; omega)

theorem opc_packX (o : BitVec 4) (f : XF) : (packX o f).extractLsb' 0 4 = o := by
  simp (disch := decide) only [packX, BitVec.extractLsb'_append_eq_of_add_le, BitVec.extractLsb'_eq_self]
theorem unpackX_packX (o : BitVec 4) (f : XF) : unpackX (packX o f) = f := by
  simp (disch := decide) only [unpackX, packX, BitVec.extractLsb'_append_eq_of_le,
    BitVec.extractLsb'_append_eq_of_add_le, Nat.sub_self, BitVec.extractLsb'_eq_self]
theorem packX_unpackX (w : BitVec 32) : packX (w.extractLsb' 0 4) (unpackX w) = w := by
  simp only [unpackX, packX]
  ext i hi
  simp only [BitVec.getElem_append, BitVec.getElem_extractLsb']
  repeat' split
  all_goals (rw [← BitVec.getLsbD_eq_getElem]; congr 1; omega)

/-! ## Bytes -/

@[simp] theorem bytesOfNat_length : ∀ (n x : Nat), (bytesOfNat n x).length = n
  | 0, _ => rfl
  | n + 1, x => by simp [bytesOfNat, bytesOfNat_length n]
/-- A number of `n` bytes read back. -/
theorem natOfBytes_bytesOfNat : ∀ (n x : Nat), x < 256 ^ n → natOfBytes (bytesOfNat n x) = x
  | 0, x, h => by simp at h; simp [bytesOfNat, natOfBytes, h]
  | n + 1, x, h => by
    have : x / 256 < 256 ^ n := Nat.div_lt_of_lt_mul (by rw [Nat.pow_succ, Nat.mul_comm] at h; exact h)
    simp only [bytesOfNat, natOfBytes, natOfBytes_bytesOfNat n _ this, BitVec.toNat_ofNat]
    omega
theorem natOfBytes_lt : ∀ (l : List Byte), natOfBytes l < 256 ^ l.length
  | [] => by simp [natOfBytes]
  | b :: l => by
    have h := natOfBytes_lt l
    have hb := b.isLt
    simp only [natOfBytes, List.length_cons, Nat.pow_succ]
    omega
/-- The bytes of the number that they spell. -/
theorem bytesOfNat_natOfBytes : ∀ (l : List Byte), bytesOfNat l.length (natOfBytes l) = l
  | [] => rfl
  | b :: l => by
    have hb := b.isLt
    have h1 : (b.toNat + 256 * natOfBytes l) / 256 = natOfBytes l := by omega
    have h2 : BitVec.ofNat 8 (b.toNat + 256 * natOfBytes l) = b := by
      apply BitVec.eq_of_toNat_eq
      rw [BitVec.toNat_ofNat]
      omega
    simp only [List.length_cons, bytesOfNat, natOfBytes, h1, h2, bytesOfNat_natOfBytes l]

/-! ## The numbers of an event -/

@[simp] theorem u64Bytes_length : ∀ (l : List Nat), (u64Bytes l).length = 8 * l.length
  | [] => rfl
  | n :: l => by simp [u64Bytes, u64Bytes_length l]; omega
theorem readU64s_u64Bytes : ∀ (l : List Nat) (rest : List Byte), (∀ x ∈ l, x < 2 ^ 64) →
    readU64s l.length (u64Bytes l ++ rest) = some (l, rest)
  | [], rest, _ => rfl
  | n :: l, rest, h => by
    have hn : n < 256 ^ 8 := h n (by simp)
    have hl := readU64s_u64Bytes l rest fun x hx => h x (by simp [hx])
    have hlen : (bytesOfNat 8 n).length = 8 := bytesOfNat_length 8 n
    simp only [u64Bytes, List.append_assoc, List.length_cons, readU64s]
    rw [if_neg (by simp), List.drop_left' hlen, List.take_left' hlen, hl, natOfBytes_bytesOfNat 8 n hn]
    rfl
theorem u64Bytes_readU64s : ∀ (k : Nat) (bs : List Byte) (l : List Nat) (rest : List Byte),
    readU64s k bs = some (l, rest) → l.length = k ∧ bs = u64Bytes l ++ rest ∧ ∀ x ∈ l, x < 2 ^ 64
  | 0, bs, l, rest, h => by
    simp only [readU64s, Option.some.injEq, Prod.mk.injEq] at h
    obtain ⟨rfl, rfl⟩ := h
    simp [u64Bytes]
  | k + 1, bs, l, rest, h => by
    simp only [readU64s] at h
    split at h
    · exact absurd h (by simp)
    · rename_i hlen
      obtain ⟨⟨l', rest'⟩, h', he⟩ := Option.map_eq_some_iff.mp h
      simp only [Prod.mk.injEq] at he
      obtain ⟨rfl, rfl⟩ := he
      obtain ⟨h1, h2, h3⟩ := u64Bytes_readU64s k _ _ _ h'
      have ht : (bs.take 8).length = 8 := by simp; omega
      have hb := bytesOfNat_natOfBytes (bs.take 8)
      have hlt := natOfBytes_lt (bs.take 8)
      rw [ht] at hb hlt
      refine ⟨by simp [h1], ?_, ?_⟩
      · rw [u64Bytes, hb, List.append_assoc, ← h2, List.take_append_drop]
      · intro x hx
        rcases List.mem_cons.mp hx with rfl | hx
        · exact hlt
        · exact h3 x hx

/-! ## Records -/

/-- A slot record decodes as its field does. -/
theorem decode_slotRecord (tag w : Nat) (long : Option Word) (rest : List Byte) (ht : tag < 8) (hw : w < 2 ^ 64) :
    decode (slotRecord tag w long ++ rest) = (decodeField tag w long).map fun i => (i, rest) := by
  have htag : tag % 256 = tag := by omega
  have hw' : w < 256 ^ 8 := hw
  have e1 : ∀ b c : List Byte, b.length = 8 → c.length = 8 → (b ++ (c ++ rest)).take 8 = b := fun b c hb _ =>
    List.take_left' hb
  have e2 : ∀ b c : List Byte, b.length = 8 → c.length = 8 → ((b ++ (c ++ rest)).drop 8).take 8 = c := fun b c hb hc => by
    rw [List.drop_left' hb, List.take_left' hc]
  have e3 : ∀ b c : List Byte, b.length = 8 → c.length = 8 → (b ++ (c ++ rest)).drop 16 = rest := fun b c hb hc => by
    rw [show (16 : Nat) = 8 + 8 from rfl, ← List.drop_drop, List.drop_left' hb, List.drop_left' hc]
  have hb : (bytesOfNat 8 w).length = 8 := bytesOfNat_length ..
  have hi : (bytesOfNat 8 (long.getD 0).toNat).length = 8 := bytesOfNat_length ..
  have hl : (long.getD 0).toNat < 256 ^ 8 := (long.getD 0).isLt
  simp only [slotRecord, decode, List.cons_append, List.append_assoc, beq_iff_eq,
    List.length_append, hb, hi, e1 _ _ hb hi, e2 _ _ hb hi, e3 _ _ hb hi, natOfBytes_bytesOfNat 8 _ hw',
    natOfBytes_bytesOfNat 8 _ hl, BitVec.toNat_ofNat]
  rw [if_neg (by bv_omega), if_neg (by omega)]
  cases long with
  | none => simp [htag]; cases decodeField tag w none <;> rfl
  | some x => simp [htag]; cases decodeField tag w (some x) <;> rfl

/-- An event record decodes to its event. -/
theorem decode_eventRecord (row : Nat) (args : List Nat) (i : Instr) (rest : List Byte) (hr : row < 65536)
    (hn : args.length < 256) (ha : ∀ x ∈ args, x < 2 ^ 64) (hi : eventOf row args = some i) (hw : i.wf = true) :
    decode (8 :: (bytesOfNat 2 row ++ (BitVec.ofNat 8 args.length :: u64Bytes args)) ++ rest) = .ok (i, rest) := by
  have hrow : natOfBytes (bytesOfNat 2 row) = row := natOfBytes_bytesOfNat 2 row hr
  have hlen : args.length % 256 = args.length := by omega
  simp only [bytesOfNat] at hrow
  simp [decode, bytesOfNat, hlen, readU64s_u64Bytes args rest ha, hrow, hi, hw]

end Sys2Proof
end

