-- ==== Sys2Proof/Laws/Maps.lean ====
section
/-! SUPPORT. Sparse maps and memory: a read after a write, and that every operation keeps the canonical form. -/

namespace Sys2Proof.Machine

variable {β : Type}

/-! ## Sparse maps -/

@[simp] theorem mfind_nil (k : Nat) : mfind k ([] : SMap β) = none := rfl

@[simp] theorem mfind_mput_same (k : Nat) (v : β) (m : SMap β) : mfind k (mput k v m) = some v := by
  induction m with
  | nil => simp [mput, mfind]
  | cons e m ih =>
    obtain ⟨j, w⟩ := e
    by_cases h : j = k
    · simp [mput, mfind, h]
    · by_cases h' : j < k <;> simp [mput, mfind, h, h', ih]

theorem mfind_mput_ne {k k' : Nat} (h : k' ≠ k) (v : β) (m : SMap β) : mfind k' (mput k v m) = mfind k' m := by
  induction m with
  | nil =>
    have : ¬ k = k' := fun e => h e.symm
    simp [mput, mfind, this]
  | cons e m ih =>
    obtain ⟨j, w⟩ := e
    have hk : ¬ k = k' := fun e => h e.symm
    by_cases h1 : j = k
    · subst h1; simp [mput, mfind, hk]
    · by_cases h2 : j < k
      · simp only [mput, mfind, beq_iff_eq, h1, h2, if_true, if_false, ih]
      · simp only [mput, mfind, beq_iff_eq, h1, h2, if_false, hk]
        by_cases h3 : k < k'
        · simp [h3]
        · have : ¬ j = k' := by omega
          have : ¬ j < k' := by omega
          simp [*]

@[simp] theorem mget_nil (k : Nat) (d : β) : mget ([] : SMap β) k d = d := rfl
@[simp] theorem mget_mput_same (k : Nat) (v d : β) (m : SMap β) : mget (mput k v m) k d = v := by simp [mget]
theorem mget_mput_ne {k k' : Nat} (h : k' ≠ k) (v d : β) (m : SMap β) : mget (mput k v m) k' d = mget m k' d := by
  simp [mget, mfind_mput_ne h]
/-- A value read after a change of any key. -/
theorem mget_mput (k k' : Nat) (v d : β) (m : SMap β) :
    mget (mput k v m) k' d = if k' = k then v else mget m k' d := by
  by_cases h : k' = k
  · subst h; simp
  · simp [h, mget_mput_ne h]
@[simp] theorem mget_mmod_same (m : SMap β) (k : Nat) (d : β) (f : β → β) : mget (mmod m k d f) k d = f (mget m k d) := by
  simp [mmod]
theorem mget_mmod_ne {k k' : Nat} (h : k' ≠ k) (m : SMap β) (d d' : β) (f : β → β) :
    mget (mmod m k d f) k' d' = mget m k' d' := by simp [mmod, mget_mput_ne h]
theorem mget_mmod (m : SMap β) (k k' : Nat) (d : β) (f : β → β) :
    mget (mmod m k d f) k' d = if k' = k then f (mget m k d) else mget m k' d := by simp [mmod, mget_mput]

theorem keysFrom_mono {lo lo' : Nat} (h : lo' ≤ lo) : ∀ {m : SMap β}, keysFrom lo m = true → keysFrom lo' m = true
  | [], _ => rfl
  | (k, v) :: m, hm => by
    simp only [keysFrom, Bool.and_eq_true, decide_eq_true_eq] at hm ⊢
    exact ⟨by omega, hm.2⟩

theorem keysFrom_mput {lo k : Nat} (v : β) (h : lo ≤ k) : ∀ {m : SMap β}, keysFrom lo m = true → keysFrom lo (mput k v m) = true
  | [], _ => by simp [mput, keysFrom, h]
  | (j, w) :: m, hm => by
    simp only [keysFrom, Bool.and_eq_true, decide_eq_true_eq] at hm
    by_cases h1 : j = k
    · subst h1; simp [mput, keysFrom, h, hm.2]
    · by_cases h2 : j < k
      · have := keysFrom_mput v (Nat.succ_le_of_lt h2) hm.2
        simp only [mput, beq_iff_eq, h1, h2, if_true, if_false, keysFrom, Bool.and_eq_true, decide_eq_true_eq]
        exact ⟨hm.1, this⟩
      · simp only [mput, beq_iff_eq, h1, h2, if_false, keysFrom, Bool.and_eq_true, decide_eq_true_eq]
        exact ⟨h, by omega, hm.2⟩

theorem keysFrom_filter (p : Nat × β → Bool) : ∀ {lo : Nat} {m : SMap β}, keysFrom lo m = true → keysFrom lo (m.filter p) = true
  | _, [], _ => rfl
  | lo, (j, w) :: m, hm => by
    simp only [keysFrom, Bool.and_eq_true, decide_eq_true_eq] at hm
    simp only [List.filter_cons]
    split
    · simp only [keysFrom, Bool.and_eq_true, decide_eq_true_eq]; exact ⟨hm.1, keysFrom_filter p hm.2⟩
    · exact keysFrom_mono (by omega) (keysFrom_filter p hm.2)

theorem keysFrom_mdel {lo : Nat} (k : Nat) {m : SMap β} (h : keysFrom lo m = true) : keysFrom lo (mdel k m) = true :=
  keysFrom_filter _ h

/-! ## Memory -/

theorem memFrom_mono {lo lo' : Nat} (h : lo' ≤ lo) : ∀ {m : Memory}, memFrom lo m = true → memFrom lo' m = true
  | [], _ => rfl
  | (k, v) :: m, hm => by
    simp only [memFrom, Bool.and_eq_true, decide_eq_true_eq] at hm ⊢
    exact ⟨⟨by omega, hm.1.2⟩, hm.2⟩

theorem memFrom_memSet {lo a : Nat} (b : Byte) (h : lo ≤ a) :
    ∀ {m : Memory}, memFrom lo m = true → memFrom lo (memSet a b m) = true
  | [], _ => by
    by_cases hb : b = 0#8 <;> simp [memSet, memFrom, hb, h]
  | (j, w) :: m, hm => by
    simp only [memFrom, Bool.and_eq_true, decide_eq_true_eq] at hm
    obtain ⟨⟨h0, hw⟩, hm⟩ := hm
    by_cases h1 : j = a
    · subst h1
      by_cases hb : b = 0#8
      · simp only [memSet, beq_self_eq_true, if_true, hb]; exact memFrom_mono (by omega) hm
      · simp [memSet, hb, memFrom, h0, hm]
    · by_cases h2 : j < a
      · simp only [memSet, beq_iff_eq, h1, h2, if_true, if_false, memFrom, Bool.and_eq_true, decide_eq_true_eq]
        exact ⟨⟨h0, hw⟩, memFrom_memSet b (by omega) hm⟩
      · by_cases hb : b = 0#8
        · simpa [memSet, h1, h2, hb, memFrom, h0, hm] using hw
        · have : memSet a b ((j, w) :: m) = (a, b) :: (j, w) :: m := by simp [memSet, h1, h2, hb]
          rw [this]
          simp only [memFrom, Bool.and_eq_true, decide_eq_true_eq]
          exact ⟨⟨h, by simpa using hb⟩, ⟨by omega, hw⟩, hm⟩

theorem wf_memSet (a : Nat) (b : Byte) {m : Memory} (h : Memory.wf m = true) : Memory.wf (memSet a b m) = true :=
  memFrom_memSet b (Nat.zero_le a) h

theorem wf_memWrite : ∀ (bs : List Byte) (a : Nat) {m : Memory}, Memory.wf m = true → Memory.wf (memWrite a bs m) = true
  | [], _, _, h => h
  | b :: bs, a, _, h => wf_memWrite bs (a + 1) (wf_memSet a b h)

theorem memFrom_filter (p : Host.Cell → Bool) : ∀ {lo : Nat} {m : Memory}, memFrom lo m = true → memFrom lo (m.filter p) = true
  | _, [], _ => rfl
  | lo, (j, w) :: m, hm => by
    simp only [memFrom, Bool.and_eq_true, decide_eq_true_eq] at hm
    simp only [List.filter_cons]
    split
    · simp only [memFrom, Bool.and_eq_true, decide_eq_true_eq]; exact ⟨hm.1, memFrom_filter p hm.2⟩
    · exact memFrom_mono (by omega) (memFrom_filter p hm.2)

theorem wf_memClear (a n : Nat) {m : Memory} (h : Memory.wf m = true) : Memory.wf (memClear a n m) = true :=
  memFrom_filter _ h

/-- Below the first address nothing is listed. -/
theorem memByte_below {lo a : Nat} : ∀ {m : Memory}, memFrom lo m = true → a < lo → memByte m a = 0
  | [], _, _ => rfl
  | (j, w) :: m, h, ha => by
    simp only [memFrom, Bool.and_eq_true, decide_eq_true_eq] at h
    have h1 : ¬ j = a := by omega
    have h2 : ¬ j < a := by omega
    simp [memByte, mget, mfind, h1, h2]

/-- A byte read after a byte written. -/
theorem memByte_memSet {lo : Nat} (a a' : Nat) (b : Byte) :
    ∀ {m : Memory}, memFrom lo m = true → memByte (memSet a b m) a' = if a' = a then b else memByte m a'
  | [], _ => by
    by_cases hb : b = 0#8
    · simp [memSet, hb, memByte, mget, mfind]
    · by_cases h : a' = a
      · subst h; simp [memSet, hb, memByte, mget, mfind]
      · have : ¬ a = a' := fun e => h e.symm
        simp [memSet, hb, memByte, mget, mfind, h, this]
  | (j, w) :: m, h => by
    simp only [memFrom, Bool.and_eq_true, decide_eq_true_eq] at h
    obtain ⟨⟨h0, hw⟩, hm⟩ := h
    have below := fun (x : Nat) (hx : x < j + 1) => memByte_below (a := x) hm hx
    have ih := memByte_memSet a a' b hm
    simp only [memByte, mget] at below ih ⊢
    by_cases h1 : j = a
    · subst h1
      by_cases hb : b = 0#8
      · subst hb
        by_cases h' : a' = j
        · subst h'; simpa [memSet] using below a' (by omega)
        · by_cases h'' : j < a'
          · have : ¬ j = a' := by omega
            simp [memSet, mfind, h', h'', this]
          · have : ¬ j = a' := by omega
            simpa [memSet, mfind, h', h'', this] using below a' (by omega)
      · by_cases h' : a' = j
        · subst h'; simp [memSet, hb, mfind]
        · have : ¬ j = a' := fun e => h' e.symm
          simp [memSet, hb, mfind, h', this]
    · by_cases h2 : j < a
      · by_cases h3 : j = a'
        · subst h3; simp [memSet, h1, h2, mfind]
        · by_cases h4 : j < a'
          · simpa [memSet, h1, h2, mfind, h3, h4] using ih
          · have : ¬ a' = a := by omega
            simp [memSet, h1, h2, mfind, h3, h4, this]
      · by_cases hb : b = 0#8
        · subst hb
          by_cases h' : a' = a
          · subst h'; simp [memSet, h1, h2, mfind]
          · simp [memSet, h1, h2, h']
        · by_cases h' : a' = a
          · subst h'; simp [memSet, h1, h2, hb, mfind]
          · have h5 : ¬ a = a' := fun e => h' e.symm
            by_cases h6 : a < a'
            · simp [memSet, h1, h2, hb, mfind, h', h5, h6]
            · have h7 : ¬ j = a' := by omega
              have h8 : ¬ j < a' := by omega
              simp [memSet, h1, h2, hb, mfind, h', h5, h6, h7, h8]

/-- A byte read after consecutive bytes written: the byte written there, or what stood there. -/
theorem memByte_memWrite : ∀ (bs : List Byte) (a a' : Nat) {m : Memory}, Memory.wf m = true →
    memByte (memWrite a bs m) a' = if a ≤ a' ∧ a' < a + bs.length then bs.getD (a' - a) 0 else memByte m a'
  | [], a, a', m, _ => by
    simp [memWrite]
  | b :: bs, a, a', m, h => by
    rw [memWrite, memByte_memWrite bs (a + 1) a' (wf_memSet a b h), memByte_memSet a a' b (lo := 0) h]
    by_cases h1 : a' = a
    · subst h1; simp
    · by_cases h2 : a + 1 ≤ a' ∧ a' < a + 1 + bs.length
      · have h3 : a ≤ a' ∧ a' < a + (b :: bs).length := by simp only [List.length_cons]; omega
        have h4 : a' - a = (a' - (a + 1)) + 1 := by omega
        simp only [h2, h3, and_self, if_true, h4, List.getD_cons_succ]
      · have h3 : ¬ (a ≤ a' ∧ a' < a + (b :: bs).length) := by simp only [List.length_cons]; omega
        rw [if_neg h2, if_neg h3, if_neg h1]

/-- A byte outside the written ones reads as before. -/
theorem memByte_memWrite_outside {bs : List Byte} {a a' : Nat} {m : Memory} (h : Memory.wf m = true)
    (ho : a' < a ∨ a + bs.length ≤ a') : memByte (memWrite a bs m) a' = memByte m a' := by
  rw [memByte_memWrite bs a a' h, if_neg (by omega)]

/-- Bytes read where the same bytes were written. -/
theorem memRead_memWrite (bs : List Byte) (a : Nat) {m : Memory} (h : Memory.wf m = true) :
    memRead (memWrite a bs m) a bs.length = bs := by
  apply List.ext_getElem
  · simp [memRead]
  · intro i h1 h2
    simp only [memRead, List.getElem_map, List.getElem_range]
    rw [memByte_memWrite bs a (a + i) h, if_pos (by omega)]
    simp [List.getD_eq_getElem?_getD, List.getElem?_eq_getElem h2]

/-! ## Bytes -/

@[simp] theorem toBytes_length : ∀ (n w : Nat), (toBytes n w).length = n
  | 0, _ => rfl
  | n + 1, w => by simp [toBytes, toBytes_length n]

/-- Little-endian bytes spell the number modulo their count. -/
theorem ofBytes_toBytes : ∀ (n w : Nat), ofBytes (toBytes n w) = w % 256 ^ n
  | 0, w => by simp [toBytes, ofBytes, Nat.mod_one]
  | n + 1, w => by
    have h := Nat.mod_mul (a := 256) (b := 256 ^ n) (x := w)
    rw [toBytes, ofBytes, ofBytes_toBytes n (w / 256), BitVec.toNat_ofNat, Nat.pow_succ 256 n, Nat.mul_comm (256 ^ n) 256, h]

end Sys2Proof.Machine
end

