-- ==== Sys2Proof/Laws/State.lean ====
section
/-! SUPPORT. One lemma per field per change of the state, and the parts that a change reaches: no proof unfolds a record
update. -/

namespace Sys2Proof.Machine

variable (s : State)

/-! ## The fields after one change -/

@[simp] theorem State.apply_slot_mem (k : SlotKey) (f : Ctx → Ctx) : (s.apply (.slot k f)).mem = s.mem := rfl
@[simp] theorem State.apply_slot_hidden (k : SlotKey) (f : Ctx → Ctx) : (s.apply (.slot k f)).hidden = s.hidden := rfl
@[simp] theorem State.apply_slot_pkgs (k : SlotKey) (f : Ctx → Ctx) : (s.apply (.slot k f)).pkgs = s.pkgs := rfl
@[simp] theorem State.apply_slot_dies (k : SlotKey) (f : Ctx → Ctx) : (s.apply (.slot k f)).dies = s.dies := rfl
@[simp] theorem State.apply_slot_slots (k : SlotKey) (f : Ctx → Ctx) : (s.apply (.slot k f)).slots = mmod s.slots k .blank f := rfl
@[simp] theorem State.apply_slot_nodes (k : SlotKey) (f : Ctx → Ctx) : (s.apply (.slot k f)).nodes = s.nodes := rfl
@[simp] theorem State.apply_slot_ranges (k : SlotKey) (f : Ctx → Ctx) : (s.apply (.slot k f)).ranges = s.ranges := rfl
@[simp] theorem State.apply_slot_roots (k : SlotKey) (f : Ctx → Ctx) : (s.apply (.slot k f)).roots = s.roots := rfl
@[simp] theorem State.apply_slot_planes (k : SlotKey) (f : Ctx → Ctx) : (s.apply (.slot k f)).planes = s.planes := rfl
@[simp] theorem State.apply_slot_barriers (k : SlotKey) (f : Ctx → Ctx) : (s.apply (.slot k f)).barriers = s.barriers := rfl
@[simp] theorem State.apply_slot_windows (k : SlotKey) (f : Ctx → Ctx) : (s.apply (.slot k f)).windows = s.windows := rfl
@[simp] theorem State.apply_slot_circuits (k : SlotKey) (f : Ctx → Ctx) : (s.apply (.slot k f)).circuits = s.circuits := rfl
@[simp] theorem State.apply_slot_reqs (k : SlotKey) (f : Ctx → Ctx) : (s.apply (.slot k f)).reqs = s.reqs := rfl
@[simp] theorem State.apply_slot_nextReq (k : SlotKey) (f : Ctx → Ctx) : (s.apply (.slot k f)).nextReq = s.nextReq := rfl
@[simp] theorem State.apply_slot_seqs (k : SlotKey) (f : Ctx → Ctx) : (s.apply (.slot k f)).seqs = s.seqs := rfl
@[simp] theorem State.apply_slot_now (k : SlotKey) (f : Ctx → Ctx) : (s.apply (.slot k f)).now = s.now := rfl
@[simp] theorem State.apply_slot_timers (k : SlotKey) (f : Ctx → Ctx) : (s.apply (.slot k f)).timers = s.timers := rfl
@[simp] theorem State.apply_slot_micro (k : SlotKey) (f : Ctx → Ctx) : (s.apply (.slot k f)).micro = s.micro := rfl
@[simp] theorem State.apply_slot_agenda (k : SlotKey) (f : Ctx → Ctx) : (s.apply (.slot k f)).agenda = s.agenda := rfl
@[simp] theorem State.apply_slot_fresh (k : SlotKey) (f : Ctx → Ctx) : (s.apply (.slot k f)).fresh = s.fresh := rfl
@[simp] theorem State.apply_slot_cur (k : SlotKey) (f : Ctx → Ctx) : (s.apply (.slot k f)).cur = s.cur := rfl

@[simp] theorem State.apply_die_mem (d : DieId) (f : Die → Die) : (s.apply (.die d f)).mem = s.mem := rfl
@[simp] theorem State.apply_die_hidden (d : DieId) (f : Die → Die) : (s.apply (.die d f)).hidden = s.hidden := rfl
@[simp] theorem State.apply_die_pkgs (d : DieId) (f : Die → Die) : (s.apply (.die d f)).pkgs = s.pkgs := rfl
@[simp] theorem State.apply_die_dies (d : DieId) (f : Die → Die) : (s.apply (.die d f)).dies = mmod s.dies d .blank f := rfl
@[simp] theorem State.apply_die_slots (d : DieId) (f : Die → Die) : (s.apply (.die d f)).slots = s.slots := rfl
@[simp] theorem State.apply_die_nodes (d : DieId) (f : Die → Die) : (s.apply (.die d f)).nodes = s.nodes := rfl
@[simp] theorem State.apply_die_ranges (d : DieId) (f : Die → Die) : (s.apply (.die d f)).ranges = s.ranges := rfl
@[simp] theorem State.apply_die_roots (d : DieId) (f : Die → Die) : (s.apply (.die d f)).roots = s.roots := rfl
@[simp] theorem State.apply_die_planes (d : DieId) (f : Die → Die) : (s.apply (.die d f)).planes = s.planes := rfl
@[simp] theorem State.apply_die_barriers (d : DieId) (f : Die → Die) : (s.apply (.die d f)).barriers = s.barriers := rfl
@[simp] theorem State.apply_die_windows (d : DieId) (f : Die → Die) : (s.apply (.die d f)).windows = s.windows := rfl
@[simp] theorem State.apply_die_circuits (d : DieId) (f : Die → Die) : (s.apply (.die d f)).circuits = s.circuits := rfl
@[simp] theorem State.apply_die_reqs (d : DieId) (f : Die → Die) : (s.apply (.die d f)).reqs = s.reqs := rfl
@[simp] theorem State.apply_die_nextReq (d : DieId) (f : Die → Die) : (s.apply (.die d f)).nextReq = s.nextReq := rfl
@[simp] theorem State.apply_die_seqs (d : DieId) (f : Die → Die) : (s.apply (.die d f)).seqs = s.seqs := rfl
@[simp] theorem State.apply_die_now (d : DieId) (f : Die → Die) : (s.apply (.die d f)).now = s.now := rfl
@[simp] theorem State.apply_die_timers (d : DieId) (f : Die → Die) : (s.apply (.die d f)).timers = s.timers := rfl
@[simp] theorem State.apply_die_micro (d : DieId) (f : Die → Die) : (s.apply (.die d f)).micro = s.micro := rfl
@[simp] theorem State.apply_die_agenda (d : DieId) (f : Die → Die) : (s.apply (.die d f)).agenda = s.agenda := rfl
@[simp] theorem State.apply_die_fresh (d : DieId) (f : Die → Die) : (s.apply (.die d f)).fresh = s.fresh := rfl
@[simp] theorem State.apply_die_cur (d : DieId) (f : Die → Die) : (s.apply (.die d f)).cur = s.cur := rfl

@[simp] theorem State.apply_pkg_mem (p : PkgId) (f : Pkg → Pkg) : (s.apply (.pkg p f)).mem = s.mem := rfl
@[simp] theorem State.apply_pkg_hidden (p : PkgId) (f : Pkg → Pkg) : (s.apply (.pkg p f)).hidden = s.hidden := rfl
@[simp] theorem State.apply_pkg_pkgs (p : PkgId) (f : Pkg → Pkg) : (s.apply (.pkg p f)).pkgs = mmod s.pkgs p .blank f := rfl
@[simp] theorem State.apply_pkg_dies (p : PkgId) (f : Pkg → Pkg) : (s.apply (.pkg p f)).dies = s.dies := rfl
@[simp] theorem State.apply_pkg_slots (p : PkgId) (f : Pkg → Pkg) : (s.apply (.pkg p f)).slots = s.slots := rfl
@[simp] theorem State.apply_pkg_nodes (p : PkgId) (f : Pkg → Pkg) : (s.apply (.pkg p f)).nodes = s.nodes := rfl
@[simp] theorem State.apply_pkg_ranges (p : PkgId) (f : Pkg → Pkg) : (s.apply (.pkg p f)).ranges = s.ranges := rfl
@[simp] theorem State.apply_pkg_roots (p : PkgId) (f : Pkg → Pkg) : (s.apply (.pkg p f)).roots = s.roots := rfl
@[simp] theorem State.apply_pkg_planes (p : PkgId) (f : Pkg → Pkg) : (s.apply (.pkg p f)).planes = s.planes := rfl
@[simp] theorem State.apply_pkg_barriers (p : PkgId) (f : Pkg → Pkg) : (s.apply (.pkg p f)).barriers = s.barriers := rfl
@[simp] theorem State.apply_pkg_windows (p : PkgId) (f : Pkg → Pkg) : (s.apply (.pkg p f)).windows = s.windows := rfl
@[simp] theorem State.apply_pkg_circuits (p : PkgId) (f : Pkg → Pkg) : (s.apply (.pkg p f)).circuits = s.circuits := rfl
@[simp] theorem State.apply_pkg_reqs (p : PkgId) (f : Pkg → Pkg) : (s.apply (.pkg p f)).reqs = s.reqs := rfl
@[simp] theorem State.apply_pkg_nextReq (p : PkgId) (f : Pkg → Pkg) : (s.apply (.pkg p f)).nextReq = s.nextReq := rfl
@[simp] theorem State.apply_pkg_seqs (p : PkgId) (f : Pkg → Pkg) : (s.apply (.pkg p f)).seqs = s.seqs := rfl
@[simp] theorem State.apply_pkg_now (p : PkgId) (f : Pkg → Pkg) : (s.apply (.pkg p f)).now = s.now := rfl
@[simp] theorem State.apply_pkg_timers (p : PkgId) (f : Pkg → Pkg) : (s.apply (.pkg p f)).timers = s.timers := rfl
@[simp] theorem State.apply_pkg_micro (p : PkgId) (f : Pkg → Pkg) : (s.apply (.pkg p f)).micro = s.micro := rfl
@[simp] theorem State.apply_pkg_agenda (p : PkgId) (f : Pkg → Pkg) : (s.apply (.pkg p f)).agenda = s.agenda := rfl
@[simp] theorem State.apply_pkg_fresh (p : PkgId) (f : Pkg → Pkg) : (s.apply (.pkg p f)).fresh = s.fresh := rfl
@[simp] theorem State.apply_pkg_cur (p : PkgId) (f : Pkg → Pkg) : (s.apply (.pkg p f)).cur = s.cur := rfl

@[simp] theorem State.apply_node_mem (r : Rid) (f : Node → Node) : (s.apply (.node r f)).mem = s.mem := rfl
@[simp] theorem State.apply_node_hidden (r : Rid) (f : Node → Node) : (s.apply (.node r f)).hidden = s.hidden := rfl
@[simp] theorem State.apply_node_pkgs (r : Rid) (f : Node → Node) : (s.apply (.node r f)).pkgs = s.pkgs := rfl
@[simp] theorem State.apply_node_dies (r : Rid) (f : Node → Node) : (s.apply (.node r f)).dies = s.dies := rfl
@[simp] theorem State.apply_node_slots (r : Rid) (f : Node → Node) : (s.apply (.node r f)).slots = s.slots := rfl
@[simp] theorem State.apply_node_nodes (r : Rid) (f : Node → Node) : (s.apply (.node r f)).nodes = mmod s.nodes r .blank f := rfl
@[simp] theorem State.apply_node_ranges (r : Rid) (f : Node → Node) : (s.apply (.node r f)).ranges = s.ranges := rfl
@[simp] theorem State.apply_node_roots (r : Rid) (f : Node → Node) : (s.apply (.node r f)).roots = s.roots := rfl
@[simp] theorem State.apply_node_planes (r : Rid) (f : Node → Node) : (s.apply (.node r f)).planes = s.planes := rfl
@[simp] theorem State.apply_node_barriers (r : Rid) (f : Node → Node) : (s.apply (.node r f)).barriers = s.barriers := rfl
@[simp] theorem State.apply_node_windows (r : Rid) (f : Node → Node) : (s.apply (.node r f)).windows = s.windows := rfl
@[simp] theorem State.apply_node_circuits (r : Rid) (f : Node → Node) : (s.apply (.node r f)).circuits = s.circuits := rfl
@[simp] theorem State.apply_node_reqs (r : Rid) (f : Node → Node) : (s.apply (.node r f)).reqs = s.reqs := rfl
@[simp] theorem State.apply_node_nextReq (r : Rid) (f : Node → Node) : (s.apply (.node r f)).nextReq = s.nextReq := rfl
@[simp] theorem State.apply_node_seqs (r : Rid) (f : Node → Node) : (s.apply (.node r f)).seqs = s.seqs := rfl
@[simp] theorem State.apply_node_now (r : Rid) (f : Node → Node) : (s.apply (.node r f)).now = s.now := rfl
@[simp] theorem State.apply_node_timers (r : Rid) (f : Node → Node) : (s.apply (.node r f)).timers = s.timers := rfl
@[simp] theorem State.apply_node_micro (r : Rid) (f : Node → Node) : (s.apply (.node r f)).micro = s.micro := rfl
@[simp] theorem State.apply_node_agenda (r : Rid) (f : Node → Node) : (s.apply (.node r f)).agenda = s.agenda := rfl
@[simp] theorem State.apply_node_fresh (r : Rid) (f : Node → Node) : (s.apply (.node r f)).fresh = s.fresh := rfl
@[simp] theorem State.apply_node_cur (r : Rid) (f : Node → Node) : (s.apply (.node r f)).cur = s.cur := rfl

@[simp] theorem State.apply_range_mem (k : Nat) (v : Option Range) : (s.apply (.range k v)).mem = s.mem := rfl
@[simp] theorem State.apply_range_hidden (k : Nat) (v : Option Range) : (s.apply (.range k v)).hidden = s.hidden := rfl
@[simp] theorem State.apply_range_pkgs (k : Nat) (v : Option Range) : (s.apply (.range k v)).pkgs = s.pkgs := rfl
@[simp] theorem State.apply_range_dies (k : Nat) (v : Option Range) : (s.apply (.range k v)).dies = s.dies := rfl
@[simp] theorem State.apply_range_slots (k : Nat) (v : Option Range) : (s.apply (.range k v)).slots = s.slots := rfl
@[simp] theorem State.apply_range_nodes (k : Nat) (v : Option Range) : (s.apply (.range k v)).nodes = s.nodes := rfl
@[simp] theorem State.apply_range_ranges (k : Nat) (v : Option Range) : (s.apply (.range k v)).ranges = mupd s.ranges k fun _ => v := rfl
@[simp] theorem State.apply_range_roots (k : Nat) (v : Option Range) : (s.apply (.range k v)).roots = s.roots := rfl
@[simp] theorem State.apply_range_planes (k : Nat) (v : Option Range) : (s.apply (.range k v)).planes = s.planes := rfl
@[simp] theorem State.apply_range_barriers (k : Nat) (v : Option Range) : (s.apply (.range k v)).barriers = s.barriers := rfl
@[simp] theorem State.apply_range_windows (k : Nat) (v : Option Range) : (s.apply (.range k v)).windows = s.windows := rfl
@[simp] theorem State.apply_range_circuits (k : Nat) (v : Option Range) : (s.apply (.range k v)).circuits = s.circuits := rfl
@[simp] theorem State.apply_range_reqs (k : Nat) (v : Option Range) : (s.apply (.range k v)).reqs = s.reqs := rfl
@[simp] theorem State.apply_range_nextReq (k : Nat) (v : Option Range) : (s.apply (.range k v)).nextReq = s.nextReq := rfl
@[simp] theorem State.apply_range_seqs (k : Nat) (v : Option Range) : (s.apply (.range k v)).seqs = s.seqs := rfl
@[simp] theorem State.apply_range_now (k : Nat) (v : Option Range) : (s.apply (.range k v)).now = s.now := rfl
@[simp] theorem State.apply_range_timers (k : Nat) (v : Option Range) : (s.apply (.range k v)).timers = s.timers := rfl
@[simp] theorem State.apply_range_micro (k : Nat) (v : Option Range) : (s.apply (.range k v)).micro = s.micro := rfl
@[simp] theorem State.apply_range_agenda (k : Nat) (v : Option Range) : (s.apply (.range k v)).agenda = s.agenda := rfl
@[simp] theorem State.apply_range_fresh (k : Nat) (v : Option Range) : (s.apply (.range k v)).fresh = s.fresh := rfl
@[simp] theorem State.apply_range_cur (k : Nat) (v : Option Range) : (s.apply (.range k v)).cur = s.cur := rfl

@[simp] theorem State.apply_root_mem (k : Nat) (v : Option Word) : (s.apply (.root k v)).mem = s.mem := rfl
@[simp] theorem State.apply_root_hidden (k : Nat) (v : Option Word) : (s.apply (.root k v)).hidden = s.hidden := rfl
@[simp] theorem State.apply_root_pkgs (k : Nat) (v : Option Word) : (s.apply (.root k v)).pkgs = s.pkgs := rfl
@[simp] theorem State.apply_root_dies (k : Nat) (v : Option Word) : (s.apply (.root k v)).dies = s.dies := rfl
@[simp] theorem State.apply_root_slots (k : Nat) (v : Option Word) : (s.apply (.root k v)).slots = s.slots := rfl
@[simp] theorem State.apply_root_nodes (k : Nat) (v : Option Word) : (s.apply (.root k v)).nodes = s.nodes := rfl
@[simp] theorem State.apply_root_ranges (k : Nat) (v : Option Word) : (s.apply (.root k v)).ranges = s.ranges := rfl
@[simp] theorem State.apply_root_roots (k : Nat) (v : Option Word) : (s.apply (.root k v)).roots = mupd s.roots k fun _ => v := rfl
@[simp] theorem State.apply_root_planes (k : Nat) (v : Option Word) : (s.apply (.root k v)).planes = s.planes := rfl
@[simp] theorem State.apply_root_barriers (k : Nat) (v : Option Word) : (s.apply (.root k v)).barriers = s.barriers := rfl
@[simp] theorem State.apply_root_windows (k : Nat) (v : Option Word) : (s.apply (.root k v)).windows = s.windows := rfl
@[simp] theorem State.apply_root_circuits (k : Nat) (v : Option Word) : (s.apply (.root k v)).circuits = s.circuits := rfl
@[simp] theorem State.apply_root_reqs (k : Nat) (v : Option Word) : (s.apply (.root k v)).reqs = s.reqs := rfl
@[simp] theorem State.apply_root_nextReq (k : Nat) (v : Option Word) : (s.apply (.root k v)).nextReq = s.nextReq := rfl
@[simp] theorem State.apply_root_seqs (k : Nat) (v : Option Word) : (s.apply (.root k v)).seqs = s.seqs := rfl
@[simp] theorem State.apply_root_now (k : Nat) (v : Option Word) : (s.apply (.root k v)).now = s.now := rfl
@[simp] theorem State.apply_root_timers (k : Nat) (v : Option Word) : (s.apply (.root k v)).timers = s.timers := rfl
@[simp] theorem State.apply_root_micro (k : Nat) (v : Option Word) : (s.apply (.root k v)).micro = s.micro := rfl
@[simp] theorem State.apply_root_agenda (k : Nat) (v : Option Word) : (s.apply (.root k v)).agenda = s.agenda := rfl
@[simp] theorem State.apply_root_fresh (k : Nat) (v : Option Word) : (s.apply (.root k v)).fresh = s.fresh := rfl
@[simp] theorem State.apply_root_cur (k : Nat) (v : Option Word) : (s.apply (.root k v)).cur = s.cur := rfl

@[simp] theorem State.apply_plane_mem (k : Nat) (f : Option Plane → Option Plane) : (s.apply (.plane k f)).mem = s.mem := rfl
@[simp] theorem State.apply_plane_hidden (k : Nat) (f : Option Plane → Option Plane) : (s.apply (.plane k f)).hidden = s.hidden := rfl
@[simp] theorem State.apply_plane_pkgs (k : Nat) (f : Option Plane → Option Plane) : (s.apply (.plane k f)).pkgs = s.pkgs := rfl
@[simp] theorem State.apply_plane_dies (k : Nat) (f : Option Plane → Option Plane) : (s.apply (.plane k f)).dies = s.dies := rfl
@[simp] theorem State.apply_plane_slots (k : Nat) (f : Option Plane → Option Plane) : (s.apply (.plane k f)).slots = s.slots := rfl
@[simp] theorem State.apply_plane_nodes (k : Nat) (f : Option Plane → Option Plane) : (s.apply (.plane k f)).nodes = s.nodes := rfl
@[simp] theorem State.apply_plane_ranges (k : Nat) (f : Option Plane → Option Plane) : (s.apply (.plane k f)).ranges = s.ranges := rfl
@[simp] theorem State.apply_plane_roots (k : Nat) (f : Option Plane → Option Plane) : (s.apply (.plane k f)).roots = s.roots := rfl
@[simp] theorem State.apply_plane_planes (k : Nat) (f : Option Plane → Option Plane) : (s.apply (.plane k f)).planes = mupd s.planes k f := rfl
@[simp] theorem State.apply_plane_barriers (k : Nat) (f : Option Plane → Option Plane) : (s.apply (.plane k f)).barriers = s.barriers := rfl
@[simp] theorem State.apply_plane_windows (k : Nat) (f : Option Plane → Option Plane) : (s.apply (.plane k f)).windows = s.windows := rfl
@[simp] theorem State.apply_plane_circuits (k : Nat) (f : Option Plane → Option Plane) : (s.apply (.plane k f)).circuits = s.circuits := rfl
@[simp] theorem State.apply_plane_reqs (k : Nat) (f : Option Plane → Option Plane) : (s.apply (.plane k f)).reqs = s.reqs := rfl
@[simp] theorem State.apply_plane_nextReq (k : Nat) (f : Option Plane → Option Plane) : (s.apply (.plane k f)).nextReq = s.nextReq := rfl
@[simp] theorem State.apply_plane_seqs (k : Nat) (f : Option Plane → Option Plane) : (s.apply (.plane k f)).seqs = s.seqs := rfl
@[simp] theorem State.apply_plane_now (k : Nat) (f : Option Plane → Option Plane) : (s.apply (.plane k f)).now = s.now := rfl
@[simp] theorem State.apply_plane_timers (k : Nat) (f : Option Plane → Option Plane) : (s.apply (.plane k f)).timers = s.timers := rfl
@[simp] theorem State.apply_plane_micro (k : Nat) (f : Option Plane → Option Plane) : (s.apply (.plane k f)).micro = s.micro := rfl
@[simp] theorem State.apply_plane_agenda (k : Nat) (f : Option Plane → Option Plane) : (s.apply (.plane k f)).agenda = s.agenda := rfl
@[simp] theorem State.apply_plane_fresh (k : Nat) (f : Option Plane → Option Plane) : (s.apply (.plane k f)).fresh = s.fresh := rfl
@[simp] theorem State.apply_plane_cur (k : Nat) (f : Option Plane → Option Plane) : (s.apply (.plane k f)).cur = s.cur := rfl

@[simp] theorem State.apply_barrier_mem (k : Nat) (f : Option Barrier → Option Barrier) : (s.apply (.barrier k f)).mem = s.mem := rfl
@[simp] theorem State.apply_barrier_hidden (k : Nat) (f : Option Barrier → Option Barrier) : (s.apply (.barrier k f)).hidden = s.hidden := rfl
@[simp] theorem State.apply_barrier_pkgs (k : Nat) (f : Option Barrier → Option Barrier) : (s.apply (.barrier k f)).pkgs = s.pkgs := rfl
@[simp] theorem State.apply_barrier_dies (k : Nat) (f : Option Barrier → Option Barrier) : (s.apply (.barrier k f)).dies = s.dies := rfl
@[simp] theorem State.apply_barrier_slots (k : Nat) (f : Option Barrier → Option Barrier) : (s.apply (.barrier k f)).slots = s.slots := rfl
@[simp] theorem State.apply_barrier_nodes (k : Nat) (f : Option Barrier → Option Barrier) : (s.apply (.barrier k f)).nodes = s.nodes := rfl
@[simp] theorem State.apply_barrier_ranges (k : Nat) (f : Option Barrier → Option Barrier) : (s.apply (.barrier k f)).ranges = s.ranges := rfl
@[simp] theorem State.apply_barrier_roots (k : Nat) (f : Option Barrier → Option Barrier) : (s.apply (.barrier k f)).roots = s.roots := rfl
@[simp] theorem State.apply_barrier_planes (k : Nat) (f : Option Barrier → Option Barrier) : (s.apply (.barrier k f)).planes = s.planes := rfl
@[simp] theorem State.apply_barrier_barriers (k : Nat) (f : Option Barrier → Option Barrier) : (s.apply (.barrier k f)).barriers = mupd s.barriers k f := rfl
@[simp] theorem State.apply_barrier_windows (k : Nat) (f : Option Barrier → Option Barrier) : (s.apply (.barrier k f)).windows = s.windows := rfl
@[simp] theorem State.apply_barrier_circuits (k : Nat) (f : Option Barrier → Option Barrier) : (s.apply (.barrier k f)).circuits = s.circuits := rfl
@[simp] theorem State.apply_barrier_reqs (k : Nat) (f : Option Barrier → Option Barrier) : (s.apply (.barrier k f)).reqs = s.reqs := rfl
@[simp] theorem State.apply_barrier_nextReq (k : Nat) (f : Option Barrier → Option Barrier) : (s.apply (.barrier k f)).nextReq = s.nextReq := rfl
@[simp] theorem State.apply_barrier_seqs (k : Nat) (f : Option Barrier → Option Barrier) : (s.apply (.barrier k f)).seqs = s.seqs := rfl
@[simp] theorem State.apply_barrier_now (k : Nat) (f : Option Barrier → Option Barrier) : (s.apply (.barrier k f)).now = s.now := rfl
@[simp] theorem State.apply_barrier_timers (k : Nat) (f : Option Barrier → Option Barrier) : (s.apply (.barrier k f)).timers = s.timers := rfl
@[simp] theorem State.apply_barrier_micro (k : Nat) (f : Option Barrier → Option Barrier) : (s.apply (.barrier k f)).micro = s.micro := rfl
@[simp] theorem State.apply_barrier_agenda (k : Nat) (f : Option Barrier → Option Barrier) : (s.apply (.barrier k f)).agenda = s.agenda := rfl
@[simp] theorem State.apply_barrier_fresh (k : Nat) (f : Option Barrier → Option Barrier) : (s.apply (.barrier k f)).fresh = s.fresh := rfl
@[simp] theorem State.apply_barrier_cur (k : Nat) (f : Option Barrier → Option Barrier) : (s.apply (.barrier k f)).cur = s.cur := rfl

@[simp] theorem State.apply_window_mem (k : Nat) (v : Option Window) : (s.apply (.window k v)).mem = s.mem := rfl
@[simp] theorem State.apply_window_hidden (k : Nat) (v : Option Window) : (s.apply (.window k v)).hidden = s.hidden := rfl
@[simp] theorem State.apply_window_pkgs (k : Nat) (v : Option Window) : (s.apply (.window k v)).pkgs = s.pkgs := rfl
@[simp] theorem State.apply_window_dies (k : Nat) (v : Option Window) : (s.apply (.window k v)).dies = s.dies := rfl
@[simp] theorem State.apply_window_slots (k : Nat) (v : Option Window) : (s.apply (.window k v)).slots = s.slots := rfl
@[simp] theorem State.apply_window_nodes (k : Nat) (v : Option Window) : (s.apply (.window k v)).nodes = s.nodes := rfl
@[simp] theorem State.apply_window_ranges (k : Nat) (v : Option Window) : (s.apply (.window k v)).ranges = s.ranges := rfl
@[simp] theorem State.apply_window_roots (k : Nat) (v : Option Window) : (s.apply (.window k v)).roots = s.roots := rfl
@[simp] theorem State.apply_window_planes (k : Nat) (v : Option Window) : (s.apply (.window k v)).planes = s.planes := rfl
@[simp] theorem State.apply_window_barriers (k : Nat) (v : Option Window) : (s.apply (.window k v)).barriers = s.barriers := rfl
@[simp] theorem State.apply_window_windows (k : Nat) (v : Option Window) : (s.apply (.window k v)).windows = mupd s.windows k fun _ => v := rfl
@[simp] theorem State.apply_window_circuits (k : Nat) (v : Option Window) : (s.apply (.window k v)).circuits = s.circuits := rfl
@[simp] theorem State.apply_window_reqs (k : Nat) (v : Option Window) : (s.apply (.window k v)).reqs = s.reqs := rfl
@[simp] theorem State.apply_window_nextReq (k : Nat) (v : Option Window) : (s.apply (.window k v)).nextReq = s.nextReq := rfl
@[simp] theorem State.apply_window_seqs (k : Nat) (v : Option Window) : (s.apply (.window k v)).seqs = s.seqs := rfl
@[simp] theorem State.apply_window_now (k : Nat) (v : Option Window) : (s.apply (.window k v)).now = s.now := rfl
@[simp] theorem State.apply_window_timers (k : Nat) (v : Option Window) : (s.apply (.window k v)).timers = s.timers := rfl
@[simp] theorem State.apply_window_micro (k : Nat) (v : Option Window) : (s.apply (.window k v)).micro = s.micro := rfl
@[simp] theorem State.apply_window_agenda (k : Nat) (v : Option Window) : (s.apply (.window k v)).agenda = s.agenda := rfl
@[simp] theorem State.apply_window_fresh (k : Nat) (v : Option Window) : (s.apply (.window k v)).fresh = s.fresh := rfl
@[simp] theorem State.apply_window_cur (k : Nat) (v : Option Window) : (s.apply (.window k v)).cur = s.cur := rfl

@[simp] theorem State.apply_circuit_mem (k : Nat) (f : Option Circuit → Option Circuit) : (s.apply (.circuit k f)).mem = s.mem := rfl
@[simp] theorem State.apply_circuit_hidden (k : Nat) (f : Option Circuit → Option Circuit) : (s.apply (.circuit k f)).hidden = s.hidden := rfl
@[simp] theorem State.apply_circuit_pkgs (k : Nat) (f : Option Circuit → Option Circuit) : (s.apply (.circuit k f)).pkgs = s.pkgs := rfl
@[simp] theorem State.apply_circuit_dies (k : Nat) (f : Option Circuit → Option Circuit) : (s.apply (.circuit k f)).dies = s.dies := rfl
@[simp] theorem State.apply_circuit_slots (k : Nat) (f : Option Circuit → Option Circuit) : (s.apply (.circuit k f)).slots = s.slots := rfl
@[simp] theorem State.apply_circuit_nodes (k : Nat) (f : Option Circuit → Option Circuit) : (s.apply (.circuit k f)).nodes = s.nodes := rfl
@[simp] theorem State.apply_circuit_ranges (k : Nat) (f : Option Circuit → Option Circuit) : (s.apply (.circuit k f)).ranges = s.ranges := rfl
@[simp] theorem State.apply_circuit_roots (k : Nat) (f : Option Circuit → Option Circuit) : (s.apply (.circuit k f)).roots = s.roots := rfl
@[simp] theorem State.apply_circuit_planes (k : Nat) (f : Option Circuit → Option Circuit) : (s.apply (.circuit k f)).planes = s.planes := rfl
@[simp] theorem State.apply_circuit_barriers (k : Nat) (f : Option Circuit → Option Circuit) : (s.apply (.circuit k f)).barriers = s.barriers := rfl
@[simp] theorem State.apply_circuit_windows (k : Nat) (f : Option Circuit → Option Circuit) : (s.apply (.circuit k f)).windows = s.windows := rfl
@[simp] theorem State.apply_circuit_circuits (k : Nat) (f : Option Circuit → Option Circuit) : (s.apply (.circuit k f)).circuits = mupd s.circuits k f := rfl
@[simp] theorem State.apply_circuit_reqs (k : Nat) (f : Option Circuit → Option Circuit) : (s.apply (.circuit k f)).reqs = s.reqs := rfl
@[simp] theorem State.apply_circuit_nextReq (k : Nat) (f : Option Circuit → Option Circuit) : (s.apply (.circuit k f)).nextReq = s.nextReq := rfl
@[simp] theorem State.apply_circuit_seqs (k : Nat) (f : Option Circuit → Option Circuit) : (s.apply (.circuit k f)).seqs = s.seqs := rfl
@[simp] theorem State.apply_circuit_now (k : Nat) (f : Option Circuit → Option Circuit) : (s.apply (.circuit k f)).now = s.now := rfl
@[simp] theorem State.apply_circuit_timers (k : Nat) (f : Option Circuit → Option Circuit) : (s.apply (.circuit k f)).timers = s.timers := rfl
@[simp] theorem State.apply_circuit_micro (k : Nat) (f : Option Circuit → Option Circuit) : (s.apply (.circuit k f)).micro = s.micro := rfl
@[simp] theorem State.apply_circuit_agenda (k : Nat) (f : Option Circuit → Option Circuit) : (s.apply (.circuit k f)).agenda = s.agenda := rfl
@[simp] theorem State.apply_circuit_fresh (k : Nat) (f : Option Circuit → Option Circuit) : (s.apply (.circuit k f)).fresh = s.fresh := rfl
@[simp] theorem State.apply_circuit_cur (k : Nat) (f : Option Circuit → Option Circuit) : (s.apply (.circuit k f)).cur = s.cur := rfl

@[simp] theorem State.apply_addReq_mem (f : Nat → Req) : (s.apply (.addReq f)).mem = s.mem := rfl
@[simp] theorem State.apply_addReq_hidden (f : Nat → Req) : (s.apply (.addReq f)).hidden = s.hidden := rfl
@[simp] theorem State.apply_addReq_pkgs (f : Nat → Req) : (s.apply (.addReq f)).pkgs = s.pkgs := rfl
@[simp] theorem State.apply_addReq_dies (f : Nat → Req) : (s.apply (.addReq f)).dies = s.dies := rfl
@[simp] theorem State.apply_addReq_slots (f : Nat → Req) : (s.apply (.addReq f)).slots = s.slots := rfl
@[simp] theorem State.apply_addReq_nodes (f : Nat → Req) : (s.apply (.addReq f)).nodes = s.nodes := rfl
@[simp] theorem State.apply_addReq_ranges (f : Nat → Req) : (s.apply (.addReq f)).ranges = s.ranges := rfl
@[simp] theorem State.apply_addReq_roots (f : Nat → Req) : (s.apply (.addReq f)).roots = s.roots := rfl
@[simp] theorem State.apply_addReq_planes (f : Nat → Req) : (s.apply (.addReq f)).planes = s.planes := rfl
@[simp] theorem State.apply_addReq_barriers (f : Nat → Req) : (s.apply (.addReq f)).barriers = s.barriers := rfl
@[simp] theorem State.apply_addReq_windows (f : Nat → Req) : (s.apply (.addReq f)).windows = s.windows := rfl
@[simp] theorem State.apply_addReq_circuits (f : Nat → Req) : (s.apply (.addReq f)).circuits = s.circuits := rfl
@[simp] theorem State.apply_addReq_reqs (f : Nat → Req) : (s.apply (.addReq f)).reqs = s.reqs ++ [f s.nextReq] := rfl
@[simp] theorem State.apply_addReq_nextReq (f : Nat → Req) : (s.apply (.addReq f)).nextReq = s.nextReq + 1 := rfl
@[simp] theorem State.apply_addReq_seqs (f : Nat → Req) : (s.apply (.addReq f)).seqs = s.seqs := rfl
@[simp] theorem State.apply_addReq_now (f : Nat → Req) : (s.apply (.addReq f)).now = s.now := rfl
@[simp] theorem State.apply_addReq_timers (f : Nat → Req) : (s.apply (.addReq f)).timers = s.timers := rfl
@[simp] theorem State.apply_addReq_micro (f : Nat → Req) : (s.apply (.addReq f)).micro = s.micro := rfl
@[simp] theorem State.apply_addReq_agenda (f : Nat → Req) : (s.apply (.addReq f)).agenda = s.agenda := rfl
@[simp] theorem State.apply_addReq_fresh (f : Nat → Req) : (s.apply (.addReq f)).fresh = s.fresh := rfl
@[simp] theorem State.apply_addReq_cur (f : Nat → Req) : (s.apply (.addReq f)).cur = s.cur := rfl

@[simp] theorem State.apply_req_mem (i : Nat) (f : Req → Req) : (s.apply (.req i f)).mem = s.mem := rfl
@[simp] theorem State.apply_req_hidden (i : Nat) (f : Req → Req) : (s.apply (.req i f)).hidden = s.hidden := rfl
@[simp] theorem State.apply_req_pkgs (i : Nat) (f : Req → Req) : (s.apply (.req i f)).pkgs = s.pkgs := rfl
@[simp] theorem State.apply_req_dies (i : Nat) (f : Req → Req) : (s.apply (.req i f)).dies = s.dies := rfl
@[simp] theorem State.apply_req_slots (i : Nat) (f : Req → Req) : (s.apply (.req i f)).slots = s.slots := rfl
@[simp] theorem State.apply_req_nodes (i : Nat) (f : Req → Req) : (s.apply (.req i f)).nodes = s.nodes := rfl
@[simp] theorem State.apply_req_ranges (i : Nat) (f : Req → Req) : (s.apply (.req i f)).ranges = s.ranges := rfl
@[simp] theorem State.apply_req_roots (i : Nat) (f : Req → Req) : (s.apply (.req i f)).roots = s.roots := rfl
@[simp] theorem State.apply_req_planes (i : Nat) (f : Req → Req) : (s.apply (.req i f)).planes = s.planes := rfl
@[simp] theorem State.apply_req_barriers (i : Nat) (f : Req → Req) : (s.apply (.req i f)).barriers = s.barriers := rfl
@[simp] theorem State.apply_req_windows (i : Nat) (f : Req → Req) : (s.apply (.req i f)).windows = s.windows := rfl
@[simp] theorem State.apply_req_circuits (i : Nat) (f : Req → Req) : (s.apply (.req i f)).circuits = s.circuits := rfl
@[simp] theorem State.apply_req_reqs (i : Nat) (f : Req → Req) : (s.apply (.req i f)).reqs = s.reqs.map fun r => if r.id == i then f r else r := rfl
@[simp] theorem State.apply_req_nextReq (i : Nat) (f : Req → Req) : (s.apply (.req i f)).nextReq = s.nextReq := rfl
@[simp] theorem State.apply_req_seqs (i : Nat) (f : Req → Req) : (s.apply (.req i f)).seqs = s.seqs := rfl
@[simp] theorem State.apply_req_now (i : Nat) (f : Req → Req) : (s.apply (.req i f)).now = s.now := rfl
@[simp] theorem State.apply_req_timers (i : Nat) (f : Req → Req) : (s.apply (.req i f)).timers = s.timers := rfl
@[simp] theorem State.apply_req_micro (i : Nat) (f : Req → Req) : (s.apply (.req i f)).micro = s.micro := rfl
@[simp] theorem State.apply_req_agenda (i : Nat) (f : Req → Req) : (s.apply (.req i f)).agenda = s.agenda := rfl
@[simp] theorem State.apply_req_fresh (i : Nat) (f : Req → Req) : (s.apply (.req i f)).fresh = s.fresh := rfl
@[simp] theorem State.apply_req_cur (i : Nat) (f : Req → Req) : (s.apply (.req i f)).cur = s.cur := rfl

@[simp] theorem State.apply_dropReq_mem (i : Nat) : (s.apply (.dropReq i)).mem = s.mem := rfl
@[simp] theorem State.apply_dropReq_hidden (i : Nat) : (s.apply (.dropReq i)).hidden = s.hidden := rfl
@[simp] theorem State.apply_dropReq_pkgs (i : Nat) : (s.apply (.dropReq i)).pkgs = s.pkgs := rfl
@[simp] theorem State.apply_dropReq_dies (i : Nat) : (s.apply (.dropReq i)).dies = s.dies := rfl
@[simp] theorem State.apply_dropReq_slots (i : Nat) : (s.apply (.dropReq i)).slots = s.slots := rfl
@[simp] theorem State.apply_dropReq_nodes (i : Nat) : (s.apply (.dropReq i)).nodes = s.nodes := rfl
@[simp] theorem State.apply_dropReq_ranges (i : Nat) : (s.apply (.dropReq i)).ranges = s.ranges := rfl
@[simp] theorem State.apply_dropReq_roots (i : Nat) : (s.apply (.dropReq i)).roots = s.roots := rfl
@[simp] theorem State.apply_dropReq_planes (i : Nat) : (s.apply (.dropReq i)).planes = s.planes := rfl
@[simp] theorem State.apply_dropReq_barriers (i : Nat) : (s.apply (.dropReq i)).barriers = s.barriers := rfl
@[simp] theorem State.apply_dropReq_windows (i : Nat) : (s.apply (.dropReq i)).windows = s.windows := rfl
@[simp] theorem State.apply_dropReq_circuits (i : Nat) : (s.apply (.dropReq i)).circuits = s.circuits := rfl
@[simp] theorem State.apply_dropReq_reqs (i : Nat) : (s.apply (.dropReq i)).reqs = s.reqs.filter fun r => r.id != i := rfl
@[simp] theorem State.apply_dropReq_nextReq (i : Nat) : (s.apply (.dropReq i)).nextReq = s.nextReq := rfl
@[simp] theorem State.apply_dropReq_seqs (i : Nat) : (s.apply (.dropReq i)).seqs = s.seqs := rfl
@[simp] theorem State.apply_dropReq_now (i : Nat) : (s.apply (.dropReq i)).now = s.now := rfl
@[simp] theorem State.apply_dropReq_timers (i : Nat) : (s.apply (.dropReq i)).timers = s.timers := rfl
@[simp] theorem State.apply_dropReq_micro (i : Nat) : (s.apply (.dropReq i)).micro = s.micro := rfl
@[simp] theorem State.apply_dropReq_agenda (i : Nat) : (s.apply (.dropReq i)).agenda = s.agenda := rfl
@[simp] theorem State.apply_dropReq_fresh (i : Nat) : (s.apply (.dropReq i)).fresh = s.fresh := rfl
@[simp] theorem State.apply_dropReq_cur (i : Nat) : (s.apply (.dropReq i)).cur = s.cur := rfl

@[simp] theorem State.apply_seqNo_mem (src n : Nat) : (s.apply (.seqNo src n)).mem = s.mem := rfl
@[simp] theorem State.apply_seqNo_hidden (src n : Nat) : (s.apply (.seqNo src n)).hidden = s.hidden := rfl
@[simp] theorem State.apply_seqNo_pkgs (src n : Nat) : (s.apply (.seqNo src n)).pkgs = s.pkgs := rfl
@[simp] theorem State.apply_seqNo_dies (src n : Nat) : (s.apply (.seqNo src n)).dies = s.dies := rfl
@[simp] theorem State.apply_seqNo_slots (src n : Nat) : (s.apply (.seqNo src n)).slots = s.slots := rfl
@[simp] theorem State.apply_seqNo_nodes (src n : Nat) : (s.apply (.seqNo src n)).nodes = s.nodes := rfl
@[simp] theorem State.apply_seqNo_ranges (src n : Nat) : (s.apply (.seqNo src n)).ranges = s.ranges := rfl
@[simp] theorem State.apply_seqNo_roots (src n : Nat) : (s.apply (.seqNo src n)).roots = s.roots := rfl
@[simp] theorem State.apply_seqNo_planes (src n : Nat) : (s.apply (.seqNo src n)).planes = s.planes := rfl
@[simp] theorem State.apply_seqNo_barriers (src n : Nat) : (s.apply (.seqNo src n)).barriers = s.barriers := rfl
@[simp] theorem State.apply_seqNo_windows (src n : Nat) : (s.apply (.seqNo src n)).windows = s.windows := rfl
@[simp] theorem State.apply_seqNo_circuits (src n : Nat) : (s.apply (.seqNo src n)).circuits = s.circuits := rfl
@[simp] theorem State.apply_seqNo_reqs (src n : Nat) : (s.apply (.seqNo src n)).reqs = s.reqs := rfl
@[simp] theorem State.apply_seqNo_nextReq (src n : Nat) : (s.apply (.seqNo src n)).nextReq = s.nextReq := rfl
@[simp] theorem State.apply_seqNo_seqs (src n : Nat) : (s.apply (.seqNo src n)).seqs = mput src n s.seqs := rfl
@[simp] theorem State.apply_seqNo_now (src n : Nat) : (s.apply (.seqNo src n)).now = s.now := rfl
@[simp] theorem State.apply_seqNo_timers (src n : Nat) : (s.apply (.seqNo src n)).timers = s.timers := rfl
@[simp] theorem State.apply_seqNo_micro (src n : Nat) : (s.apply (.seqNo src n)).micro = s.micro := rfl
@[simp] theorem State.apply_seqNo_agenda (src n : Nat) : (s.apply (.seqNo src n)).agenda = s.agenda := rfl
@[simp] theorem State.apply_seqNo_fresh (src n : Nat) : (s.apply (.seqNo src n)).fresh = s.fresh := rfl
@[simp] theorem State.apply_seqNo_cur (src n : Nat) : (s.apply (.seqNo src n)).cur = s.cur := rfl

@[simp] theorem State.apply_hide_mem (h : Hidden) : (s.apply (.hide h)).mem = s.mem := rfl
@[simp] theorem State.apply_hide_hidden (h : Hidden) : (s.apply (.hide h)).hidden = s.hidden ++ [h] := rfl
@[simp] theorem State.apply_hide_pkgs (h : Hidden) : (s.apply (.hide h)).pkgs = s.pkgs := rfl
@[simp] theorem State.apply_hide_dies (h : Hidden) : (s.apply (.hide h)).dies = s.dies := rfl
@[simp] theorem State.apply_hide_slots (h : Hidden) : (s.apply (.hide h)).slots = s.slots := rfl
@[simp] theorem State.apply_hide_nodes (h : Hidden) : (s.apply (.hide h)).nodes = s.nodes := rfl
@[simp] theorem State.apply_hide_ranges (h : Hidden) : (s.apply (.hide h)).ranges = s.ranges := rfl
@[simp] theorem State.apply_hide_roots (h : Hidden) : (s.apply (.hide h)).roots = s.roots := rfl
@[simp] theorem State.apply_hide_planes (h : Hidden) : (s.apply (.hide h)).planes = s.planes := rfl
@[simp] theorem State.apply_hide_barriers (h : Hidden) : (s.apply (.hide h)).barriers = s.barriers := rfl
@[simp] theorem State.apply_hide_windows (h : Hidden) : (s.apply (.hide h)).windows = s.windows := rfl
@[simp] theorem State.apply_hide_circuits (h : Hidden) : (s.apply (.hide h)).circuits = s.circuits := rfl
@[simp] theorem State.apply_hide_reqs (h : Hidden) : (s.apply (.hide h)).reqs = s.reqs := rfl
@[simp] theorem State.apply_hide_nextReq (h : Hidden) : (s.apply (.hide h)).nextReq = s.nextReq := rfl
@[simp] theorem State.apply_hide_seqs (h : Hidden) : (s.apply (.hide h)).seqs = s.seqs := rfl
@[simp] theorem State.apply_hide_now (h : Hidden) : (s.apply (.hide h)).now = s.now := rfl
@[simp] theorem State.apply_hide_timers (h : Hidden) : (s.apply (.hide h)).timers = s.timers := rfl
@[simp] theorem State.apply_hide_micro (h : Hidden) : (s.apply (.hide h)).micro = s.micro := rfl
@[simp] theorem State.apply_hide_agenda (h : Hidden) : (s.apply (.hide h)).agenda = s.agenda := rfl
@[simp] theorem State.apply_hide_fresh (h : Hidden) : (s.apply (.hide h)).fresh = s.fresh := rfl
@[simp] theorem State.apply_hide_cur (h : Hidden) : (s.apply (.hide h)).cur = s.cur := rfl

@[simp] theorem State.apply_unhide_mem (ref : Nat) : (s.apply (.unhide ref)).mem = s.mem := rfl
@[simp] theorem State.apply_unhide_hidden (ref : Nat) : (s.apply (.unhide ref)).hidden = s.hidden.filter fun h => h.ref != ref := rfl
@[simp] theorem State.apply_unhide_pkgs (ref : Nat) : (s.apply (.unhide ref)).pkgs = s.pkgs := rfl
@[simp] theorem State.apply_unhide_dies (ref : Nat) : (s.apply (.unhide ref)).dies = s.dies := rfl
@[simp] theorem State.apply_unhide_slots (ref : Nat) : (s.apply (.unhide ref)).slots = s.slots := rfl
@[simp] theorem State.apply_unhide_nodes (ref : Nat) : (s.apply (.unhide ref)).nodes = s.nodes := rfl
@[simp] theorem State.apply_unhide_ranges (ref : Nat) : (s.apply (.unhide ref)).ranges = s.ranges := rfl
@[simp] theorem State.apply_unhide_roots (ref : Nat) : (s.apply (.unhide ref)).roots = s.roots := rfl
@[simp] theorem State.apply_unhide_planes (ref : Nat) : (s.apply (.unhide ref)).planes = s.planes := rfl
@[simp] theorem State.apply_unhide_barriers (ref : Nat) : (s.apply (.unhide ref)).barriers = s.barriers := rfl
@[simp] theorem State.apply_unhide_windows (ref : Nat) : (s.apply (.unhide ref)).windows = s.windows := rfl
@[simp] theorem State.apply_unhide_circuits (ref : Nat) : (s.apply (.unhide ref)).circuits = s.circuits := rfl
@[simp] theorem State.apply_unhide_reqs (ref : Nat) : (s.apply (.unhide ref)).reqs = s.reqs := rfl
@[simp] theorem State.apply_unhide_nextReq (ref : Nat) : (s.apply (.unhide ref)).nextReq = s.nextReq := rfl
@[simp] theorem State.apply_unhide_seqs (ref : Nat) : (s.apply (.unhide ref)).seqs = s.seqs := rfl
@[simp] theorem State.apply_unhide_now (ref : Nat) : (s.apply (.unhide ref)).now = s.now := rfl
@[simp] theorem State.apply_unhide_timers (ref : Nat) : (s.apply (.unhide ref)).timers = s.timers := rfl
@[simp] theorem State.apply_unhide_micro (ref : Nat) : (s.apply (.unhide ref)).micro = s.micro := rfl
@[simp] theorem State.apply_unhide_agenda (ref : Nat) : (s.apply (.unhide ref)).agenda = s.agenda := rfl
@[simp] theorem State.apply_unhide_fresh (ref : Nat) : (s.apply (.unhide ref)).fresh = s.fresh := rfl
@[simp] theorem State.apply_unhide_cur (ref : Nat) : (s.apply (.unhide ref)).cur = s.cur := rfl

@[simp] theorem State.apply_addTimer_mem (t : Timer) : (s.apply (.addTimer t)).mem = s.mem := rfl
@[simp] theorem State.apply_addTimer_hidden (t : Timer) : (s.apply (.addTimer t)).hidden = s.hidden := rfl
@[simp] theorem State.apply_addTimer_pkgs (t : Timer) : (s.apply (.addTimer t)).pkgs = s.pkgs := rfl
@[simp] theorem State.apply_addTimer_dies (t : Timer) : (s.apply (.addTimer t)).dies = s.dies := rfl
@[simp] theorem State.apply_addTimer_slots (t : Timer) : (s.apply (.addTimer t)).slots = s.slots := rfl
@[simp] theorem State.apply_addTimer_nodes (t : Timer) : (s.apply (.addTimer t)).nodes = s.nodes := rfl
@[simp] theorem State.apply_addTimer_ranges (t : Timer) : (s.apply (.addTimer t)).ranges = s.ranges := rfl
@[simp] theorem State.apply_addTimer_roots (t : Timer) : (s.apply (.addTimer t)).roots = s.roots := rfl
@[simp] theorem State.apply_addTimer_planes (t : Timer) : (s.apply (.addTimer t)).planes = s.planes := rfl
@[simp] theorem State.apply_addTimer_barriers (t : Timer) : (s.apply (.addTimer t)).barriers = s.barriers := rfl
@[simp] theorem State.apply_addTimer_windows (t : Timer) : (s.apply (.addTimer t)).windows = s.windows := rfl
@[simp] theorem State.apply_addTimer_circuits (t : Timer) : (s.apply (.addTimer t)).circuits = s.circuits := rfl
@[simp] theorem State.apply_addTimer_reqs (t : Timer) : (s.apply (.addTimer t)).reqs = s.reqs := rfl
@[simp] theorem State.apply_addTimer_nextReq (t : Timer) : (s.apply (.addTimer t)).nextReq = s.nextReq := rfl
@[simp] theorem State.apply_addTimer_seqs (t : Timer) : (s.apply (.addTimer t)).seqs = s.seqs := rfl
@[simp] theorem State.apply_addTimer_now (t : Timer) : (s.apply (.addTimer t)).now = s.now := rfl
@[simp] theorem State.apply_addTimer_timers (t : Timer) : (s.apply (.addTimer t)).timers = s.timers ++ [t] := rfl
@[simp] theorem State.apply_addTimer_micro (t : Timer) : (s.apply (.addTimer t)).micro = s.micro := rfl
@[simp] theorem State.apply_addTimer_agenda (t : Timer) : (s.apply (.addTimer t)).agenda = s.agenda := rfl
@[simp] theorem State.apply_addTimer_fresh (t : Timer) : (s.apply (.addTimer t)).fresh = s.fresh := rfl
@[simp] theorem State.apply_addTimer_cur (t : Timer) : (s.apply (.addTimer t)).cur = s.cur := rfl

@[simp] theorem State.apply_dropTimer_mem (ev : Instr) : (s.apply (.dropTimer ev)).mem = s.mem := rfl
@[simp] theorem State.apply_dropTimer_hidden (ev : Instr) : (s.apply (.dropTimer ev)).hidden = s.hidden := rfl
@[simp] theorem State.apply_dropTimer_pkgs (ev : Instr) : (s.apply (.dropTimer ev)).pkgs = s.pkgs := rfl
@[simp] theorem State.apply_dropTimer_dies (ev : Instr) : (s.apply (.dropTimer ev)).dies = s.dies := rfl
@[simp] theorem State.apply_dropTimer_slots (ev : Instr) : (s.apply (.dropTimer ev)).slots = s.slots := rfl
@[simp] theorem State.apply_dropTimer_nodes (ev : Instr) : (s.apply (.dropTimer ev)).nodes = s.nodes := rfl
@[simp] theorem State.apply_dropTimer_ranges (ev : Instr) : (s.apply (.dropTimer ev)).ranges = s.ranges := rfl
@[simp] theorem State.apply_dropTimer_roots (ev : Instr) : (s.apply (.dropTimer ev)).roots = s.roots := rfl
@[simp] theorem State.apply_dropTimer_planes (ev : Instr) : (s.apply (.dropTimer ev)).planes = s.planes := rfl
@[simp] theorem State.apply_dropTimer_barriers (ev : Instr) : (s.apply (.dropTimer ev)).barriers = s.barriers := rfl
@[simp] theorem State.apply_dropTimer_windows (ev : Instr) : (s.apply (.dropTimer ev)).windows = s.windows := rfl
@[simp] theorem State.apply_dropTimer_circuits (ev : Instr) : (s.apply (.dropTimer ev)).circuits = s.circuits := rfl
@[simp] theorem State.apply_dropTimer_reqs (ev : Instr) : (s.apply (.dropTimer ev)).reqs = s.reqs := rfl
@[simp] theorem State.apply_dropTimer_nextReq (ev : Instr) : (s.apply (.dropTimer ev)).nextReq = s.nextReq := rfl
@[simp] theorem State.apply_dropTimer_seqs (ev : Instr) : (s.apply (.dropTimer ev)).seqs = s.seqs := rfl
@[simp] theorem State.apply_dropTimer_now (ev : Instr) : (s.apply (.dropTimer ev)).now = s.now := rfl
@[simp] theorem State.apply_dropTimer_timers (ev : Instr) : (s.apply (.dropTimer ev)).timers = s.timers.filter fun t => t.ev != ev := rfl
@[simp] theorem State.apply_dropTimer_micro (ev : Instr) : (s.apply (.dropTimer ev)).micro = s.micro := rfl
@[simp] theorem State.apply_dropTimer_agenda (ev : Instr) : (s.apply (.dropTimer ev)).agenda = s.agenda := rfl
@[simp] theorem State.apply_dropTimer_fresh (ev : Instr) : (s.apply (.dropTimer ev)).fresh = s.fresh := rfl
@[simp] theorem State.apply_dropTimer_cur (ev : Instr) : (s.apply (.dropTimer ev)).cur = s.cur := rfl

@[simp] theorem State.apply_micro_mem (l : List Instr) : (s.apply (.micro l)).mem = s.mem := rfl
@[simp] theorem State.apply_micro_hidden (l : List Instr) : (s.apply (.micro l)).hidden = s.hidden := rfl
@[simp] theorem State.apply_micro_pkgs (l : List Instr) : (s.apply (.micro l)).pkgs = s.pkgs := rfl
@[simp] theorem State.apply_micro_dies (l : List Instr) : (s.apply (.micro l)).dies = s.dies := rfl
@[simp] theorem State.apply_micro_slots (l : List Instr) : (s.apply (.micro l)).slots = s.slots := rfl
@[simp] theorem State.apply_micro_nodes (l : List Instr) : (s.apply (.micro l)).nodes = s.nodes := rfl
@[simp] theorem State.apply_micro_ranges (l : List Instr) : (s.apply (.micro l)).ranges = s.ranges := rfl
@[simp] theorem State.apply_micro_roots (l : List Instr) : (s.apply (.micro l)).roots = s.roots := rfl
@[simp] theorem State.apply_micro_planes (l : List Instr) : (s.apply (.micro l)).planes = s.planes := rfl
@[simp] theorem State.apply_micro_barriers (l : List Instr) : (s.apply (.micro l)).barriers = s.barriers := rfl
@[simp] theorem State.apply_micro_windows (l : List Instr) : (s.apply (.micro l)).windows = s.windows := rfl
@[simp] theorem State.apply_micro_circuits (l : List Instr) : (s.apply (.micro l)).circuits = s.circuits := rfl
@[simp] theorem State.apply_micro_reqs (l : List Instr) : (s.apply (.micro l)).reqs = s.reqs := rfl
@[simp] theorem State.apply_micro_nextReq (l : List Instr) : (s.apply (.micro l)).nextReq = s.nextReq := rfl
@[simp] theorem State.apply_micro_seqs (l : List Instr) : (s.apply (.micro l)).seqs = s.seqs := rfl
@[simp] theorem State.apply_micro_now (l : List Instr) : (s.apply (.micro l)).now = s.now := rfl
@[simp] theorem State.apply_micro_timers (l : List Instr) : (s.apply (.micro l)).timers = s.timers := rfl
@[simp] theorem State.apply_micro_micro (l : List Instr) : (s.apply (.micro l)).micro = l ++ s.micro := rfl
@[simp] theorem State.apply_micro_agenda (l : List Instr) : (s.apply (.micro l)).agenda = s.agenda := rfl
@[simp] theorem State.apply_micro_fresh (l : List Instr) : (s.apply (.micro l)).fresh = s.fresh := rfl
@[simp] theorem State.apply_micro_cur (l : List Instr) : (s.apply (.micro l)).cur = s.cur := rfl

@[simp] theorem State.apply_drawn_mem (n : Nat) : (s.apply (.drawn n)).mem = s.mem := rfl
@[simp] theorem State.apply_drawn_hidden (n : Nat) : (s.apply (.drawn n)).hidden = s.hidden := rfl
@[simp] theorem State.apply_drawn_pkgs (n : Nat) : (s.apply (.drawn n)).pkgs = s.pkgs := rfl
@[simp] theorem State.apply_drawn_dies (n : Nat) : (s.apply (.drawn n)).dies = s.dies := rfl
@[simp] theorem State.apply_drawn_slots (n : Nat) : (s.apply (.drawn n)).slots = s.slots := rfl
@[simp] theorem State.apply_drawn_nodes (n : Nat) : (s.apply (.drawn n)).nodes = s.nodes := rfl
@[simp] theorem State.apply_drawn_ranges (n : Nat) : (s.apply (.drawn n)).ranges = s.ranges := rfl
@[simp] theorem State.apply_drawn_roots (n : Nat) : (s.apply (.drawn n)).roots = s.roots := rfl
@[simp] theorem State.apply_drawn_planes (n : Nat) : (s.apply (.drawn n)).planes = s.planes := rfl
@[simp] theorem State.apply_drawn_barriers (n : Nat) : (s.apply (.drawn n)).barriers = s.barriers := rfl
@[simp] theorem State.apply_drawn_windows (n : Nat) : (s.apply (.drawn n)).windows = s.windows := rfl
@[simp] theorem State.apply_drawn_circuits (n : Nat) : (s.apply (.drawn n)).circuits = s.circuits := rfl
@[simp] theorem State.apply_drawn_reqs (n : Nat) : (s.apply (.drawn n)).reqs = s.reqs := rfl
@[simp] theorem State.apply_drawn_nextReq (n : Nat) : (s.apply (.drawn n)).nextReq = s.nextReq := rfl
@[simp] theorem State.apply_drawn_seqs (n : Nat) : (s.apply (.drawn n)).seqs = s.seqs := rfl
@[simp] theorem State.apply_drawn_now (n : Nat) : (s.apply (.drawn n)).now = s.now := rfl
@[simp] theorem State.apply_drawn_timers (n : Nat) : (s.apply (.drawn n)).timers = s.timers := rfl
@[simp] theorem State.apply_drawn_micro (n : Nat) : (s.apply (.drawn n)).micro = s.micro := rfl
@[simp] theorem State.apply_drawn_agenda (n : Nat) : (s.apply (.drawn n)).agenda = s.agenda := rfl
@[simp] theorem State.apply_drawn_fresh (n : Nat) : (s.apply (.drawn n)).fresh = s.fresh + n := rfl
@[simp] theorem State.apply_drawn_cur (n : Nat) : (s.apply (.drawn n)).cur = s.cur := rfl

@[simp] theorem State.apply_focus_mem (d : DieId) : (s.apply (.focus d)).mem = s.mem := rfl
@[simp] theorem State.apply_focus_hidden (d : DieId) : (s.apply (.focus d)).hidden = s.hidden := rfl
@[simp] theorem State.apply_focus_pkgs (d : DieId) : (s.apply (.focus d)).pkgs = s.pkgs := rfl
@[simp] theorem State.apply_focus_dies (d : DieId) : (s.apply (.focus d)).dies = s.dies := rfl
@[simp] theorem State.apply_focus_slots (d : DieId) : (s.apply (.focus d)).slots = s.slots := rfl
@[simp] theorem State.apply_focus_nodes (d : DieId) : (s.apply (.focus d)).nodes = s.nodes := rfl
@[simp] theorem State.apply_focus_ranges (d : DieId) : (s.apply (.focus d)).ranges = s.ranges := rfl
@[simp] theorem State.apply_focus_roots (d : DieId) : (s.apply (.focus d)).roots = s.roots := rfl
@[simp] theorem State.apply_focus_planes (d : DieId) : (s.apply (.focus d)).planes = s.planes := rfl
@[simp] theorem State.apply_focus_barriers (d : DieId) : (s.apply (.focus d)).barriers = s.barriers := rfl
@[simp] theorem State.apply_focus_windows (d : DieId) : (s.apply (.focus d)).windows = s.windows := rfl
@[simp] theorem State.apply_focus_circuits (d : DieId) : (s.apply (.focus d)).circuits = s.circuits := rfl
@[simp] theorem State.apply_focus_reqs (d : DieId) : (s.apply (.focus d)).reqs = s.reqs := rfl
@[simp] theorem State.apply_focus_nextReq (d : DieId) : (s.apply (.focus d)).nextReq = s.nextReq := rfl
@[simp] theorem State.apply_focus_seqs (d : DieId) : (s.apply (.focus d)).seqs = s.seqs := rfl
@[simp] theorem State.apply_focus_now (d : DieId) : (s.apply (.focus d)).now = s.now := rfl
@[simp] theorem State.apply_focus_timers (d : DieId) : (s.apply (.focus d)).timers = s.timers := rfl
@[simp] theorem State.apply_focus_micro (d : DieId) : (s.apply (.focus d)).micro = s.micro := rfl
@[simp] theorem State.apply_focus_agenda (d : DieId) : (s.apply (.focus d)).agenda = s.agenda := rfl
@[simp] theorem State.apply_focus_fresh (d : DieId) : (s.apply (.focus d)).fresh = s.fresh := rfl
@[simp] theorem State.apply_focus_cur (d : DieId) : (s.apply (.focus d)).cur = d := rfl

@[simp] theorem State.apply_mem_mem (a : Nat) (bs : List Byte) : (s.apply (.mem a bs)).mem = memWrite a bs s.mem := rfl
@[simp] theorem State.apply_mem_hidden (a : Nat) (bs : List Byte) : (s.apply (.mem a bs)).hidden = s.hidden := rfl
@[simp] theorem State.apply_mem_pkgs (a : Nat) (bs : List Byte) : (s.apply (.mem a bs)).pkgs = s.pkgs := rfl
@[simp] theorem State.apply_mem_dies (a : Nat) (bs : List Byte) : (s.apply (.mem a bs)).dies = s.dies := rfl
@[simp] theorem State.apply_mem_slots (a : Nat) (bs : List Byte) : (s.apply (.mem a bs)).slots = s.slots := rfl
@[simp] theorem State.apply_mem_nodes (a : Nat) (bs : List Byte) : (s.apply (.mem a bs)).nodes = s.nodes := rfl
@[simp] theorem State.apply_mem_ranges (a : Nat) (bs : List Byte) : (s.apply (.mem a bs)).ranges = s.ranges := rfl
@[simp] theorem State.apply_mem_roots (a : Nat) (bs : List Byte) : (s.apply (.mem a bs)).roots = s.roots := rfl
@[simp] theorem State.apply_mem_planes (a : Nat) (bs : List Byte) : (s.apply (.mem a bs)).planes = s.planes := rfl
@[simp] theorem State.apply_mem_barriers (a : Nat) (bs : List Byte) : (s.apply (.mem a bs)).barriers = s.barriers := rfl
@[simp] theorem State.apply_mem_windows (a : Nat) (bs : List Byte) : (s.apply (.mem a bs)).windows = s.windows := rfl
@[simp] theorem State.apply_mem_circuits (a : Nat) (bs : List Byte) : (s.apply (.mem a bs)).circuits = s.circuits := rfl
@[simp] theorem State.apply_mem_reqs (a : Nat) (bs : List Byte) : (s.apply (.mem a bs)).reqs = s.reqs := rfl
@[simp] theorem State.apply_mem_nextReq (a : Nat) (bs : List Byte) : (s.apply (.mem a bs)).nextReq = s.nextReq := rfl
@[simp] theorem State.apply_mem_seqs (a : Nat) (bs : List Byte) : (s.apply (.mem a bs)).seqs = s.seqs := rfl
@[simp] theorem State.apply_mem_now (a : Nat) (bs : List Byte) : (s.apply (.mem a bs)).now = s.now := rfl
@[simp] theorem State.apply_mem_timers (a : Nat) (bs : List Byte) : (s.apply (.mem a bs)).timers = s.timers := rfl
@[simp] theorem State.apply_mem_micro (a : Nat) (bs : List Byte) : (s.apply (.mem a bs)).micro = s.micro := rfl
@[simp] theorem State.apply_mem_agenda (a : Nat) (bs : List Byte) : (s.apply (.mem a bs)).agenda = s.agenda := rfl
@[simp] theorem State.apply_mem_fresh (a : Nat) (bs : List Byte) : (s.apply (.mem a bs)).fresh = s.fresh := rfl
@[simp] theorem State.apply_mem_cur (a : Nat) (bs : List Byte) : (s.apply (.mem a bs)).cur = s.cur := rfl

@[simp] theorem State.apply_zero_mem (a n : Nat) : (s.apply (.zero a n)).mem = memClear a n s.mem := rfl
@[simp] theorem State.apply_zero_hidden (a n : Nat) : (s.apply (.zero a n)).hidden = s.hidden := rfl
@[simp] theorem State.apply_zero_pkgs (a n : Nat) : (s.apply (.zero a n)).pkgs = s.pkgs := rfl
@[simp] theorem State.apply_zero_dies (a n : Nat) : (s.apply (.zero a n)).dies = s.dies := rfl
@[simp] theorem State.apply_zero_slots (a n : Nat) : (s.apply (.zero a n)).slots = s.slots := rfl
@[simp] theorem State.apply_zero_nodes (a n : Nat) : (s.apply (.zero a n)).nodes = s.nodes := rfl
@[simp] theorem State.apply_zero_ranges (a n : Nat) : (s.apply (.zero a n)).ranges = s.ranges := rfl
@[simp] theorem State.apply_zero_roots (a n : Nat) : (s.apply (.zero a n)).roots = s.roots := rfl
@[simp] theorem State.apply_zero_planes (a n : Nat) : (s.apply (.zero a n)).planes = s.planes := rfl
@[simp] theorem State.apply_zero_barriers (a n : Nat) : (s.apply (.zero a n)).barriers = s.barriers := rfl
@[simp] theorem State.apply_zero_windows (a n : Nat) : (s.apply (.zero a n)).windows = s.windows := rfl
@[simp] theorem State.apply_zero_circuits (a n : Nat) : (s.apply (.zero a n)).circuits = s.circuits := rfl
@[simp] theorem State.apply_zero_reqs (a n : Nat) : (s.apply (.zero a n)).reqs = s.reqs := rfl
@[simp] theorem State.apply_zero_nextReq (a n : Nat) : (s.apply (.zero a n)).nextReq = s.nextReq := rfl
@[simp] theorem State.apply_zero_seqs (a n : Nat) : (s.apply (.zero a n)).seqs = s.seqs := rfl
@[simp] theorem State.apply_zero_now (a n : Nat) : (s.apply (.zero a n)).now = s.now := rfl
@[simp] theorem State.apply_zero_timers (a n : Nat) : (s.apply (.zero a n)).timers = s.timers := rfl
@[simp] theorem State.apply_zero_micro (a n : Nat) : (s.apply (.zero a n)).micro = s.micro := rfl
@[simp] theorem State.apply_zero_agenda (a n : Nat) : (s.apply (.zero a n)).agenda = s.agenda := rfl
@[simp] theorem State.apply_zero_fresh (a n : Nat) : (s.apply (.zero a n)).fresh = s.fresh := rfl
@[simp] theorem State.apply_zero_cur (a n : Nat) : (s.apply (.zero a n)).cur = s.cur := rfl

/-! ## Registers and results in flight of a slot -/

variable (c : Ctx)

@[simp] theorem Ctx.push_mode (due ph : Nat) (eff : Effect) : (c.push due ph eff).mode = c.mode := rfl
@[simp] theorem Ctx.push_rid (due ph : Nat) (eff : Effect) : (c.push due ph eff).rid = c.rid := rfl
@[simp] theorem Ctx.push_slot (due ph : Nat) (eff : Effect) : (c.push due ph eff).slot = c.slot := rfl
@[simp] theorem Ctx.push_pkg (due ph : Nat) (eff : Effect) : (c.push due ph eff).pkg = c.pkg := rfl
@[simp] theorem Ctx.push_phys (due ph : Nat) (eff : Effect) : (c.push due ph eff).phys = c.phys := rfl
@[simp] theorem Ctx.push_sregs (due ph : Nat) (eff : Effect) : (c.push due ph eff).sregs = c.sregs := rfl
@[simp] theorem Ctx.push_pregs (due ph : Nat) (eff : Effect) : (c.push due ph eff).pregs = c.pregs := rfl
@[simp] theorem Ctx.push_vregs (due ph : Nat) (eff : Effect) : (c.push due ph eff).vregs = c.vregs := rfl
@[simp] theorem Ctx.push_masks (due ph : Nat) (eff : Effect) : (c.push due ph eff).masks = c.masks := rfl
@[simp] theorem Ctx.push_stage (due ph : Nat) (eff : Effect) : (c.push due ph eff).stage = c.stage := rfl
@[simp] theorem Ctx.push_queues (due ph : Nat) (eff : Effect) : (c.push due ph eff).queues = c.queues := rfl
@[simp] theorem Ctx.push_accs (due ph : Nat) (eff : Effect) : (c.push due ph eff).accs = c.accs := rfl
@[simp] theorem Ctx.push_tids (due ph : Nat) (eff : Effect) : (c.push due ph eff).tids = c.tids := rfl
@[simp] theorem Ctx.push_tags (due ph : Nat) (eff : Effect) : (c.push due ph eff).tags = c.tags := rfl
@[simp] theorem Ctx.push_xstat (due ph : Nat) (eff : Effect) : (c.push due ph eff).xstat = c.xstat := rfl
@[simp] theorem Ctx.push_pc (due ph : Nat) (eff : Effect) : (c.push due ph eff).pc = c.pc := rfl
@[simp] theorem Ctx.push_rrb (due ph : Nat) (eff : Effect) : (c.push due ph eff).rrb = c.rrb := rfl
@[simp] theorem Ctx.push_grb (due ph : Nat) (eff : Effect) : (c.push due ph eff).grb = c.grb := rfl
@[simp] theorem Ctx.push_vflags (due ph : Nat) (eff : Effect) : (c.push due ph eff).vflags = c.vflags := rfl
@[simp] theorem Ctx.push_fsr (due ph : Nat) (eff : Effect) : (c.push due ph eff).fsr = c.fsr := rfl
@[simp] theorem Ctx.push_far (due ph : Nat) (eff : Effect) : (c.push due ph eff).far = c.far := rfl
@[simp] theorem Ctx.push_tbase (due ph : Nat) (eff : Effect) : (c.push due ph eff).tbase = c.tbase := rfl
@[simp] theorem Ctx.push_alast (due ph : Nat) (eff : Effect) : (c.push due ph eff).alast = c.alast := rfl
@[simp] theorem Ctx.push_tguard (due ph : Nat) (eff : Effect) : (c.push due ph eff).tguard = c.tguard := rfl
@[simp] theorem Ctx.push_waitlim (due ph : Nat) (eff : Effect) : (c.push due ph eff).waitlim = c.waitlim := rfl
@[simp] theorem Ctx.push_progress (due ph : Nat) (eff : Effect) : (c.push due ph eff).progress = c.progress := rfl
@[simp] theorem Ctx.push_opsel (due ph : Nat) (eff : Effect) : (c.push due ph eff).opsel = c.opsel := rfl
@[simp] theorem Ctx.push_placegen (due ph : Nat) (eff : Effect) : (c.push due ph eff).placegen = c.placegen := rfl
@[simp] theorem Ctx.push_startAt (due ph : Nat) (eff : Effect) : (c.push due ph eff).startAt = c.startAt := rfl
@[simp] theorem Ctx.push_slipSeen (due ph : Nat) (eff : Effect) : (c.push due ph eff).slipSeen = c.slipSeen := rfl
@[simp] theorem Ctx.push_lq (due ph : Nat) (eff : Effect) : (c.push due ph eff).lq = c.lq := rfl
@[simp] theorem Ctx.push_nextLq (due ph : Nat) (eff : Effect) : (c.push due ph eff).nextLq = c.nextLq := rfl
@[simp] theorem Ctx.push_sq (due ph : Nat) (eff : Effect) : (c.push due ph eff).sq = c.sq := rfl
@[simp] theorem Ctx.push_aq (due ph : Nat) (eff : Effect) : (c.push due ph eff).aq = c.aq := rfl
@[simp] theorem Ctx.push_deferred (due ph : Nat) (eff : Effect) : (c.push due ph eff).deferred = c.deferred := rfl
@[simp] theorem Ctx.push_engine (due ph : Nat) (eff : Effect) : (c.push due ph eff).engine = c.engine := rfl
@[simp] theorem Ctx.push_loop (due ph : Nat) (eff : Effect) : (c.push due ph eff).loop = c.loop := rfl
@[simp] theorem Ctx.push_loopHeld (due ph : Nat) (eff : Effect) : (c.push due ph eff).loopHeld = c.loopHeld := rfl
@[simp] theorem Ctx.push_matrix (due ph : Nat) (eff : Effect) : (c.push due ph eff).matrix = c.matrix := rfl
@[simp] theorem Ctx.push_solvers (due ph : Nat) (eff : Effect) : (c.push due ph eff).solvers = c.solvers := rfl
@[simp] theorem Ctx.push_land (due ph : Nat) (eff : Effect) : (c.push due ph eff).land = c.land ++ [{ due := due, ph := ph, seq := c.nextSeq, eff := eff }] := rfl
@[simp] theorem Ctx.push_nextSeq (due ph : Nat) (eff : Effect) : (c.push due ph eff).nextSeq = c.nextSeq + 1 := rfl
@[simp] theorem Ctx.push_cuffs (due ph : Nat) (eff : Effect) : (c.push due ph eff).cuffs = c.cuffs := rfl
@[simp] theorem Ctx.push_lost (due ph : Nat) (eff : Effect) : (c.push due ph eff).lost = c.lost := rfl
@[simp] theorem Ctx.push_pos (due ph : Nat) (eff : Effect) : (c.push due ph eff).pos = c.pos := rfl
@[simp] theorem Ctx.push_origin (due ph : Nat) (eff : Effect) : (c.push due ph eff).origin = c.origin := rfl
@[simp] theorem Ctx.push_spanAt (due ph : Nat) (eff : Effect) : (c.push due ph eff).spanAt = c.spanAt := rfl
@[simp] theorem Ctx.push_earliest (due ph : Nat) (eff : Effect) : (c.push due ph eff).earliest = c.earliest := rfl
@[simp] theorem Ctx.push_stamp (due ph : Nat) (eff : Effect) : (c.push due ph eff).stamp = c.stamp := rfl
@[simp] theorem Ctx.push_fresh (due ph : Nat) (eff : Effect) : (c.push due ph eff).fresh = c.fresh := rfl
@[simp] theorem Ctx.push_tried (due ph : Nat) (eff : Effect) : (c.push due ph eff).tried = c.tried := rfl
@[simp] theorem Ctx.push_anchorOk (due ph : Nat) (eff : Effect) : (c.push due ph eff).anchorOk = c.anchorOk := rfl
@[simp] theorem Ctx.push_iss (due ph : Nat) (eff : Effect) : (c.push due ph eff).iss = c.iss := rfl
@[simp] theorem Ctx.push_nhist (due ph : Nat) (eff : Effect) : (c.push due ph eff).nhist = c.nhist := rfl
@[simp] theorem Ctx.push_vclass (due ph : Nat) (eff : Effect) : (c.push due ph eff).vclass = c.vclass := rfl
@[simp] theorem Ctx.push_wait (due ph : Nat) (eff : Effect) : (c.push due ph eff).wait = c.wait := rfl
@[simp] theorem Ctx.push_acqUntil (due ph : Nat) (eff : Effect) : (c.push due ph eff).acqUntil = c.acqUntil := rfl
@[simp] theorem Ctx.push_performed (due ph : Nat) (eff : Effect) : (c.push due ph eff).performed = c.performed := rfl
@[simp] theorem Ctx.push_ownRead (due ph : Nat) (eff : Effect) : (c.push due ph eff).ownRead = c.ownRead := rfl
@[simp] theorem Ctx.push_ownRed (due ph : Nat) (eff : Effect) : (c.push due ph eff).ownRed = c.ownRed := rfl
@[simp] theorem Ctx.push_pending (due ph : Nat) (eff : Effect) : (c.push due ph eff).pending = c.pending := rfl
@[simp] theorem Ctx.push_phases (due ph : Nat) (eff : Effect) : (c.push due ph eff).phases = c.phases := rfl
@[simp] theorem Ctx.push_kept (due ph : Nat) (eff : Effect) : (c.push due ph eff).kept = c.kept := rfl
@[simp] theorem Ctx.push_aside (due ph : Nat) (eff : Effect) : (c.push due ph eff).aside = c.aside := rfl
@[simp] theorem Ctx.push_drainEnd (due ph : Nat) (eff : Effect) : (c.push due ph eff).drainEnd = c.drainEnd := rfl
@[simp] theorem Ctx.push_shadowed (due ph : Nat) (eff : Effect) : (c.push due ph eff).shadowed = c.shadowed := rfl
@[simp] theorem Ctx.push_stopPos (due ph : Nat) (eff : Effect) : (c.push due ph eff).stopPos = c.stopPos := rfl
@[simp] theorem Ctx.push_stopTick (due ph : Nat) (eff : Effect) : (c.push due ph eff).stopTick = c.stopTick := rfl
@[simp] theorem Ctx.push_atYield (due ph : Nat) (eff : Effect) : (c.push due ph eff).atYield = c.atYield := rfl
@[simp] theorem Ctx.push_rows (due ph : Nat) (eff : Effect) : (c.push due ph eff).rows = c.rows := rfl
@[simp] theorem Ctx.push_routes (due ph : Nat) (eff : Effect) : (c.push due ph eff).routes = c.routes := rfl
@[simp] theorem Ctx.push_bmem (due ph : Nat) (eff : Effect) : (c.push due ph eff).bmem = c.bmem := rfl
@[simp] theorem Ctx.push_bound (due ph : Nat) (eff : Effect) : (c.push due ph eff).bound = c.bound := rfl
@[simp] theorem Ctx.push_xrecvs (due ph : Nat) (eff : Effect) : (c.push due ph eff).xrecvs = c.xrecvs := rfl
@[simp] theorem Ctx.push_late (due ph : Nat) (eff : Effect) : (c.push due ph eff).late = c.late := rfl

@[simp] theorem Ctx.progressed_mode (t : Nat) : (c.progressed t).mode = c.mode := rfl
@[simp] theorem Ctx.progressed_rid (t : Nat) : (c.progressed t).rid = c.rid := rfl
@[simp] theorem Ctx.progressed_slot (t : Nat) : (c.progressed t).slot = c.slot := rfl
@[simp] theorem Ctx.progressed_pkg (t : Nat) : (c.progressed t).pkg = c.pkg := rfl
@[simp] theorem Ctx.progressed_phys (t : Nat) : (c.progressed t).phys = c.phys := rfl
@[simp] theorem Ctx.progressed_sregs (t : Nat) : (c.progressed t).sregs = c.sregs := rfl
@[simp] theorem Ctx.progressed_pregs (t : Nat) : (c.progressed t).pregs = c.pregs := rfl
@[simp] theorem Ctx.progressed_vregs (t : Nat) : (c.progressed t).vregs = c.vregs := rfl
@[simp] theorem Ctx.progressed_masks (t : Nat) : (c.progressed t).masks = c.masks := rfl
@[simp] theorem Ctx.progressed_stage (t : Nat) : (c.progressed t).stage = c.stage := rfl
@[simp] theorem Ctx.progressed_queues (t : Nat) : (c.progressed t).queues = c.queues := rfl
@[simp] theorem Ctx.progressed_accs (t : Nat) : (c.progressed t).accs = c.accs := rfl
@[simp] theorem Ctx.progressed_tids (t : Nat) : (c.progressed t).tids = c.tids := rfl
@[simp] theorem Ctx.progressed_tags (t : Nat) : (c.progressed t).tags = c.tags := rfl
@[simp] theorem Ctx.progressed_xstat (t : Nat) : (c.progressed t).xstat = c.xstat := rfl
@[simp] theorem Ctx.progressed_pc (t : Nat) : (c.progressed t).pc = c.pc := rfl
@[simp] theorem Ctx.progressed_rrb (t : Nat) : (c.progressed t).rrb = c.rrb := rfl
@[simp] theorem Ctx.progressed_grb (t : Nat) : (c.progressed t).grb = c.grb := rfl
@[simp] theorem Ctx.progressed_vflags (t : Nat) : (c.progressed t).vflags = c.vflags := rfl
@[simp] theorem Ctx.progressed_fsr (t : Nat) : (c.progressed t).fsr = c.fsr := rfl
@[simp] theorem Ctx.progressed_far (t : Nat) : (c.progressed t).far = c.far := rfl
@[simp] theorem Ctx.progressed_tbase (t : Nat) : (c.progressed t).tbase = c.tbase := rfl
@[simp] theorem Ctx.progressed_alast (t : Nat) : (c.progressed t).alast = c.alast := rfl
@[simp] theorem Ctx.progressed_tguard (t : Nat) : (c.progressed t).tguard = c.tguard := rfl
@[simp] theorem Ctx.progressed_waitlim (t : Nat) : (c.progressed t).waitlim = c.waitlim := rfl
@[simp] theorem Ctx.progressed_progress (t : Nat) : (c.progressed t).progress = t := rfl
@[simp] theorem Ctx.progressed_opsel (t : Nat) : (c.progressed t).opsel = c.opsel := rfl
@[simp] theorem Ctx.progressed_placegen (t : Nat) : (c.progressed t).placegen = c.placegen := rfl
@[simp] theorem Ctx.progressed_startAt (t : Nat) : (c.progressed t).startAt = c.startAt := rfl
@[simp] theorem Ctx.progressed_slipSeen (t : Nat) : (c.progressed t).slipSeen = c.slipSeen := rfl
@[simp] theorem Ctx.progressed_lq (t : Nat) : (c.progressed t).lq = c.lq := rfl
@[simp] theorem Ctx.progressed_nextLq (t : Nat) : (c.progressed t).nextLq = c.nextLq := rfl
@[simp] theorem Ctx.progressed_sq (t : Nat) : (c.progressed t).sq = c.sq := rfl
@[simp] theorem Ctx.progressed_aq (t : Nat) : (c.progressed t).aq = c.aq := rfl
@[simp] theorem Ctx.progressed_deferred (t : Nat) : (c.progressed t).deferred = c.deferred := rfl
@[simp] theorem Ctx.progressed_engine (t : Nat) : (c.progressed t).engine = c.engine := rfl
@[simp] theorem Ctx.progressed_loop (t : Nat) : (c.progressed t).loop = c.loop := rfl
@[simp] theorem Ctx.progressed_loopHeld (t : Nat) : (c.progressed t).loopHeld = c.loopHeld := rfl
@[simp] theorem Ctx.progressed_matrix (t : Nat) : (c.progressed t).matrix = c.matrix := rfl
@[simp] theorem Ctx.progressed_solvers (t : Nat) : (c.progressed t).solvers = c.solvers := rfl
@[simp] theorem Ctx.progressed_land (t : Nat) : (c.progressed t).land = c.land := rfl
@[simp] theorem Ctx.progressed_nextSeq (t : Nat) : (c.progressed t).nextSeq = c.nextSeq := rfl
@[simp] theorem Ctx.progressed_cuffs (t : Nat) : (c.progressed t).cuffs = c.cuffs := rfl
@[simp] theorem Ctx.progressed_lost (t : Nat) : (c.progressed t).lost = c.lost := rfl
@[simp] theorem Ctx.progressed_pos (t : Nat) : (c.progressed t).pos = c.pos := rfl
@[simp] theorem Ctx.progressed_origin (t : Nat) : (c.progressed t).origin = c.origin := rfl
@[simp] theorem Ctx.progressed_spanAt (t : Nat) : (c.progressed t).spanAt = c.spanAt := rfl
@[simp] theorem Ctx.progressed_earliest (t : Nat) : (c.progressed t).earliest = c.earliest := rfl
@[simp] theorem Ctx.progressed_stamp (t : Nat) : (c.progressed t).stamp = c.stamp := rfl
@[simp] theorem Ctx.progressed_fresh (t : Nat) : (c.progressed t).fresh = c.fresh := rfl
@[simp] theorem Ctx.progressed_tried (t : Nat) : (c.progressed t).tried = c.tried := rfl
@[simp] theorem Ctx.progressed_anchorOk (t : Nat) : (c.progressed t).anchorOk = c.anchorOk := rfl
@[simp] theorem Ctx.progressed_iss (t : Nat) : (c.progressed t).iss = c.iss := rfl
@[simp] theorem Ctx.progressed_nhist (t : Nat) : (c.progressed t).nhist = c.nhist := rfl
@[simp] theorem Ctx.progressed_vclass (t : Nat) : (c.progressed t).vclass = c.vclass := rfl
@[simp] theorem Ctx.progressed_wait (t : Nat) : (c.progressed t).wait = c.wait := rfl
@[simp] theorem Ctx.progressed_acqUntil (t : Nat) : (c.progressed t).acqUntil = c.acqUntil := rfl
@[simp] theorem Ctx.progressed_performed (t : Nat) : (c.progressed t).performed = c.performed := rfl
@[simp] theorem Ctx.progressed_ownRead (t : Nat) : (c.progressed t).ownRead = c.ownRead := rfl
@[simp] theorem Ctx.progressed_ownRed (t : Nat) : (c.progressed t).ownRed = c.ownRed := rfl
@[simp] theorem Ctx.progressed_pending (t : Nat) : (c.progressed t).pending = c.pending := rfl
@[simp] theorem Ctx.progressed_phases (t : Nat) : (c.progressed t).phases = c.phases := rfl
@[simp] theorem Ctx.progressed_kept (t : Nat) : (c.progressed t).kept = c.kept := rfl
@[simp] theorem Ctx.progressed_aside (t : Nat) : (c.progressed t).aside = c.aside := rfl
@[simp] theorem Ctx.progressed_drainEnd (t : Nat) : (c.progressed t).drainEnd = c.drainEnd := rfl
@[simp] theorem Ctx.progressed_shadowed (t : Nat) : (c.progressed t).shadowed = c.shadowed := rfl
@[simp] theorem Ctx.progressed_stopPos (t : Nat) : (c.progressed t).stopPos = c.stopPos := rfl
@[simp] theorem Ctx.progressed_stopTick (t : Nat) : (c.progressed t).stopTick = c.stopTick := rfl
@[simp] theorem Ctx.progressed_atYield (t : Nat) : (c.progressed t).atYield = c.atYield := rfl
@[simp] theorem Ctx.progressed_rows (t : Nat) : (c.progressed t).rows = c.rows := rfl
@[simp] theorem Ctx.progressed_routes (t : Nat) : (c.progressed t).routes = c.routes := rfl
@[simp] theorem Ctx.progressed_bmem (t : Nat) : (c.progressed t).bmem = c.bmem := rfl
@[simp] theorem Ctx.progressed_bound (t : Nat) : (c.progressed t).bound = c.bound := rfl
@[simp] theorem Ctx.progressed_xrecvs (t : Nat) : (c.progressed t).xrecvs = c.xrecvs := rfl
@[simp] theorem Ctx.progressed_late (t : Nat) : (c.progressed t).late = c.late := rfl

@[simp] theorem Ctx.halt_mode : c.halt.mode = .halted := by
  unfold Ctx.halt
  split
  · simpa using ‹(c.mode == .halted) = true›
  · rfl
@[simp] theorem Ctx.halt_rid : c.halt.rid = c.rid := by
  unfold Ctx.halt
  split <;> rfl
@[simp] theorem Ctx.halt_slot : c.halt.slot = c.slot := by
  unfold Ctx.halt
  split <;> rfl
@[simp] theorem Ctx.halt_pkg : c.halt.pkg = c.pkg := by
  unfold Ctx.halt
  split <;> rfl
@[simp] theorem Ctx.halt_phys : c.halt.phys = c.phys := by
  unfold Ctx.halt
  split <;> rfl
@[simp] theorem Ctx.halt_sregs : c.halt.sregs = c.sregs := by
  unfold Ctx.halt
  split <;> rfl
@[simp] theorem Ctx.halt_pregs : c.halt.pregs = c.pregs := by
  unfold Ctx.halt
  split <;> rfl
@[simp] theorem Ctx.halt_vregs : c.halt.vregs = c.vregs := by
  unfold Ctx.halt
  split <;> rfl
@[simp] theorem Ctx.halt_masks : c.halt.masks = c.masks := by
  unfold Ctx.halt
  split <;> rfl
@[simp] theorem Ctx.halt_stage : c.halt.stage = c.stage := by
  unfold Ctx.halt
  split <;> rfl
@[simp] theorem Ctx.halt_queues : c.halt.queues = c.queues := by
  unfold Ctx.halt
  split <;> rfl
@[simp] theorem Ctx.halt_accs : c.halt.accs = c.accs := by
  unfold Ctx.halt
  split <;> rfl
@[simp] theorem Ctx.halt_tids : c.halt.tids = c.tids := by
  unfold Ctx.halt
  split <;> rfl
@[simp] theorem Ctx.halt_tags : c.halt.tags = c.tags := by
  unfold Ctx.halt
  split <;> rfl
@[simp] theorem Ctx.halt_xstat : c.halt.xstat = c.xstat := by
  unfold Ctx.halt
  split <;> rfl
@[simp] theorem Ctx.halt_pc : c.halt.pc = c.pc := by
  unfold Ctx.halt
  split <;> rfl
@[simp] theorem Ctx.halt_rrb : c.halt.rrb = c.rrb := by
  unfold Ctx.halt
  split <;> rfl
@[simp] theorem Ctx.halt_grb : c.halt.grb = c.grb := by
  unfold Ctx.halt
  split <;> rfl
@[simp] theorem Ctx.halt_vflags : c.halt.vflags = c.vflags := by
  unfold Ctx.halt
  split <;> rfl
@[simp] theorem Ctx.halt_fsr : c.halt.fsr = c.fsr := by
  unfold Ctx.halt
  split <;> rfl
@[simp] theorem Ctx.halt_far : c.halt.far = c.far := by
  unfold Ctx.halt
  split <;> rfl
@[simp] theorem Ctx.halt_tbase : c.halt.tbase = c.tbase := by
  unfold Ctx.halt
  split <;> rfl
@[simp] theorem Ctx.halt_alast : c.halt.alast = c.alast := by
  unfold Ctx.halt
  split <;> rfl
@[simp] theorem Ctx.halt_tguard : c.halt.tguard = c.tguard := by
  unfold Ctx.halt
  split <;> rfl
@[simp] theorem Ctx.halt_waitlim : c.halt.waitlim = c.waitlim := by
  unfold Ctx.halt
  split <;> rfl
@[simp] theorem Ctx.halt_progress : c.halt.progress = c.progress := by
  unfold Ctx.halt
  split <;> rfl
@[simp] theorem Ctx.halt_opsel : c.halt.opsel = c.opsel := by
  unfold Ctx.halt
  split <;> rfl
@[simp] theorem Ctx.halt_placegen : c.halt.placegen = c.placegen := by
  unfold Ctx.halt
  split <;> rfl
@[simp] theorem Ctx.halt_startAt : c.halt.startAt = c.startAt := by
  unfold Ctx.halt
  split <;> rfl
@[simp] theorem Ctx.halt_slipSeen : c.halt.slipSeen = c.slipSeen := by
  unfold Ctx.halt
  split <;> rfl
@[simp] theorem Ctx.halt_lq : c.halt.lq = c.lq := by
  unfold Ctx.halt
  split <;> rfl
@[simp] theorem Ctx.halt_nextLq : c.halt.nextLq = c.nextLq := by
  unfold Ctx.halt
  split <;> rfl
@[simp] theorem Ctx.halt_sq : c.halt.sq = c.sq := by
  unfold Ctx.halt
  split <;> rfl
@[simp] theorem Ctx.halt_aq : c.halt.aq = c.aq := by
  unfold Ctx.halt
  split <;> rfl
@[simp] theorem Ctx.halt_deferred : c.halt.deferred = c.deferred := by
  unfold Ctx.halt
  split <;> rfl
@[simp] theorem Ctx.halt_engine : c.halt.engine = c.engine := by
  unfold Ctx.halt
  split <;> rfl
@[simp] theorem Ctx.halt_loop : c.halt.loop = c.loop := by
  unfold Ctx.halt
  split <;> rfl
@[simp] theorem Ctx.halt_loopHeld : c.halt.loopHeld = c.loopHeld := by
  unfold Ctx.halt
  split <;> rfl
@[simp] theorem Ctx.halt_matrix : c.halt.matrix = c.matrix := by
  unfold Ctx.halt
  split <;> rfl
@[simp] theorem Ctx.halt_solvers : c.halt.solvers = c.solvers := by
  unfold Ctx.halt
  split <;> rfl
@[simp] theorem Ctx.halt_land : c.halt.land = c.land := by
  unfold Ctx.halt
  split <;> rfl
@[simp] theorem Ctx.halt_nextSeq : c.halt.nextSeq = c.nextSeq := by
  unfold Ctx.halt
  split <;> rfl
@[simp] theorem Ctx.halt_cuffs : c.halt.cuffs = c.cuffs := by
  unfold Ctx.halt
  split <;> rfl
@[simp] theorem Ctx.halt_lost : c.halt.lost = c.lost := by
  unfold Ctx.halt
  split <;> rfl
@[simp] theorem Ctx.halt_pos : c.halt.pos = c.pos := by
  unfold Ctx.halt
  split <;> rfl
@[simp] theorem Ctx.halt_origin : c.halt.origin = c.origin := by
  unfold Ctx.halt
  split <;> rfl
@[simp] theorem Ctx.halt_spanAt : c.halt.spanAt = c.spanAt := by
  unfold Ctx.halt
  split <;> rfl
@[simp] theorem Ctx.halt_earliest : c.halt.earliest = c.earliest := by
  unfold Ctx.halt
  split <;> rfl
@[simp] theorem Ctx.halt_stamp : c.halt.stamp = c.stamp := by
  unfold Ctx.halt
  split <;> rfl
@[simp] theorem Ctx.halt_fresh : c.halt.fresh = c.fresh := by
  unfold Ctx.halt
  split <;> rfl
@[simp] theorem Ctx.halt_tried : c.halt.tried = c.tried := by
  unfold Ctx.halt
  split <;> rfl
@[simp] theorem Ctx.halt_anchorOk : c.halt.anchorOk = c.anchorOk := by
  unfold Ctx.halt
  split <;> rfl
@[simp] theorem Ctx.halt_iss : c.halt.iss = c.iss := by
  unfold Ctx.halt
  split <;> rfl
@[simp] theorem Ctx.halt_nhist : c.halt.nhist = c.nhist := by
  unfold Ctx.halt
  split <;> rfl
@[simp] theorem Ctx.halt_vclass : c.halt.vclass = c.vclass := by
  unfold Ctx.halt
  split <;> rfl
@[simp] theorem Ctx.halt_wait : c.halt.wait = if c.mode == .halted then c.wait else .blank := by
  unfold Ctx.halt
  split <;> rfl
@[simp] theorem Ctx.halt_acqUntil : c.halt.acqUntil = c.acqUntil := by
  unfold Ctx.halt
  split <;> rfl
@[simp] theorem Ctx.halt_performed : c.halt.performed = c.performed := by
  unfold Ctx.halt
  split <;> rfl
@[simp] theorem Ctx.halt_ownRead : c.halt.ownRead = c.ownRead := by
  unfold Ctx.halt
  split <;> rfl
@[simp] theorem Ctx.halt_ownRed : c.halt.ownRed = c.ownRed := by
  unfold Ctx.halt
  split <;> rfl
@[simp] theorem Ctx.halt_pending : c.halt.pending = c.pending := by
  unfold Ctx.halt
  split <;> rfl
@[simp] theorem Ctx.halt_phases : c.halt.phases = c.phases := by
  unfold Ctx.halt
  split <;> rfl
@[simp] theorem Ctx.halt_kept : c.halt.kept = c.kept := by
  unfold Ctx.halt
  split <;> rfl
@[simp] theorem Ctx.halt_aside : c.halt.aside = c.aside := by
  unfold Ctx.halt
  split <;> rfl
@[simp] theorem Ctx.halt_drainEnd : c.halt.drainEnd = c.drainEnd := by
  unfold Ctx.halt
  split <;> rfl
@[simp] theorem Ctx.halt_shadowed : c.halt.shadowed = c.shadowed := by
  unfold Ctx.halt
  split <;> rfl
@[simp] theorem Ctx.halt_stopPos : c.halt.stopPos = if c.mode == .halted then c.stopPos else c.pos := by
  unfold Ctx.halt
  split <;> rfl
@[simp] theorem Ctx.halt_stopTick : c.halt.stopTick = c.stopTick := by
  unfold Ctx.halt
  split <;> rfl
@[simp] theorem Ctx.halt_atYield : c.halt.atYield = c.atYield := by
  unfold Ctx.halt
  split <;> rfl
@[simp] theorem Ctx.halt_rows : c.halt.rows = c.rows := by
  unfold Ctx.halt
  split <;> rfl
@[simp] theorem Ctx.halt_routes : c.halt.routes = c.routes := by
  unfold Ctx.halt
  split <;> rfl
@[simp] theorem Ctx.halt_bmem : c.halt.bmem = c.bmem := by
  unfold Ctx.halt
  split <;> rfl
@[simp] theorem Ctx.halt_bound : c.halt.bound = c.bound := by
  unfold Ctx.halt
  split <;> rfl
@[simp] theorem Ctx.halt_xrecvs : c.halt.xrecvs = c.xrecvs := by
  unfold Ctx.halt
  split <;> rfl
@[simp] theorem Ctx.halt_late : c.halt.late = if c.mode == .halted then c.late else [] := by
  unfold Ctx.halt
  split <;> rfl

@[simp] theorem Ctx.enterHandler_mode (h : Nat) (t : Trap) : (c.enterHandler h t).mode = c.mode := rfl
@[simp] theorem Ctx.enterHandler_rid (h : Nat) (t : Trap) : (c.enterHandler h t).rid = c.rid := rfl
@[simp] theorem Ctx.enterHandler_slot (h : Nat) (t : Trap) : (c.enterHandler h t).slot = c.slot := rfl
@[simp] theorem Ctx.enterHandler_pkg (h : Nat) (t : Trap) : (c.enterHandler h t).pkg = c.pkg := rfl
@[simp] theorem Ctx.enterHandler_phys (h : Nat) (t : Trap) : (c.enterHandler h t).phys = c.phys := rfl
@[simp] theorem Ctx.enterHandler_sregs (h : Nat) (t : Trap) : (c.enterHandler h t).sregs = c.sregs := rfl
@[simp] theorem Ctx.enterHandler_pregs (h : Nat) (t : Trap) : (c.enterHandler h t).pregs = c.pregs := rfl
@[simp] theorem Ctx.enterHandler_vregs (h : Nat) (t : Trap) : (c.enterHandler h t).vregs = c.vregs := rfl
@[simp] theorem Ctx.enterHandler_masks (h : Nat) (t : Trap) : (c.enterHandler h t).masks = c.masks := rfl
@[simp] theorem Ctx.enterHandler_stage (h : Nat) (t : Trap) : (c.enterHandler h t).stage = c.stage := rfl
@[simp] theorem Ctx.enterHandler_queues (h : Nat) (t : Trap) : (c.enterHandler h t).queues = c.queues := rfl
@[simp] theorem Ctx.enterHandler_accs (h : Nat) (t : Trap) : (c.enterHandler h t).accs = c.accs := rfl
@[simp] theorem Ctx.enterHandler_tids (h : Nat) (t : Trap) : (c.enterHandler h t).tids = c.tids := rfl
@[simp] theorem Ctx.enterHandler_tags (h : Nat) (t : Trap) : (c.enterHandler h t).tags = c.tags := rfl
@[simp] theorem Ctx.enterHandler_xstat (h : Nat) (t : Trap) : (c.enterHandler h t).xstat = c.xstat := rfl
@[simp] theorem Ctx.enterHandler_pc (h : Nat) (t : Trap) : (c.enterHandler h t).pc = h := rfl
@[simp] theorem Ctx.enterHandler_rrb (h : Nat) (t : Trap) : (c.enterHandler h t).rrb = c.rrb := rfl
@[simp] theorem Ctx.enterHandler_grb (h : Nat) (t : Trap) : (c.enterHandler h t).grb = c.grb := rfl
@[simp] theorem Ctx.enterHandler_vflags (h : Nat) (t : Trap) : (c.enterHandler h t).vflags = c.vflags := rfl
@[simp] theorem Ctx.enterHandler_fsr (h : Nat) (t : Trap) : (c.enterHandler h t).fsr = t.fsr (c.pc / 64) true := rfl
@[simp] theorem Ctx.enterHandler_far (h : Nat) (t : Trap) : (c.enterHandler h t).far = word t.addr := rfl
@[simp] theorem Ctx.enterHandler_tbase (h : Nat) (t : Trap) : (c.enterHandler h t).tbase = c.tbase := rfl
@[simp] theorem Ctx.enterHandler_alast (h : Nat) (t : Trap) : (c.enterHandler h t).alast = c.alast := rfl
@[simp] theorem Ctx.enterHandler_tguard (h : Nat) (t : Trap) : (c.enterHandler h t).tguard = c.tguard := rfl
@[simp] theorem Ctx.enterHandler_waitlim (h : Nat) (t : Trap) : (c.enterHandler h t).waitlim = c.waitlim := rfl
@[simp] theorem Ctx.enterHandler_progress (h : Nat) (t : Trap) : (c.enterHandler h t).progress = c.progress := rfl
@[simp] theorem Ctx.enterHandler_opsel (h : Nat) (t : Trap) : (c.enterHandler h t).opsel = c.opsel := rfl
@[simp] theorem Ctx.enterHandler_placegen (h : Nat) (t : Trap) : (c.enterHandler h t).placegen = c.placegen := rfl
@[simp] theorem Ctx.enterHandler_startAt (h : Nat) (t : Trap) : (c.enterHandler h t).startAt = c.startAt := rfl
@[simp] theorem Ctx.enterHandler_slipSeen (h : Nat) (t : Trap) : (c.enterHandler h t).slipSeen = c.slipSeen := rfl
@[simp] theorem Ctx.enterHandler_lq (h : Nat) (t : Trap) : (c.enterHandler h t).lq = c.lq := rfl
@[simp] theorem Ctx.enterHandler_nextLq (h : Nat) (t : Trap) : (c.enterHandler h t).nextLq = c.nextLq := rfl
@[simp] theorem Ctx.enterHandler_sq (h : Nat) (t : Trap) : (c.enterHandler h t).sq = c.sq := rfl
@[simp] theorem Ctx.enterHandler_aq (h : Nat) (t : Trap) : (c.enterHandler h t).aq = c.aq := rfl
@[simp] theorem Ctx.enterHandler_deferred (h : Nat) (t : Trap) : (c.enterHandler h t).deferred = c.deferred := rfl
@[simp] theorem Ctx.enterHandler_engine (h : Nat) (t : Trap) : (c.enterHandler h t).engine = c.engine := rfl
@[simp] theorem Ctx.enterHandler_loop (h : Nat) (t : Trap) : (c.enterHandler h t).loop = c.loop := rfl
@[simp] theorem Ctx.enterHandler_loopHeld (h : Nat) (t : Trap) : (c.enterHandler h t).loopHeld = true := rfl
@[simp] theorem Ctx.enterHandler_matrix (h : Nat) (t : Trap) : (c.enterHandler h t).matrix = c.matrix := rfl
@[simp] theorem Ctx.enterHandler_solvers (h : Nat) (t : Trap) : (c.enterHandler h t).solvers = c.solvers := rfl
@[simp] theorem Ctx.enterHandler_land (h : Nat) (t : Trap) : (c.enterHandler h t).land = c.land := rfl
@[simp] theorem Ctx.enterHandler_nextSeq (h : Nat) (t : Trap) : (c.enterHandler h t).nextSeq = c.nextSeq := rfl
@[simp] theorem Ctx.enterHandler_cuffs (h : Nat) (t : Trap) : (c.enterHandler h t).cuffs = c.cuffs := rfl
@[simp] theorem Ctx.enterHandler_lost (h : Nat) (t : Trap) : (c.enterHandler h t).lost = c.lost := rfl
@[simp] theorem Ctx.enterHandler_pos (h : Nat) (t : Trap) : (c.enterHandler h t).pos = c.pos := rfl
@[simp] theorem Ctx.enterHandler_origin (h : Nat) (t : Trap) : (c.enterHandler h t).origin = c.origin := rfl
@[simp] theorem Ctx.enterHandler_spanAt (h : Nat) (t : Trap) : (c.enterHandler h t).spanAt = c.spanAt := rfl
@[simp] theorem Ctx.enterHandler_earliest (h : Nat) (t : Trap) : (c.enterHandler h t).earliest = c.trapPos t + 3 := rfl
@[simp] theorem Ctx.enterHandler_stamp (h : Nat) (t : Trap) : (c.enterHandler h t).stamp = c.stamp := rfl
@[simp] theorem Ctx.enterHandler_fresh (h : Nat) (t : Trap) : (c.enterHandler h t).fresh = true := rfl
@[simp] theorem Ctx.enterHandler_tried (h : Nat) (t : Trap) : (c.enterHandler h t).tried = 0 := rfl
@[simp] theorem Ctx.enterHandler_anchorOk (h : Nat) (t : Trap) : (c.enterHandler h t).anchorOk = c.anchorOk := rfl
@[simp] theorem Ctx.enterHandler_iss (h : Nat) (t : Trap) : (c.enterHandler h t).iss = c.iss := rfl
@[simp] theorem Ctx.enterHandler_nhist (h : Nat) (t : Trap) : (c.enterHandler h t).nhist = c.nhist := rfl
@[simp] theorem Ctx.enterHandler_vclass (h : Nat) (t : Trap) : (c.enterHandler h t).vclass = c.vclass := rfl
@[simp] theorem Ctx.enterHandler_wait (h : Nat) (t : Trap) : (c.enterHandler h t).wait = .blank := rfl
@[simp] theorem Ctx.enterHandler_acqUntil (h : Nat) (t : Trap) : (c.enterHandler h t).acqUntil = c.acqUntil := rfl
@[simp] theorem Ctx.enterHandler_performed (h : Nat) (t : Trap) : (c.enterHandler h t).performed = c.performed := rfl
@[simp] theorem Ctx.enterHandler_ownRead (h : Nat) (t : Trap) : (c.enterHandler h t).ownRead = c.ownRead := rfl
@[simp] theorem Ctx.enterHandler_ownRed (h : Nat) (t : Trap) : (c.enterHandler h t).ownRed = c.ownRed := rfl
@[simp] theorem Ctx.enterHandler_pending (h : Nat) (t : Trap) : (c.enterHandler h t).pending = none := rfl
@[simp] theorem Ctx.enterHandler_phases (h : Nat) (t : Trap) : (c.enterHandler h t).phases = c.phases := rfl
@[simp] theorem Ctx.enterHandler_kept (h : Nat) (t : Trap) : (c.enterHandler h t).kept = c.kept := rfl
@[simp] theorem Ctx.enterHandler_aside (h : Nat) (t : Trap) : (c.enterHandler h t).aside = c.aside := rfl
@[simp] theorem Ctx.enterHandler_drainEnd (h : Nat) (t : Trap) : (c.enterHandler h t).drainEnd = c.drainEnd := rfl
@[simp] theorem Ctx.enterHandler_shadowed (h : Nat) (t : Trap) : (c.enterHandler h t).shadowed = c.shadowed := rfl
@[simp] theorem Ctx.enterHandler_stopPos (h : Nat) (t : Trap) : (c.enterHandler h t).stopPos = c.stopPos := rfl
@[simp] theorem Ctx.enterHandler_stopTick (h : Nat) (t : Trap) : (c.enterHandler h t).stopTick = c.stopTick := rfl
@[simp] theorem Ctx.enterHandler_atYield (h : Nat) (t : Trap) : (c.enterHandler h t).atYield = c.atYield := rfl
@[simp] theorem Ctx.enterHandler_rows (h : Nat) (t : Trap) : (c.enterHandler h t).rows = c.rows := rfl
@[simp] theorem Ctx.enterHandler_routes (h : Nat) (t : Trap) : (c.enterHandler h t).routes = c.routes := rfl
@[simp] theorem Ctx.enterHandler_bmem (h : Nat) (t : Trap) : (c.enterHandler h t).bmem = c.bmem := rfl
@[simp] theorem Ctx.enterHandler_bound (h : Nat) (t : Trap) : (c.enterHandler h t).bound = c.bound := rfl
@[simp] theorem Ctx.enterHandler_xrecvs (h : Nat) (t : Trap) : (c.enterHandler h t).xrecvs = c.xrecvs := rfl
@[simp] theorem Ctx.enterHandler_late (h : Nat) (t : Trap) : (c.enterHandler h t).late = c.late := rfl

@[simp] theorem Ctx.leaveHandler_mode  : (c.leaveHandler).mode = c.mode := rfl
@[simp] theorem Ctx.leaveHandler_rid  : (c.leaveHandler).rid = c.rid := rfl
@[simp] theorem Ctx.leaveHandler_slot  : (c.leaveHandler).slot = c.slot := rfl
@[simp] theorem Ctx.leaveHandler_pkg  : (c.leaveHandler).pkg = c.pkg := rfl
@[simp] theorem Ctx.leaveHandler_phys  : (c.leaveHandler).phys = c.phys := rfl
@[simp] theorem Ctx.leaveHandler_sregs  : (c.leaveHandler).sregs = c.sregs := rfl
@[simp] theorem Ctx.leaveHandler_pregs  : (c.leaveHandler).pregs = c.pregs := rfl
@[simp] theorem Ctx.leaveHandler_vregs  : (c.leaveHandler).vregs = c.vregs := rfl
@[simp] theorem Ctx.leaveHandler_masks  : (c.leaveHandler).masks = c.masks := rfl
@[simp] theorem Ctx.leaveHandler_stage  : (c.leaveHandler).stage = c.stage := rfl
@[simp] theorem Ctx.leaveHandler_queues  : (c.leaveHandler).queues = c.queues := rfl
@[simp] theorem Ctx.leaveHandler_accs  : (c.leaveHandler).accs = c.accs := rfl
@[simp] theorem Ctx.leaveHandler_tids  : (c.leaveHandler).tids = c.tids := rfl
@[simp] theorem Ctx.leaveHandler_tags  : (c.leaveHandler).tags = c.tags := rfl
@[simp] theorem Ctx.leaveHandler_xstat  : (c.leaveHandler).xstat = c.xstat := rfl
@[simp] theorem Ctx.leaveHandler_pc  : (c.leaveHandler).pc = (((c.loop.filter fun l => l.pc + 64 * l.at_ == fsrRpc c.fsr * 64).filter Loop.void).map Loop.exit).getD (fsrRpc c.fsr * 64) := rfl
@[simp] theorem Ctx.leaveHandler_rrb  : (c.leaveHandler).rrb = c.rrb := rfl
@[simp] theorem Ctx.leaveHandler_grb  : (c.leaveHandler).grb = c.grb := rfl
@[simp] theorem Ctx.leaveHandler_vflags  : (c.leaveHandler).vflags = c.vflags := rfl
@[simp] theorem Ctx.leaveHandler_fsr  : (c.leaveHandler).fsr = c.fsr &&& ~~~(1#64 <<< 11) := rfl
@[simp] theorem Ctx.leaveHandler_far  : (c.leaveHandler).far = c.far := rfl
@[simp] theorem Ctx.leaveHandler_tbase  : (c.leaveHandler).tbase = c.tbase := rfl
@[simp] theorem Ctx.leaveHandler_alast  : (c.leaveHandler).alast = c.alast := rfl
@[simp] theorem Ctx.leaveHandler_tguard  : (c.leaveHandler).tguard = c.tguard := rfl
@[simp] theorem Ctx.leaveHandler_waitlim  : (c.leaveHandler).waitlim = c.waitlim := rfl
@[simp] theorem Ctx.leaveHandler_progress  : (c.leaveHandler).progress = c.progress := rfl
@[simp] theorem Ctx.leaveHandler_opsel  : (c.leaveHandler).opsel = c.opsel := rfl
@[simp] theorem Ctx.leaveHandler_placegen  : (c.leaveHandler).placegen = c.placegen := rfl
@[simp] theorem Ctx.leaveHandler_startAt  : (c.leaveHandler).startAt = c.startAt := rfl
@[simp] theorem Ctx.leaveHandler_slipSeen  : (c.leaveHandler).slipSeen = c.slipSeen := rfl
@[simp] theorem Ctx.leaveHandler_lq  : (c.leaveHandler).lq = c.lq := rfl
@[simp] theorem Ctx.leaveHandler_nextLq  : (c.leaveHandler).nextLq = c.nextLq := rfl
@[simp] theorem Ctx.leaveHandler_sq  : (c.leaveHandler).sq = c.sq := rfl
@[simp] theorem Ctx.leaveHandler_aq  : (c.leaveHandler).aq = c.aq := rfl
@[simp] theorem Ctx.leaveHandler_deferred  : (c.leaveHandler).deferred = c.deferred := rfl
@[simp] theorem Ctx.leaveHandler_engine  : (c.leaveHandler).engine = c.engine := rfl
@[simp] theorem Ctx.leaveHandler_loop  : (c.leaveHandler).loop = (c.loop.filter fun l => l.pc + 64 * l.at_ == fsrRpc c.fsr * 64).filter fun l => !l.void := rfl
@[simp] theorem Ctx.leaveHandler_loopHeld  : (c.leaveHandler).loopHeld = false := rfl
@[simp] theorem Ctx.leaveHandler_matrix  : (c.leaveHandler).matrix = c.matrix := rfl
@[simp] theorem Ctx.leaveHandler_solvers  : (c.leaveHandler).solvers = c.solvers := rfl
@[simp] theorem Ctx.leaveHandler_land  : (c.leaveHandler).land = c.land := rfl
@[simp] theorem Ctx.leaveHandler_nextSeq  : (c.leaveHandler).nextSeq = c.nextSeq := rfl
@[simp] theorem Ctx.leaveHandler_cuffs  : (c.leaveHandler).cuffs = c.cuffs := rfl
@[simp] theorem Ctx.leaveHandler_lost  : (c.leaveHandler).lost = c.lost := rfl
@[simp] theorem Ctx.leaveHandler_pos  : (c.leaveHandler).pos = c.pos := rfl
@[simp] theorem Ctx.leaveHandler_origin  : (c.leaveHandler).origin = c.origin := rfl
@[simp] theorem Ctx.leaveHandler_spanAt  : (c.leaveHandler).spanAt = c.spanAt := rfl
@[simp] theorem Ctx.leaveHandler_earliest  : (c.leaveHandler).earliest = c.iss.pos + c.iss.idle + 3 := rfl
@[simp] theorem Ctx.leaveHandler_stamp  : (c.leaveHandler).stamp = c.stamp := rfl
@[simp] theorem Ctx.leaveHandler_fresh  : (c.leaveHandler).fresh = true := rfl
@[simp] theorem Ctx.leaveHandler_tried  : (c.leaveHandler).tried = c.tried := rfl
@[simp] theorem Ctx.leaveHandler_anchorOk  : (c.leaveHandler).anchorOk = c.anchorOk := rfl
@[simp] theorem Ctx.leaveHandler_iss  : (c.leaveHandler).iss = c.iss := rfl
@[simp] theorem Ctx.leaveHandler_nhist  : (c.leaveHandler).nhist = c.nhist := rfl
@[simp] theorem Ctx.leaveHandler_vclass  : (c.leaveHandler).vclass = c.vclass := rfl
@[simp] theorem Ctx.leaveHandler_wait  : (c.leaveHandler).wait = c.wait := rfl
@[simp] theorem Ctx.leaveHandler_acqUntil  : (c.leaveHandler).acqUntil = c.acqUntil := rfl
@[simp] theorem Ctx.leaveHandler_performed  : (c.leaveHandler).performed = c.performed := rfl
@[simp] theorem Ctx.leaveHandler_ownRead  : (c.leaveHandler).ownRead = c.ownRead := rfl
@[simp] theorem Ctx.leaveHandler_ownRed  : (c.leaveHandler).ownRed = c.ownRed := rfl
@[simp] theorem Ctx.leaveHandler_pending  : (c.leaveHandler).pending = c.pending := rfl
@[simp] theorem Ctx.leaveHandler_phases  : (c.leaveHandler).phases = c.phases := rfl
@[simp] theorem Ctx.leaveHandler_kept  : (c.leaveHandler).kept = c.kept := rfl
@[simp] theorem Ctx.leaveHandler_aside  : (c.leaveHandler).aside = c.aside := rfl
@[simp] theorem Ctx.leaveHandler_drainEnd  : (c.leaveHandler).drainEnd = c.drainEnd := rfl
@[simp] theorem Ctx.leaveHandler_shadowed  : (c.leaveHandler).shadowed = c.shadowed := rfl
@[simp] theorem Ctx.leaveHandler_stopPos  : (c.leaveHandler).stopPos = c.stopPos := rfl
@[simp] theorem Ctx.leaveHandler_stopTick  : (c.leaveHandler).stopTick = c.stopTick := rfl
@[simp] theorem Ctx.leaveHandler_atYield  : (c.leaveHandler).atYield = c.atYield := rfl
@[simp] theorem Ctx.leaveHandler_rows  : (c.leaveHandler).rows = c.rows := rfl
@[simp] theorem Ctx.leaveHandler_routes  : (c.leaveHandler).routes = c.routes := rfl
@[simp] theorem Ctx.leaveHandler_bmem  : (c.leaveHandler).bmem = c.bmem := rfl
@[simp] theorem Ctx.leaveHandler_bound  : (c.leaveHandler).bound = c.bound := rfl
@[simp] theorem Ctx.leaveHandler_xrecvs  : (c.leaveHandler).xrecvs = c.xrecvs := rfl
@[simp] theorem Ctx.leaveHandler_late  : (c.leaveHandler).late = c.late := rfl

theorem Ctx.later_eq (lat ph : Nat) (eff : Effect) : c.later lat ph eff = c.push (c.iss.pos + lat) ph eff := rfl

/-! ## Registers read back (R92, R93) -/

@[simp] theorem Ctx.s_zero : c.s 0 = 0 := rfl
@[simp] theorem Ctx.p_zero : c.p 0 = true := rfl
@[simp] theorem Ctx.k_zero : c.k 0 = BitVec.allOnes 1024 := rfl
@[simp] theorem Ctx.setS_zero (v : Word) : c.setS 0 v = c := rfl
@[simp] theorem Ctx.setP_zero (v : Bool) : c.setP 0 v = c := rfl
@[simp] theorem Ctx.setK_zero (v : Mask) : c.setK 0 v = c := rfl

/-- A scalar register after a write: s0 stays 0. -/
theorem Ctx.s_setS (n m : Nat) (v : Word) : (c.setS n v).s m = if m = n ∧ n ≠ 0 then v else c.s m := by
  by_cases hn : n = 0
  · subst hn; simp
  · by_cases hm : m = 0
    · subst hm; rw [if_neg (by omega)]; simp
    · simp [Ctx.s, Ctx.setS, hn, hm, mget_mput]
/-- A predicate after a write: p0 stays 1. -/
theorem Ctx.p_setP (n m : Nat) (v : Bool) : (c.setP n v).p m = if m = n ∧ n ≠ 0 then v else c.p m := by
  by_cases hn : n = 0
  · subst hn; simp
  · by_cases hm : m = 0
    · subst hm; rw [if_neg (by omega)]; simp
    · simp [Ctx.p, Ctx.setP, hn, hm, mget_mput]
/-- A mask after a write: k0 stays all ones. -/
theorem Ctx.k_setK (n m : Nat) (v : Mask) : (c.setK n v).k m = if m = n ∧ n ≠ 0 then v else c.k m := by
  by_cases hn : n = 0
  · subst hn; simp
  · by_cases hm : m = 0
    · subst hm; rw [if_neg (by omega)]; simp
    · simp [Ctx.k, Ctx.setK, hn, hm, mget_mput]
/-- A vector register after a write. -/
theorem Ctx.v_setV (n m : Nat) (v : VReg) : (c.setV n v).v m = if m = n then v else c.v m := by
  simp [Ctx.v, Ctx.setV, mget_mput]
/-- A tensor identifier after a write. -/
theorem Ctx.tid_setTid (n m : Nat) (v : BitVec 512) : (c.setTid n v).tid m = if m = n then v else c.tid m := by
  simp [Ctx.tid, Ctx.setTid, mget_mput]

/-! ## The parts after one change -/

theorem State.slot_apply_slot (k j : SlotKey) (f : Ctx → Ctx) :
    (s.apply (.slot k f)).slot j = if j = k then f (s.slot k) else s.slot j := by simp [State.slot, mget_mmod]
theorem State.die_apply_die (k j : DieId) (f : Die → Die) :
    (s.apply (.die k f)).die j = if j = k then f (s.die k) else s.die j := by simp [State.die, mget_mmod]
theorem State.pkg_apply_pkg (k j : PkgId) (f : Pkg → Pkg) :
    (s.apply (.pkg k f)).pkg j = if j = k then f (s.pkg k) else s.pkg j := by simp [State.pkg, mget_mmod]
theorem State.node_apply_node (k j : Rid) (f : Node → Node) :
    (s.apply (.node k f)).node j = if j = k then f (s.node k) else s.node j := by simp [State.node, mget_mmod]

/-! ## Changes in order -/

@[simp] theorem State.commit_nil : s.commit [] = s := rfl
@[simp] theorem State.commit_cons (u : Upd) (us : List Upd) : s.commit (u :: us) = (s.apply u).commit us := rfl
theorem State.commit_append (us vs : List Upd) : s.commit (us ++ vs) = (s.commit us).commit vs := by
  simp [State.commit, List.foldl_append]

end Sys2Proof.Machine
end

