-- ==== Sys2Proof/Laws/Ops.lean ====
section
/-! SUPPORT. What the shared operations answer: always a next state, reached by changes of `State.commit`; and what the
changes leave of memory and of the maps. -/

namespace Sys2Proof.Machine

/-- The outcome is a next state, reached from `s` by changes. -/
def Steps (s : State) (o : Host.Outcome State Fault Refusal) : Prop := ∃ us, o = .next (s.commit us)

variable (s : State)

theorem State.commit_commit (us vs : List Upd) : (s.commit us).commit vs = s.commit (us ++ vs) :=
  (State.commit_append s us vs).symm

theorem steps_by (us : List Upd) : Steps s (s.by_ us) := ⟨us, rfl⟩
theorem steps_same : Steps s s.same := ⟨[], rfl⟩
theorem steps_onSlot (f : Ctx → Ctx) : Steps s (s.onSlot f) := ⟨_, rfl⟩
theorem steps_of_commit {us : List Upd} {o : Host.Outcome State Fault Refusal} (h : Steps (s.commit us) o) : Steps s o := by
  obtain ⟨vs, rfl⟩ := h
  exact ⟨us ++ vs, by rw [State.commit_commit]⟩
theorem steps_guarded (g : Guard) (us : List Upd) : Steps s (s.guarded g us) := by
  cases g with
  | go => exact steps_by s us
  | trap t => exact steps_by s _
  | wait t =>
    simp only [State.guarded]
    split
    · exact steps_same s
    · exact steps_by s _
theorem steps_scalarGuarded (f : SF) (g : State → Guard) (us : State → List Upd) : Steps s (scalarGuarded f g us s) := by
  simp only [scalarGuarded]
  split
  · exact steps_guarded s _ _
  · exact steps_same s
theorem steps_waiting (f : SF) (check : State → Guard) (arrive : State → List Upd) (ready : State → Guard)
    (us : State → List Upd) : Steps s (waiting f check arrive ready us s) := by
  simp only [waiting]
  split
  · exact steps_same s
  · split
    · exact steps_of_commit s (us := arrive s) (steps_guarded (s.commit (arrive s)) _ _)
    · exact steps_guarded s _ _
theorem steps_scalarOp (f : SF) (lat : Nat) (v : Ctx → Word) : Steps s (scalarOp f lat v s) := steps_onSlot s _
theorem steps_predOp (f : SF) (v : Ctx → Bool) : Steps s (predOp f v s) := steps_onSlot s _
theorem steps_ite {p : Prop} [Decidable p] {a b : Host.Outcome State Fault Refusal} (ha : Steps s a) (hb : Steps s b) :
    Steps s (if p then a else b) := by
  split
  · exact ha
  · exact hb

end Sys2Proof.Machine
end

