-- ==== Sys2Proof/Laws/Exec.lean ====
section
/-! SUPPORT. Every instruction steps: `exec` answers a next state that changes of `State.commit` reach, from every state
and whatever its operands (no instruction of this hardware stops the machine, R249, R251). -/

namespace Sys2Proof.Machine

theorem steps_milliner (s : State) (pkg : PkgId) (i : Instr) (us : List Upd) : Steps s (s.milliner pkg i us) :=
  steps_ite s (steps_same s) (steps_ite s (steps_by ..) (steps_by ..))
theorem steps_service (s : State) (i : Instr) (p index : Nat) (codes : List (Bool × Nat)) (us : List Upd) :
    Steps s (s.service i p index codes us) := by
  refine steps_ite s (steps_by ..) ?_
  split <;> exact steps_by ..
theorem steps_ackOn (s : State) (pth : Path) (ref : Nat) (cut done : List Upd) : Steps s (ackOn s pth ref cut done) := by
  unfold ackOn
  split <;> exact steps_by s _
theorem steps_hostRegWrite (pkg off size data : Nat) (s : State) : Steps s (hostRegWrite pkg off size data s) := by
  unfold hostRegWrite execIntstatWrite execLaunchPortStore
  repeat' split
  all_goals first | exact steps_by s _ | exact steps_same s
theorem steps_vectorOp (i : Instr) (s : State) : Steps s (vectorOp i s) := by
  simp only [vectorOp]
  split
  · exact steps_guarded ..
  · exact steps_same ..
theorem steps_transfer (f : SF) (t : Ctx → Int) (s : State) : Steps s (transfer f t s) := steps_scalarGuarded s f _ _
theorem steps_callTo (f : SF) (t : Ctx → Int) (s : State) : Steps s (callTo f t s) := steps_scalarGuarded s f _ _
theorem steps_sysRead (f : SF) (l : List Effect) (s : State) : Steps s (sysReadExec f l s) := steps_scalarGuarded s f _ _
theorem steps_sysWrite (f : SF) (s : State) : Steps s (sysWriteExec f s) := steps_scalarGuarded s f _ _
theorem steps_twait (f : SF) (s : State) : Steps s (twaitExec f s) := steps_waiting s f _ _ _ _
theorem steps_alloc (f : SF) (g : State → Guard) (k : State → ReqKind) (ok : State → Bool) (s : State) :
    Steps s (allocExec f g k ok s) := steps_waiting s f _ _ _ _
theorem steps_copyOp (f : CF) (g : State → Guard) (o : State → CopyOp) (s : State) : Steps s (copyOp f g o s) :=
  steps_guarded s _ _

theorem steps_execLaunchPortStore (pkg : Nat) (ptr : Nat) (s : State) : Steps s (execLaunchPortStore pkg ptr s) := by
  unfold execLaunchPortStore
  repeat' split
  all_goals first | exact steps_by s _ | exact steps_same s
theorem steps_execLaunchValidate (pkg : Nat) (s : State) : Steps s (execLaunchValidate pkg s) := by
  unfold execLaunchValidate
  repeat' split
  all_goals first | exact steps_same s | exact steps_milliner s _ _ _
theorem steps_execGangStart (rid : Nat) (choice : Nat) (s : State) : Steps s (execGangStart rid choice s) :=
  steps_milliner s _ _ _
theorem steps_execStartTick (rid : Nat) (choice : Nat) (s : State) : Steps s (execStartTick rid choice s) := by
  unfold execStartTick; dsimp only
  repeat' split
  all_goals first | exact steps_same s | exact steps_milliner s _ _ _
theorem steps_execStartLate (rid : Nat) (s : State) : Steps s (execStartLate rid s) := by
  unfold execStartLate
  repeat' split
  all_goals first | exact steps_same s | exact steps_milliner s _ _ _
theorem steps_execRegionDone (rid : Nat) (s : State) : Steps s (execRegionDone rid s) := by
  unfold execRegionDone
  repeat' split
  all_goals first | exact steps_same s | exact steps_milliner s _ _ _
theorem steps_execPeriodStart (rid : Nat) (s : State) : Steps s (execPeriodStart rid s) := by
  unfold execPeriodStart; dsimp only
  repeat' split
  all_goals first | exact steps_same s | exact steps_milliner s _ _ _
theorem steps_execBudgetExhausted (rid : Nat) (s : State) : Steps s (execBudgetExhausted rid s) := by
  unfold execBudgetExhausted; dsimp only
  repeat' split
  all_goals first | exact steps_same s | exact steps_milliner s _ _ _
theorem steps_execDeadlineMiss (rid : Nat) (s : State) : Steps s (execDeadlineMiss rid s) := by
  unfold execDeadlineMiss; dsimp only
  repeat' split
  all_goals first | exact steps_same s | exact steps_milliner s _ _ _
theorem steps_execQuantumExpiry (rid : Nat) (s : State) : Steps s (execQuantumExpiry rid s) := by
  unfold execQuantumExpiry; dsimp only
  repeat' split
  all_goals first | exact steps_same s | exact steps_milliner s _ _ _
theorem steps_execDispatch (pkg : Nat) (choice : Nat) (s : State) : Steps s (execDispatch pkg choice s) :=
  steps_milliner s _ _ _
theorem steps_execPreemptStop (rid : Nat) (s : State) : Steps s (execPreemptStop rid s) := by
  unfold execPreemptStop; dsimp only
  repeat' split
  all_goals first | exact steps_by s _ | exact steps_same s | exact steps_milliner s _ _ _
theorem steps_execWindowOverrun (rid : Nat) (s : State) : Steps s (execWindowOverrun rid s) := by
  unfold execWindowOverrun; dsimp only
  repeat' split
  all_goals first | exact steps_same s | exact steps_milliner s _ _ _
theorem steps_execResume (rid : Nat) (choice : Nat) (s : State) : Steps s (execResume rid choice s) :=
  steps_milliner s _ _ _
theorem steps_execCancelObserved (rid : Nat) (s : State) : Steps s (execCancelObserved rid s) := by
  unfold execCancelObserved
  repeat' split
  all_goals first | exact steps_same s | exact steps_milliner s _ _ _
theorem steps_execCancelComplete (rid : Nat) (s : State) : Steps s (execCancelComplete rid s) := by
  unfold execCancelComplete; dsimp only
  repeat' split
  all_goals first | exact steps_same s | exact steps_milliner s _ _ _
theorem steps_execMillinerTakeover (pkg : Nat) (s : State) : Steps s (execMillinerTakeover pkg s) := by
  unfold execMillinerTakeover
  repeat' split
  all_goals first | exact steps_by s _ | exact steps_same s
theorem steps_execPtpSync (pkg : Nat) (offset : Nat) (s : State) : Steps s (execPtpSync pkg offset s) := by
  unfold execPtpSync; dsimp only
  repeat' split
  all_goals first | exact steps_by s _ | exact steps_same s
theorem steps_execSyncTimeout (pkg : Nat) (s : State) : Steps s (execSyncTimeout pkg s) := by
  unfold execSyncTimeout
  repeat' split
  all_goals first | exact steps_by s _ | exact steps_same s
theorem steps_execHoldoverTimeout (pkg : Nat) (s : State) : Steps s (execHoldoverTimeout pkg s) := by
  unfold execHoldoverTimeout
  repeat' split
  all_goals first | exact steps_by s _ | exact steps_same s
theorem steps_execSpineLineTransfer (die : Nat) (chan : Nat) (s : State) :
    Steps s (execSpineLineTransfer die chan s) := by
  unfold execSpineLineTransfer; dsimp only
  repeat' split
  all_goals first | exact steps_by s _ | exact steps_same s
theorem steps_execPeerBankAccess (die : Nat) (req : Nat) (s : State) : Steps s (execPeerBankAccess die req s) := by
  unfold execPeerBankAccess; dsimp only
  repeat' split
  all_goals first | exact steps_by s _ | exact steps_same s
theorem steps_execCuffLanding (die : Nat) (cuff : Nat) (s : State) : Steps s (execCuffLanding die cuff s) := by
  unfold execCuffLanding; dsimp only
  repeat' split
  all_goals first | exact steps_by s _ | exact steps_same s
theorem steps_execCopyComplete (die : Nat) (chan : Nat) (s : State) : Steps s (execCopyComplete die chan s) := by
  unfold execCopyComplete; dsimp only
  repeat' split
  all_goals first | exact steps_by s _ | exact steps_same s
theorem steps_execCgathEntryWrite (die : Nat) (chan : Nat) (s : State) : Steps s (execCgathEntryWrite die chan s) := by
  unfold execCgathEntryWrite; dsimp only
  repeat' split
  all_goals first | exact steps_by s _ | exact steps_same s
theorem steps_execCputfFlagIncrement (die : Nat) (chan : Nat) (s : State) :
    Steps s (execCputfFlagIncrement die chan s) := by
  unfold execCputfFlagIncrement; dsimp only
  split
  · split
    · exact steps_of_commit s (steps_by _ _)
    · exact steps_same s
  · exact steps_same s
theorem steps_execPageWalk (die : Nat) (part : Nat) (space : Nat) (vpage : Nat) (s : State) :
    Steps s (execPageWalk die part space vpage s) := by
  unfold execPageWalk; dsimp only
  repeat' split
  all_goals first | exact steps_by s _ | exact steps_same s
theorem steps_execHomeAccess (die : Nat) (chan : Nat) (item : Nat) (s : State) :
    Steps s (execHomeAccess die chan item s) := by
  unfold execHomeAccess; dsimp only
  repeat' split
  all_goals first | exact steps_by s _ | exact steps_same s
theorem steps_execLoadReturn (req : Nat) (s : State) : Steps s (execLoadReturn req s) := by
  unfold execLoadReturn; dsimp only
  repeat' split
  all_goals first | exact steps_by s _ | exact steps_same s
theorem steps_execStoreAck (req : Nat) (s : State) : Steps s (execStoreAck req s) := by
  unfold execStoreAck
  repeat' split
  all_goals first | exact steps_by s _ | exact steps_same s
theorem steps_execAtomicResend (req : Nat) (s : State) : Steps s (execAtomicResend req s) := by
  unfold execAtomicResend
  repeat' split
  all_goals first | exact steps_by s _ | exact steps_same s
theorem steps_execAtomicTimeout (req : Nat) (s : State) : Steps s (execAtomicTimeout req s) := by
  unfold execAtomicTimeout
  repeat' split
  all_goals first | exact steps_by s _ | exact steps_same s
theorem steps_execResultCacheExpiry (pkg : Nat) (src : Nat) (seq : Nat) (s : State) :
    Steps s (execResultCacheExpiry pkg src seq s) := by
  unfold execResultCacheExpiry; dsimp only
  repeat' split
  all_goals exact steps_by s _
theorem steps_execRouterCredReceive (pkg : Nat) (req : Nat) (s : State) : Steps s (execRouterCredReceive pkg req s) := by
  unfold execRouterCredReceive; dsimp only
  repeat' split
  all_goals first | exact steps_by s _ | exact steps_same s
theorem steps_execMergeForward (pkg : Nat) (merge : Nat) (s : State) : Steps s (execMergeForward pkg merge s) := by
  unfold execMergeForward; dsimp only
  repeat' split
  all_goals first | exact steps_by s _ | exact steps_same s
theorem steps_execMergeAnswer (pkg : Nat) (merge : Nat) (s : State) : Steps s (execMergeAnswer pkg merge s) := by
  unfold execMergeAnswer; dsimp only
  repeat' split
  all_goals first | exact steps_by s _ | exact steps_same s
theorem steps_execMirrorAck (req : Nat) (s : State) : Steps s (execMirrorAck req s) := by
  unfold execMirrorAck; dsimp only
  repeat' split
  all_goals first | exact steps_ackOn s _ _ _ _ | exact steps_by s _ | exact steps_same s
theorem steps_execCrownAllocatorAnswer (slot : Nat) (s : State) : Steps s (execCrownAllocatorAnswer slot s) := by
  unfold execCrownAllocatorAnswer; dsimp only
  repeat' split
  all_goals first | exact steps_by s _ | exact steps_same s
theorem steps_execFabricDieFailed (pkg : Nat) (fd : Nat) (s : State) : Steps s (execFabricDieFailed pkg fd s) := by
  unfold execFabricDieFailed; dsimp only
  repeat' split
  all_goals first | exact steps_by s _ | exact steps_same s
theorem steps_execFailoverComplete (pkg : Nat) (fd : Nat) (s : State) : Steps s (execFailoverComplete pkg fd s) := by
  unfold execFailoverComplete; dsimp only
  repeat' split
  all_goals first | exact steps_by s _ | exact steps_same s
theorem steps_execBarrierArrival (part : Nat) (entry : Nat) (writer : Nat) (s : State) :
    Steps s (execBarrierArrival part entry writer s) := by
  unfold execBarrierArrival; dsimp only
  repeat' split
  all_goals first | exact steps_by s _ | exact steps_same s
theorem steps_execPlaneMerge (part : Nat) (group : Nat) (home : Nat) (s : State) :
    Steps s (execPlaneMerge part group home s) := by
  unfold execPlaneMerge; dsimp only
  repeat' split
  all_goals first | exact steps_by s _ | exact steps_same s
theorem steps_execPhaseFlip (part : Nat) (entry : Nat) (s : State) : Steps s (execPhaseFlip part entry s) := by
  unfold execPhaseFlip
  repeat' split
  all_goals first | exact steps_by s _ | exact steps_same s
theorem steps_execFlitReceive (pkg : Nat) (link : Nat) (seq : Nat) (good : Nat) (s : State) :
    Steps s (execFlitReceive pkg link seq good s) := by
  unfold execFlitReceive; dsimp only
  repeat' split
  all_goals first | exact steps_by s _ | exact steps_same s
theorem steps_execLossOfLight (pkg : Nat) (link : Nat) (s : State) : Steps s (execLossOfLight pkg link s) := by
  unfold execLossOfLight; dsimp only
  repeat' split
  all_goals first | exact steps_by s _ | exact steps_same s
theorem steps_execOpticalLock (pkg : Nat) (link : Nat) (s : State) : Steps s (execOpticalLock pkg link s) := by
  unfold execOpticalLock
  repeat' split
  all_goals first | exact steps_by s _ | exact steps_same s
theorem steps_execAuthAttempt (pkg : Nat) (link : Nat) (good : Nat) (s : State) :
    Steps s (execAuthAttempt pkg link good s) := by
  unfold execAuthAttempt; dsimp only
  repeat' split
  all_goals first | exact steps_by s _ | exact steps_same s
theorem steps_execAuthTimeout (pkg : Nat) (link : Nat) (s : State) : Steps s (execAuthTimeout pkg link s) := by
  unfold execAuthTimeout
  repeat' split
  all_goals first | exact steps_by s _ | exact steps_same s
theorem steps_execDrainMarker (pkg : Nat) (src : Nat) (s : State) : Steps s (execDrainMarker pkg src s) := by
  unfold execDrainMarker; dsimp only
  repeat' split
  all_goals first | exact steps_by s _ | exact steps_same s
theorem steps_execBiasLimit (pkg : Nat) (port : Nat) (plane : Nat) (mzm : Nat) (high : Nat) (s : State) :
    Steps s (execBiasLimit pkg port plane mzm high s) := by
  unfold execBiasLimit; dsimp only
  repeat' split
  all_goals first | exact steps_by s _ | exact steps_same s
theorem steps_execHeaterApply (pkg : Nat) (port : Nat) (plane : Nat) (ring : Nat) (s : State) :
    Steps s (execHeaterApply pkg port plane ring s) :=
  steps_by s _
theorem steps_execMonUpdate (pkg : Nat) (port : Nat) (plane : Nat) (ring : Nat) (reading : Nat) (s : State) :
    Steps s (execMonUpdate pkg port plane ring reading s) := by
  unfold execMonUpdate
  repeat' split
  all_goals first | exact steps_by s _ | exact steps_same s
theorem steps_execColourTakeover (pkg : Nat) (port : Nat) (plane : Nat) (ring : Nat) (s : State) :
    Steps s (execColourTakeover pkg port plane ring s) := by
  unfold execColourTakeover; dsimp only
  repeat' split
  all_goals first | exact steps_by s _ | exact steps_same s
theorem steps_execCircuitUp (pkg : Nat) (src : Nat) (dst : Nat) (s : State) : Steps s (execCircuitUp pkg src dst s) := by
  unfold execCircuitUp; dsimp only
  repeat' split
  all_goals first | exact steps_by s _ | exact steps_same s
theorem steps_execCircuitWaitTimeout (req : Nat) (s : State) : Steps s (execCircuitWaitTimeout req s) := by
  unfold execCircuitWaitTimeout; dsimp only
  repeat' split
  all_goals first | exact steps_by s _ | exact steps_same s
theorem steps_execXsendLaunch (circ : Nat) (s : State) : Steps s (execXsendLaunch circ s) := by
  unfold execXsendLaunch; dsimp only
  repeat' split
  all_goals first | exact steps_by s _ | exact steps_same s
theorem steps_execUnitLanding (circ : Nat) (s : State) : Steps s (execUnitLanding circ s) := by
  unfold execUnitLanding; dsimp only
  repeat' split
  all_goals first | exact steps_by s _ | exact steps_same s
theorem steps_execWindowEnd (circ : Nat) (s : State) : Steps s (execWindowEnd circ s) := by
  unfold execWindowEnd
  repeat' split
  all_goals exact steps_by s _
theorem steps_execHostAccess (pkg : Nat) (write : Nat) (ptr : Nat) (size : Nat) (data : Nat) (s : State) :
    Steps s (execHostAccess pkg write ptr size data s) := by
  unfold execHostAccess; dsimp only
  repeat' split
  all_goals first | exact steps_hostRegWrite _ _ _ _ s | exact steps_by s _ | exact steps_same s
theorem steps_execReset (pkg : Nat) (outcome : Nat) (s : State) : Steps s (execReset pkg outcome s) := by
  unfold execReset
  extract_lets begin_ s' failing reason
  refine steps_ite s (steps_by s _) (steps_ite s ?_ ?_) <;> exact steps_of_commit s (steps_by _ _)
theorem steps_execReadyTimeout (pkg : Nat) (s : State) : Steps s (execReadyTimeout pkg s) := by
  unfold execReadyTimeout
  repeat' split
  all_goals first | exact steps_by s _ | exact steps_same s
theorem steps_execAttestationRequest (pkg : Nat) (nonce : Nat) (s : State) :
    Steps s (execAttestationRequest pkg nonce s) :=
  steps_by s _
theorem steps_execInstallRangeEntry (pkg : Nat) (part : Nat) (index : Nat) (w0 : Nat) (w1 : Nat) (w2 : Nat) (w3 : Nat) (s : State) :
    Steps s (execInstallRangeEntry pkg part index w0 w1 w2 w3 s) := by
  unfold execInstallRangeEntry; dsimp only
  repeat' split
  all_goals exact steps_service s _ _ _ _ _
theorem steps_execInvalidateTranslation (pkg : Nat) (part : Nat) (space : Nat) (first : Nat) (last : Nat) (s : State) :
    Steps s (execInvalidateTranslation pkg part space first last s) :=
  steps_service s _ _ _ _ _
theorem steps_execInstallPlaneDescriptor (pkg : Nat) (part : Nat) (index : Nat) (w0 : Nat) (w1 : Nat) (w2 : Nat) (w3 : Nat) (w4 : Nat) (w5 : Nat) (w6 : Nat) (w7 : Nat) (s : State) :
    Steps s (execInstallPlaneDescriptor pkg part index w0 w1 w2 w3 w4 w5 w6 w7 s) := by
  unfold execInstallPlaneDescriptor; dsimp only
  repeat' split
  all_goals exact steps_service s _ _ _ _ _
theorem steps_execInstallBarrierEntry (pkg : Nat) (part : Nat) (index : Nat) (members : List Nat) (s : State) :
    Steps s (execInstallBarrierEntry pkg part index members s) := by
  unfold execInstallBarrierEntry; dsimp only
  repeat' split
  all_goals exact steps_service s _ _ _ _ _
theorem steps_execInstallReductionWindow (pkg : Nat) (part : Nat) (index : Nat) (base : Nat) (size : Nat) (ty : Nat) (op : Nat) (s : State) :
    Steps s (execInstallReductionWindow pkg part index base size ty op s) := by
  unfold execInstallReductionWindow; dsimp only
  repeat' split
  all_goals exact steps_service s _ _ _ _ _
theorem steps_execInstallCircuitDescriptor (pkg : Nat) (part : Nat) (slot : Nat) (index : Nat) (w0 : Nat) (w1 : Nat) (w2 : Nat) (w3 : Nat) (s : State) :
    Steps s (execInstallCircuitDescriptor pkg part slot index w0 w1 w2 w3 s) := by
  unfold execInstallCircuitDescriptor; dsimp only
  repeat' split
  all_goals exact steps_service s _ _ _ _ _
theorem steps_execRoutingUpdate (pkg : Nat) (dest : Nat) (entry : Nat) (s : State) :
    Steps s (execRoutingUpdate pkg dest entry s) := by
  unfold execRoutingUpdate; dsimp only
  repeat' split
  all_goals exact steps_service s _ _ _ _ _
theorem steps_execRoutingFlip (pkg : Nat) (s : State) : Steps s (execRoutingFlip pkg s) := by
  unfold execRoutingFlip
  repeat' split
  all_goals first | exact steps_by s _ | exact steps_service s _ _ _ _ _
theorem steps_execConnectionTableEntry (pkg : Nat) (src : Nat) (dst : Nat) (count : Nat) (s : State) :
    Steps s (execConnectionTableEntry pkg src dst count s) := by
  unfold execConnectionTableEntry; dsimp only
  repeat' split
  all_goals first | exact steps_by s _ | exact steps_service s _ _ _ _ _
theorem steps_execSetBandQuantum (pkg : Nat) (band : Nat) (value : Nat) (s : State) :
    Steps s (execSetBandQuantum pkg band value s) :=
  steps_service s _ _ _ _ _
theorem steps_execLinkEnable (pkg : Nat) (link : Nat) (s : State) : Steps s (execLinkEnable pkg link s) := by
  unfold execLinkEnable; dsimp only
  repeat' split
  all_goals first | exact steps_by s _ | exact steps_same s
theorem steps_execPowerGrant (pkg : Nat) (demands : List Nat) (s : State) : Steps s (execPowerGrant pkg demands s) := by
  unfold execPowerGrant; dsimp only
  repeat' split
  all_goals first | exact steps_by s _ | exact steps_same s
theorem steps_execStackFailure (pkg : Nat) (stack : Nat) (s : State) : Steps s (execStackFailure pkg stack s) := by
  unfold execStackFailure
  repeat' split
  all_goals first | exact steps_by s _ | exact steps_same s
theorem steps_execBankRetire (die : Nat) (bank : Nat) (s : State) : Steps s (execBankRetire die bank s) := by
  unfold execBankRetire; dsimp only
  repeat' split
  all_goals first | exact steps_by s _ | exact steps_same s
theorem steps_execRingFailure (pkg : Nat) (port : Nat) (plane : Nat) (ring : Nat) (s : State) :
    Steps s (execRingFailure pkg port plane ring s) := by
  unfold execRingFailure; dsimp only
  repeat' split
  all_goals first | exact steps_by s _ | exact steps_same s
theorem steps_execTstatRead (f : SF) (s : State) : Steps s (execTstatRead f s) := steps_sysRead f _ s
theorem steps_execMstatRead (f : SF) (s : State) : Steps s (execMstatRead f s) := steps_sysRead f _ s
theorem steps_execXstatWrite (f : SF) (s : State) : Steps s (execXstatWrite f s) := steps_sysWrite f s
theorem steps_execVflagsWrite (f : SF) (s : State) : Steps s (execVflagsWrite f s) := steps_sysWrite f s
theorem steps_execRrbWrite (f : SF) (s : State) : Steps s (execRrbWrite f s) := steps_sysWrite f s
theorem steps_execGrbWrite (f : SF) (s : State) : Steps s (execGrbWrite f s) := steps_sysWrite f s
theorem steps_execTguardWrite (f : SF) (s : State) : Steps s (execTguardWrite f s) := steps_scalarGuarded s f _ _
theorem steps_execFsrWrite (f : SF) (s : State) : Steps s (execFsrWrite f s) := steps_sysWrite f s
theorem steps_execWaitlimWrite (f : SF) (s : State) : Steps s (execWaitlimWrite f s) := steps_sysWrite f s
theorem steps_execOpselWrite (f : SF) (s : State) : Steps s (execOpselWrite f s) := steps_sysWrite f s
theorem steps_execRingWrite (f : SF) (s : State) : Steps s (execRingWrite f s) := steps_sysWrite f s
theorem steps_execMzmWrite (f : SF) (s : State) : Steps s (execMzmWrite f s) := steps_sysWrite f s
theorem steps_execElogstatWrite (f : SF) (s : State) : Steps s (execElogstatWrite f s) := steps_sysWrite f s
theorem steps_execInjctlWrite (f : SF) (s : State) : Steps s (execInjctlWrite f s) := steps_sysWrite f s
theorem steps_execIntstatWrite (pkg : Nat) (bits : Nat) (s : State) : Steps s (execIntstatWrite pkg bits s) :=
  steps_by s _
theorem steps_execNop (slot : SlotName) (s : State) : Steps s (execNop slot s) := steps_same s
theorem steps_execAdd (f : SF) (s : State) : Steps s (execAdd f s) := steps_scalarOp s f _ _
theorem steps_execSub (f : SF) (s : State) : Steps s (execSub f s) := steps_scalarOp s f _ _
theorem steps_execMul (f : SF) (s : State) : Steps s (execMul f s) := steps_scalarOp s f _ _
theorem steps_execMulh (f : SF) (s : State) : Steps s (execMulh f s) := steps_scalarOp s f _ _
theorem steps_execDiv (f : SF) (s : State) : Steps s (execDiv f s) := steps_scalarOp s f _ _
theorem steps_execRem (f : SF) (s : State) : Steps s (execRem f s) := steps_scalarOp s f _ _
theorem steps_execAnd (f : SF) (s : State) : Steps s (execAnd f s) := steps_scalarOp s f _ _
theorem steps_execAndn (f : SF) (s : State) : Steps s (execAndn f s) := steps_scalarOp s f _ _
theorem steps_execOr (f : SF) (s : State) : Steps s (execOr f s) := steps_scalarOp s f _ _
theorem steps_execXor (f : SF) (s : State) : Steps s (execXor f s) := steps_scalarOp s f _ _
theorem steps_execShl (f : SF) (s : State) : Steps s (execShl f s) := steps_scalarOp s f _ _
theorem steps_execShr (f : SF) (s : State) : Steps s (execShr f s) := steps_scalarOp s f _ _
theorem steps_execSra (f : SF) (s : State) : Steps s (execSra f s) := steps_scalarOp s f _ _
theorem steps_execRol (f : SF) (s : State) : Steps s (execRol f s) := steps_scalarOp s f _ _
theorem steps_execMin (f : SF) (s : State) : Steps s (execMin f s) := steps_scalarOp s f _ _
theorem steps_execMax (f : SF) (s : State) : Steps s (execMax f s) := steps_scalarOp s f _ _
theorem steps_execClz (f : SF) (s : State) : Steps s (execClz f s) := steps_scalarOp s f _ _
theorem steps_execPopc (f : SF) (s : State) : Steps s (execPopc f s) := steps_scalarOp s f _ _
theorem steps_execSel (f : SF) (s : State) : Steps s (execSel f s) := steps_scalarOp s f _ _
theorem steps_execMov (f : SF) (s : State) : Steps s (execMov f s) := steps_scalarOp s f _ _
theorem steps_execLi (f : SF) (s : State) : Steps s (execLi f s) := steps_scalarOp s f _ _
theorem steps_execCmp (f : SF) (s : State) : Steps s (execCmp f s) := steps_predOp s f _
theorem steps_execPand (f : SF) (s : State) : Steps s (execPand f s) := steps_predOp s f _
theorem steps_execPor (f : SF) (s : State) : Steps s (execPor f s) := steps_predOp s f _
theorem steps_execPxor (f : SF) (s : State) : Steps s (execPxor f s) := steps_predOp s f _
theorem steps_execPnot (f : SF) (s : State) : Steps s (execPnot f s) := steps_predOp s f _
theorem steps_execKpop (f : SF) (s : State) : Steps s (execKpop f s) := steps_scalarOp s f _ _
theorem steps_execKpopN (f : SF) (s : State) : Steps s (execKpopN f s) := steps_scalarOp s f _ _
theorem steps_execLd (f : SF) (s : State) : Steps s (execLd f s) := steps_scalarGuarded s f _ _
theorem steps_execSt (f : SF) (s : State) : Steps s (execSt f s) := steps_scalarGuarded s f _ _
theorem steps_execAtom (f : SF) (s : State) : Steps s (execAtom f s) := steps_scalarGuarded s f _ _
theorem steps_execAtomCas (f : SF) (s : State) : Steps s (execAtomCas f s) := steps_scalarGuarded s f _ _
theorem steps_execRed (f : SF) (s : State) : Steps s (execRed f s) := steps_scalarGuarded s f _ _
theorem steps_execLqpop (f : SF) (s : State) : Steps s (execLqpop f s) := steps_scalarGuarded s f _ _
theorem steps_execApush (f : SF) (s : State) : Steps s (execApush f s) := steps_scalarGuarded s f _ _
theorem steps_execFence (f : SF) (s : State) : Steps s (execFence f s) := steps_scalarGuarded s f _ _
theorem steps_execWaitw (f : SF) (s : State) : Steps s (execWaitw f s) := steps_waiting s f _ _ _ _
theorem steps_execBrRel (f : SF) (s : State) : Steps s (execBrRel f s) := steps_transfer f _ s
theorem steps_execBrReg (f : SF) (s : State) : Steps s (execBrReg f s) := steps_transfer f _ s
theorem steps_execJmpImm (f : SF) (s : State) : Steps s (execJmpImm f s) := steps_transfer f _ s
theorem steps_execJmpReg (f : SF) (s : State) : Steps s (execJmpReg f s) := steps_transfer f _ s
theorem steps_execJmpLong (f : SF) (s : State) : Steps s (execJmpLong f s) := steps_transfer f _ s
theorem steps_execCallRel (f : SF) (s : State) : Steps s (execCallRel f s) := steps_callTo f _ s
theorem steps_execCallReg (f : SF) (s : State) : Steps s (execCallReg f s) := steps_callTo f _ s
theorem steps_execRet (f : SF) (s : State) : Steps s (execRet f s) := steps_transfer f _ s
theorem steps_execLoop (f : SF) (s : State) : Steps s (execLoop f s) := by
  unfold execLoop
  split
  · exact steps_guarded s _ _
  · exact steps_onSlot s _
theorem steps_execTrap (f : SF) (s : State) : Steps s (execTrap f s) := steps_onSlot s _
theorem steps_execTret (f : SF) (s : State) : Steps s (execTret f s) := steps_scalarGuarded s f _ _
theorem steps_execEnd (f : SF) (s : State) : Steps s (execEnd f s) := steps_waiting s f _ _ _ _
theorem steps_execYield (f : SF) (s : State) : Steps s (execYield f s) := steps_waiting s f _ _ _ _
theorem steps_execLaunch (f : SF) (s : State) : Steps s (execLaunch f s) := steps_waiting s f _ _ _ _
theorem steps_execTwait (f : SF) (s : State) : Steps s (execTwait f s) := steps_twait f s
theorem steps_execTwaitAbs (f : SF) (s : State) : Steps s (execTwaitAbs f s) := steps_waiting s f _ _ _ _
theorem steps_execWtagall (f : SF) (s : State) : Steps s (execWtagall f s) := steps_scalarGuarded s f _ _
theorem steps_execWtagany (f : SF) (s : State) : Steps s (execWtagany f s) := steps_scalarGuarded s f _ _
theorem steps_execTagff (f : SF) (s : State) : Steps s (execTagff f s) := steps_scalarOp s f _ _
theorem steps_execTagclr (f : SF) (s : State) : Steps s (execTagclr f s) := steps_onSlot s _
theorem steps_execQwait (f : SF) (s : State) : Steps s (execQwait f s) := steps_scalarGuarded s f _ _
theorem steps_execQadv (f : SF) (s : State) : Steps s (execQadv f s) := steps_scalarGuarded s f _ _
theorem steps_execQset (f : SF) (s : State) : Steps s (execQset f s) := steps_scalarGuarded s f _ _
theorem steps_execBara (f : SF) (s : State) : Steps s (execBara f s) := steps_waiting s f _ _ _ _
theorem steps_execBarw (f : SF) (s : State) : Steps s (execBarw f s) := steps_waiting s f _ _ _ _
theorem steps_execStep (f : SF) (s : State) : Steps s (execStep f s) := steps_waiting s f _ _ _ _
theorem steps_execPstat (f : SF) (s : State) : Steps s (execPstat f s) := steps_waiting s f _ _ _ _
theorem steps_execSysrd (f : SF) (s : State) : Steps s (execSysrd f s) := steps_sysRead f _ s
theorem steps_execSyswr (f : SF) (s : State) : Steps s (execSyswr f s) := steps_sysWrite f s
theorem steps_execTidset (f : SF) (s : State) : Steps s (execTidset f s) := steps_scalarGuarded s f _ _
theorem steps_execFalloc (f : SF) (s : State) : Steps s (execFalloc f s) := steps_alloc f _ _ _ s
theorem steps_execFallocAt (f : SF) (s : State) : Steps s (execFallocAt f s) := steps_alloc f _ _ _ s
theorem steps_execFallocQuery (f : SF) (s : State) : Steps s (execFallocQuery f s) := steps_alloc f _ _ _ s
theorem steps_execFfree (f : SF) (s : State) : Steps s (execFfree f s) := steps_alloc f _ _ _ s
theorem steps_execVadd (f : VF) (s : State) : Steps s (execVadd f s) := steps_vectorOp _ s
theorem steps_execVsub (f : VF) (s : State) : Steps s (execVsub f s) := steps_vectorOp _ s
theorem steps_execVmul (f : VF) (s : State) : Steps s (execVmul f s) := steps_vectorOp _ s
theorem steps_execVfma (f : VF) (s : State) : Steps s (execVfma f s) := steps_vectorOp _ s
theorem steps_execVfms (f : VF) (s : State) : Steps s (execVfms f s) := steps_vectorOp _ s
theorem steps_execVmin (f : VF) (s : State) : Steps s (execVmin f s) := steps_vectorOp _ s
theorem steps_execVmax (f : VF) (s : State) : Steps s (execVmax f s) := steps_vectorOp _ s
theorem steps_execVabs (f : VF) (s : State) : Steps s (execVabs f s) := steps_vectorOp _ s
theorem steps_execVneg (f : VF) (s : State) : Steps s (execVneg f s) := steps_vectorOp _ s
theorem steps_execVand (f : VF) (s : State) : Steps s (execVand f s) := steps_vectorOp _ s
theorem steps_execVor (f : VF) (s : State) : Steps s (execVor f s) := steps_vectorOp _ s
theorem steps_execVxor (f : VF) (s : State) : Steps s (execVxor f s) := steps_vectorOp _ s
theorem steps_execVnot (f : VF) (s : State) : Steps s (execVnot f s) := steps_vectorOp _ s
theorem steps_execVshl (f : VF) (s : State) : Steps s (execVshl f s) := steps_vectorOp _ s
theorem steps_execVshr (f : VF) (s : State) : Steps s (execVshr f s) := steps_vectorOp _ s
theorem steps_execVsra (f : VF) (s : State) : Steps s (execVsra f s) := steps_vectorOp _ s
theorem steps_execVcmp (f : VF) (s : State) : Steps s (execVcmp f s) := steps_vectorOp _ s
theorem steps_execVsel (f : VF) (s : State) : Steps s (execVsel f s) := steps_vectorOp _ s
theorem steps_execVmov (f : VF) (s : State) : Steps s (execVmov f s) := steps_vectorOp _ s
theorem steps_execVbcastIdx (f : VF) (s : State) : Steps s (execVbcastIdx f s) := steps_vectorOp _ s
theorem steps_execVbcastFirst (f : VF) (s : State) : Steps s (execVbcastFirst f s) := steps_vectorOp _ s
theorem steps_execViota (f : VF) (s : State) : Steps s (execViota f s) := steps_vectorOp _ s
theorem steps_execVext (f : VF) (s : State) : Steps s (execVext f s) := steps_vectorOp _ s
theorem steps_execVdot (f : VF) (s : State) : Steps s (execVdot f s) := steps_vectorOp _ s
theorem steps_execVred (f : VF) (s : State) : Steps s (execVred f s) := steps_vectorOp _ s
theorem steps_execVamax (f : VF) (s : State) : Steps s (execVamax f s) := steps_vectorOp _ s
theorem steps_execVcvt (f : VF) (s : State) : Steps s (execVcvt f s) := steps_vectorOp _ s
theorem steps_execVwid (f : VF) (s : State) : Steps s (execVwid f s) := steps_vectorOp _ s
theorem steps_execVnar (f : VF) (s : State) : Steps s (execVnar f s) := steps_vectorOp _ s
theorem steps_execVquant (f : VF) (s : State) : Steps s (execVquant f s) := steps_vectorOp _ s
theorem steps_execVperm (f : VF) (s : State) : Steps s (execVperm f s) := steps_vectorOp _ s
theorem steps_execVcompact (f : VF) (s : State) : Steps s (execVcompact f s) := steps_vectorOp _ s
theorem steps_execVld (f : VF) (s : State) : Steps s (execVld f s) := steps_guarded s _ _
theorem steps_execVst (f : VF) (s : State) : Steps s (execVst f s) := steps_guarded s _ _
theorem steps_execKand (f : VF) (s : State) : Steps s (execKand f s) := steps_vectorOp _ s
theorem steps_execKor (f : VF) (s : State) : Steps s (execKor f s) := steps_vectorOp _ s
theorem steps_execKxor (f : VF) (s : State) : Steps s (execKxor f s) := steps_vectorOp _ s
theorem steps_execKnot (f : VF) (s : State) : Steps s (execKnot f s) := steps_vectorOp _ s
theorem steps_execVexp2 (f : VF) (s : State) : Steps s (execVexp2 f s) := steps_vectorOp _ s
theorem steps_execVlog2 (f : VF) (s : State) : Steps s (execVlog2 f s) := steps_vectorOp _ s
theorem steps_execVrcp (f : VF) (s : State) : Steps s (execVrcp f s) := steps_vectorOp _ s
theorem steps_execVrsq (f : VF) (s : State) : Steps s (execVrsq f s) := steps_vectorOp _ s
theorem steps_execVsqrt (f : VF) (s : State) : Steps s (execVsqrt f s) := steps_vectorOp _ s
theorem steps_execVtanh (f : VF) (s : State) : Steps s (execVtanh f s) := steps_vectorOp _ s
theorem steps_execScan (f : VF) (s : State) : Steps s (execScan f s) := steps_vectorOp _ s
theorem steps_execSelk (f : VF) (s : State) : Steps s (execSelk f s) := steps_vectorOp _ s
theorem steps_execSortk (f : VF) (s : State) : Steps s (execSortk f s) := steps_vectorOp _ s
theorem steps_execRsolve (f : VF) (s : State) : Steps s (execRsolve f s) := steps_guarded s _ _
theorem steps_execMcfgHead (f : MF) (s : State) : Steps s (execMcfgHead f s) := steps_guarded s _ _
theorem steps_execMcfgLevel (f : MF) (s : State) : Steps s (execMcfgLevel f s) := steps_guarded s _ _
theorem steps_execMroute (f : MF) (s : State) : Steps s (execMroute f s) := by
  unfold execMroute; dsimp only
  repeat' split
  all_goals exact steps_guarded s _ _
theorem steps_execMgath (f : MF) (s : State) : Steps s (execMgath f s) := steps_guarded s _ _
theorem steps_execMgo (f : MF) (s : State) : Steps s (execMgo f s) := steps_guarded s _ _
theorem steps_execMcommit (f : MF) (s : State) : Steps s (execMcommit f s) := steps_guarded s _ _
theorem steps_execMwaitb (f : MF) (s : State) : Steps s (execMwaitb f s) := steps_guarded s _ _
theorem steps_execMdrain (f : MF) (s : State) : Steps s (execMdrain f s) := steps_guarded s _ _
theorem steps_execMzero (f : MF) (s : State) : Steps s (execMzero f s) := steps_guarded s _ _
theorem steps_execMlda (f : MF) (s : State) : Steps s (execMlda f s) := steps_guarded s _ _
theorem steps_execMstop (f : MF) (s : State) : Steps s (execMstop f s) := by
  unfold execMstop; dsimp only
  split
  · exact steps_of_commit s (steps_guarded _ _ _)
  · exact steps_guarded s _ _
theorem steps_execCget (f : CF) (s : State) : Steps s (execCget f s) := steps_copyOp f _ _ s
theorem steps_execCput (f : CF) (s : State) : Steps s (execCput f s) := steps_copyOp f _ _ s
theorem steps_execCputf (f : CF) (s : State) : Steps s (execCputf f s) := steps_copyOp f _ _ s
theorem steps_execCgath (f : CF) (s : State) : Steps s (execCgath f s) := steps_guarded s _ _
theorem steps_execCscat (f : CF) (s : State) : Steps s (execCscat f s) := by
  unfold execCscat; dsimp only
  repeat' split
  all_goals exact steps_guarded s _ _
theorem steps_execCatom (f : CF) (s : State) : Steps s (execCatom f s) := steps_copyOp f _ _ s
theorem steps_execCred (f : CF) (s : State) : Steps s (execCred f s) := steps_copyOp f _ _ s
theorem steps_execCfence (f : CF) (s : State) : Steps s (execCfence f s) := steps_copyOp f _ _ s
theorem steps_execCzero (f : CF) (s : State) : Steps s (execCzero f s) := steps_copyOp f _ _ s
theorem steps_execCroute (f : CF) (s : State) : Steps s (execCroute f s) := steps_copyOp f _ _ s
theorem steps_execCbund (f : CF) (s : State) : Steps s (execCbund f s) := steps_copyOp f _ _ s
theorem steps_execCencOpen (f : CF) (s : State) : Steps s (execCencOpen f s) := steps_guarded s _ _
theorem steps_execCencFrame (f : CF) (s : State) : Steps s (execCencFrame f s) := by
  unfold execCencFrame; dsimp only
  repeat' split
  all_goals exact steps_guarded s _ _
theorem steps_execCencClose (f : CF) (s : State) : Steps s (execCencClose f s) := steps_guarded s _ _
theorem steps_execXsend (f : XF) (s : State) : Steps s (execXsend f s) := steps_guarded s _ _
theorem steps_execXrecv (f : XF) (s : State) : Steps s (execXrecv f s) := by
  unfold execXrecv
  split
  · exact steps_of_commit s (steps_by _ _)
  · exact steps_guarded s _ _
theorem steps_execLightPresent (pkg : Nat) (link : Nat) (s : State) : Steps s (execLightPresent pkg link s) := by
  unfold execLightPresent
  repeat' split
  all_goals first | exact steps_by s _ | exact steps_same s
theorem steps_execPtpPortEnable (pkg : Nat) (port : Nat) (enable : Nat) (s : State) :
    Steps s (execPtpPortEnable pkg port enable s) := by
  unfold execPtpPortEnable; dsimp only
  repeat' split
  all_goals first | exact steps_by s _ | exact steps_same s
theorem steps_execBarrierRootAnswer (slot : Nat) (s : State) : Steps s (execBarrierRootAnswer slot s) := by
  unfold execBarrierRootAnswer
  repeat' split
  all_goals first | exact steps_by s _ | exact steps_same s
theorem steps_execTakeoverComplete (pkg : Nat) (s : State) : Steps s (execTakeoverComplete pkg s) := by
  unfold execTakeoverComplete; dsimp only
  repeat' split
  all_goals first | exact steps_by s _ | exact steps_same s
theorem steps_execUnknownCommand (pkg : Nat) (code : Nat) (s : State) : Steps s (execUnknownCommand pkg code s) :=
  steps_service s _ _ _ _ _
theorem steps_execBundleIssue (s : State) : Steps s (execBundleIssue s) := by
  unfold execBundleIssue
  repeat' split
  all_goals first | exact steps_by s _ | exact steps_same s
theorem steps_execAnchoredBundleIssue (s : State) : Steps s (execAnchoredBundleIssue s) := by
  unfold execAnchoredBundleIssue
  repeat' split
  all_goals first | exact steps_by s _ | exact steps_same s
theorem steps_execLateTickExpiry (s : State) : Steps s (execLateTickExpiry s) := by
  unfold execLateTickExpiry; dsimp only
  repeat' split
  all_goals first | exact steps_by s _ | exact steps_same s
theorem steps_execResultLanding (s : State) : Steps s (execResultLanding s) := steps_by s _
theorem steps_execWaitLimit (s : State) : Steps s (execWaitLimit s) := by
  unfold execWaitLimit
  repeat' split
  all_goals first | exact steps_by s _ | exact steps_same s
theorem steps_execSlipExceeded (s : State) : Steps s (execSlipExceeded s) := by
  unfold execSlipExceeded
  repeat' split
  all_goals first | exact steps_by s _ | exact steps_same s
theorem steps_execContextEvict (s : State) : Steps s (execContextEvict s) := by
  unfold execContextEvict; dsimp only
  repeat' split
  all_goals first | exact steps_by s _ | exact steps_same s
theorem steps_execCuffOverrun (s : State) : Steps s (execCuffOverrun s) := by
  unfold execCuffOverrun
  repeat' split
  all_goals first | exact steps_by s _ | exact steps_same s
theorem steps_execMatrixStepStart (s : State) : Steps s (execMatrixStepStart s) := steps_onSlot s _
theorem steps_execMatrixStepComplete (s : State) : Steps s (execMatrixStepComplete s) := steps_onSlot s _
theorem steps_execTableMove (s : State) : Steps s (execTableMove s) := steps_onSlot s _
theorem steps_execXrecvTake (s : State) : Steps s (execXrecvTake s) := by
  unfold execXrecvTake; dsimp only
  repeat' split
  all_goals first | exact steps_by s _ | exact steps_same s
theorem steps_execWaitwReread (s : State) : Steps s (execWaitwReread s) := by
  unfold execWaitwReread; dsimp only
  repeat' split
  all_goals first | exact steps_by s _ | exact steps_same s
theorem steps_execComputeDieFailure (s : State) : Steps s (execComputeDieFailure s) := by
  unfold execComputeDieFailure; dsimp only
  repeat' split
  all_goals first | exact steps_by s _ | exact steps_same s | exact steps_service s _ _ _ _ _
theorem steps_execEncodeComplete (s : State) : Steps s (execEncodeComplete s) := by
  unfold execEncodeComplete; dsimp only
  repeat' split
  all_goals first | exact steps_by s _ | exact steps_same s

/-- Every instruction steps. -/
theorem steps_exec (i : Instr) (s : State) : Steps s (exec i s) :=
  match i with
  | .launchPortStore pkg ptr => steps_execLaunchPortStore pkg ptr s
  | .launchValidate pkg => steps_execLaunchValidate pkg s
  | .gangStart rid choice => steps_execGangStart rid choice s
  | .startTick rid choice => steps_execStartTick rid choice s
  | .startLate rid => steps_execStartLate rid s
  | .regionDone rid => steps_execRegionDone rid s
  | .periodStart rid => steps_execPeriodStart rid s
  | .budgetExhausted rid => steps_execBudgetExhausted rid s
  | .deadlineMiss rid => steps_execDeadlineMiss rid s
  | .quantumExpiry rid => steps_execQuantumExpiry rid s
  | .dispatch pkg choice => steps_execDispatch pkg choice s
  | .preemptStop rid => steps_execPreemptStop rid s
  | .windowOverrun rid => steps_execWindowOverrun rid s
  | .resume rid choice => steps_execResume rid choice s
  | .cancelObserved rid => steps_execCancelObserved rid s
  | .cancelComplete rid => steps_execCancelComplete rid s
  | .millinerTakeover pkg => steps_execMillinerTakeover pkg s
  | .ptpSync pkg offset => steps_execPtpSync pkg offset s
  | .syncTimeout pkg => steps_execSyncTimeout pkg s
  | .holdoverTimeout pkg => steps_execHoldoverTimeout pkg s
  | .spineLineTransfer die chan => steps_execSpineLineTransfer die chan s
  | .peerBankAccess die req => steps_execPeerBankAccess die req s
  | .cuffLanding die cuff => steps_execCuffLanding die cuff s
  | .copyComplete die chan => steps_execCopyComplete die chan s
  | .cgathEntryWrite die chan => steps_execCgathEntryWrite die chan s
  | .cputfFlagIncrement die chan => steps_execCputfFlagIncrement die chan s
  | .pageWalk die part space vpage => steps_execPageWalk die part space vpage s
  | .homeAccess die chan item => steps_execHomeAccess die chan item s
  | .loadReturn req => steps_execLoadReturn req s
  | .storeAck req => steps_execStoreAck req s
  | .atomicResend req => steps_execAtomicResend req s
  | .atomicTimeout req => steps_execAtomicTimeout req s
  | .resultCacheExpiry pkg src seq => steps_execResultCacheExpiry pkg src seq s
  | .routerCredReceive pkg req => steps_execRouterCredReceive pkg req s
  | .mergeForward pkg merge => steps_execMergeForward pkg merge s
  | .mergeAnswer pkg merge => steps_execMergeAnswer pkg merge s
  | .mirrorAck req => steps_execMirrorAck req s
  | .crownAllocatorAnswer slot => steps_execCrownAllocatorAnswer slot s
  | .fabricDieFailed pkg fd => steps_execFabricDieFailed pkg fd s
  | .failoverComplete pkg fd => steps_execFailoverComplete pkg fd s
  | .barrierArrival part entry writer => steps_execBarrierArrival part entry writer s
  | .planeMerge part group home => steps_execPlaneMerge part group home s
  | .phaseFlip part entry => steps_execPhaseFlip part entry s
  | .flitReceive pkg link seq good => steps_execFlitReceive pkg link seq good s
  | .lossOfLight pkg link => steps_execLossOfLight pkg link s
  | .opticalLock pkg link => steps_execOpticalLock pkg link s
  | .authAttempt pkg link good => steps_execAuthAttempt pkg link good s
  | .authTimeout pkg link => steps_execAuthTimeout pkg link s
  | .drainMarker pkg src => steps_execDrainMarker pkg src s
  | .biasLimit pkg port plane mzm high => steps_execBiasLimit pkg port plane mzm high s
  | .heaterApply pkg port plane ring => steps_execHeaterApply pkg port plane ring s
  | .monUpdate pkg port plane ring reading => steps_execMonUpdate pkg port plane ring reading s
  | .colourTakeover pkg port plane ring => steps_execColourTakeover pkg port plane ring s
  | .circuitUp pkg src dst => steps_execCircuitUp pkg src dst s
  | .circuitWaitTimeout req => steps_execCircuitWaitTimeout req s
  | .xsendLaunch circ => steps_execXsendLaunch circ s
  | .unitLanding circ => steps_execUnitLanding circ s
  | .windowEnd circ => steps_execWindowEnd circ s
  | .hostAccess pkg write ptr size data => steps_execHostAccess pkg write ptr size data s
  | .reset pkg outcome => steps_execReset pkg outcome s
  | .readyTimeout pkg => steps_execReadyTimeout pkg s
  | .attestationRequest pkg nonce => steps_execAttestationRequest pkg nonce s
  | .installRangeEntry pkg part index w0 w1 w2 w3 => steps_execInstallRangeEntry pkg part index w0 w1 w2 w3 s
  | .invalidateTranslation pkg part space first last => steps_execInvalidateTranslation pkg part space first last s
  | .installPlaneDescriptor pkg part index w0 w1 w2 w3 w4 w5 w6 w7 => steps_execInstallPlaneDescriptor pkg part index w0 w1 w2 w3 w4 w5 w6 w7 s
  | .installBarrierEntry pkg part index members => steps_execInstallBarrierEntry pkg part index members s
  | .installReductionWindow pkg part index base size ty op => steps_execInstallReductionWindow pkg part index base size ty op s
  | .installCircuitDescriptor pkg part slot index w0 w1 w2 w3 => steps_execInstallCircuitDescriptor pkg part slot index w0 w1 w2 w3 s
  | .routingUpdate pkg dest entry => steps_execRoutingUpdate pkg dest entry s
  | .routingFlip pkg => steps_execRoutingFlip pkg s
  | .connectionTableEntry pkg src dst count => steps_execConnectionTableEntry pkg src dst count s
  | .setBandQuantum pkg band value => steps_execSetBandQuantum pkg band value s
  | .linkEnable pkg link => steps_execLinkEnable pkg link s
  | .powerGrant pkg demands => steps_execPowerGrant pkg demands s
  | .stackFailure pkg stack => steps_execStackFailure pkg stack s
  | .bankRetire die bank => steps_execBankRetire die bank s
  | .ringFailure pkg port plane ring => steps_execRingFailure pkg port plane ring s
  | .tstatRead f => steps_execTstatRead f s
  | .mstatRead f => steps_execMstatRead f s
  | .xstatWrite f => steps_execXstatWrite f s
  | .vflagsWrite f => steps_execVflagsWrite f s
  | .rrbWrite f => steps_execRrbWrite f s
  | .grbWrite f => steps_execGrbWrite f s
  | .tguardWrite f => steps_execTguardWrite f s
  | .fsrWrite f => steps_execFsrWrite f s
  | .waitlimWrite f => steps_execWaitlimWrite f s
  | .opselWrite f => steps_execOpselWrite f s
  | .ringWrite f => steps_execRingWrite f s
  | .mzmWrite f => steps_execMzmWrite f s
  | .elogstatWrite f => steps_execElogstatWrite f s
  | .injctlWrite f => steps_execInjctlWrite f s
  | .intstatWrite pkg bits => steps_execIntstatWrite pkg bits s
  | .nop slot => steps_execNop slot s
  | .add f => steps_execAdd f s
  | .sub f => steps_execSub f s
  | .mul f => steps_execMul f s
  | .mulh f => steps_execMulh f s
  | .div f => steps_execDiv f s
  | .rem f => steps_execRem f s
  | .and_ f => steps_execAnd f s
  | .andn f => steps_execAndn f s
  | .or_ f => steps_execOr f s
  | .xor f => steps_execXor f s
  | .shl f => steps_execShl f s
  | .shr f => steps_execShr f s
  | .sra f => steps_execSra f s
  | .rol f => steps_execRol f s
  | .min f => steps_execMin f s
  | .max f => steps_execMax f s
  | .clz f => steps_execClz f s
  | .popc f => steps_execPopc f s
  | .sel f => steps_execSel f s
  | .mov f => steps_execMov f s
  | .li f => steps_execLi f s
  | .cmp f => steps_execCmp f s
  | .pand f => steps_execPand f s
  | .por f => steps_execPor f s
  | .pxor f => steps_execPxor f s
  | .pnot f => steps_execPnot f s
  | .kpop f => steps_execKpop f s
  | .kpopN f => steps_execKpopN f s
  | .ld f => steps_execLd f s
  | .st f => steps_execSt f s
  | .atom f => steps_execAtom f s
  | .atomCas f => steps_execAtomCas f s
  | .red f => steps_execRed f s
  | .lqpop f => steps_execLqpop f s
  | .apush f => steps_execApush f s
  | .fence f => steps_execFence f s
  | .waitw f => steps_execWaitw f s
  | .brRel f => steps_execBrRel f s
  | .brReg f => steps_execBrReg f s
  | .jmpImm f => steps_execJmpImm f s
  | .jmpReg f => steps_execJmpReg f s
  | .jmpLong f => steps_execJmpLong f s
  | .callRel f => steps_execCallRel f s
  | .callReg f => steps_execCallReg f s
  | .ret f => steps_execRet f s
  | .loop f => steps_execLoop f s
  | .trap f => steps_execTrap f s
  | .tret f => steps_execTret f s
  | .end_ f => steps_execEnd f s
  | .yield f => steps_execYield f s
  | .launch f => steps_execLaunch f s
  | .twait f => steps_execTwait f s
  | .twaitAbs f => steps_execTwaitAbs f s
  | .wtagall f => steps_execWtagall f s
  | .wtagany f => steps_execWtagany f s
  | .tagff f => steps_execTagff f s
  | .tagclr f => steps_execTagclr f s
  | .qwait f => steps_execQwait f s
  | .qadv f => steps_execQadv f s
  | .qset f => steps_execQset f s
  | .bara f => steps_execBara f s
  | .barw f => steps_execBarw f s
  | .step f => steps_execStep f s
  | .pstat f => steps_execPstat f s
  | .sysrd f => steps_execSysrd f s
  | .syswr f => steps_execSyswr f s
  | .tidset f => steps_execTidset f s
  | .falloc f => steps_execFalloc f s
  | .fallocAt f => steps_execFallocAt f s
  | .fallocQuery f => steps_execFallocQuery f s
  | .ffree f => steps_execFfree f s
  | .vadd f => steps_execVadd f s
  | .vsub f => steps_execVsub f s
  | .vmul f => steps_execVmul f s
  | .vfma f => steps_execVfma f s
  | .vfms f => steps_execVfms f s
  | .vmin f => steps_execVmin f s
  | .vmax f => steps_execVmax f s
  | .vabs f => steps_execVabs f s
  | .vneg f => steps_execVneg f s
  | .vand f => steps_execVand f s
  | .vor f => steps_execVor f s
  | .vxor f => steps_execVxor f s
  | .vnot f => steps_execVnot f s
  | .vshl f => steps_execVshl f s
  | .vshr f => steps_execVshr f s
  | .vsra f => steps_execVsra f s
  | .vcmp f => steps_execVcmp f s
  | .vsel f => steps_execVsel f s
  | .vmov f => steps_execVmov f s
  | .vbcastIdx f => steps_execVbcastIdx f s
  | .vbcastFirst f => steps_execVbcastFirst f s
  | .viota f => steps_execViota f s
  | .vext f => steps_execVext f s
  | .vdot f => steps_execVdot f s
  | .vred f => steps_execVred f s
  | .vamax f => steps_execVamax f s
  | .vcvt f => steps_execVcvt f s
  | .vwid f => steps_execVwid f s
  | .vnar f => steps_execVnar f s
  | .vquant f => steps_execVquant f s
  | .vperm f => steps_execVperm f s
  | .vcompact f => steps_execVcompact f s
  | .vld f => steps_execVld f s
  | .vst f => steps_execVst f s
  | .kand f => steps_execKand f s
  | .kor f => steps_execKor f s
  | .kxor f => steps_execKxor f s
  | .knot f => steps_execKnot f s
  | .vexp2 f => steps_execVexp2 f s
  | .vlog2 f => steps_execVlog2 f s
  | .vrcp f => steps_execVrcp f s
  | .vrsq f => steps_execVrsq f s
  | .vsqrt f => steps_execVsqrt f s
  | .vtanh f => steps_execVtanh f s
  | .scan f => steps_execScan f s
  | .selk f => steps_execSelk f s
  | .sortk f => steps_execSortk f s
  | .rsolve f => steps_execRsolve f s
  | .mcfgHead f => steps_execMcfgHead f s
  | .mcfgLevel f => steps_execMcfgLevel f s
  | .mroute f => steps_execMroute f s
  | .mgath f => steps_execMgath f s
  | .mgo f => steps_execMgo f s
  | .mcommit f => steps_execMcommit f s
  | .mwaitb f => steps_execMwaitb f s
  | .mdrain f => steps_execMdrain f s
  | .mzero f => steps_execMzero f s
  | .mlda f => steps_execMlda f s
  | .mstop f => steps_execMstop f s
  | .cget f => steps_execCget f s
  | .cput f => steps_execCput f s
  | .cputf f => steps_execCputf f s
  | .cgath f => steps_execCgath f s
  | .cscat f => steps_execCscat f s
  | .catom f => steps_execCatom f s
  | .cred f => steps_execCred f s
  | .cfence f => steps_execCfence f s
  | .czero f => steps_execCzero f s
  | .croute f => steps_execCroute f s
  | .cbund f => steps_execCbund f s
  | .cencOpen f => steps_execCencOpen f s
  | .cencFrame f => steps_execCencFrame f s
  | .cencClose f => steps_execCencClose f s
  | .xsend f => steps_execXsend f s
  | .xrecv f => steps_execXrecv f s
  | .lightPresent pkg link => steps_execLightPresent pkg link s
  | .ptpPortEnable pkg port enable => steps_execPtpPortEnable pkg port enable s
  | .barrierRootAnswer slot => steps_execBarrierRootAnswer slot s
  | .takeoverComplete pkg => steps_execTakeoverComplete pkg s
  | .unknownCommand pkg code => steps_execUnknownCommand pkg code s
  | .bundleIssue => steps_execBundleIssue s
  | .anchoredBundleIssue => steps_execAnchoredBundleIssue s
  | .lateTickExpiry => steps_execLateTickExpiry s
  | .resultLanding => steps_execResultLanding s
  | .waitLimit => steps_execWaitLimit s
  | .slipExceeded => steps_execSlipExceeded s
  | .contextEvict => steps_execContextEvict s
  | .cuffOverrun => steps_execCuffOverrun s
  | .matrixStepStart => steps_execMatrixStepStart s
  | .matrixStepComplete => steps_execMatrixStepComplete s
  | .tableMove => steps_execTableMove s
  | .xrecvTake => steps_execXrecvTake s
  | .waitwReread => steps_execWaitwReread s
  | .computeDieFailure => steps_execComputeDieFailure s
  | .encodeComplete => steps_execEncodeComplete s

/-- The state after an instruction, as changes. -/
theorem exec_next {i : Instr} {s t : State} (h : exec i s = .next t) : ∃ us, t = s.commit us := by
  obtain ⟨us, hu⟩ := steps_exec i s
  rw [hu] at h
  exact ⟨us, (Host.Outcome.next.inj h).symm⟩

end Sys2Proof.Machine
end

