-- ==== Sys2Proof/Laws/PerInstr.lean ====
section
/-! SUPPORT. For each instruction: the opcode maps and the event map read its own encoding back, and a well-formed
instruction keeps to the template rules. The round trip of the records rests on these. -/

set_option Elab.async false

namespace Sys2Proof.Laws.Reads
open Sys2Proof

/-- The maps read a well-formed instruction back from its parts. -/
structure Statement (i : Instr) : Prop where
  s : ∀ o f, i.wf = true → i.sParts = some (o, f) → o ≠ 0 ∧ pickS o.toNat f = some i ∧ templateOkS i f = true
  v : ∀ o f, i.wf = true → i.vParts = some (o, f) → o ≠ 0 ∧ pickV o.toNat f = some i ∧ templateOkV i f = true ∧
    (0x40 <= o.toNat → o.toNat < 0x60 → f.v1 = true)
  m : ∀ o f, i.wf = true → i.mParts = some (o, f) → o ≠ 0 ∧ pickM o.toNat f = some i ∧ templateOkM i f = true
  c : ∀ o f, i.wf = true → i.cParts = some (o, f) → o ≠ 0 ∧ pickC o.toNat f = some i ∧ templateOkC i f = true
  x : ∀ o f, i.xParts = some (o, f) → o ≠ 0 ∧ pickX o.toNat f = some i
  e : ∀ row args, i.wf = true → i.eventArgs = some (row, args) →
    row < 65536 ∧ args.length < 256 ∧ (∀ n ∈ args, n < 2 ^ 64) ∧ eventOf row args = some i

/-- An S instruction. -/
theorem ofS {i : Instr} {o : BitVec 8} {f : SF} (hs : i.sParts = some (o, f)) (hv : i.vParts = none)
    (hm : i.mParts = none) (hc : i.cParts = none) (hx : i.xParts = none) (he : i.eventArgs = none)
    (h : i.wf = true → o ≠ 0 ∧ pickS o.toNat f = some i ∧ templateOkS i f = true) : Statement i :=
  ⟨fun o' f' w h' => by rw [hs] at h'; obtain ⟨rfl, rfl⟩ := Prod.mk.inj (Option.some.inj h'); exact h w,
   fun _ _ _ h' => by simp [hv] at h', fun _ _ _ h' => by simp [hm] at h', fun _ _ _ h' => by simp [hc] at h',
   fun _ _ h' => by simp [hx] at h', fun _ _ _ h' => by simp [he] at h'⟩
/-- A V instruction. -/
theorem ofV {i : Instr} {o : BitVec 8} {f : VF} (hs : i.sParts = none) (hv : i.vParts = some (o, f))
    (hm : i.mParts = none) (hc : i.cParts = none) (hx : i.xParts = none) (he : i.eventArgs = none)
    (h : i.wf = true → o ≠ 0 ∧ pickV o.toNat f = some i ∧ templateOkV i f = true ∧
      (0x40 <= o.toNat → o.toNat < 0x60 → f.v1 = true)) : Statement i :=
  ⟨fun _ _ _ h' => by simp [hs] at h',
   fun o' f' w h' => by rw [hv] at h'; obtain ⟨rfl, rfl⟩ := Prod.mk.inj (Option.some.inj h'); exact h w,
   fun _ _ _ h' => by simp [hm] at h', fun _ _ _ h' => by simp [hc] at h', fun _ _ h' => by simp [hx] at h',
   fun _ _ _ h' => by simp [he] at h'⟩
/-- An M instruction. -/
theorem ofM {i : Instr} {o : BitVec 8} {f : MF} (hs : i.sParts = none) (hv : i.vParts = none)
    (hm : i.mParts = some (o, f)) (hc : i.cParts = none) (hx : i.xParts = none) (he : i.eventArgs = none)
    (h : i.wf = true → o ≠ 0 ∧ pickM o.toNat f = some i ∧ templateOkM i f = true) : Statement i :=
  ⟨fun _ _ _ h' => by simp [hs] at h', fun _ _ _ h' => by simp [hv] at h',
   fun o' f' w h' => by rw [hm] at h'; obtain ⟨rfl, rfl⟩ := Prod.mk.inj (Option.some.inj h'); exact h w,
   fun _ _ _ h' => by simp [hc] at h', fun _ _ h' => by simp [hx] at h', fun _ _ _ h' => by simp [he] at h'⟩
/-- A C instruction. -/
theorem ofC {i : Instr} {o : BitVec 8} {f : CF} (hs : i.sParts = none) (hv : i.vParts = none) (hm : i.mParts = none)
    (hc : i.cParts = some (o, f)) (hx : i.xParts = none) (he : i.eventArgs = none)
    (h : i.wf = true → o ≠ 0 ∧ pickC o.toNat f = some i ∧ templateOkC i f = true) : Statement i :=
  ⟨fun _ _ _ h' => by simp [hs] at h', fun _ _ _ h' => by simp [hv] at h', fun _ _ _ h' => by simp [hm] at h',
   fun o' f' w h' => by rw [hc] at h'; obtain ⟨rfl, rfl⟩ := Prod.mk.inj (Option.some.inj h'); exact h w,
   fun _ _ h' => by simp [hx] at h', fun _ _ _ h' => by simp [he] at h'⟩
/-- An X instruction. -/
theorem ofX {i : Instr} {o : BitVec 4} {f : XF} (hs : i.sParts = none) (hv : i.vParts = none) (hm : i.mParts = none)
    (hc : i.cParts = none) (hx : i.xParts = some (o, f)) (he : i.eventArgs = none)
    (h : o ≠ 0 ∧ pickX o.toNat f = some i) : Statement i :=
  ⟨fun _ _ _ h' => by simp [hs] at h', fun _ _ _ h' => by simp [hv] at h', fun _ _ _ h' => by simp [hm] at h',
   fun _ _ _ h' => by simp [hc] at h',
   fun o' f' h' => by rw [hx] at h'; obtain ⟨rfl, rfl⟩ := Prod.mk.inj (Option.some.inj h'); exact h,
   fun _ _ _ h' => by simp [he] at h'⟩
/-- An event. -/
theorem ofE {i : Instr} {row : Nat} {args : List Nat} (hs : i.sParts = none) (hv : i.vParts = none)
    (hm : i.mParts = none) (hc : i.cParts = none) (hx : i.xParts = none) (he : i.eventArgs = some (row, args))
    (hr : row < 65536) (hi : eventOf row args = some i)
    (h : i.wf = true → args.length < 256 ∧ (args.all fun n => decide (n < 2 ^ 64)) = true) : Statement i :=
  ⟨fun _ _ _ h' => by simp [hs] at h', fun _ _ _ h' => by simp [hv] at h', fun _ _ _ h' => by simp [hm] at h',
   fun _ _ _ h' => by simp [hc] at h', fun _ _ h' => by simp [hx] at h',
   fun row' args' w h' => by
    rw [he] at h'
    obtain ⟨rfl, rfl⟩ := Prod.mk.inj (Option.some.inj h')
    exact ⟨hr, (h w).1, fun n hn => of_decide_eq_true (List.all_eq_true.mp (h w).2 n hn), hi⟩⟩

/-! ## Template rules from the field rules -/

theorem tmplS_opb {i : Instr} {f : SF} (hl : i.takesLongS = true) (h : f.opb = true) : templateOkS i f = true := by
  cases hf : f.long <;> simp_all [templateOkS, SF.opb] <;> rcases h with h | h <;> simp [h]
theorem tmplS_opbc {i : Instr} {f : SF} (hl : i.takesLongS = true) (h : f.opbc = true) : templateOkS i f = true := by
  simp only [SF.opbc, Bool.or_eq_true, Bool.and_eq_true, beq_iff_eq] at h
  rcases h with h | h
  · exact tmplS_opb hl h
  · simp [templateOkS, h.1.1, h.2]
theorem tmplS_none {i : Instr} {f : SF} (hn : f.long = none) (h : f.fm ≠ 2) : templateOkS i f = true := by
  simpa [templateOkS, hn] using h
theorem tmplS_longs {i : Instr} {f : SF} (hl : i.takesLongS = true) (h : f.longs = true) : templateOkS i f = true := by
  cases hf : f.long <;> simp_all [templateOkS, SF.longs]
theorem tmplS_regs {i : Instr} {f : SF} (h : f.regs = true) : templateOkS i f = true := by
  simp only [SF.regs, Bool.and_eq_true, beq_iff_eq] at h
  exact tmplS_none h.2 (by rw [h.1]; decide)
theorem tmplS_imms {i : Instr} {f : SF} (h : f.imms = true) : templateOkS i f = true := by
  simp only [SF.imms, Bool.and_eq_true, beq_iff_eq] at h
  exact tmplS_none h.2 (by rw [h.1.1]; decide)
theorem tmplV_longB {i : Instr} {f : VF} (hl : i.takesLongV = true) (h : f.longB = true) : templateOkV i f = true := by
  simp only [VF.longB, Bool.or_eq_true, Bool.and_eq_true] at h
  simp only [templateOkV, hl, Bool.true_and, Bool.or_eq_true]
  rcases h with h | h
  · exact .inl h
  · exact .inr h.2
theorem tmplV_none {i : Instr} {f : VF} (h : (f.long == none) = true) : templateOkV i f = true := by
  simp [templateOkV, h]
theorem tmplC_ss {i : Instr} {f : CF} (hl : i.takesLongC = true) (h : f.ssOk = true) : templateOkC i f = true := by
  simp only [CF.ssOk, Bool.or_eq_true, Bool.and_eq_true] at h
  simp only [templateOkC, hl, Bool.true_and, Bool.or_eq_true]
  rcases h with h | h
  · exact .inl h.2
  · exact .inr h.1.1
theorem tmplC_none {i : Instr} {f : CF} (h : (f.long == none) = true) : templateOkC i f = true := by
  simp [templateOkC, h]
/-- Bit k of MOD, as its value says. -/
theorem mod_bit (m : BitVec 10) (k : Nat) : m.getLsbD k = decide (m.toNat / 2 ^ k % 2 = 1) := by
  simp [BitVec.getLsbD, Nat.testBit_eq_decide_div_mod_eq]

theorem launchPortStore (pkg : Nat) (ptr : Nat) : Statement (.launchPortStore pkg ptr) :=
  ofE rfl rfl rfl rfl rfl rfl (by decide) rfl fun h => by simp_all [Instr.wf, u64]
theorem launchValidate (pkg : Nat) : Statement (.launchValidate pkg) :=
  ofE rfl rfl rfl rfl rfl rfl (by decide) rfl fun h => by simp_all [Instr.wf, u64]
theorem gangStart (rid : Nat) (choice : Nat) : Statement (.gangStart rid choice) :=
  ofE rfl rfl rfl rfl rfl rfl (by decide) rfl fun h => by simp_all [Instr.wf, u64]
theorem startTick (rid : Nat) (choice : Nat) : Statement (.startTick rid choice) :=
  ofE rfl rfl rfl rfl rfl rfl (by decide) rfl fun h => by simp_all [Instr.wf, u64]
theorem startLate (rid : Nat) : Statement (.startLate rid) :=
  ofE rfl rfl rfl rfl rfl rfl (by decide) rfl fun h => by simp_all [Instr.wf, u64]
theorem regionDone (rid : Nat) : Statement (.regionDone rid) :=
  ofE rfl rfl rfl rfl rfl rfl (by decide) rfl fun h => by simp_all [Instr.wf, u64]
theorem periodStart (rid : Nat) : Statement (.periodStart rid) :=
  ofE rfl rfl rfl rfl rfl rfl (by decide) rfl fun h => by simp_all [Instr.wf, u64]
theorem budgetExhausted (rid : Nat) : Statement (.budgetExhausted rid) :=
  ofE rfl rfl rfl rfl rfl rfl (by decide) rfl fun h => by simp_all [Instr.wf, u64]
theorem deadlineMiss (rid : Nat) : Statement (.deadlineMiss rid) :=
  ofE rfl rfl rfl rfl rfl rfl (by decide) rfl fun h => by simp_all [Instr.wf, u64]
theorem quantumExpiry (rid : Nat) : Statement (.quantumExpiry rid) :=
  ofE rfl rfl rfl rfl rfl rfl (by decide) rfl fun h => by simp_all [Instr.wf, u64]
theorem dispatch (pkg : Nat) (choice : Nat) : Statement (.dispatch pkg choice) :=
  ofE rfl rfl rfl rfl rfl rfl (by decide) rfl fun h => by simp_all [Instr.wf, u64]
theorem preemptStop (rid : Nat) : Statement (.preemptStop rid) :=
  ofE rfl rfl rfl rfl rfl rfl (by decide) rfl fun h => by simp_all [Instr.wf, u64]
theorem windowOverrun (rid : Nat) : Statement (.windowOverrun rid) :=
  ofE rfl rfl rfl rfl rfl rfl (by decide) rfl fun h => by simp_all [Instr.wf, u64]
theorem resume (rid : Nat) (choice : Nat) : Statement (.resume rid choice) :=
  ofE rfl rfl rfl rfl rfl rfl (by decide) rfl fun h => by simp_all [Instr.wf, u64]
theorem cancelObserved (rid : Nat) : Statement (.cancelObserved rid) :=
  ofE rfl rfl rfl rfl rfl rfl (by decide) rfl fun h => by simp_all [Instr.wf, u64]
theorem cancelComplete (rid : Nat) : Statement (.cancelComplete rid) :=
  ofE rfl rfl rfl rfl rfl rfl (by decide) rfl fun h => by simp_all [Instr.wf, u64]
theorem millinerTakeover (pkg : Nat) : Statement (.millinerTakeover pkg) :=
  ofE rfl rfl rfl rfl rfl rfl (by decide) rfl fun h => by simp_all [Instr.wf, u64]
theorem ptpSync (pkg : Nat) (offset : Nat) : Statement (.ptpSync pkg offset) :=
  ofE rfl rfl rfl rfl rfl rfl (by decide) rfl fun h => by simp_all [Instr.wf, u64]
theorem syncTimeout (pkg : Nat) : Statement (.syncTimeout pkg) :=
  ofE rfl rfl rfl rfl rfl rfl (by decide) rfl fun h => by simp_all [Instr.wf, u64]
theorem holdoverTimeout (pkg : Nat) : Statement (.holdoverTimeout pkg) :=
  ofE rfl rfl rfl rfl rfl rfl (by decide) rfl fun h => by simp_all [Instr.wf, u64]
theorem spineLineTransfer (die : Nat) (chan : Nat) : Statement (.spineLineTransfer die chan) :=
  ofE rfl rfl rfl rfl rfl rfl (by decide) rfl fun h => by simp_all [Instr.wf, u64]
theorem peerBankAccess (die : Nat) (req : Nat) : Statement (.peerBankAccess die req) :=
  ofE rfl rfl rfl rfl rfl rfl (by decide) rfl fun h => by simp_all [Instr.wf, u64]
theorem cuffLanding (die : Nat) (cuff : Nat) : Statement (.cuffLanding die cuff) :=
  ofE rfl rfl rfl rfl rfl rfl (by decide) rfl fun h => by simp_all [Instr.wf, u64]
theorem copyComplete (die : Nat) (chan : Nat) : Statement (.copyComplete die chan) :=
  ofE rfl rfl rfl rfl rfl rfl (by decide) rfl fun h => by simp_all [Instr.wf, u64]
theorem cgathEntryWrite (die : Nat) (chan : Nat) : Statement (.cgathEntryWrite die chan) :=
  ofE rfl rfl rfl rfl rfl rfl (by decide) rfl fun h => by simp_all [Instr.wf, u64]
theorem cputfFlagIncrement (die : Nat) (chan : Nat) : Statement (.cputfFlagIncrement die chan) :=
  ofE rfl rfl rfl rfl rfl rfl (by decide) rfl fun h => by simp_all [Instr.wf, u64]
theorem pageWalk (die : Nat) (part : Nat) (space : Nat) (vpage : Nat) : Statement (.pageWalk die part space vpage) :=
  ofE rfl rfl rfl rfl rfl rfl (by decide) rfl fun h => by simp_all [Instr.wf, u64]
theorem homeAccess (die : Nat) (chan : Nat) (item : Nat) : Statement (.homeAccess die chan item) :=
  ofE rfl rfl rfl rfl rfl rfl (by decide) rfl fun h => by simp_all [Instr.wf, u64]
theorem loadReturn (req : Nat) : Statement (.loadReturn req) :=
  ofE rfl rfl rfl rfl rfl rfl (by decide) rfl fun h => by simp_all [Instr.wf, u64]
theorem storeAck (req : Nat) : Statement (.storeAck req) :=
  ofE rfl rfl rfl rfl rfl rfl (by decide) rfl fun h => by simp_all [Instr.wf, u64]
theorem atomicResend (req : Nat) : Statement (.atomicResend req) :=
  ofE rfl rfl rfl rfl rfl rfl (by decide) rfl fun h => by simp_all [Instr.wf, u64]
theorem atomicTimeout (req : Nat) : Statement (.atomicTimeout req) :=
  ofE rfl rfl rfl rfl rfl rfl (by decide) rfl fun h => by simp_all [Instr.wf, u64]
theorem resultCacheExpiry (pkg : Nat) (src : Nat) (seq : Nat) : Statement (.resultCacheExpiry pkg src seq) :=
  ofE rfl rfl rfl rfl rfl rfl (by decide) rfl fun h => by simp_all [Instr.wf, u64]
theorem routerCredReceive (pkg : Nat) (req : Nat) : Statement (.routerCredReceive pkg req) :=
  ofE rfl rfl rfl rfl rfl rfl (by decide) rfl fun h => by simp_all [Instr.wf, u64]
theorem mergeForward (pkg : Nat) (merge : Nat) : Statement (.mergeForward pkg merge) :=
  ofE rfl rfl rfl rfl rfl rfl (by decide) rfl fun h => by simp_all [Instr.wf, u64]
theorem mergeAnswer (pkg : Nat) (merge : Nat) : Statement (.mergeAnswer pkg merge) :=
  ofE rfl rfl rfl rfl rfl rfl (by decide) rfl fun h => by simp_all [Instr.wf, u64]
theorem mirrorAck (req : Nat) : Statement (.mirrorAck req) :=
  ofE rfl rfl rfl rfl rfl rfl (by decide) rfl fun h => by simp_all [Instr.wf, u64]
theorem crownAllocatorAnswer (slot : Nat) : Statement (.crownAllocatorAnswer slot) :=
  ofE rfl rfl rfl rfl rfl rfl (by decide) rfl fun h => by simp_all [Instr.wf, u64]
theorem fabricDieFailed (pkg : Nat) (fd : Nat) : Statement (.fabricDieFailed pkg fd) :=
  ofE rfl rfl rfl rfl rfl rfl (by decide) rfl fun h => by simp_all [Instr.wf, u64]
theorem failoverComplete (pkg : Nat) (fd : Nat) : Statement (.failoverComplete pkg fd) :=
  ofE rfl rfl rfl rfl rfl rfl (by decide) rfl fun h => by simp_all [Instr.wf, u64]
theorem barrierArrival (part : Nat) (entry : Nat) (writer : Nat) : Statement (.barrierArrival part entry writer) :=
  ofE rfl rfl rfl rfl rfl rfl (by decide) rfl fun h => by simp_all [Instr.wf, u64]
theorem planeMerge (part : Nat) (group : Nat) (home : Nat) : Statement (.planeMerge part group home) :=
  ofE rfl rfl rfl rfl rfl rfl (by decide) rfl fun h => by simp_all [Instr.wf, u64]
theorem phaseFlip (part : Nat) (entry : Nat) : Statement (.phaseFlip part entry) :=
  ofE rfl rfl rfl rfl rfl rfl (by decide) rfl fun h => by simp_all [Instr.wf, u64]
theorem flitReceive (pkg : Nat) (link : Nat) (seq : Nat) (good : Nat) : Statement (.flitReceive pkg link seq good) :=
  ofE rfl rfl rfl rfl rfl rfl (by decide) rfl fun h => by simp_all [Instr.wf, u64]
theorem lossOfLight (pkg : Nat) (link : Nat) : Statement (.lossOfLight pkg link) :=
  ofE rfl rfl rfl rfl rfl rfl (by decide) rfl fun h => by simp_all [Instr.wf, u64]
theorem opticalLock (pkg : Nat) (link : Nat) : Statement (.opticalLock pkg link) :=
  ofE rfl rfl rfl rfl rfl rfl (by decide) rfl fun h => by simp_all [Instr.wf, u64]
theorem authAttempt (pkg : Nat) (link : Nat) (good : Nat) : Statement (.authAttempt pkg link good) :=
  ofE rfl rfl rfl rfl rfl rfl (by decide) rfl fun h => by simp_all [Instr.wf, u64]
theorem authTimeout (pkg : Nat) (link : Nat) : Statement (.authTimeout pkg link) :=
  ofE rfl rfl rfl rfl rfl rfl (by decide) rfl fun h => by simp_all [Instr.wf, u64]
theorem drainMarker (pkg : Nat) (src : Nat) : Statement (.drainMarker pkg src) :=
  ofE rfl rfl rfl rfl rfl rfl (by decide) rfl fun h => by simp_all [Instr.wf, u64]
theorem biasLimit (pkg : Nat) (port : Nat) (plane : Nat) (mzm : Nat) (high : Nat) : Statement (.biasLimit pkg port plane mzm high) :=
  ofE rfl rfl rfl rfl rfl rfl (by decide) rfl fun h => by simp_all [Instr.wf, u64]
theorem heaterApply (pkg : Nat) (port : Nat) (plane : Nat) (ring : Nat) : Statement (.heaterApply pkg port plane ring) :=
  ofE rfl rfl rfl rfl rfl rfl (by decide) rfl fun h => by simp_all [Instr.wf, u64]
theorem monUpdate (pkg : Nat) (port : Nat) (plane : Nat) (ring : Nat) (reading : Nat) : Statement (.monUpdate pkg port plane ring reading) :=
  ofE rfl rfl rfl rfl rfl rfl (by decide) rfl fun h => by simp_all [Instr.wf, u64]
theorem colourTakeover (pkg : Nat) (port : Nat) (plane : Nat) (ring : Nat) : Statement (.colourTakeover pkg port plane ring) :=
  ofE rfl rfl rfl rfl rfl rfl (by decide) rfl fun h => by simp_all [Instr.wf, u64]
theorem circuitUp (pkg : Nat) (src : Nat) (dst : Nat) : Statement (.circuitUp pkg src dst) :=
  ofE rfl rfl rfl rfl rfl rfl (by decide) rfl fun h => by simp_all [Instr.wf, u64]
theorem circuitWaitTimeout (req : Nat) : Statement (.circuitWaitTimeout req) :=
  ofE rfl rfl rfl rfl rfl rfl (by decide) rfl fun h => by simp_all [Instr.wf, u64]
theorem xsendLaunch (circ : Nat) : Statement (.xsendLaunch circ) :=
  ofE rfl rfl rfl rfl rfl rfl (by decide) rfl fun h => by simp_all [Instr.wf, u64]
theorem unitLanding (circ : Nat) : Statement (.unitLanding circ) :=
  ofE rfl rfl rfl rfl rfl rfl (by decide) rfl fun h => by simp_all [Instr.wf, u64]
theorem windowEnd (circ : Nat) : Statement (.windowEnd circ) :=
  ofE rfl rfl rfl rfl rfl rfl (by decide) rfl fun h => by simp_all [Instr.wf, u64]
theorem hostAccess (pkg : Nat) (write : Nat) (ptr : Nat) (size : Nat) (data : Nat) : Statement (.hostAccess pkg write ptr size data) :=
  ofE rfl rfl rfl rfl rfl rfl (by decide) rfl fun h => by simp_all [Instr.wf, u64]
theorem reset (pkg : Nat) (outcome : Nat) : Statement (.reset pkg outcome) :=
  ofE rfl rfl rfl rfl rfl rfl (by decide) rfl fun h => by simp_all [Instr.wf, u64]
theorem readyTimeout (pkg : Nat) : Statement (.readyTimeout pkg) :=
  ofE rfl rfl rfl rfl rfl rfl (by decide) rfl fun h => by simp_all [Instr.wf, u64]
theorem attestationRequest (pkg : Nat) (nonce : Nat) : Statement (.attestationRequest pkg nonce) :=
  ofE rfl rfl rfl rfl rfl rfl (by decide) rfl fun h => by simp_all [Instr.wf, u64]
theorem installRangeEntry (pkg : Nat) (part : Nat) (index : Nat) (w0 : Nat) (w1 : Nat) (w2 : Nat) (w3 : Nat) : Statement (.installRangeEntry pkg part index w0 w1 w2 w3) :=
  ofE rfl rfl rfl rfl rfl rfl (by decide) rfl fun h => by simp_all [Instr.wf, u64]
theorem invalidateTranslation (pkg : Nat) (part : Nat) (space : Nat) (first : Nat) (last : Nat) : Statement (.invalidateTranslation pkg part space first last) :=
  ofE rfl rfl rfl rfl rfl rfl (by decide) rfl fun h => by simp_all [Instr.wf, u64]
theorem installPlaneDescriptor (pkg : Nat) (part : Nat) (index : Nat) (w0 : Nat) (w1 : Nat) (w2 : Nat) (w3 : Nat) (w4 : Nat) (w5 : Nat) (w6 : Nat) (w7 : Nat) : Statement (.installPlaneDescriptor pkg part index w0 w1 w2 w3 w4 w5 w6 w7) :=
  ofE rfl rfl rfl rfl rfl rfl (by decide) rfl fun h => by simp_all [Instr.wf, u64]
theorem installBarrierEntry (pkg : Nat) (part : Nat) (index : Nat) (members : List Nat) : Statement (.installBarrierEntry pkg part index members) :=
  ofE rfl rfl rfl rfl rfl rfl (by decide) rfl fun h => by simp_all [Instr.wf, u64, u64s]; omega
theorem installReductionWindow (pkg : Nat) (part : Nat) (index : Nat) (base : Nat) (size : Nat) (ty : Nat) (op : Nat) : Statement (.installReductionWindow pkg part index base size ty op) :=
  ofE rfl rfl rfl rfl rfl rfl (by decide) rfl fun h => by simp_all [Instr.wf, u64]
theorem installCircuitDescriptor (pkg : Nat) (part : Nat) (slot : Nat) (index : Nat) (w0 : Nat) (w1 : Nat) (w2 : Nat) (w3 : Nat) : Statement (.installCircuitDescriptor pkg part slot index w0 w1 w2 w3) :=
  ofE rfl rfl rfl rfl rfl rfl (by decide) rfl fun h => by simp_all [Instr.wf, u64]
theorem routingUpdate (pkg : Nat) (dest : Nat) (entry : Nat) : Statement (.routingUpdate pkg dest entry) :=
  ofE rfl rfl rfl rfl rfl rfl (by decide) rfl fun h => by simp_all [Instr.wf, u64]
theorem routingFlip (pkg : Nat) : Statement (.routingFlip pkg) :=
  ofE rfl rfl rfl rfl rfl rfl (by decide) rfl fun h => by simp_all [Instr.wf, u64]
theorem connectionTableEntry (pkg : Nat) (src : Nat) (dst : Nat) (count : Nat) : Statement (.connectionTableEntry pkg src dst count) :=
  ofE rfl rfl rfl rfl rfl rfl (by decide) rfl fun h => by simp_all [Instr.wf, u64]
theorem setBandQuantum (pkg : Nat) (band : Nat) (value : Nat) : Statement (.setBandQuantum pkg band value) :=
  ofE rfl rfl rfl rfl rfl rfl (by decide) rfl fun h => by simp_all [Instr.wf, u64]
theorem linkEnable (pkg : Nat) (link : Nat) : Statement (.linkEnable pkg link) :=
  ofE rfl rfl rfl rfl rfl rfl (by decide) rfl fun h => by simp_all [Instr.wf, u64]
theorem powerGrant (pkg : Nat) (demands : List Nat) : Statement (.powerGrant pkg demands) :=
  ofE rfl rfl rfl rfl rfl rfl (by decide) rfl fun h => by simp_all [Instr.wf, u64, u64s]; omega
theorem stackFailure (pkg : Nat) (stack : Nat) : Statement (.stackFailure pkg stack) :=
  ofE rfl rfl rfl rfl rfl rfl (by decide) rfl fun h => by simp_all [Instr.wf, u64]
theorem bankRetire (die : Nat) (bank : Nat) : Statement (.bankRetire die bank) :=
  ofE rfl rfl rfl rfl rfl rfl (by decide) rfl fun h => by simp_all [Instr.wf, u64]
theorem ringFailure (pkg : Nat) (port : Nat) (plane : Nat) (ring : Nat) : Statement (.ringFailure pkg port plane ring) :=
  ofE rfl rfl rfl rfl rfl rfl (by decide) rfl fun h => by simp_all [Instr.wf, u64]
theorem tstatRead (f : SF) : Statement (.tstatRead f) :=
  ofS rfl rfl rfl rfl rfl rfl fun h => ⟨by decide, by simp_all [Instr.wf, pickS, SF.imms, SF.regs, SF.longs, SF.bare, SF.sysr, SF.sysw, SF.opb],
   tmplS_imms (by simp_all [Instr.wf, SF.sysr, SF.sysw])⟩
theorem mstatRead (f : SF) : Statement (.mstatRead f) :=
  ofS rfl rfl rfl rfl rfl rfl fun h => ⟨by decide, by simp_all [Instr.wf, pickS, SF.imms, SF.regs, SF.longs, SF.bare, SF.sysr, SF.sysw, SF.opb],
   tmplS_imms (by simp_all [Instr.wf, SF.sysr, SF.sysw])⟩
theorem xstatWrite (f : SF) : Statement (.xstatWrite f) :=
  ofS rfl rfl rfl rfl rfl rfl fun h => ⟨by decide, by simp_all [Instr.wf, pickS, SF.imms, SF.regs, SF.longs, SF.bare, SF.sysr, SF.sysw, SF.opb],
   tmplS_imms (by simp_all [Instr.wf, SF.sysr, SF.sysw])⟩
theorem vflagsWrite (f : SF) : Statement (.vflagsWrite f) :=
  ofS rfl rfl rfl rfl rfl rfl fun h => ⟨by decide, by simp_all [Instr.wf, pickS, SF.imms, SF.regs, SF.longs, SF.bare, SF.sysr, SF.sysw, SF.opb],
   tmplS_imms (by simp_all [Instr.wf, SF.sysr, SF.sysw])⟩
theorem rrbWrite (f : SF) : Statement (.rrbWrite f) :=
  ofS rfl rfl rfl rfl rfl rfl fun h => ⟨by decide, by simp_all [Instr.wf, pickS, SF.imms, SF.regs, SF.longs, SF.bare, SF.sysr, SF.sysw, SF.opb],
   tmplS_imms (by simp_all [Instr.wf, SF.sysr, SF.sysw])⟩
theorem grbWrite (f : SF) : Statement (.grbWrite f) :=
  ofS rfl rfl rfl rfl rfl rfl fun h => ⟨by decide, by simp_all [Instr.wf, pickS, SF.imms, SF.regs, SF.longs, SF.bare, SF.sysr, SF.sysw, SF.opb],
   tmplS_imms (by simp_all [Instr.wf, SF.sysr, SF.sysw])⟩
theorem tguardWrite (f : SF) : Statement (.tguardWrite f) :=
  ofS rfl rfl rfl rfl rfl rfl fun h => ⟨by decide, by simp_all [Instr.wf, pickS, SF.imms, SF.regs, SF.longs, SF.bare, SF.sysr, SF.sysw, SF.opb],
   tmplS_imms (by simp_all [Instr.wf, SF.sysr, SF.sysw])⟩
theorem fsrWrite (f : SF) : Statement (.fsrWrite f) :=
  ofS rfl rfl rfl rfl rfl rfl fun h => ⟨by decide, by simp_all [Instr.wf, pickS, SF.imms, SF.regs, SF.longs, SF.bare, SF.sysr, SF.sysw, SF.opb],
   tmplS_imms (by simp_all [Instr.wf, SF.sysr, SF.sysw])⟩
theorem waitlimWrite (f : SF) : Statement (.waitlimWrite f) :=
  ofS rfl rfl rfl rfl rfl rfl fun h => ⟨by decide, by simp_all [Instr.wf, pickS, SF.imms, SF.regs, SF.longs, SF.bare, SF.sysr, SF.sysw, SF.opb],
   tmplS_imms (by simp_all [Instr.wf, SF.sysr, SF.sysw])⟩
theorem opselWrite (f : SF) : Statement (.opselWrite f) :=
  ofS rfl rfl rfl rfl rfl rfl fun h => ⟨by decide, by simp_all [Instr.wf, pickS, SF.imms, SF.regs, SF.longs, SF.bare, SF.sysr, SF.sysw, SF.opb],
   tmplS_imms (by simp_all [Instr.wf, SF.sysr, SF.sysw])⟩
theorem ringWrite (f : SF) : Statement (.ringWrite f) :=
  ofS rfl rfl rfl rfl rfl rfl fun h => ⟨by decide, by simp_all [Instr.wf, pickS, SF.imms, SF.regs, SF.longs, SF.bare, SF.sysr, SF.sysw, SF.opb],
   tmplS_imms (by simp_all [Instr.wf, SF.sysr, SF.sysw])⟩
theorem mzmWrite (f : SF) : Statement (.mzmWrite f) :=
  ofS rfl rfl rfl rfl rfl rfl fun h => ⟨by decide, by simp_all [Instr.wf, pickS, SF.imms, SF.regs, SF.longs, SF.bare, SF.sysr, SF.sysw, SF.opb],
   tmplS_imms (by simp_all [Instr.wf, SF.sysr, SF.sysw])⟩
theorem elogstatWrite (f : SF) : Statement (.elogstatWrite f) :=
  ofS rfl rfl rfl rfl rfl rfl fun h => ⟨by decide, by simp_all [Instr.wf, pickS, SF.imms, SF.regs, SF.longs, SF.bare, SF.sysr, SF.sysw, SF.opb],
   tmplS_imms (by simp_all [Instr.wf, SF.sysr, SF.sysw])⟩
theorem injctlWrite (f : SF) : Statement (.injctlWrite f) :=
  ofS rfl rfl rfl rfl rfl rfl fun h => ⟨by decide, by simp_all [Instr.wf, pickS, SF.imms, SF.regs, SF.longs, SF.bare, SF.sysr, SF.sysw, SF.opb],
   tmplS_imms (by simp_all [Instr.wf, SF.sysr, SF.sysw])⟩
theorem intstatWrite (pkg : Nat) (bits : Nat) : Statement (.intstatWrite pkg bits) :=
  ofE rfl rfl rfl rfl rfl rfl (by decide) rfl fun h => by simp_all [Instr.wf, u64]
theorem nop (slot : SlotName) : Statement (.nop slot) :=
  ⟨fun _ _ _ h => by simp [Instr.sParts] at h, fun _ _ _ h => by simp [Instr.vParts] at h,
   fun _ _ _ h => by simp [Instr.mParts] at h, fun _ _ _ h => by simp [Instr.cParts] at h,
   fun _ _ h => by simp [Instr.xParts] at h, fun _ _ _ h => by simp [Instr.eventArgs] at h⟩
theorem add (f : SF) : Statement (.add f) :=
  ofS rfl rfl rfl rfl rfl rfl fun h => ⟨by decide, rfl,
   tmplS_opb rfl (by simp_all [Instr.wf])⟩
theorem sub (f : SF) : Statement (.sub f) :=
  ofS rfl rfl rfl rfl rfl rfl fun h => ⟨by decide, rfl,
   tmplS_opb rfl (by simp_all [Instr.wf])⟩
theorem mul (f : SF) : Statement (.mul f) :=
  ofS rfl rfl rfl rfl rfl rfl fun h => ⟨by decide, rfl,
   tmplS_opb rfl (by simp_all [Instr.wf])⟩
theorem mulh (f : SF) : Statement (.mulh f) :=
  ofS rfl rfl rfl rfl rfl rfl fun h => ⟨by decide, rfl,
   tmplS_opb rfl (by simp_all [Instr.wf])⟩
theorem div (f : SF) : Statement (.div f) :=
  ofS rfl rfl rfl rfl rfl rfl fun h => ⟨by decide, rfl,
   tmplS_opb rfl (by simp_all [Instr.wf])⟩
theorem rem (f : SF) : Statement (.rem f) :=
  ofS rfl rfl rfl rfl rfl rfl fun h => ⟨by decide, rfl,
   tmplS_opb rfl (by simp_all [Instr.wf])⟩
theorem and_ (f : SF) : Statement (.and_ f) :=
  ofS rfl rfl rfl rfl rfl rfl fun h => ⟨by decide, rfl,
   tmplS_opb rfl (by simp_all [Instr.wf])⟩
theorem andn (f : SF) : Statement (.andn f) :=
  ofS rfl rfl rfl rfl rfl rfl fun h => ⟨by decide, rfl,
   tmplS_opb rfl (by simp_all [Instr.wf])⟩
theorem or_ (f : SF) : Statement (.or_ f) :=
  ofS rfl rfl rfl rfl rfl rfl fun h => ⟨by decide, rfl,
   tmplS_opb rfl (by simp_all [Instr.wf])⟩
theorem xor (f : SF) : Statement (.xor f) :=
  ofS rfl rfl rfl rfl rfl rfl fun h => ⟨by decide, rfl,
   tmplS_opb rfl (by simp_all [Instr.wf])⟩
theorem shl (f : SF) : Statement (.shl f) :=
  ofS rfl rfl rfl rfl rfl rfl fun h => ⟨by decide, rfl,
   tmplS_opb rfl (by simp_all [Instr.wf])⟩
theorem shr (f : SF) : Statement (.shr f) :=
  ofS rfl rfl rfl rfl rfl rfl fun h => ⟨by decide, rfl,
   tmplS_opb rfl (by simp_all [Instr.wf])⟩
theorem sra (f : SF) : Statement (.sra f) :=
  ofS rfl rfl rfl rfl rfl rfl fun h => ⟨by decide, rfl,
   tmplS_opb rfl (by simp_all [Instr.wf])⟩
theorem rol (f : SF) : Statement (.rol f) :=
  ofS rfl rfl rfl rfl rfl rfl fun h => ⟨by decide, rfl,
   tmplS_opb rfl (by simp_all [Instr.wf])⟩
theorem min (f : SF) : Statement (.min f) :=
  ofS rfl rfl rfl rfl rfl rfl fun h => ⟨by decide, rfl,
   tmplS_opb rfl (by simp_all [Instr.wf])⟩
theorem max (f : SF) : Statement (.max f) :=
  ofS rfl rfl rfl rfl rfl rfl fun h => ⟨by decide, rfl,
   tmplS_opb rfl (by simp_all [Instr.wf])⟩
theorem clz (f : SF) : Statement (.clz f) :=
  ofS rfl rfl rfl rfl rfl rfl fun h => ⟨by decide, rfl,
   tmplS_regs (by simp_all [Instr.wf, SF.bare])⟩
theorem popc (f : SF) : Statement (.popc f) :=
  ofS rfl rfl rfl rfl rfl rfl fun h => ⟨by decide, rfl,
   tmplS_regs (by simp_all [Instr.wf, SF.bare])⟩
theorem sel (f : SF) : Statement (.sel f) :=
  ofS rfl rfl rfl rfl rfl rfl fun h => ⟨by decide, rfl,
   tmplS_opb rfl (by simp_all [Instr.wf])⟩
theorem mov (f : SF) : Statement (.mov f) :=
  ofS rfl rfl rfl rfl rfl rfl fun h => ⟨by decide, rfl,
   tmplS_regs (by simp_all [Instr.wf, SF.bare])⟩
theorem li (f : SF) : Statement (.li f) :=
  ofS rfl rfl rfl rfl rfl rfl fun h => ⟨by decide, rfl,
   tmplS_opb rfl (by simp_all [Instr.wf])⟩
theorem cmp (f : SF) : Statement (.cmp f) :=
  ofS rfl rfl rfl rfl rfl rfl fun h => ⟨by decide, rfl,
   tmplS_opb rfl (by simp_all [Instr.wf])⟩
theorem pand (f : SF) : Statement (.pand f) :=
  ofS rfl rfl rfl rfl rfl rfl fun h => ⟨by decide, rfl,
   tmplS_regs (by simp_all [Instr.wf, SF.bare])⟩
theorem por (f : SF) : Statement (.por f) :=
  ofS rfl rfl rfl rfl rfl rfl fun h => ⟨by decide, rfl,
   tmplS_regs (by simp_all [Instr.wf, SF.bare])⟩
theorem pxor (f : SF) : Statement (.pxor f) :=
  ofS rfl rfl rfl rfl rfl rfl fun h => ⟨by decide, rfl,
   tmplS_regs (by simp_all [Instr.wf, SF.bare])⟩
theorem pnot (f : SF) : Statement (.pnot f) :=
  ofS rfl rfl rfl rfl rfl rfl fun h => ⟨by decide, rfl,
   tmplS_regs (by simp_all [Instr.wf, SF.bare])⟩
theorem kpop (f : SF) : Statement (.kpop f) :=
  ofS rfl rfl rfl rfl rfl rfl fun h => ⟨by decide, by simp_all [Instr.wf, pickS, SF.imms, SF.regs, SF.longs, SF.bare, SF.sysr, SF.sysw, SF.opb],
   tmplS_regs (by simp_all [Instr.wf, SF.bare])⟩
theorem kpopN (f : SF) : Statement (.kpopN f) :=
  ofS rfl rfl rfl rfl rfl rfl fun h => ⟨by decide, by simp_all [Instr.wf, pickS, SF.imms, SF.regs, SF.longs, SF.bare, SF.sysr, SF.sysw, SF.opb],
   tmplS_imms (by simp_all [Instr.wf, SF.sysr, SF.sysw])⟩
theorem ld (f : SF) : Statement (.ld f) :=
  ofS rfl rfl rfl rfl rfl rfl fun h => ⟨by decide, rfl,
   tmplS_opb rfl (by simp_all [Instr.wf])⟩
theorem st (f : SF) : Statement (.st f) :=
  ofS rfl rfl rfl rfl rfl rfl fun h => ⟨by decide, rfl,
   tmplS_opb rfl (by simp_all [Instr.wf])⟩
theorem atom (f : SF) : Statement (.atom f) :=
  ofS rfl rfl rfl rfl rfl rfl fun h => ⟨by decide, by simp_all [Instr.wf, pickS, SF.imms, SF.regs, SF.longs, SF.bare, SF.sysr, SF.sysw, SF.opb],
   tmplS_opb rfl (by simp_all [Instr.wf])⟩
theorem atomCas (f : SF) : Statement (.atomCas f) :=
  ofS rfl rfl rfl rfl rfl rfl fun h => ⟨by decide, by simp_all [Instr.wf, pickS, SF.imms, SF.regs, SF.longs, SF.bare, SF.sysr, SF.sysw, SF.opb],
   tmplS_none (by simp_all [Instr.wf]) (by simp_all [Instr.wf])⟩
theorem red (f : SF) : Statement (.red f) :=
  ofS rfl rfl rfl rfl rfl rfl fun h => ⟨by decide, rfl,
   tmplS_opb rfl (by simp_all [Instr.wf])⟩
theorem lqpop (f : SF) : Statement (.lqpop f) :=
  ofS rfl rfl rfl rfl rfl rfl fun h => ⟨by decide, rfl,
   tmplS_regs (by simp_all [Instr.wf, SF.bare])⟩
theorem apush (f : SF) : Statement (.apush f) :=
  ofS rfl rfl rfl rfl rfl rfl fun h => ⟨by decide, rfl,
   tmplS_regs (by simp_all [Instr.wf, SF.bare])⟩
theorem fence (f : SF) : Statement (.fence f) :=
  ofS rfl rfl rfl rfl rfl rfl fun h => ⟨by decide, rfl,
   tmplS_regs (by simp_all [Instr.wf, SF.bare])⟩
theorem waitw (f : SF) : Statement (.waitw f) :=
  ofS rfl rfl rfl rfl rfl rfl fun h => ⟨by decide, rfl,
   tmplS_opbc rfl (by simp_all [Instr.wf])⟩
theorem brRel (f : SF) : Statement (.brRel f) :=
  ofS rfl rfl rfl rfl rfl rfl fun h => ⟨by decide, by simp_all [Instr.wf, pickS, SF.imms, SF.regs, SF.longs, SF.bare, SF.sysr, SF.sysw, SF.opb],
   tmplS_imms (by simp_all [Instr.wf, SF.sysr, SF.sysw])⟩
theorem brReg (f : SF) : Statement (.brReg f) :=
  ofS rfl rfl rfl rfl rfl rfl fun h => ⟨by decide, by simp_all [Instr.wf, pickS, SF.imms, SF.regs, SF.longs, SF.bare, SF.sysr, SF.sysw, SF.opb],
   tmplS_regs (by simp_all [Instr.wf, SF.bare])⟩
theorem jmpImm (f : SF) : Statement (.jmpImm f) :=
  ofS rfl rfl rfl rfl rfl rfl fun h => ⟨by decide, by simp_all [Instr.wf, pickS, SF.imms, SF.regs, SF.longs, SF.bare, SF.sysr, SF.sysw, SF.opb],
   tmplS_imms (by simp_all [Instr.wf, SF.sysr, SF.sysw])⟩
theorem jmpReg (f : SF) : Statement (.jmpReg f) :=
  ofS rfl rfl rfl rfl rfl rfl fun h => ⟨by decide, by simp_all [Instr.wf, pickS, SF.imms, SF.regs, SF.longs, SF.bare, SF.sysr, SF.sysw, SF.opb],
   tmplS_regs (by simp_all [Instr.wf, SF.bare])⟩
theorem jmpLong (f : SF) : Statement (.jmpLong f) :=
  ofS rfl rfl rfl rfl rfl rfl fun h => ⟨by decide, by simp_all [Instr.wf, pickS, SF.imms, SF.regs, SF.longs, SF.bare, SF.sysr, SF.sysw, SF.opb],
   tmplS_longs rfl (by simp_all [Instr.wf])⟩
theorem callRel (f : SF) : Statement (.callRel f) :=
  ofS rfl rfl rfl rfl rfl rfl fun h => ⟨by decide, by simp_all [Instr.wf, pickS, SF.imms, SF.regs, SF.longs, SF.bare, SF.sysr, SF.sysw, SF.opb],
   tmplS_imms (by simp_all [Instr.wf, SF.sysr, SF.sysw])⟩
theorem callReg (f : SF) : Statement (.callReg f) :=
  ofS rfl rfl rfl rfl rfl rfl fun h => ⟨by decide, by simp_all [Instr.wf, pickS, SF.imms, SF.regs, SF.longs, SF.bare, SF.sysr, SF.sysw, SF.opb],
   tmplS_regs (by simp_all [Instr.wf, SF.bare])⟩
theorem ret (f : SF) : Statement (.ret f) :=
  ofS rfl rfl rfl rfl rfl rfl fun h => ⟨by decide, rfl,
   tmplS_regs (by simp_all [Instr.wf, SF.bare])⟩
theorem loop (f : SF) : Statement (.loop f) :=
  ofS rfl rfl rfl rfl rfl rfl fun h => ⟨by decide, rfl,
   tmplS_imms (by simp_all [Instr.wf, SF.sysr, SF.sysw])⟩
theorem trap (f : SF) : Statement (.trap f) :=
  ofS rfl rfl rfl rfl rfl rfl fun h => ⟨by decide, rfl,
   tmplS_imms (by simp_all [Instr.wf, SF.sysr, SF.sysw])⟩
theorem tret (f : SF) : Statement (.tret f) :=
  ofS rfl rfl rfl rfl rfl rfl fun h => ⟨by decide, rfl,
   tmplS_regs (by simp_all [Instr.wf, SF.bare])⟩
theorem end_ (f : SF) : Statement (.end_ f) :=
  ofS rfl rfl rfl rfl rfl rfl fun h => ⟨by decide, rfl,
   tmplS_regs (by simp_all [Instr.wf, SF.bare])⟩
theorem yield (f : SF) : Statement (.yield f) :=
  ofS rfl rfl rfl rfl rfl rfl fun h => ⟨by decide, rfl,
   tmplS_regs (by simp_all [Instr.wf, SF.bare])⟩
theorem launch (f : SF) : Statement (.launch f) :=
  ofS rfl rfl rfl rfl rfl rfl fun h => ⟨by decide, rfl,
   tmplS_regs (by simp_all [Instr.wf, SF.bare])⟩
theorem twait (f : SF) : Statement (.twait f) :=
  ofS rfl rfl rfl rfl rfl rfl fun h => ⟨by decide, by simp_all [Instr.wf, pickS, SF.imms, SF.regs, SF.longs, SF.bare, SF.sysr, SF.sysw, SF.opb],
   tmplS_opb rfl (by simp_all [Instr.wf])⟩
theorem twaitAbs (f : SF) : Statement (.twaitAbs f) :=
  ofS rfl rfl rfl rfl rfl rfl fun h => ⟨by decide, by simp_all [Instr.wf, pickS, SF.imms, SF.regs, SF.longs, SF.bare, SF.sysr, SF.sysw, SF.opb],
   tmplS_opb rfl (by simp_all [Instr.wf])⟩
theorem wtagall (f : SF) : Statement (.wtagall f) :=
  ofS rfl rfl rfl rfl rfl rfl fun h => ⟨by decide, rfl,
   tmplS_opb rfl (by simp_all [Instr.wf])⟩
theorem wtagany (f : SF) : Statement (.wtagany f) :=
  ofS rfl rfl rfl rfl rfl rfl fun h => ⟨by decide, rfl,
   tmplS_opb rfl (by simp_all [Instr.wf])⟩
theorem tagff (f : SF) : Statement (.tagff f) :=
  ofS rfl rfl rfl rfl rfl rfl fun h => ⟨by decide, rfl,
   tmplS_opb rfl (by simp_all [Instr.wf])⟩
theorem tagclr (f : SF) : Statement (.tagclr f) :=
  ofS rfl rfl rfl rfl rfl rfl fun h => ⟨by decide, rfl,
   tmplS_opb rfl (by simp_all [Instr.wf])⟩
theorem qwait (f : SF) : Statement (.qwait f) :=
  ofS rfl rfl rfl rfl rfl rfl fun h => ⟨by decide, rfl,
   tmplS_imms (by simp_all [Instr.wf, SF.sysr, SF.sysw])⟩
theorem qadv (f : SF) : Statement (.qadv f) :=
  ofS rfl rfl rfl rfl rfl rfl fun h => ⟨by decide, rfl,
   tmplS_imms (by simp_all [Instr.wf, SF.sysr, SF.sysw])⟩
theorem qset (f : SF) : Statement (.qset f) :=
  ofS rfl rfl rfl rfl rfl rfl fun h => ⟨by decide, rfl,
   tmplS_imms (by simp_all [Instr.wf, SF.sysr, SF.sysw])⟩
theorem bara (f : SF) : Statement (.bara f) :=
  ofS rfl rfl rfl rfl rfl rfl fun h => ⟨by decide, rfl,
   tmplS_imms (by simp_all [Instr.wf, SF.sysr, SF.sysw])⟩
theorem barw (f : SF) : Statement (.barw f) :=
  ofS rfl rfl rfl rfl rfl rfl fun h => ⟨by decide, rfl,
   tmplS_imms (by simp_all [Instr.wf, SF.sysr, SF.sysw])⟩
theorem step (f : SF) : Statement (.step f) :=
  ofS rfl rfl rfl rfl rfl rfl fun h => ⟨by decide, rfl,
   tmplS_imms (by simp_all [Instr.wf, SF.sysr, SF.sysw])⟩
theorem pstat (f : SF) : Statement (.pstat f) :=
  ofS rfl rfl rfl rfl rfl rfl fun h => ⟨by decide, rfl,
   tmplS_imms (by simp_all [Instr.wf, SF.sysr, SF.sysw])⟩
theorem sysrd (f : SF) : Statement (.sysrd f) :=
  ofS rfl rfl rfl rfl rfl rfl fun h => ⟨by decide, by simp_all [Instr.wf, pickS, SF.imms, SF.regs, SF.longs, SF.bare, SF.sysr, SF.sysw, SF.opb],
   tmplS_imms (by simp_all [Instr.wf, SF.sysr, SF.sysw])⟩
theorem syswr (f : SF) : Statement (.syswr f) :=
  ofS rfl rfl rfl rfl rfl rfl fun h => ⟨by decide, by simp_all [Instr.wf, pickS, SF.imms, SF.regs, SF.longs, SF.bare, SF.sysr, SF.sysw, SF.opb],
   tmplS_imms (by simp_all [Instr.wf, SF.sysr, SF.sysw])⟩
theorem tidset (f : SF) : Statement (.tidset f) :=
  ofS rfl rfl rfl rfl rfl rfl fun h => ⟨by decide, rfl,
   tmplS_imms (by simp_all [Instr.wf, SF.sysr, SF.sysw])⟩
theorem falloc (f : SF) : Statement (.falloc f) :=
  ofS rfl rfl rfl rfl rfl rfl fun h => ⟨by decide, by
    have h1 := mod_bit f.mod 1
    have h4 := mod_bit f.mod 4
    simp_all [Instr.wf, pickS]; omega,
   tmplS_regs (by simp_all [Instr.wf, SF.bare])⟩
theorem fallocAt (f : SF) : Statement (.fallocAt f) :=
  ofS rfl rfl rfl rfl rfl rfl fun h => ⟨by decide, by
    have h1 := mod_bit f.mod 1
    have h4 := mod_bit f.mod 4
    simp_all [Instr.wf, pickS]; omega,
   tmplS_regs (by simp_all [Instr.wf, SF.bare])⟩
theorem fallocQuery (f : SF) : Statement (.fallocQuery f) :=
  ofS rfl rfl rfl rfl rfl rfl fun h => ⟨by decide, by simp_all [Instr.wf, pickS, SF.imms, SF.regs, SF.longs, SF.bare, SF.sysr, SF.sysw, SF.opb],
   tmplS_regs (by simp_all [Instr.wf, SF.bare])⟩
theorem ffree (f : SF) : Statement (.ffree f) :=
  ofS rfl rfl rfl rfl rfl rfl fun h => ⟨by decide, rfl,
   tmplS_regs (by simp_all [Instr.wf, SF.bare])⟩
theorem vadd (f : VF) : Statement (.vadd f) :=
  ofV rfl rfl rfl rfl rfl rfl fun h => ⟨by decide, rfl, tmplV_longB rfl (by simp_all [Instr.wf, VF.ops2]),
   fun h _ => absurd h (by decide)⟩
theorem vsub (f : VF) : Statement (.vsub f) :=
  ofV rfl rfl rfl rfl rfl rfl fun h => ⟨by decide, rfl, tmplV_longB rfl (by simp_all [Instr.wf, VF.ops2]),
   fun h _ => absurd h (by decide)⟩
theorem vmul (f : VF) : Statement (.vmul f) :=
  ofV rfl rfl rfl rfl rfl rfl fun h => ⟨by decide, rfl, tmplV_longB rfl (by simp_all [Instr.wf, VF.ops2]),
   fun h _ => absurd h (by decide)⟩
theorem vfma (f : VF) : Statement (.vfma f) :=
  ofV rfl rfl rfl rfl rfl rfl fun h => ⟨by decide, rfl, tmplV_longB rfl (by simp_all [Instr.wf, VF.ops2]),
   fun h _ => absurd h (by decide)⟩
theorem vfms (f : VF) : Statement (.vfms f) :=
  ofV rfl rfl rfl rfl rfl rfl fun h => ⟨by decide, rfl, tmplV_longB rfl (by simp_all [Instr.wf, VF.ops2]),
   fun h _ => absurd h (by decide)⟩
theorem vmin (f : VF) : Statement (.vmin f) :=
  ofV rfl rfl rfl rfl rfl rfl fun h => ⟨by decide, rfl, tmplV_longB rfl (by simp_all [Instr.wf, VF.ops2]),
   fun h _ => absurd h (by decide)⟩
theorem vmax (f : VF) : Statement (.vmax f) :=
  ofV rfl rfl rfl rfl rfl rfl fun h => ⟨by decide, rfl, tmplV_longB rfl (by simp_all [Instr.wf, VF.ops2]),
   fun h _ => absurd h (by decide)⟩
theorem vabs (f : VF) : Statement (.vabs f) :=
  ofV rfl rfl rfl rfl rfl rfl fun h => ⟨by decide, rfl, tmplV_none (by simp_all [Instr.wf, VF.ops1]),
   fun h _ => absurd h (by decide)⟩
theorem vneg (f : VF) : Statement (.vneg f) :=
  ofV rfl rfl rfl rfl rfl rfl fun h => ⟨by decide, rfl, tmplV_none (by simp_all [Instr.wf, VF.ops1]),
   fun h _ => absurd h (by decide)⟩
theorem vand (f : VF) : Statement (.vand f) :=
  ofV rfl rfl rfl rfl rfl rfl fun h => ⟨by decide, rfl, tmplV_longB rfl (by simp_all [Instr.wf, VF.ops2]),
   fun h _ => absurd h (by decide)⟩
theorem vor (f : VF) : Statement (.vor f) :=
  ofV rfl rfl rfl rfl rfl rfl fun h => ⟨by decide, rfl, tmplV_longB rfl (by simp_all [Instr.wf, VF.ops2]),
   fun h _ => absurd h (by decide)⟩
theorem vxor (f : VF) : Statement (.vxor f) :=
  ofV rfl rfl rfl rfl rfl rfl fun h => ⟨by decide, rfl, tmplV_longB rfl (by simp_all [Instr.wf, VF.ops2]),
   fun h _ => absurd h (by decide)⟩
theorem vnot (f : VF) : Statement (.vnot f) :=
  ofV rfl rfl rfl rfl rfl rfl fun h => ⟨by decide, rfl, tmplV_none (by simp_all [Instr.wf, VF.ops1]),
   fun h _ => absurd h (by decide)⟩
theorem vshl (f : VF) : Statement (.vshl f) :=
  ofV rfl rfl rfl rfl rfl rfl fun h => ⟨by decide, rfl, tmplV_longB rfl (by simp_all [Instr.wf, VF.ops2]),
   fun h _ => absurd h (by decide)⟩
theorem vshr (f : VF) : Statement (.vshr f) :=
  ofV rfl rfl rfl rfl rfl rfl fun h => ⟨by decide, rfl, tmplV_longB rfl (by simp_all [Instr.wf, VF.ops2]),
   fun h _ => absurd h (by decide)⟩
theorem vsra (f : VF) : Statement (.vsra f) :=
  ofV rfl rfl rfl rfl rfl rfl fun h => ⟨by decide, rfl, tmplV_longB rfl (by simp_all [Instr.wf, VF.ops2]),
   fun h _ => absurd h (by decide)⟩
theorem vcmp (f : VF) : Statement (.vcmp f) :=
  ofV rfl rfl rfl rfl rfl rfl fun h => ⟨by decide, rfl, by
    simp only [Instr.wf, Bool.and_eq_true, Bool.or_eq_true] at h
    simp only [templateOkV, Instr.takesLongV, Bool.true_and, Bool.or_eq_true]
    exact h.2.imp id (·.2),
   fun h _ => absurd h (by decide)⟩
theorem vsel (f : VF) : Statement (.vsel f) :=
  ofV rfl rfl rfl rfl rfl rfl fun h => ⟨by decide, rfl, tmplV_longB rfl (by simp_all [Instr.wf, VF.ops2]),
   fun h _ => absurd h (by decide)⟩
theorem vmov (f : VF) : Statement (.vmov f) :=
  ofV rfl rfl rfl rfl rfl rfl fun h => ⟨by decide, rfl, tmplV_none (by simp_all [Instr.wf, VF.ops1]),
   fun h _ => absurd h (by decide)⟩
theorem vbcastIdx (f : VF) : Statement (.vbcastIdx f) :=
  ofV rfl rfl rfl rfl rfl rfl fun h => ⟨by decide, by simp_all [Instr.wf, pickV], tmplV_none (by simp_all [Instr.wf]),
   fun h _ => absurd h (by decide)⟩
theorem vbcastFirst (f : VF) : Statement (.vbcastFirst f) :=
  ofV rfl rfl rfl rfl rfl rfl fun h => ⟨by decide, by simp_all [Instr.wf, pickV], tmplV_longB rfl (by simp_all [Instr.wf, VF.ops2]),
   fun h _ => absurd h (by decide)⟩
theorem viota (f : VF) : Statement (.viota f) :=
  ofV rfl rfl rfl rfl rfl rfl fun h => ⟨by decide, rfl, tmplV_none (by simp_all [Instr.wf]),
   fun h _ => absurd h (by decide)⟩
theorem vext (f : VF) : Statement (.vext f) :=
  ofV rfl rfl rfl rfl rfl rfl fun h => ⟨by decide, rfl, tmplV_none (by simp_all [Instr.wf]),
   fun h _ => absurd h (by decide)⟩
theorem vdot (f : VF) : Statement (.vdot f) :=
  ofV rfl rfl rfl rfl rfl rfl fun h => ⟨by decide, rfl, tmplV_none (by simp_all [Instr.wf]),
   fun h _ => absurd h (by decide)⟩
theorem vred (f : VF) : Statement (.vred f) :=
  ofV rfl rfl rfl rfl rfl rfl fun h => ⟨by decide, rfl, tmplV_none (by simp_all [Instr.wf, VF.ops1]),
   fun h _ => absurd h (by decide)⟩
theorem vamax (f : VF) : Statement (.vamax f) :=
  ofV rfl rfl rfl rfl rfl rfl fun h => ⟨by decide, rfl, tmplV_none (by simp_all [Instr.wf, VF.ops1]),
   fun h _ => absurd h (by decide)⟩
theorem vcvt (f : VF) : Statement (.vcvt f) :=
  ofV rfl rfl rfl rfl rfl rfl fun h => ⟨by decide, rfl, tmplV_none (by simp_all [Instr.wf, VF.ops1]),
   fun h _ => absurd h (by decide)⟩
theorem vwid (f : VF) : Statement (.vwid f) :=
  ofV rfl rfl rfl rfl rfl rfl fun h => ⟨by decide, rfl, tmplV_none (by simp_all [Instr.wf, VF.ops1]),
   fun h _ => absurd h (by decide)⟩
theorem vnar (f : VF) : Statement (.vnar f) :=
  ofV rfl rfl rfl rfl rfl rfl fun h => ⟨by decide, rfl, tmplV_none (by simp_all [Instr.wf, VF.ops1]),
   fun h _ => absurd h (by decide)⟩
theorem vquant (f : VF) : Statement (.vquant f) :=
  ofV rfl rfl rfl rfl rfl rfl fun h => ⟨by decide, rfl, tmplV_none (by simp_all [Instr.wf]),
   fun h _ => absurd h (by decide)⟩
theorem vperm (f : VF) : Statement (.vperm f) :=
  ofV rfl rfl rfl rfl rfl rfl fun h => ⟨by decide, rfl, tmplV_none (by simp_all [Instr.wf]),
   fun h _ => absurd h (by decide)⟩
theorem vcompact (f : VF) : Statement (.vcompact f) :=
  ofV rfl rfl rfl rfl rfl rfl fun h => ⟨by decide, rfl, tmplV_none (by simp_all [Instr.wf, VF.ops1]),
   fun h _ => absurd h (by decide)⟩
theorem vld (f : VF) : Statement (.vld f) :=
  ofV rfl rfl rfl rfl rfl rfl fun h => ⟨by decide, rfl, tmplV_none (by simp_all [Instr.wf]),
   fun h _ => absurd h (by decide)⟩
theorem vst (f : VF) : Statement (.vst f) :=
  ofV rfl rfl rfl rfl rfl rfl fun h => ⟨by decide, rfl, tmplV_none (by simp_all [Instr.wf]),
   fun h _ => absurd h (by decide)⟩
theorem kand (f : VF) : Statement (.kand f) :=
  ofV rfl rfl rfl rfl rfl rfl fun h => ⟨by decide, rfl, tmplV_none (by simp_all [Instr.wf, VF.kform]),
   fun h _ => absurd h (by decide)⟩
theorem kor (f : VF) : Statement (.kor f) :=
  ofV rfl rfl rfl rfl rfl rfl fun h => ⟨by decide, rfl, tmplV_none (by simp_all [Instr.wf, VF.kform]),
   fun h _ => absurd h (by decide)⟩
theorem kxor (f : VF) : Statement (.kxor f) :=
  ofV rfl rfl rfl rfl rfl rfl fun h => ⟨by decide, rfl, tmplV_none (by simp_all [Instr.wf, VF.kform]),
   fun h _ => absurd h (by decide)⟩
theorem knot (f : VF) : Statement (.knot f) :=
  ofV rfl rfl rfl rfl rfl rfl fun h => ⟨by decide, rfl, tmplV_none (by simp_all [Instr.wf, VF.kform]),
   fun h _ => absurd h (by decide)⟩
theorem vexp2 (f : VF) : Statement (.vexp2 f) :=
  ofV rfl rfl rfl rfl rfl rfl fun h => ⟨by decide, rfl, tmplV_none (by simp_all [Instr.wf]),
   by simp_all [Instr.wf]⟩
theorem vlog2 (f : VF) : Statement (.vlog2 f) :=
  ofV rfl rfl rfl rfl rfl rfl fun h => ⟨by decide, rfl, tmplV_none (by simp_all [Instr.wf]),
   by simp_all [Instr.wf]⟩
theorem vrcp (f : VF) : Statement (.vrcp f) :=
  ofV rfl rfl rfl rfl rfl rfl fun h => ⟨by decide, rfl, tmplV_none (by simp_all [Instr.wf]),
   by simp_all [Instr.wf]⟩
theorem vrsq (f : VF) : Statement (.vrsq f) :=
  ofV rfl rfl rfl rfl rfl rfl fun h => ⟨by decide, rfl, tmplV_none (by simp_all [Instr.wf]),
   by simp_all [Instr.wf]⟩
theorem vsqrt (f : VF) : Statement (.vsqrt f) :=
  ofV rfl rfl rfl rfl rfl rfl fun h => ⟨by decide, rfl, tmplV_none (by simp_all [Instr.wf]),
   by simp_all [Instr.wf]⟩
theorem vtanh (f : VF) : Statement (.vtanh f) :=
  ofV rfl rfl rfl rfl rfl rfl fun h => ⟨by decide, rfl, tmplV_none (by simp_all [Instr.wf]),
   by simp_all [Instr.wf]⟩
theorem scan (f : VF) : Statement (.scan f) :=
  ofV rfl rfl rfl rfl rfl rfl fun h => ⟨by decide, rfl, tmplV_none (by simp_all [Instr.wf]),
   by simp_all [Instr.wf]⟩
theorem selk (f : VF) : Statement (.selk f) :=
  ofV rfl rfl rfl rfl rfl rfl fun h => ⟨by decide, rfl, tmplV_none (by simp_all [Instr.wf]),
   by simp_all [Instr.wf]⟩
theorem sortk (f : VF) : Statement (.sortk f) :=
  ofV rfl rfl rfl rfl rfl rfl fun h => ⟨by decide, rfl, tmplV_none (by simp_all [Instr.wf]),
   by simp_all [Instr.wf]⟩
theorem rsolve (f : VF) : Statement (.rsolve f) :=
  ofV rfl rfl rfl rfl rfl rfl fun h => ⟨by decide, rfl, tmplV_none (by simp_all [Instr.wf]),
   by simp_all [Instr.wf]⟩
theorem mcfgHead (f : MF) : Statement (.mcfgHead f) :=
  ofM rfl rfl rfl rfl rfl rfl fun h => ⟨by decide, by simp_all [Instr.wf, pickM], by simp_all [Instr.wf, templateOkM]⟩
theorem mcfgLevel (f : MF) : Statement (.mcfgLevel f) :=
  ofM rfl rfl rfl rfl rfl rfl fun h => ⟨by decide, by simp_all [Instr.wf, pickM], by simp_all [Instr.wf, templateOkM]⟩
theorem mroute (f : MF) : Statement (.mroute f) :=
  ofM rfl rfl rfl rfl rfl rfl fun h => ⟨by decide, rfl, by simp_all [Instr.wf, templateOkM]⟩
theorem mgath (f : MF) : Statement (.mgath f) :=
  ofM rfl rfl rfl rfl rfl rfl fun h => ⟨by decide, rfl, by simp_all [Instr.wf, templateOkM]⟩
theorem mgo (f : MF) : Statement (.mgo f) :=
  ofM rfl rfl rfl rfl rfl rfl fun h => ⟨by decide, rfl, by simp_all [Instr.wf, templateOkM]⟩
theorem mcommit (f : MF) : Statement (.mcommit f) :=
  ofM rfl rfl rfl rfl rfl rfl fun h => ⟨by decide, rfl, by simp_all [Instr.wf, templateOkM]⟩
theorem mwaitb (f : MF) : Statement (.mwaitb f) :=
  ofM rfl rfl rfl rfl rfl rfl fun h => ⟨by decide, rfl, by simp_all [Instr.wf, templateOkM]⟩
theorem mdrain (f : MF) : Statement (.mdrain f) :=
  ofM rfl rfl rfl rfl rfl rfl fun h => ⟨by decide, rfl, by simp_all [Instr.wf, templateOkM]⟩
theorem mzero (f : MF) : Statement (.mzero f) :=
  ofM rfl rfl rfl rfl rfl rfl fun h => ⟨by decide, rfl, by simp_all [Instr.wf, templateOkM]⟩
theorem mlda (f : MF) : Statement (.mlda f) :=
  ofM rfl rfl rfl rfl rfl rfl fun h => ⟨by decide, rfl, by simp_all [Instr.wf, templateOkM]⟩
theorem mstop (f : MF) : Statement (.mstop f) :=
  ofM rfl rfl rfl rfl rfl rfl fun h => ⟨by decide, rfl, by simp_all [Instr.wf, templateOkM]⟩
theorem cget (f : CF) : Statement (.cget f) :=
  ofC rfl rfl rfl rfl rfl rfl fun h => ⟨by decide, rfl, tmplC_ss rfl (by simp_all [Instr.wf])⟩
theorem cput (f : CF) : Statement (.cput f) :=
  ofC rfl rfl rfl rfl rfl rfl fun h => ⟨by decide, rfl, tmplC_ss rfl (by simp_all [Instr.wf])⟩
theorem cputf (f : CF) : Statement (.cputf f) :=
  ofC rfl rfl rfl rfl rfl rfl fun h => ⟨by decide, rfl, tmplC_ss rfl (by simp_all [Instr.wf])⟩
theorem cgath (f : CF) : Statement (.cgath f) :=
  ofC rfl rfl rfl rfl rfl rfl fun h => ⟨by decide, rfl, tmplC_ss rfl (by simp_all [Instr.wf])⟩
theorem cscat (f : CF) : Statement (.cscat f) :=
  ofC rfl rfl rfl rfl rfl rfl fun h => ⟨by decide, rfl, tmplC_none (by simp_all [Instr.wf, CF.cenc])⟩
theorem catom (f : CF) : Statement (.catom f) :=
  ofC rfl rfl rfl rfl rfl rfl fun h => ⟨by decide, rfl, tmplC_ss rfl (by simp_all [Instr.wf])⟩
theorem cred (f : CF) : Statement (.cred f) :=
  ofC rfl rfl rfl rfl rfl rfl fun h => ⟨by decide, rfl, tmplC_ss rfl (by simp_all [Instr.wf])⟩
theorem cfence (f : CF) : Statement (.cfence f) :=
  ofC rfl rfl rfl rfl rfl rfl fun h => ⟨by decide, rfl, tmplC_none (by simp_all [Instr.wf, CF.cenc])⟩
theorem czero (f : CF) : Statement (.czero f) :=
  ofC rfl rfl rfl rfl rfl rfl fun h => ⟨by decide, rfl, tmplC_ss rfl (by simp_all [Instr.wf])⟩
theorem croute (f : CF) : Statement (.croute f) :=
  ofC rfl rfl rfl rfl rfl rfl fun h => ⟨by decide, rfl, tmplC_ss rfl (by simp_all [Instr.wf])⟩
theorem cbund (f : CF) : Statement (.cbund f) :=
  ofC rfl rfl rfl rfl rfl rfl fun h => ⟨by decide, rfl, tmplC_ss rfl (by simp_all [Instr.wf])⟩
theorem cencOpen (f : CF) : Statement (.cencOpen f) :=
  ofC rfl rfl rfl rfl rfl rfl fun h => ⟨by decide, by simp_all [Instr.wf, pickC], tmplC_ss rfl (by simp_all [Instr.wf])⟩
theorem cencFrame (f : CF) : Statement (.cencFrame f) :=
  ofC rfl rfl rfl rfl rfl rfl fun h => ⟨by decide, by simp_all [Instr.wf, pickC], tmplC_ss rfl (by simp_all [Instr.wf])⟩
theorem cencClose (f : CF) : Statement (.cencClose f) :=
  ofC rfl rfl rfl rfl rfl rfl fun h => ⟨by decide, by simp_all [Instr.wf, pickC], tmplC_none (by simp_all [Instr.wf, CF.cenc])⟩
theorem xsend (f : XF) : Statement (.xsend f) :=
  ofX rfl rfl rfl rfl rfl rfl ⟨by decide, rfl⟩
theorem xrecv (f : XF) : Statement (.xrecv f) :=
  ofX rfl rfl rfl rfl rfl rfl ⟨by decide, rfl⟩
theorem lightPresent (pkg : Nat) (link : Nat) : Statement (.lightPresent pkg link) :=
  ofE rfl rfl rfl rfl rfl rfl (by decide) rfl fun h => by simp_all [Instr.wf, u64]
theorem ptpPortEnable (pkg : Nat) (port : Nat) (enable : Nat) : Statement (.ptpPortEnable pkg port enable) :=
  ofE rfl rfl rfl rfl rfl rfl (by decide) rfl fun h => by simp_all [Instr.wf, u64]
theorem barrierRootAnswer (slot : Nat) : Statement (.barrierRootAnswer slot) :=
  ofE rfl rfl rfl rfl rfl rfl (by decide) rfl fun h => by simp_all [Instr.wf, u64]
theorem takeoverComplete (pkg : Nat) : Statement (.takeoverComplete pkg) :=
  ofE rfl rfl rfl rfl rfl rfl (by decide) rfl fun h => by simp_all [Instr.wf, u64]
theorem unknownCommand (pkg : Nat) (code : Nat) : Statement (.unknownCommand pkg code) :=
  ofE rfl rfl rfl rfl rfl rfl (by decide) rfl fun h => by simp_all [Instr.wf, u64]
theorem bundleIssue : Statement (.bundleIssue) :=
  ofE rfl rfl rfl rfl rfl rfl (by decide) rfl fun h => by simp_all [Instr.wf, u64]
theorem anchoredBundleIssue : Statement (.anchoredBundleIssue) :=
  ofE rfl rfl rfl rfl rfl rfl (by decide) rfl fun h => by simp_all [Instr.wf, u64]
theorem lateTickExpiry : Statement (.lateTickExpiry) :=
  ofE rfl rfl rfl rfl rfl rfl (by decide) rfl fun h => by simp_all [Instr.wf, u64]
theorem resultLanding : Statement (.resultLanding) :=
  ofE rfl rfl rfl rfl rfl rfl (by decide) rfl fun h => by simp_all [Instr.wf, u64]
theorem waitLimit : Statement (.waitLimit) :=
  ofE rfl rfl rfl rfl rfl rfl (by decide) rfl fun h => by simp_all [Instr.wf, u64]
theorem slipExceeded : Statement (.slipExceeded) :=
  ofE rfl rfl rfl rfl rfl rfl (by decide) rfl fun h => by simp_all [Instr.wf, u64]
theorem contextEvict : Statement (.contextEvict) :=
  ofE rfl rfl rfl rfl rfl rfl (by decide) rfl fun h => by simp_all [Instr.wf, u64]
theorem cuffOverrun : Statement (.cuffOverrun) :=
  ofE rfl rfl rfl rfl rfl rfl (by decide) rfl fun h => by simp_all [Instr.wf, u64]
theorem matrixStepStart : Statement (.matrixStepStart) :=
  ofE rfl rfl rfl rfl rfl rfl (by decide) rfl fun h => by simp_all [Instr.wf, u64]
theorem matrixStepComplete : Statement (.matrixStepComplete) :=
  ofE rfl rfl rfl rfl rfl rfl (by decide) rfl fun h => by simp_all [Instr.wf, u64]
theorem tableMove : Statement (.tableMove) :=
  ofE rfl rfl rfl rfl rfl rfl (by decide) rfl fun h => by simp_all [Instr.wf, u64]
theorem xrecvTake : Statement (.xrecvTake) :=
  ofE rfl rfl rfl rfl rfl rfl (by decide) rfl fun h => by simp_all [Instr.wf, u64]
theorem waitwReread : Statement (.waitwReread) :=
  ofE rfl rfl rfl rfl rfl rfl (by decide) rfl fun h => by simp_all [Instr.wf, u64]
theorem computeDieFailure : Statement (.computeDieFailure) :=
  ofE rfl rfl rfl rfl rfl rfl (by decide) rfl fun h => by simp_all [Instr.wf, u64]
theorem encodeComplete : Statement (.encodeComplete) :=
  ofE rfl rfl rfl rfl rfl rfl (by decide) rfl fun h => by simp_all [Instr.wf, u64]

end Sys2Proof.Laws.Reads
end

