-- ==== Sys2Proof/Laws/Vector.lean ====
section
/-! SUPPORT. Elements of registers: a register built from elements gives them back. -/

namespace Sys2Proof.Machine

/-- The number that elements of width w make, read back. -/
theorem foldr_elem (w : Nat) : ∀ (l : List Nat) (e : Nat), e < l.length →
    (l.foldr (fun e acc => e % 2 ^ w + 2 ^ w * acc) 0) >>> (w * e) % 2 ^ w = l.getD e 0 % 2 ^ w
  | x :: l, 0, _ => by simp
  | x :: l, e + 1, h => by
    have ih := foldr_elem w l e (by simpa using h)
    rw [List.foldr_cons, Nat.shiftRight_eq_div_pow, Nat.mul_succ, Nat.add_comm (w * e), Nat.pow_add, ← Nat.div_div_eq_div_mul,
      Nat.add_mul_div_left _ _ (Nat.two_pow_pos w), Nat.div_eq_of_lt (Nat.mod_lt _ (Nat.two_pow_pos w)), Nat.zero_add,
      ← Nat.shiftRight_eq_div_pow, ih]
    simp
theorem foldr_lt (w : Nat) : ∀ l : List Nat, l.foldr (fun e acc => e % 2 ^ w + 2 ^ w * acc) 0 < 2 ^ (w * l.length)
  | [] => by simp
  | x :: l => by
    have ih := foldr_lt w l
    have h := Nat.mod_lt x (Nat.two_pow_pos w)
    rw [List.foldr_cons, List.length_cons, Nat.mul_succ, Nat.pow_add, Nat.mul_comm (2 ^ (w * l.length))]
    calc _ < 2 ^ w + 2 ^ w * l.foldr (fun e acc => e % 2 ^ w + 2 ^ w * acc) 0 := by omega
      _ = 2 ^ w * (l.foldr (fun e acc => e % 2 ^ w + 2 ^ w * acc) 0 + 1) := by ring
      _ ≤ _ := Nat.mul_le_mul_left _ ih
/-- Element e of a value built from elements. -/
theorem elem_ofElems {n w : Nat} {l : List Nat} (h : w * l.length ≤ n) {e : Nat} (he : e < l.length) :
    elem (ofElems n w l) w e = l.getD e 0 % 2 ^ w := by
  rw [elem, ofElems, BitVec.toNat_ofNat, Nat.mod_eq_of_lt (lt_of_lt_of_le (foldr_lt w l) (Nat.pow_le_pow_right (by omega) h)),
    foldr_elem w l e he]
/-- The elements of registers built from elements are those elements. -/
theorem elemsOf_regsOf {w : Nat} (hw : w ∣ 4096) : ∀ (n : Nat) (l : List Nat), l.length = n * (4096 / w) →
    elemsOf w (regsOf w n l) = l.map (· % 2 ^ w)
  | 0, l, h => by
    have : l = [] := List.length_eq_zero_iff.1 (by simpa using h)
    simp [this, regsOf, elemsOf]
  | n + 1, l, h => by
    have ht : (l.take (4096 / w)).length = 4096 / w := by rw [List.length_take]; rw [h]; apply Nat.min_eq_left; nlinarith
    have ih := elemsOf_regsOf hw n (l.drop (4096 / w)) (by rw [List.length_drop, h, Nat.succ_mul]; omega)
    have step : elemsOf w (regsOf w (n + 1) l) =
        (List.range (4096 / w)).map (elem (ofElems 4096 w (l.take (4096 / w))) w) ++ elemsOf w (regsOf w n (l.drop (4096 / w))) := by
      simp [elemsOf, regsOf]
    rw [step, ih]
    conv => rhs; rw [← List.take_append_drop (4096 / w) l]
    rw [List.map_append]
    congr 1
    apply List.ext_getElem
    · simp; rw [h]; nlinarith
    · intro i h1 h2
      have hi : i < (l.take (4096 / w)).length := by simpa using h2
      rw [List.getElem_map, List.getElem_range, elem_ofElems (by rw [ht, Nat.mul_div_cancel' hw]) hi]
      simp [List.getElem?_eq_getElem hi]
end Sys2Proof.Machine
end

