-- ==== Sys2Proof/Tests/Slice0.lean ====
section
/-! SUPPORT. Tests: ill-formed instructions are refused, words written out from the spec's encodings decode to what they
stand for, single steps whose results the spec gives, and for each statement states and operands that meet its
hypotheses. -/

set_option Elab.async false
set_option maxRecDepth 20000

namespace Sys2Proof.Tests
open Sys2Proof.Machine

/-! ## Operands and states -/

/-- An S field: sD = s1, sA = s2, sB = s3. -/
def sf : SF := { fm := 0, pg := 0, pn := 0, d := 1, a := 2, b := 3, imm := 0, mod := 0, long := none }
/-- A V field: v1, v2 and v3 as i32. -/
def vf : VF := { v1 := false, fm := 0, km := 0, sp := 0, ty := 11, d := 1, a := 2, b := 3, c := 0, long := none }
def mf : MF := { bt := 0, ac := 0, ta := 0, tb := 0, tc := 0, lv := 0, imm := 0, long := none }
def cf : CF := { c1 := false, tag := 5, te := 1, sd := 2, ss := 3, sn := 4, tid := 0, qh := 0, mod := 0, imm8 := 0, long := none }
def xf : XF := { oc := 0, v := 1, off := 0 }

/-- A partition (1) and a timetable region (2) of one die slot, on die 0 of package 0. -/
def part1 : Node := { Node.blank with kind := .part, st := 3, part := 1, rcb := 0x2000000000000001000 }
def reg2 : Node :=
  { Node.blank with
    kind := .timetable, st := 3, part := 1, parent := 1, slots := 1, bmem := 16, tids := 16, queues := 4, routes := 16
    brows := 2, tguard := 8, placed := [⟨0, 0, 0⟩], rcb := 0x2000000000000002000, dmask := 1 }
/-- Its slot, at an elastic bundle at offset 0x100 that issued at position 10 and tick 20. -/
def ctx2 : Ctx :=
  { Ctx.blank with
    mode := .run, rid := 2, pos := 10, tguard := 8, rows := [0, 1], pc := 0x100, earliest := 10
    iss := { Issue.blank with pos := 10, tick := 20, pc := 0x100, elastic := true } }
def key2 : SlotKey := 16384
def die2 : Die := { Die.blank with run := some key2, tick := 20, cyc := 30 }
def demo : State :=
  { State.reset with pkgs := [(0, { Pkg.blank with present := true, ready := true })], nodes := [(1, part1), (2, reg2)], slots := [(key2, ctx2)], dies := [(0, die2)] }
/-- The same with another context, region, die or package. -/
def demoC (f : Ctx → Ctx) : State := { demo with slots := [(key2, f ctx2)] }
def demoR (f : Node → Node) : State := { demo with nodes := [(1, part1), (2, f reg2)] }
def demoD (f : Die → Die) : State := { demo with dies := [(0, f die2)] }
def demoP (f : Pkg → Pkg) : State :=
  { demo with pkgs := [(0, f { Pkg.blank with present := true, ready := true, gtc := 20 })] }
/-- s2 and s3 hold these values. -/
def demoS (a b : Word) : State := demoC fun c => { c with sregs := [(2, a), (3, b)] }

theorem demo_runs : demo.curKey = key2 ∧ demo.curCtx = ctx2 ∧ demo.Canon :=
  ⟨by decide, by decide, ⟨by decide, by decide, by decide, by decide, by decide, by decide, by decide, by decide,
    by decide, by decide, by decide, by decide⟩⟩

/-! ## Ill-formed terms are refused -/

theorem test_wf_operand_b_refuses :
    (Instr.add { sf with imm := 1 }).wf = false ∧ (Instr.add { sf with fm := 1 }).wf = false ∧
    (Instr.add { sf with fm := 3 }).wf = false ∧ (Instr.add { sf with fm := 2 }).wf = false ∧
    (Instr.add { sf with long := some 0 }).wf = false := by decide
theorem test_wf_scalar_modifiers_refuse :
    (Instr.add { sf with mod := 2 }).wf = false ∧ (Instr.sub { sf with mod := 4 }).wf = false ∧
    (Instr.mul { sf with mod := 2 }).wf = false ∧ (Instr.mulh { sf with mod := 1 }).wf = false ∧
    (Instr.div { sf with mod := 1 }).wf = false ∧ (Instr.rem { sf with mod := 1 }).wf = false ∧
    (Instr.and_ { sf with mod := 1 }).wf = false ∧ (Instr.shl { sf with mod := 1 }).wf = false ∧
    (Instr.min { sf with mod := 1 }).wf = false ∧ (Instr.sel { sf with mod := 32 }).wf = false ∧
    (Instr.clz sf).wf = false ∧ (Instr.mov { sf with b := 0, fm := 1 }).wf = false ∧ (Instr.li sf).wf = false := by decide
theorem test_wf_predicate_forms_refuse :
    (Instr.cmp { sf with d := 16 }).wf = false ∧ (Instr.cmp { sf with mod := 10 }).wf = false ∧
    (Instr.pand { sf with a := 16 }).wf = false ∧ (Instr.pnot sf).wf = false ∧ (Instr.kpop { sf with b := 0, a := 16 }).wf = false ∧
    (Instr.kpopN { sf with fm := 1, b := 0, imm := 1025 }).wf = false ∧
    (Instr.kpopN { sf with fm := 1, b := 0, imm := 0 }).wf = false := by decide
theorem test_wf_memory_forms_refuse :
    (Instr.ld { sf with a := 0 }).wf = false ∧ (Instr.ld { sf with mod := 4 }).wf = false ∧
    (Instr.ld { sf with mod := 16 }).wf = false ∧ (Instr.st { sf with mod := 4 }).wf = false ∧
    (Instr.atom sf).wf = false ∧ (Instr.atom { sf with d := 0, mod := 1 }).wf = false ∧
    (Instr.atom { sf with d := 0, mod := 10 }).wf = false ∧ (Instr.atom { sf with d := 0, mod := 128 }).wf = false ∧
    (Instr.atomCas { sf with d := 0, mod := 1, imm := 64 }).wf = false ∧ (Instr.red { sf with d := 0, mod := 1 }).wf = false ∧
    (Instr.lqpop sf).wf = false ∧ (Instr.apush sf).wf = false ∧
    (Instr.fence { sf with d := 0, a := 0, b := 0, mod := 4 }).wf = false ∧
    (Instr.fence { sf with d := 0, a := 0, b := 0, mod := 21 }).wf = false ∧
    (Instr.waitw { sf with imm := 64 }).wf = false ∧ (Instr.waitw { sf with mod := 8 }).wf = false := by decide
theorem test_wf_control_forms_refuse :
    (Instr.brRel { sf with fm := 1, b := 0 }).wf = false ∧ (Instr.brReg { sf with d := 0, a := 0, b := 0 }).wf = false ∧
    (Instr.jmpImm { sf with fm := 1, d := 0, a := 0, b := 0, imm := -1 }).wf = false ∧
    (Instr.jmpLong { sf with d := 0, a := 0, b := 0 }).wf = false ∧ (Instr.ret sf).wf = false ∧
    (Instr.loop { sf with fm := 1, d := 0, b := 0, imm := 65 }).wf = false ∧
    (Instr.loop { sf with fm := 1, d := 0, b := 0, imm := 0 }).wf = false ∧
    (Instr.trap { sf with fm := 1, d := 0, a := 0, b := 0, imm := 65536 }).wf = false ∧
    (Instr.tret sf).wf = false ∧ (Instr.end_ sf).wf = false ∧ (Instr.yield sf).wf = false ∧ (Instr.launch sf).wf = false ∧
    (Instr.twait { sf with d := 0, a := 0, mod := 1 }).wf = false ∧ (Instr.wtagall sf).wf = false := by decide
theorem test_wf_queue_and_system_forms_refuse :
    (Instr.qwait { sf with fm := 1, d := 0, a := 0, b := 0, imm := 0 }).wf = false ∧
    (Instr.qadv { sf with fm := 1, d := 0, a := 0, b := 0, imm := 32768 }).wf = false ∧
    (Instr.qset { sf with fm := 1, d := 0, b := 0, imm := 32 }).wf = false ∧
    (Instr.bara { sf with fm := 1, d := 0, a := 0, b := 0, imm := 64 }).wf = false ∧
    (Instr.step { sf with fm := 1, a := 0, b := 0, imm := 16 }).wf = false ∧
    (Instr.pstat { sf with fm := 1, d := 0, a := 0, b := 0 }).wf = false ∧
    (Instr.sysrd { sf with fm := 1, a := 0, b := 0, imm := 6 }).wf = false ∧
    (Instr.syswr { sf with fm := 1, d := 0, b := 0, imm := 8 }).wf = false ∧
    (Instr.tguardWrite { sf with fm := 1, d := 0, b := 0, imm := 8 }).wf = false ∧
    (Instr.tidset { sf with fm := 1, d := 0, b := 0, imm := 2048 }).wf = false ∧
    (Instr.falloc { sf with b := 0, mod := 2 }).wf = false ∧ (Instr.fallocAt { sf with mod := 0 }).wf = false ∧
    (Instr.fallocQuery { sf with b := 0 }).wf = false ∧ (Instr.ffree { sf with mod := 1, b := 0 }).wf = false := by decide
theorem test_wf_vector_forms_refuse :
    (Instr.vadd { vf with sp := 5 }).wf = false ∧ (Instr.vadd { vf with ty := 15 }).wf = false ∧
    (Instr.vadd { vf with a := 1568 }).wf = false ∧ (Instr.vadd { vf with ty := 0, c := 1 }).wf = false ∧
    (Instr.vadd { vf with long := some 0 }).wf = false ∧ (Instr.vand { vf with c := 1 }).wf = false ∧
    (Instr.vfma vf).wf = false ∧ (Instr.vabs { vf with b := 0, ty := 12, c := 1 }).wf = false ∧ (Instr.vnot vf).wf = false ∧
    (Instr.vshl { vf with ty := 0 }).wf = false ∧ (Instr.vcmp vf).wf = false ∧ (Instr.vcmp { vf with fm := 1, c := 7 }).wf = false ∧
    (Instr.vbcastIdx { vf with fm := 1, b := 0, c := 128 }).wf = false ∧ (Instr.vbcastFirst vf).wf = false ∧
    (Instr.viota { vf with fm := 1 }).wf = false ∧ (Instr.vext { vf with fm := 1, c := 129 }).wf = false ∧
    (Instr.vdot vf).wf = false ∧ (Instr.vred { vf with b := 0, fm := 1, c := 3 }).wf = false ∧
    (Instr.vamax { vf with b := 0 }).wf = false ∧ (Instr.vcvt { vf with b := 0, fm := 1, c := 13 }).wf = false ∧
    (Instr.vwid { vf with b := 0, fm := 1, c := 11 }).wf = false ∧ (Instr.vnar { vf with b := 0, fm := 1, c := 9 }).wf = false ∧
    (Instr.vquant { vf with b := 0, fm := 1 }).wf = false ∧ (Instr.vperm { vf with b := 1536 }).wf = false ∧
    (Instr.vld { vf with a := 0, b := 0, d := 1536 }).wf = false ∧ (Instr.vst vf).wf = false ∧ (Instr.kand vf).wf = false := by decide
theorem test_wf_special_function_forms_refuse :
    (Instr.vexp2 { vf with ty := 0, b := 0 }).wf = false ∧ (Instr.vexp2 { vf with v1 := true, ty := 0, b := 0, sp := 3 }).wf = false ∧
    (Instr.scan { vf with v1 := true, fm := 1, b := 0, c := 3 }).wf = false ∧
    (Instr.scan { vf with v1 := true, fm := 1, b := 0, km := 1 }).wf = false ∧
    (Instr.selk { vf with v1 := true, fm := 1, b := 0, c := 0xB0 }).wf = false ∧
    (Instr.sortk { vf with v1 := true, fm := 1, c := 11 }).wf = false ∧
    (Instr.rsolve { vf with v1 := true, fm := 1, b := 0, ty := 11 }).wf = false := by decide
theorem test_wf_matrix_forms_refuse :
    (Instr.mcfgHead { mf with ac := 4 }).wf = false ∧ (Instr.mcfgHead { mf with imm := 0xC000 }).wf = false ∧
    (Instr.mcfgLevel { mf with imm := 0x10006 }).wf = false ∧ (Instr.mroute { mf with imm := 6 }).wf = false ∧
    (Instr.mgath { mf with tc := 15 }).wf = false ∧ (Instr.mgath { mf with imm := 1521 }).wf = false ∧
    (Instr.mgo { mf with imm := 1 }).wf = false ∧ (Instr.mcommit { mf with ac := 1 }).wf = false ∧
    (Instr.mwaitb { mf with lv := 1 }).wf = false ∧ (Instr.mdrain { mf with bt := 1 }).wf = false ∧
    (Instr.mzero { mf with ac := 63, imm := 1 }).wf = false ∧ (Instr.mlda { mf with imm := 2048 }).wf = false ∧
    (Instr.mstop { mf with bt := 1 }).wf = false := by decide
theorem test_wf_copy_forms_refuse :
    (Instr.cget { cf with te := 0 }).wf = false ∧ (Instr.cget { cf with sd := 0 }).wf = false ∧
    (Instr.cget { cf with ss := 0 }).wf = false ∧ (Instr.cget { cf with mod := 1 }).wf = false ∧
    (Instr.cput { cf with imm8 := 1 }).wf = false ∧ (Instr.cputf cf).wf = false ∧ (Instr.cgath cf).wf = false ∧
    (Instr.cscat cf).wf = false ∧ (Instr.catom cf).wf = false ∧ (Instr.cred { cf with sn := 0, mod := 2 }).wf = false ∧
    (Instr.cfence { cf with sd := 0, ss := 0, sn := 0 }).wf = false ∧ (Instr.czero { cf with qh := 1 }).wf = false ∧
    (Instr.croute { cf with tid := 1 }).wf = false ∧ (Instr.cbund { cf with mod := 1 }).wf = false ∧
    (Instr.cencOpen cf).wf = false ∧ (Instr.cencFrame { cf with mod := 1, imm8 := 96 }).wf = false ∧
    (Instr.cencClose { cf with mod := 2 }).wf = false ∧ (Instr.xsend { xf with v := 1536 }).wf = false ∧
    (Instr.xrecv { xf with v := 1536 }).wf = false := by decide
theorem test_wf_events_refuse :
    (Instr.launchPortStore 0 (2 ^ 64)).wf = false ∧
    (Instr.installBarrierEntry 0 1 0 (List.replicate 248 0)).wf = false ∧ (Instr.powerGrant 0 [2 ^ 64]).wf = false := by decide

/-! ## Words of the spec's worked encodings -/

/-- A blank S field. -/
def s0 : SF := { fm := 0, pg := 0, pn := 0, d := 0, a := 0, b := 0, imm := 0, mod := 0, long := none }
def v0 : VF := { v1 := false, fm := 0, km := 0, sp := 0, ty := 0, d := 0, a := 0, b := 0, c := 0, long := none }
def c0 : CF := { c1 := false, tag := 0, te := 0, sd := 0, ss := 0, sn := 0, tid := 0, qh := 0, mod := 0, imm8 := 0, long := none }

/-- R294, R379, R356, R427, R367, R369: scalar arithmetic. -/
theorem test_decode_scalar :
    decodeS 0x003FFFFA00C28101 none = .ok (.add { s0 with fm := 1, d := 5, a := 6, imm := -3 }) ∧
    decodeS 0x0000000008824C02 none = .ok (.sub { s0 with pg := 3, pn := 1, d := 4, a := 4, b := 1 }) ∧
    decodeS 0x0000000038C28008 none = .ok (.or_ { s0 with d := 5, a := 6, b := 7 }) ∧
    decodeS 0x0000000038C28009 none = .ok (.xor { s0 with d := 5, a := 6, b := 7 }) ∧
    decodeS 0x0000000028818006 none = .ok (.rem { s0 with d := 3, a := 4, b := 5 }) ∧
    decodeS 0x0080000028818005 none = .ok (.div { s0 with d := 3, a := 4, b := 5, mod := 2 }) ∧
    decodeS 0x0000000A0061010B none = .ok (.shl { s0 with fm := 1, d := 2, a := 3, imm := 5 }) := ⟨rfl, rfl, rfl, rfl, rfl, rfl, rfl⟩
/-- R318, R349, R357, R358, R333, R338, R373: predicates, moves, counts. -/
theorem test_decode_scalar_moves :
    decodeS 0x0180000020610016 none = .ok (.cmp { s0 with d := 2, a := 3, b := 4, mod := 6 }) ∧
    decodeS 0x0000000007E20014 none = .ok (.mov { s0 with d := 4, a := 63 }) ∧
    decodeS 0x0000000001220012 none = .ok (.popc { s0 with d := 4, a := 9 }) ∧
    decodeS 0x000000000062001C none = .ok (.kpop { s0 with d := 4, a := 3 }) ∧
    decodeS 0x003FFFFE00018115 none = .ok (.li { s0 with fm := 1, d := 3, imm := -1 }) ∧
    decodeS 0x0000000000048215 (some 5) = .ok (.li { s0 with fm := 2, d := 9, long := some 5 }) ∧
    decodeS 0x0080000030A20013 none = .ok (.sel { s0 with d := 4, a := 5, b := 6, mod := 2 }) ∧
    decodeS 0x0000000010218018 none = .ok (.pand { s0 with d := 3, a := 1, b := 2 }) ∧
    decodeS 0x000000000022001B none = .ok (.pnot { s0 with d := 4, a := 1 }) :=
  ⟨rfl, rfl, rfl, rfl, rfl, rfl, rfl, rfl, rfl⟩
/-- R336, R377, R298, R365, R341, R177, R191, R425: memory. -/
theorem test_decode_scalar_memory :
    decodeS 0x0280008000438120 none = .ok (.ld { s0 with fm := 1, d := 7, a := 2, imm := 0x40, mod := 10 }) ∧
    decodeS 0x0080008000438121 none = .ok (.st { s0 with fm := 1, d := 7, a := 2, imm := 0x40, mod := 2 }) ∧
    decodeS 0x0080000201400123 none = .ok (.red { s0 with fm := 1, a := 10, imm := 1, mod := 2 }) ∧
    decodeS 0x0000000000028024 none = .ok (.lqpop { s0 with d := 5 }) ∧
    decodeS 0x0000000000E00025 none = .ok (.apush { s0 with a := 7 }) ∧
    decodeS 0x0280000000000026 none = .ok (.fence { s0 with mod := 10 }) ∧
    decodeS 0x0140000000000826 none = .ok (.fence { s0 with pg := 2, mod := 5 }) ∧
    decodeS 0x40C0000059400027 none = .ok (.waitw { s0 with a := 10, b := 11, mod := 259 }) :=
  ⟨rfl, rfl, rfl, rfl, rfl, rfl, rfl, rfl⟩
/-- R303, R331, R340, R250, R32, R388: control. -/
theorem test_decode_scalar_control :
    decodeS 0x003FFFF800000530 none = .ok (.brRel { s0 with fm := 1, pg := 1, imm := -4 }) ∧
    decodeS 0x0000008000000131 none = .ok (.jmpImm { s0 with fm := 1, imm := 64 }) ∧
    decodeS 0x0000000005A00031 none = .ok (.jmpReg { s0 with a := 45 }) ∧
    decodeS 0x0000000000000033 none = .ok (.ret s0) ∧
    decodeS 0x0000000601800134 none = .ok (.loop { s0 with fm := 1, a := 12, imm := 3 }) ∧
    decodeS 0x0000005400000135 none = .ok (.trap { s0 with fm := 1, imm := 0x2A }) ∧
    decodeS 0x0000000000000036 none = .ok (.tret s0) ∧
    decodeS 0x0000000001200039 none = .ok (.launch { s0 with a := 9 }) ∧
    decodeS 0x0001388000000140 none = .ok (.twait { s0 with fm := 1, imm := 40000 }) ∧
    decodeS 0x0040000060000040 none = .ok (.twaitAbs { s0 with b := 12, mod := 1 }) :=
  ⟨rfl, rfl, rfl, rfl, rfl, rfl, rfl, rfl, rfl, rfl⟩
/-- R382, R426, R361, R363, R364: tags and queues. -/
theorem test_decode_tags_and_queues :
    decodeS 0x0000000038000041 none = .ok (.wtagall { s0 with b := 7 }) ∧
    decodeS 0x0000000048020042 none = .ok (.wtagany { s0 with d := 4, b := 9 }) ∧
    decodeS 0x0000000048020043 none = .ok (.tagff { s0 with d := 4, b := 9 }) ∧
    decodeS 0x003FFFFE00000144 none = .ok (.tagclr { s0 with fm := 1, imm := -1 }) ∧
    decodeS 0x0000020600000145 none = .ok (.qwait { s0 with fm := 1, imm := 259 }) ∧
    decodeS 0x0000010600000146 none = .ok (.qadv { s0 with fm := 1, imm := 131 }) ∧
    decodeS 0x0000100401400147 none = .ok (.qset { s0 with fm := 1, a := 10, imm := 2050 }) :=
  ⟨rfl, rfl, rfl, rfl, rfl, rfl, rfl⟩
/-- R217, R219, R220, R380, R384, R203: steps, system registers, allocation. -/
theorem test_decode_steps_and_system :
    decodeS 0x0200002800000148 none = .ok (.bara { s0 with fm := 1, imm := 20, mod := 8 }) ∧
    decodeS 0x000000040003814A none = .ok (.step { s0 with fm := 1, d := 7, imm := 2 }) ∧
    decodeS 0x000000240004814B none = .ok (.pstat { s0 with fm := 1, d := 9, imm := 18 }) ∧
    decodeS 0x0000000000028150 none = .ok (.sysrd { s0 with fm := 1, d := 5 }) ∧
    decodeS 0x0000000400C00151 none = .ok (.tguardWrite { s0 with fm := 1, a := 6, imm := 2 }) ∧
    decodeS 0x0000024001200151 none = .ok (.ringWrite { s0 with fm := 1, a := 9, imm := 0x120 }) ∧
    decodeS 0x00000A0E01400152 none = .ok (.tidset { s0 with fm := 1, a := 10, imm := 0x507 }) ∧
    decodeS 0x0040000000C28053 none = .ok (.falloc { s0 with d := 5, a := 6, mod := 1 }) ∧
    decodeS 0x0000000001200054 none = .ok (.ffree { s0 with a := 9 }) :=
  ⟨rfl, rfl, rfl, rfl, rfl, rfl, rfl, rfl, rfl⟩
/-- R393–R404, R408–R423: vector arithmetic. -/
theorem test_decode_vector :
    decodeV 0x1FE00003005B010A false none = .ok (.vand { v0 with fm := 1, ty := 11, d := 5, a := 6, c := 255 }) ∧
    decodeV 0x0000600B014B2401 false none =
      .ok (.vadd { v0 with km := 2, sp := 1, ty := 11, d := 20, a := 22, b := 24 }) ∧
    decodeV 0x00201402006B0002 false none = .ok (.vsub { v0 with ty := 11, d := 6, a := 4, b := 5, c := 1 }) ∧
    decodeV 0x0000240400700007 false none = .ok (.vmax { v0 with d := 7, a := 8, b := 9 }) ∧
    decodeV 0x0200300406404204 false none =
      .ok (.vfma { v0 with km := 1, sp := 2, d := 100, a := 8, b := 12, c := 16 }) ∧
    decodeV 0x006000028047010E false none = .ok (.vshl { v0 with fm := 1, ty := 7, d := 4, a := 5, c := 3 }) ∧
    decodeV 0x00400C0100400111 false none = .ok (.vcmp { v0 with fm := 1, d := 4, a := 2, b := 3, c := 2 }) ∧
    decodeV 0x0000300580A00612 false none = .ok (.vsel { v0 with km := 3, d := 10, a := 11, b := 12 }) ∧
    decodeV 0x00A0000000AB2115 false none = .ok (.viota { v0 with fm := 1, sp := 1, ty := 11, d := 10, c := 5 }) ∧
    decodeV 0x0060080082870017 false none = .ok (.vdot { v0 with ty := 7, d := 40, a := 1, b := 2, c := 3 }) :=
  ⟨rfl, rfl, rfl, rfl, rfl, rfl, rfl, rfl, rfl, rfl⟩
/-- Vector reductions, conversions, moves to and from the banks, masks. -/
theorem test_decode_vector_moves :
    decodeV 0x00200004028B0118 false none = .ok (.vred { v0 with fm := 1, ty := 11, d := 40, a := 8, c := 1 }) ∧
    decodeV 0x0360000201400120 false none = .ok (.vcvt { v0 with fm := 1, d := 20, a := 4, c := 27 }) ∧
    decodeV 0x0180000104600123 false none = .ok (.vquant { v0 with fm := 1, d := 70, a := 2, c := 12 }) ∧
    decodeV 0x0000F81E83CB0028 false none = .ok (.vperm { v0 with ty := 11, d := 60, a := 61, b := 62 }) ∧
    decodeV 0x0000000000300030 false none = .ok (.vld { v0 with d := 3 }) ∧
    decodeV 0x0000000180000031 false none = .ok (.vst { v0 with a := 3 }) ∧
    decodeV 0x0000080080300038 false none = .ok (.kand { v0 with d := 3, a := 1, b := 2 }) :=
  ⟨rfl, rfl, rfl, rfl, rfl, rfl, rfl⟩
/-- V1 alone (R145, R148, R150, R151, R371, R374); in V0 the same word is an illegal slot encoding. -/
theorem test_decode_vector_1 :
    decodeV 0x000000050C804040 true none = .ok (.vexp2 { v0 with v1 := true, sp := 2, d := 200, a := 10 }) ∧
    decodeV 0x000000050C804040 false none = .error .slot ∧
    decodeV 0x0180000100AB0750 true none =
      .ok (.scan { v0 with v1 := true, fm := 1, km := 3, ty := 11, d := 10, a := 2, c := 12 }) ∧
    decodeV 0x0640000401E00D51 true none =
      .ok (.selk { v0 with v1 := true, fm := 1, km := 6, d := 30, a := 8, c := 50 }) ∧
    decodeV 0x00602C0503200152 true none =
      .ok (.sortk { v0 with v1 := true, fm := 1, d := 50, a := 10, b := 11, c := 3 }) ∧
    decodeV 0x01000014009C0B58 true none =
      .ok (.rsolve { v0 with v1 := true, fm := 1, km := 5, ty := 12, d := 9, a := 40, c := 8 }) :=
  ⟨rfl, rfl, rfl, rfl, rfl, rfl⟩
/-- R130, R135, R139–R141, R343–R354: the matrix slot. -/
theorem test_decode_matrix :
    decodeM 0x0BE7A80004020001 none = .ok (.mcfgHead { mf with ta := 1, tb := 2, lv := 20, imm := 6095 }) ∧
    decodeM 0x8000AA0000000001 none = .ok (.mcfgLevel { mf with lv := 21, imm := 0x10001 }) ∧
    decodeM 0x0044000000000002 none = .ok (.mroute { mf with imm := 136 }) ∧
    decodeM 0x0DF4120800000003 none = .ok (.mgath { mf with tc := 4, lv := 9, imm := 7144 }) ∧
    decodeM 0x0000000000000104 none = .ok (.mgo { mf with bt := 1 }) ∧
    decodeM 0x0000000000000105 none = .ok (.mcommit { mf with bt := 1 }) ∧
    decodeM 0x0000000000000106 none = .ok (.mwaitb { mf with bt := 1 }) ∧
    decodeM 0x0000000E00001807 none = .ok (.mdrain { mf with ac := 3, tc := 7 }) ∧
    decodeM 0x001F800000000008 none = .ok (.mzero { mf with imm := 63 }) ∧
    decodeM 0x000F001200002A09 none = .ok (.mlda { mf with bt := 2, ac := 5, tc := 9, imm := 30 }) ∧
    decodeM 0x000000000000000A none = .ok (.mstop mf) := ⟨rfl, rfl, rfl, rfl, rfl, rfl, rfl, rfl, rfl, rfl, rfl⟩
/-- R171, R322, R241, R242: the copy slots and the timed circuits. -/
theorem test_decode_copies_and_circuits :
    decodeC 0x0000000061654501 false none = .ok (.cget { c0 with tag := 5, te := 1, sd := 10, ss := 11, sn := 12 }) ∧
    decodeC 0x0000000069664202 false none = .ok (.cput { c0 with tag := 2, te := 1, sd := 12, ss := 11, sn := 13 }) ∧
    decodeC 0x0000000002AA4307 true none = .ok (.cred { c0 with c1 := true, tag := 3, te := 1, sd := 20, ss := 21 }) ∧
    decodeX 0x060C8051 = .ok (.xsend { oc := 5, v := 200, off := 12 }) ∧
    decodeX 0x3212C092 = .ok (.xrecv { oc := 9, v := 300, off := 100 }) := ⟨rfl, rfl, rfl, rfl, rfl⟩
/-- R280, R283: a NOP is all zeros; opcode 0 with another field, and an opcode that the map does not give, are illegal. -/
theorem test_decode_breaches :
    decodeS 0 none = .ok (.nop .s) ∧ decodeS 0x100 none = .error .slot ∧ decodeS 0xFF none = .error .slot ∧
    decodeM 0x0B none = .error .slot ∧ decodeS 0x0000000000048215 none = .error .template := ⟨rfl, rfl, rfl, rfl, rfl⟩
/-- An event record of the model's form (log 6), and one that is cut short. -/
theorem test_decode_record :
    decode (encode (.gangStart 5 0)) = .ok (.gangStart 5 0, []) ∧
    (decode (encode (.gangStart 5 0)).dropLast).toOption = none := by decide

/-! ## Single steps, with results that the spec gives -/

/-- The state after an instruction. -/
def after (i : Instr) (s : State) : State :=
  match exec i s with
  | .next t => t
  | _ => s
/-- The result in flight that an instruction leaves in an empty list. -/
def owed (i : Instr) (s : State) : Option (Nat × Effect) := (after i s).curCtx.land.head?.map fun l => (l.due, l.eff)

/-- R294: the sum wraps, and s1 is written at issue + 1. -/
theorem test_add_wraps : owed (.add sf) (demoS (-1) 3) = some (11, .scalar 1 2) := by decide
/-- R379: an unsigned difference below 0 saturates to 0. -/
theorem test_sub_n64_saturates : owed (.sub { sf with mod := 3 }) (demoS 3 5) = some (11, .scalar 1 0) := by decide
/-- R352: the high half of a signed product. -/
theorem test_mulh_signed : owed (.mulh sf) (demoS (-1) 2) = some (13, .scalar 1 (-1)) := by decide
/-- R327: a divisor of 0 gives all ones; the signed minimum by −1 gives itself. -/
theorem test_div_corners :
    owed (.div sf) (demoS 7 0) = some (30, .scalar 1 (-1)) ∧
    owed (.div sf) (demoS 0x8000000000000000 (-1)) = some (30, .scalar 1 0x8000000000000000) := by decide
/-- R367: the remainder has the dividend's sign. -/
theorem test_rem_sign : owed (.rem sf) (demoS (-7) 2) = some (30, .scalar 1 (-1)) := by decide
/-- R369: an amount of 64 empties the register; SRA fills with the sign; ROL takes the amount mod 64. -/
theorem test_shift_corners :
    owed (.shl sf) (demoS 1 64) = some (11, .scalar 1 0) ∧ owed (.sra sf) (demoS (-8) 64) = some (11, .scalar 1 (-1)) ∧
    owed (.rol sf) (demoS 0x8000000000000001 65) = some (11, .scalar 1 3) := by decide
/-- R318: −1 is below 1 as i64 and not as n64. -/
theorem test_cmp_signs :
    owed (.cmp { sf with mod := 2 }) (demoS (-1) 1) = some (11, .pred 1 true) ∧
    owed (.cmp { sf with mod := 6 }) (demoS (-1) 1) = some (11, .pred 1 false) := by decide
/-- R317: CLZ of 0 is 64, and of 1 is 63. -/
theorem test_clz : owed (.clz { sf with b := 0 }) (demoS 0 0) = some (11, .scalar 1 64) ∧
    owed (.clz { sf with b := 0 }) (demoS 1 0) = some (11, .scalar 1 63) := by decide
/-- R358: nine ones. -/
theorem test_popc : owed (.popc { sf with b := 0 }) (demoS 0xFF01 0) = some (11, .scalar 1 9) := by decide
/-- R303: BR by −4 bundles from 0x100 reaches offset 0, 3 die cycles after the branch. -/
theorem test_br_back :
    (after (.brRel { s0 with fm := 1, imm := -4 }) demo).curCtx.pc = 0 ∧
    (after (.brRel { s0 with fm := 1, imm := -4 }) demo).curCtx.earliest = 13 := by decide
/-- R303: a target beyond the bundle memory takes the permission trap, here of a region without a handler (R251). -/
theorem test_br_out_of_range :
    (after (.brRel { s0 with fm := 1, imm := -5 }) demo).curCtx.mode = .halted ∧
    ((after (.brRel { s0 with fm := 1, imm := -5 }) demo).node 2).st = 6 ∧
    ((after (.brRel { s0 with fm := 1, imm := -5 }) demo).node 1).fnotice = 1 := by decide
/-- R249: with a handler, the trap enters it; FSR holds cause 0x14, class 1 and IN (T13.1, T13.2). -/
theorem test_trap_enters_handler :
    let t := after (.lqpop { s0 with d := 5 }) (demoR fun n => { n with handler := some 0x400 })
    t.curCtx.pc = 0x400 ∧ t.curCtx.fsr.toNat % 4096 = 0x914 ∧ t.curCtx.earliest = 13 := by decide
/-- R250: TRAP leaves its trap for after the bundle; its DETAIL is the code. -/
theorem test_trap_software :
    (after (.trap { s0 with fm := 1, imm := 0x2A }) demo).curCtx.pending = some (trapAfter 0 .software 0 0x2A) := by decide
/-- R250: TRET clears IN and returns to RPC × 64. -/
theorem test_tret :
    let t := after (.tret s0) (demoC fun c => { c with fsr := word (5 * 2 ^ 47 + 0x914) })
    t.curCtx.pc = 320 ∧ t.curCtx.inHandler = false := by decide
/-- R341: LQPOP of a returned entry. -/
theorem test_lqpop :
    let t := demoC fun c => { c with lq := [⟨0, .value 9⟩] }
    owed (.lqpop { s0 with d := 5 }) t = some (11, .scalar 5 9) ∧ (after (.lqpop { s0 with d := 5 }) t).curCtx.lq = [] := by decide
/-- R177: APUSH keeps the low 32 bits. -/
theorem test_apush : (after (.apush { s0 with a := 2 }) (demoS 0x100000005 0)).curCtx.aq = [5] := by decide
/-- R382: TAGFF gives the lowest tag that is set, or 64; TAGCLR clears. -/
theorem test_tags :
    owed (.tagff { s0 with d := 4, b := 2 }) (demoS 0xF0 0) = some (11, .scalar 4 4) ∧
    owed (.tagff { s0 with d := 4, b := 2 }) (demoS 0 0) = some (11, .scalar 4 64) ∧
    (after (.tagclr { s0 with b := 2 }) (demoS 0xF0 0)).curCtx.tags = 0xFFFFFFFFFFFFFF0F := by decide
/-- R71, R146: the bytes of a store land in row 1, bank 2 of the slot's rows. -/
theorem test_store_lands :
    let t := after .resultLanding (demoC fun c => c.push 10 phSlotWrite (.bankBytes 0x20080 [7, 8]))
    memByte t.mem (bankAddr 0 1 2 0) = 7 ∧ memByte t.mem (bankAddr 0 1 2 1) = 8 ∧ t.curCtx.land = [] := by decide
/-- R93: a write of s0 is discarded. -/
theorem test_s0_stays : (after .resultLanding (demoC fun c => c.push 10 phReg (.scalar 0 7))).curCtx.s 0 = 0 := by decide
/-- R388: a TWAIT past its target and TGUARD raises late-tick with the target in FAR. -/
theorem test_twait_late :
    let t := after (.twait { s0 with fm := 1 }) { demoR fun n => { n with handler := some 0x400 } with
      slots := [(key2, { ctx2 with wait := { Wait.blank with active := true, sent := true, operand := 11 } })] }
    t.curCtx.far = 11 ∧ bits t.curCtx.fsr.toNat 7 0 = 0x10 := by decide
/-- R217, T11.7 aside: the barrier root flips once no home has still to merge. -/
theorem test_phase_flip :
    let t := after (.phaseFlip 1 20) { demo with barriers := [(84, { Barrier.blank with members := [0], merging := some [] })] }
    (mfind 84 t.barriers).map (fun b => b.phase) = some 1 := by decide
/-- R204: a query of what is not allocated answers 0xF000_0000_0000_0006. -/
theorem test_falloc_query_answer :
    let r : Req := { id := 0, key := key2, die := 0, part := 1, kind := .query 0x3000000000000000, ptr := 0, pc := 0, lq := none,
                     src := 0, seq := 0, sent := 0, issued := 0, resends := 0, owner := none, way := none, stamp := false, st := .flying }
    ((after (.crownAllocatorAnswer key2) { demo with reqs := [r], nextReq := 1 }).req? 0).map (fun q => q.st) =
      some (.performed 0xF000000000000006) := by decide
/-- R224: the flip changes the version of every package. -/
theorem test_routing_flip : ((after (.routingFlip 0) demo).pkg 0).version = true := by decide
/-- R225: the sixteenth replay in a row takes the link down and raises the link interrupt. -/
theorem test_link_replays :
    let t := after (.flitReceive 0 1 0 0) (demoP fun k => { k with links := [(1, { Link.blank with state := 3, again := 15 })] })
    (t.linkNo 0 1).state = 0 ∧ (t.pkg 0).intstat = 4 := by decide
/-- R263: the third failed start in a row leaves minimal mode. -/
theorem test_minimal_mode :
    let t := after (.reset 0 3) (demoP fun k => { k with starting := true, fails := 2 })
    (t.pkg 0).minimal = true ∧ (t.pkg 0).reason = 3 ∧ (t.die 5).service = false := by decide

/-! ## States and operands that meet the hypotheses of the statements, clause by clause -/

theorem met_ScalarSumsAndProducts : sf.on (demoS 5 6).curCtx = true ∧ { sf with mod := 1 }.on (demoS 5 6).curCtx = true ∧
    { sf with mod := 3 }.on (demoS 5 6).curCtx = true ∧ { sf with mod := 2 }.on (demoS 5 6).curCtx = true := by decide +kernel
theorem met_ScalarDivision :
    sf.on (demoS 5 0).curCtx = true ∧ sf.bv (demoS 5 0).curCtx = 0 ∧ sf.bv (demoS 5 (-1)).curCtx ≠ 0 ∧
    { sf with mod := 2 }.on (demoS 5 (-1)).curCtx = true := by decide +kernel
theorem met_ScalarLogicAndSelections : sf.on (demoS 5 6).curCtx = true ∧ { sf with mod := 2 }.on (demoS 5 6).curCtx = true ∧
    { sf with fm := 1, b := 0, imm := 1024 }.on demo.curCtx = true ∧ (1024 : BitVec 21).toNat ≤ 1024 := by decide +kernel
theorem met_ScalarShifts : sf.on (demoS 5 63).curCtx = true ∧ (sf.bv (demoS 5 63).curCtx).toNat % 256 = 63 ∧
    sf.on (demoS 5 64).curCtx = true ∧ (sf.bv (demoS 5 64).curCtx).toNat % 256 = 64 := by decide +kernel
theorem met_PredicateResults : sf.on (demoS 5 6).curCtx = true ∧ { sf with mod := 9 }.on (demoS 5 6).curCtx = true := by decide +kernel
theorem met_MovRule : (0x0000000007E20014 : Word).extractLsb' 0 8 = 0x14 ∧ (0x0000000007E20014 : Word).extractLsb' 8 2 ≠ 2 ∧
    slotDecode (0x314#512 <<< 96) 0 = some (.error .slot) ∧ sf.on demo.curCtx = true := by
  refine ⟨by decide, by decide, rfl, by decide⟩
theorem met_PopcRule : (0x0000000001220012 : Word).extractLsb' 0 8 = 0x12 ∧ (0x0000000001220012 : Word).extractLsb' 8 2 ≠ 2 ∧
    sf.on demo.curCtx = true := by decide +kernel
theorem met_ClzRule : (0x11 : Word).extractLsb' 0 8 = 0x11 ∧ (0x11 : Word).extractLsb' 8 2 ≠ 2 ∧
    sf.on (demoS 0 0).curCtx = true ∧ sf.av (demoS 0 0).curCtx = 0 ∧ sf.av (demoS 1 0).curCtx ≠ 0 := by decide +kernel
theorem met_OrAndXorRules : (0x38C28008 : Word).extractLsb' 0 8 = 8 ∧ (0x38C28008 : Word).extractLsb' 8 2 ≠ 2 ∧
    (0x209 : Word).extractLsb' 0 8 = 9 ∧ (0x209 : Word).extractLsb' 8 2 = 2 ∧ (0x209 : Word).extractLsb' 27 6 = 0 ∧
    (0x209 : Word).extractLsb' 33 21 = 0 ∧ { sf with fm := 1, imm := -1 }.on demo.curCtx = true := by decide +kernel
theorem met_DecodeOfEncode : (Instr.add sf).wf = true ∧ (Instr.installBarrierEntry 0 1 63 [0, 1]).wf = true := by decide +kernel
theorem met_EncodeOfDecode : decode (encode (.add sf)) = .ok (.add sf, []) := by decide +kernel
theorem met_StepRunsTheDecodedInstruction :
    ({ demo with micro := [.nop .s] } : State).micro = [.nop .s] ∧
    (let s : State := { State.reset with timers := [], dies := [], agenda := [⟨0, none, encode (.launchValidate 0)⟩] }
     s.micro = [] ∧ s.due = none ∧ s.timerDue = none ∧ s.agenda.head? = some ⟨0, none, encode (.launchValidate 0)⟩ ∧
     decode (encode (.launchValidate 0)) = .ok (.launchValidate 0, [])) ∧
    (demoC fun c => c.push 10 phReg (.scalar 1 5)).due = some (0, .resultLanding) := by
  refine ⟨rfl, ⟨rfl, by decide, by decide, rfl, by decide⟩, by decide⟩
theorem met_StepKeepsCanonicalForm : demo.Canon ∧ State.reset.mem.wf = true := ⟨demo_runs.2.2, by decide⟩
theorem met_FalsePredicateDoesNothing :
    (Instr.add { sf with pn := 1 }).sParts = some (1, { sf with pn := 1 }) ∧ { sf with pn := 1 }.on demo.curCtx = false := by
  decide +kernel
theorem met_ResultsLand :
    (∀ e ∈ [Effect.scalar 1 5, .pred 1 true, .mask 1 0 0, .vec 1 0 0, .flags 1, .bankBytes 0x20080 [7, 8]],
      let s := demoC fun c => c.push 10 phReg e
      (s.slotLanding s.cur).map (fun l => l.eff) = some e ∧ s.spineLanding s.cur = none ∧ s.mem.wf = true) := by decide +kernel

/-- s2 and s3 as s5 is stored: an own-bank pointer, a pointer into device memory, and one beyond. -/
def dev : Word := 0x2000000000001000
theorem met_LoadAndStore :
    ([0x20080, 0x2FFF8].all fun a => let s := demoS (word a) 0
      let p := sf.av s.curCtx + sf.bv s.curCtx
      decide ({ sf with mod := 3 }.on s.curCtx = true ∧ ptrOk (s.node (keyRid s.curKey)).slots p = true ∧
        p.toNat % 8 = 0 ∧ spaceOf p = 0 ∧ s.bankReach (s.slot s.curKey) (offsetBits p) = .ready a none)) = true ∧
    (let s := demoS dev 0
     ptrOk (s.node (keyRid s.curKey)).slots (sf.av s.curCtx + sf.bv s.curCtx) = true ∧
     spaceOf (sf.av s.curCtx + sf.bv s.curCtx) ≠ 0 ∧ s.curCtx.lq.length < 256 ∧ s.curCtx.sq.length < 256) := by decide +kernel
theorem met_Atomics :
    ([0x20080, dev.toNat].all fun a => let s := demoS (word a) 1
      let f : SF := { sf with d := 0, mod := 2 }
      decide (f.on s.curCtx = true ∧ f.ord = 0 ∧ ptrOk (s.node (keyRid s.curKey)).slots (f.av s.curCtx) = true ∧
        (f.av s.curCtx).toNat % 8 = 0 ∧ s.curCtx.lq.length < 256 ∧ s.curCtx.sq.length < 256 ∧
        (spaceOf (f.av s.curCtx) ≠ 0 ∨ s.bankReach (s.slot s.curKey) (offsetBits (f.av s.curCtx)) = .ready a none))) = true := by
  decide +kernel
theorem met_QueuesAndFence :
    sf.on demo.curCtx = true ∧ demo.curCtx.lq = [] ∧ demo.curCtx.aq.length < 1024 ∧ demo.curCtx.iss.elastic = true ∧
    (demoC fun c => { c with lq := [⟨0, .value 9⟩] }).curCtx.lq = [⟨0, .value 9⟩] ∧
    (demoC fun c => { c with lq := [⟨0, .fault ⟨.permission, dev, 0⟩⟩] }).curCtx.lq = [⟨0, .fault ⟨.permission, dev, 0⟩⟩] ∧
    (1 : BitVec 10).toNat % 4 = 1 ∧ (10 : BitVec 10).toNat % 4 = 2 ∧ demo.released demo.curKey 2 = true := by decide +kernel
/-- A slot whose waiting bundle has sent what it sends. -/
def waits (f : Wait → Wait) : State := demoC fun c =>
  { c with sregs := [(2, dev)], wait := f { Wait.blank with active := true, sent := true } }
theorem met_WaitsComplete :
    (let s := waits fun w => { w with word := some 7 }
     sf.on s.curCtx = true ∧ s.curCtx.iss.elastic = true ∧ ptrOk (s.node (keyRid s.curKey)).slots (sf.av s.curCtx) = true ∧
     (sf.av s.curCtx).toNat % 8 = 0 ∧ spaceOf (sf.av s.curCtx) ≠ 0 ∧ s.curCtx.wait.sent = true ∧ s.curCtx.wait.fault = none ∧
     s.curCtx.wait.word = some 7 ∧ s.acquired s.curKey 0 = true) ∧
    (let s := waits fun w => { w with operand := 12 }
     s.curCtx.wait.operand.toInt ≤ s.curCtx.iss.tick ∧ (s.curCtx.iss.tick : Int) ≤ 12 + s.curCtx.tguard) ∧
    (let s := waits fun w => { w with operand := 11 }
     s.curCtx.wait.operand.toInt + s.curCtx.tguard < s.curCtx.iss.tick) := by decide +kernel
theorem met_TransfersAndLoops :
    (let s := demoS 0x3C0 0
     sf.on s.curCtx = true ∧ (sf.av s.curCtx).toNat % 64 = 0 ∧ (sf.av s.curCtx).toNat < (s.node (keyRid s.curKey)).bmem * 4096) ∧
    (sf.av (demoS 0x3C1 0).curCtx).toNat % 64 ≠ 0 ∧
    (let f := { s0 with fm := 1, imm := -5 }
     f.on demo.curCtx = true ∧ ((demo.curCtx.iss.pc : Int) + 64 * f.imm.toInt) % 64 = 0 ∧
     (demo.curCtx.iss.pc : Int) + 64 * f.imm.toInt < 0) ∧
    (let s := { demoC fun c => { c with sregs := [(2, 0x20000)], iss := { c.iss with pc := 0xFF80 } } with
       mem := [(bundleAddr 0 0 0xFFC0 + 2, 4)] }
     s0.on s.curCtx = true ∧ loopGuard { s0 with fm := 1, a := 2, imm := 1 } s = .go) := by decide +kernel
theorem met_TrapsAndReturns :
    (let s := demoC fun c => { c with fsr := word (5 * 2 ^ 47 + 0x914), far := 3 }
     s0.on s.curCtx = true ∧ s.curCtx.iss.elastic = true ∧ s.curCtx.fsr.getLsbD 11 = true ∧
     bits s.curCtx.fsr.toNat 63 47 * 64 < (s.node (keyRid s.curKey)).bmem * 4096) ∧
    demo.curCtx.fsr.getLsbD 11 = false ∧
    (let s := demoR fun n => { n with handler := some 0x400 }
     (s.node (keyRid s.curKey)).handler = some 0x400 ∧ (s.slot s.curKey).fsr.getLsbD 11 = false ∧
     (trapAt 7 .lateTick 5 65535).detail < 65536 ∧ (trapAt 7 .lateTick 5 65535).slot < 8) := by decide +kernel
theorem met_LaunchPosts : let s := demoS 0x2000000000001200 0
    sf.on s.curCtx = true ∧ s.curCtx.iss.elastic = true ∧ spaceOf (sf.av s.curCtx) = 2 ∧
    ptrOk (s.node s.curCtx.rid).slots (sf.av s.curCtx) = true ∧ (sf.av s.curCtx).toNat % 512 = 0 ∧
    s.released s.curKey 2 = true ∧ (s.pkg s.curCtx.pkg).launchQ.length < 64 ∧ s.curCtx.keeps 64 = false := by decide +kernel
theorem met_TagsAndOperandQueues :
    (let s := demoS 0 0xF0
     sf.on s.curCtx = true ∧ s.curCtx.tags &&& sf.bv s.curCtx = sf.bv s.curCtx ∧ s.curCtx.xstat &&& sf.bv s.curCtx = 0 ∧
     (s.curCtx.tags &&& sf.bv s.curCtx).getLsbD 4 = true ∧ ∀ m < 4, (s.curCtx.tags &&& sf.bv s.curCtx).getLsbD m = false) ∧
    (let s := demoC fun c => { c with sregs := [(3, 0xF0)], xstat := 0x80 }
     (s.curCtx.xstat &&& sf.bv s.curCtx).getLsbD 7 = true ∧ ∀ m < 7, (s.curCtx.xstat &&& sf.bv s.curCtx).getLsbD m = false) ∧
    (let s := demoS 0 0
     s.curCtx.tags &&& sf.bv s.curCtx = 0) ∧
    (let f := { sf with imm := 2 * 64 + 1 }
     let g := { sf with imm := 2 * 64 + 32 + 1 }
     let s := demoC fun c => { c with queues := [(1, ⟨0, 4, 0, 2⟩)] }
     f.qnum < (s.node s.curCtx.rid).queues ∧ (s.curCtx.q f.qnum).depth ≠ 0 ∧ f.qn ≤ (s.curCtx.q f.qnum).depth ∧
     f.qwhich = false ∧ f.qn ≤ (s.curCtx.q f.qnum).count ∧ g.qwhich = true ∧
     g.qn ≤ (s.curCtx.q g.qnum).depth - (s.curCtx.q g.qnum).count) ∧
    (let f := { sf with imm := 2 * 32 + 3 }
     let s := demoS 0x3FC00 0
     f.qnum < (s.node s.curCtx.rid).queues ∧ f.qdepth = 2 ∧ (f.av s.curCtx).toNat % 512 = 0 ∧
     (f.av s.curCtx).toNat + 512 * f.qdepth ≤ 0x400000 ∧
     ((f.av s.curCtx).toNat + 512 * f.qdepth - 1) / 2 ^ 17 < (s.node s.curCtx.rid).brows ∧ (s.curCtx.q f.qnum).depth = 0) := by
  decide +kernel
/-- A state whose packages have no links. -/
def unlinked (s : State) : State := { s with pkgs := s.pkgs.map fun (e : Nat × Pkg) => (e.1, { e.2 with links := [] }) }
/-- A request of the slot, number 0, with a state. -/
def rq (kind : ReqKind) (ptr : Word) (st : ReqState) : Req :=
  { id := 0, key := key2, die := 0, part := 1, kind := kind, ptr := ptr, pc := 0x100, lq := none, src := 0, seq := 0, sent := 0,
    issued := 0, resends := 0, owner := none, way := none, stamp := false, st := st }
def demoQ (r : Req) : State := { demo with reqs := [r], nextReq := 1 }
/-- Barrier 20 and step group 2 of the partition. -/
def bar (f : Barrier → Barrier) : Barrier := f { Barrier.blank with members := [0] }
def demoB (n : Nat) (f : Barrier → Barrier) (g : Ctx → Ctx) : State := { demoC g with barriers := [(64 + n, bar f)] }
def fb (n : BitVec 21) : SF := { s0 with fm := 1, d := 4, imm := n }
theorem met_Barriers :
    (let s := demoB 16 id id
     (fb 16).on s.curCtx = true ∧ s.curCtx.iss.elastic = true ∧ mfind (64 * (s.node s.curCtx.rid).part + 16) s.barriers = some (bar id) ∧
     (bar id).has (memberOf s.curKey) = false ∧ s.curCtx.keeps 16 = false ∧ s.released s.curKey 0 = true) ∧
    (let s := demoB 20 (fun b => { b with phase := 5 }) fun c => { c with phases := [(20, 5)] }
     mget s.curCtx.phases 20 7 ≠ 6 ∧ mfind 20 s.curCtx.phases ≠ none ∧ s.acquired s.curKey 0 = true) ∧
    (let s := demoB 2 (fun b => { b with phase := 5 }) fun c => { c with kept := [(2, (4, 0x100))] }
     mfind (64 * (s.node s.curCtx.rid).part + 2) s.barriers = some (bar fun b => { b with phase := 5 }) ∧ s.curCtx.keeps 2 = true ∧
     (mget s.curCtx.kept 2 (5, 0)).1 ≠ 5) ∧
    (let b := bar fun b => { b with moving := [0] }
     demo.rootReaches b 0 = true ∧ demo.rootReaches b (homeOwner 1) = true ∧ demo.rootReaches { b with members := [0, 1] } 1 = false ∧
     0 ∈ b.moving ∧ 0 ∈ b.members ∧ 0 ∉ b.arrived ∧ b.merging = none ∧ ∀ m ∈ b.members, m ∈ b.arrived ++ [0]) ∧
    (bar fun b => { b with merging := some [0] }).merging = some [0] ∧ demo.mergeWaits 1 2 = false ∧ (bar fun b => { b with merging := some [] }).merging = some [] := by
  decide +kernel
theorem met_CrownAllocationAndStatus :
    (let s := { demoQ (rq (.pstat 2 false) 0 (.performed 7)) with barriers := [(66, bar id)] }
     (fb 2).on s.curCtx = true ∧ s.curCtx.iss.elastic = true ∧ s.asked ReqKind.isStat = some (rq (.pstat 2 false) 0 (.performed 7)) ∧
     (s.barrier? 2).isSome = true) ∧
    (let s := { demoQ (rq (.query 0x3000000000000000) 0 (.performed 7)) with
       slots := [(key2, { ctx2 with sregs := [(2, 0x3000000000000000)] })] }
     s.asked ReqKind.isAlloc = some (rq (.query 0x3000000000000000) 0 (.performed 7)) ∧ crownPtr (sf.av s.curCtx) = true) ∧
    (let a : Alloc := ⟨1, 0, 1, 0, none, none, false, false, none⟩
     let r := rq (.query 0x3000000000000000) 0 .flying
     let s := { demoQ r with pkgs := [(0, { Pkg.blank with present := true, allocs := [(0, [a])] })] }
     (s.reqs.find? fun q => q.key == key2 && q.open_ && ReqKind.isAlloc q.kind) = some r ∧
     s.allocAt? 1 0x3000000000000000 = some a ∧ demo.allocAt? 1 0x3000000000000000 = none) ∧
    (let r := rq (.alloc 0 none 0 false) 0 .flying
     ((demoQ r).reqs.find? fun q => q.key == key2 && q.open_ && ReqKind.isAlloc q.kind) = some r) ∧
    (let r := rq (.pstat 2 false) 0 .flying
     ((demoQ r).reqs.find? fun q => q.key == key2 && q.open_ && ReqKind.isStat q.kind) = some r ∧
     (demoQ r).roundTrip 0 (bar id).root = .carried ∧ (demoQ r).roundTrip 0 (bar fun b => { b with members := [1] }).root = .cut) := by
  decide +kernel
theorem met_SystemRegisterReads :
    (fb 0x8FF).on demo.curCtx = true ∧ (fb 0x8FF).imm.toNat % 4096 < 0x900 ∧ 0x900 ≤ (fb 0x900).imm.toNat % 4096 ∧
    (demo.node demo.curCtx.rid).service = false ∧
    ((demoR fun n => { n with service := true }).node 2).service = true := by decide +kernel
theorem met_SystemRegisterWrites :
    (fb 0x024).on demo.curCtx = true ∧ sysWritable ((fb 0x024).imm.toNat % 4096) = true ∧ 0x100 ≤ (fb 0x100).imm.toNat % 4096 ∧
    sysWritable ((fb 0x001).imm.toNat % 4096) = false ∧ (fb 0x001).imm.toNat % 4096 < 0x100 ∧
    sysWritable ((fb 0x100).imm.toNat % 4096) = false ∧ (demo.node demo.curCtx.rid).service = false ∧
    (fb 15).imm.toNat % 256 < (demo.node demo.curCtx.rid).tids ∧ (demo.node demo.curCtx.rid).tids ≤ (fb 16).imm.toNat % 256 := by
  decide +kernel
theorem met_EndAndYield :
    (s0.on demo.curCtx = true ∧ demo.curCtx.iss.elastic = true ∧ endFault demo.curCtx = none ∧
     ((List.range 8).all fun n => decide ((demo.curCtx.matrix.batch n).st ≠ .opened)) = true ∧ demo.enginesDone demo.curKey = true ∧
     demo.released demo.curKey 1 = true) ∧
    (let s := demoR fun n => { n with yieldS := [(0, 0)] }
     (s.curCtx.pkg, s.curCtx.slot) ∈ (s.node s.curCtx.rid).yieldS ∧ (s.node s.curCtx.rid).allYield = true ∧
     s.windowOpen s.curCtx.rid = false) := by decide +kernel

/-- A tensor identifier of a KB format (16), 5 columns in one row. -/
def kb : BitVec 512 := BitVec.ofNat 512 (16 * 2 ^ 256 + 5 * 2 ^ 160)
theorem met_VectorResultsFollow :
    (vinfo (.vadd vf) demo.curCtx).isSome = true ∧
    (let f := { vf with v1 := true, fm := 1, b := 0, c := 15, ty := 0 }
     let s := demoC fun c => { c with tids := [(15, kb)] }
     f.c.toNat % 256 < (s.node s.curCtx.rid).tids ∧ isKb (quantFmt f s.curCtx) = true ∧
     f.d.toNat + ((quantRegs f (quantFmt f s.curCtx)).1 + (quantRegs f (quantFmt f s.curCtx)).2.1 +
       (quantRegs f (quantFmt f s.curCtx)).2.2) ≤ 1536) ∧
    mget demo.curCtx.vclass 1 0 = 0 ∧ mget (demoC fun c => { c with vclass := [(1, 3)] }).curCtx.vclass 1 0 + 8 ≤ 10 + 1 := by
  decide +kernel
/-- Queue 1 of depth 4 with two entries. -/
def demoQueue (el : Bool) (n : Nat) : State := demoC fun c =>
  { c with queues := [(1, ⟨0, 4, 0, n⟩)], iss := { c.iss with elastic := el } }
theorem met_QueueOperands :
    let f := { vf with a := 1537, b := 0 }
    (vinfo (.vmov f) (demoQueue true 2).curCtx).isSome = true ∧ isQ f.a.toNat = true ∧
    ((vinfo (.vmov f) (demoQueue true 2).curCtx).map fun v =>
      (v.na != 0, vGuard (.vmov f) v (demoQueue true 2), v.f)) = some (true, .go, f) ∧
    ((demoQueue true 2).curCtx.q 1).depth ≠ 0 ∧ isQ f.d.toNat = false ∧
    ((demoQueue false 0).curCtx.q 1).count < f.span ∧ (demoQueue false 0).curCtx.iss.elastic = false ∧
    (demoQueue true 0).curCtx.iss.elastic = true ∧ 1 < ((demoQueue true 0).node 2).queues ∧ (demo.node 2).queues ≤ 1540 - 1536 := by
  decide +kernel
theorem met_VectorElements :
    let o : VOps := { a := [5], b := [6], c := [], km := 1, aq := [], bq := [], cq := [], dq := [], ftz := false, tid := 0 }
    vf.fm = 0 ∧ vf.long = none ∧ isIntTy vf.ty.toNat = true ∧ o.a.length = vf.span ∧ o.b.length = vf.span := by decide +kernel
/-- The solved route of slot 0 of the read and write gauntlets: lane 0 takes bank 5 with a row offset. -/
def demoV (row : Nat) : State := demoC fun c =>
  { c with solvers := [(0, .solved [(0, 5, row)]), (16, .solved [(0, 5, row)])], iss := { c.iss with rrt := 2032, wrt := 2032 } }
theorem met_VectorMemory :
    (mget demo.curCtx.vclass 2 0 = 0) ∧
    (let s := demoV 1
     let c := s.curCtx
     (c.routeOr 16 0 c.iss.rrt).source 0 = some (5, 1) ∧ (c.routeOr 16 1 c.iss.wrt).sink 0 = some (5, 1) ∧
     (groupLines (c.routeOr 16 0 c.iss.rrt).source 0 c.iss.rrow).all (fun l => decide (l.1 < 2) &&
       !(s.die c.die).lineBad (c.lineNo l.1 l.2) true) = true ∧
     (groupLines (c.routeOr 16 1 c.iss.wrt).sink 0 c.iss.wrow).all (fun l => decide (l.1 < 2) &&
       !(s.die c.die).lineBad (c.lineNo l.1 l.2) false) = true) ∧
    (let c := (demoV 2).curCtx
     (groupLines (c.routeOr 16 0 c.iss.rrt).source 0 c.iss.rrow).head? = some (2, 5)) := by
  decide +kernel
theorem met_MatrixConfiguration :
    (let h := headOf mf (cfgWord mf demo.curCtx)
     bits (cfgWord mf demo.curCtx).toNat 63 49 = 0 ∧ h.row0 + h.m ≤ 128 ∧ h.ta < 16 ∧ h.tb < 16 ∧ h.tc < 16 ∧
     demo.curCtx.matrix.busy none = 0) ∧
    (let f := { mf with long := some (2 ^ 49) }
     bits (cfgWord f demo.curCtx).toNat 63 49 ≠ 0) ∧
    (let f := { mf with ta := 16 }
     bits (cfgWord f demo.curCtx).toNat 63 49 = 0 ∧ (demo.node 2).tids ≤ (headOf f (cfgWord f demo.curCtx)).ta) ∧
    (let s := demoC fun c => { c with routes := [(4097, .idle)] }
     (s.curCtx.route (s.node s.curCtx.rid).routes 2 (bits 8 13 3)).isSome = true) ∧
    (let s := demoC fun c => { c with matrix := { c.matrix with batches := [(0, { Batch.blank with st := .opened, accs := 1, left := 1 })] } }
     (s.curCtx.matrix.busy none).getLsbD 0 = true ∧ (demo.curCtx.matrix.busy none).getLsbD 0 = false) ∧
    (demo.curCtx.drainEnd ≤ demo.curCtx.iss.pos + 4 ∧ mf.tc.toNat < 16 ∧ tidOfmt (demo.curCtx.tid mf.tc.toNat) ≤ 4 ∧
     tidRnd (demo.curCtx.tid mf.tc.toNat) ≤ 4) := by decide +kernel
/-- A shadow table whose nest MGO accepts. -/
def demoM (f : Matrix → Matrix) : State := demoC fun c =>
  { c with matrix := f { c.matrix with shadow := { c.matrix.shadow with head := { c.matrix.shadow.head with k := 64 } } },
           tids := [(0, BitVec.ofNat 512 (2 ^ 256))], routes := [(4097, .idle)] }
def step1 : MStep := { start := 3, reads := 1, done := 10, batch := 0, head := .blank, tidA := 0, tidB := 0, tidC := 0, rowA := 0,
                       rowB := 0, rowC := 0, route := 0, half := 0, isLoad := false, acc := 0, latches := [], seen := [], applied := false }
theorem met_MatrixBatches :
    (let m := (demoM id).curCtx.matrix
     let c := (demoM id).curCtx
     m.shadow.head.bt = 0 ∧ (m.batch 0).st ≠ .committed ∧ m.pending = none ∧ tidFmt (c.tid 0) = 1 ∧ planesAligned (c.tid 0) = true ∧
     (matShape (tidFmt (c.tid 0)) m.shadow.head.k).map (fun x => x.2.1) = some true ∧ m.shadow.head.op ≠ 2 ∧
     (∀ l ∈ m.shadow.levels, l.cstr = 0) ∧ tidSpace (c.tid 0) = 0 ∧
     (c.route 16 2 1).isSome = true ∧ mf.tc.toNat < 16 ∧ (m.busy none).getLsbD 0 = false ∧ tidFmt (c.tid 0) ≤ 2 ∧
     (m.batch 0).st ≠ .opened ∧ (m.batch 0).st = .idle ∧ (m.batch 0).err = false ∧ c.iss.elastic = true) ∧
    (((demoM fun m => { m with batches := [(0, { Batch.blank with st := .opened })] }).curCtx.matrix.batch 0).st = .opened) ∧
    (((demoM fun m => { m with batches := [(0, { Batch.blank with st := .committed })] }).curCtx.matrix.batch 0).st = .committed) ∧
    (let s := demoC fun c => { c with matrix := { c.matrix with batches := [(0, { Batch.blank with err := true })] },
                                      engine := [(64, ⟨.permission, dev, 0⟩)] }
     (s.curCtx.matrix.batch 0).err = true ∧ mfind 64 s.curCtx.engine = some ⟨.permission, dev, 0⟩) ∧
    (let t := { MTable.blank with start := 10 }
     let s := demoM fun m => { m with active := some t }
     s.curCtx.matrix.active = some t ∧ t.start = s.curCtx.pos ∧ t.idx ≠ [] ∧ t.dead = false) ∧
    (let s := demoM fun m => { m with steps := [step1] }
     s.curCtx.matrix.steps = [step1] ∧ step1.done ≤ s.curCtx.pos ∧ step1.applied = false) ∧
    (let t := { MTable.blank with idx := [] }
     let s := demoM fun m => { m with active := some t, freeAt := 10 }
     s.curCtx.matrix.active = some t ∧ s.curCtx.matrix.freeAt ≤ s.curCtx.pos) := by decide +kernel
/-- The entry (1) of an i32 tensor of 16 columns, and three registers, a queue and two indices for a C slot. -/
def ti : BitVec 512 := BitVec.ofNat 512 (11 * 2 ^ 256 + 16 * 2 ^ 160)
def own : Word := 0x20080
def demoX (d x : Word) (n : Nat) : State := demoC fun c =>
  { c with sregs := [(2, d), (3, x), (4, word n), (6, dev + 0x100)], queues := [(1, ⟨0, 4, 0, 2⟩)], aq := [7, 8], tids := [(1, ti)] }
def ct : CF := { cf with tid := 1, qh := 1, mod := 31 }
theorem met_CopiesJoinTheirChannel :
    (let s := demoX own dev 64
     (s.chanOf cf).length < 16 ∧ ptrOk 1 (cDst cf s.curCtx) = true ∧ spaceOf (cDst cf s.curCtx) = 0 ∧
     ptrOk 1 (cSrc cf s.curCtx) = true ∧ cf.tid = 0 ∧ cNum cf s.curCtx < 2 ^ 32 ∧ (s.node s.curCtx.rid).slots = 1 ∧
     ct.tid.toNat < (s.node s.curCtx.rid).tids ∧ tidFmt (s.curCtx.tid ct.tid.toNat) ≤ 14 ∧ ct.mod.toNat % 32 = 31 ∧
     tidRnd (s.curCtx.tid ct.tid.toNat) ≤ 4) ∧
    (let s := demoX dev own 64
     let f := { cf with mod := 6 }
     ptrOk 1 (cDst f s.curCtx) = true ∧ spaceOf (cDst f s.curCtx) ≠ 0 ∧ ptrOk 1 (cSrc f s.curCtx) = true ∧
     spaceOf (cSrc f s.curCtx) = 0 ∧ (cSrc f s.curCtx).toNat % 16 = 0 ∧ (cDst f s.curCtx).toNat % catomSize f = 0 ∧
     ptrOk 1 (s.curCtx.s (f.mod.toNat % 64)) = true ∧ (s.curCtx.s (f.mod.toNat % 64)).toNat % 8 = 0 ∧
     spaceOf (cDst f s.curCtx) = 2 ∧ (cDst f s.curCtx).toNat % credSize 11 = 0) ∧
    (let s := demoX dev dev 2
     ptrOk 1 (cSrc ct s.curCtx) = true ∧ ct.qh.toNat < (s.node s.curCtx.rid).queues ∧ fmtOk (tidFmt (s.curCtx.tid 1)) = true ∧
     rowLines (s.curCtx.tid 1) = 1 ∧ (s.curCtx.q ct.qh.toNat).depth = 4 ∧ cNum ct s.curCtx = s.curCtx.aq.length ∧
     cNum ct s.curCtx ≤ (s.curCtx.q ct.qh.toNat).count) ∧
    (let s := demoX 1 dev 1
     (cSrc cf s.curCtx).toNat % 64 = 0 ∧ (cDst cf s.curCtx).toNat / 2 ^ 13 = 0 ∧ bits (cDst cf s.curCtx).toNat 12 11 ≠ 3 ∧
     (cDst cf s.curCtx).toNat % 2048 + cNum cf s.curCtx - 1 ≤ (s.node s.curCtx.rid).routes) ∧
    (let s := demoX 0xFFC0 dev 64
     (cDst cf s.curCtx).toNat % 64 = 0 ∧ cNum cf s.curCtx % 64 = 0 ∧
     (cDst cf s.curCtx).toNat + cNum cf s.curCtx ≤ (s.node (keyRid s.curKey)).bmem * 4096) := by decide +kernel

/-- A parameter block of an 8 × 8 stream, and a state whose own banks hold it. -/
def block : BitVec 512 := BitVec.ofNat 512 (8 * 2 ^ 16 + 8 * 2 ^ 32 + 2 ^ 96)
def enc (kind : EncKind) : EncCmd :=
  { id := 0, kind := kind, key := key2, tag := 3, te := true, stream := 4, ptr := own, out := dev, cap := 64, issued := 0, tick := 0,
    lines := 0, readAt := 0, frame := [], coded := none, outAt := 0, bad := none }
def demoE (q : List EncCmd) (l : SMap EncStream) : State :=
  let a := bankAddr 0 1 2 0
  { demoD fun k => { k with encQ := q, streams := l } with
    mem := [(a + 2, 8), (a + 4, 8), (a + 12, 1)]
    slots := [(key2, { ctx2 with tags := 0, sregs := [(2, dev), (3, own), (4, 64)], iss := { ctx2.iss with anchored := true } })] }
def stream4 : SMap EncStream := [(4, { params := block, key := key2, frames := 0, keyDue := true })]
theorem met_EncoderCommands :
    (let s := demoE [] stream4
     let f := { cf with imm8 := 4 }
     let x := cSrc f s.curCtx
     (s.die s.curCtx.die).encQ.length < 32 ∧ ptrOk (s.node s.curCtx.rid).slots x = true ∧ spaceOf x = 0 ∧ x.toNat % 64 = 0 ∧
     s.curCtx.iss.anchored = true ∧ ptrOk (s.node s.curCtx.rid).slots (cDst f s.curCtx) = true ∧
     s.stream? s.curCtx.die f.imm8.toNat = some { params := block, key := key2, frames := 0, keyDue := true } ∧
     offsetBits x + 64 * encLines block ≤ (s.node s.curCtx.rid).brows * 2 ^ 17) ∧
    (let s := demoE [enc .close] stream4
     (s.die s.cur).encQ = [enc .close] ∧ (s.stream? s.cur (enc .close).stream).isSome = true) ∧
    (let s := demoE [enc .opened] []
     let a := bankAddr 0 1 2 0
     (s.die s.cur).encQ = [enc .opened] ∧ s.bankReach (s.slot key2) (offsetBits own) = .ready a none ∧
     lineOfBytes (s.bytes a 64) = block ∧ encBlockOk block = true ∧ s.stream? s.cur 4 = none ∧
     encFits (block :: (s.die s.cur).streams.map fun x => x.2.params) = true) := by decide +kernel

/-- A channel that holds one operation. -/
def cop (kind : CopyKind) : CopyOp := { CopyOp.blank with id := 1, kind := kind, key := key2, tag := 3, te := true }
def demoO (o : CopyOp) : State := { demoD fun k => { k with chan0 := [o] } with
  slots := [(key2, { ctx2 with queues := [(1, ⟨0, 4, 0, 2⟩)], tags := 0 })] }
/-- Tables of partition 1 whose first page maps the device's first 1 GiB. -/
def tables : Memory := [(devAddr 0 0x10000, 0x1D), (devAddr 0 0x10001, 0x10), (devAddr 0 0x10002, 1), (devAddr 0 0x11000, 0x1F)]
def walk1 : Walk := { part := 1, space := 0, page := 1, waiters := [0] }
theorem met_CopyProgress :
    (let s := demoO { cop .zero with dst := own, n := 64 }
     (s.chanLane 0 0).map (fun l => (l.bank, l.reads)) = some (2, false) ∧ (s.chanLane 0 1).isNone = true) ∧
    (let s := demoD fun k => { k with chan0 := [{ cop .zero with dst := own, n := 64 }], claims := [(0, 1)] }
     (s.chanLane 0 0).isSome = true ∧ (s.die 0).claims = [(0, 1)] ∧ (s.die 0).peers = [] ∧ encBanks s 0 (s.die 0).cyc = []) ∧
    (let s := demoO (cop .fence)
     (s.die 0).chan 0 = [cop .fence] ∧ (cop .fence).issued < (s.die 0).cyc ∧ s.opDone 0 0 (cop .fence) = true) ∧
    (let o := { cop .gath with q := 1, n := 2, wseq := 8 }
     let s := demoO o
     ((s.die 0).chan 0).find? (fun o => o.kind == .gath && o.seq < o.n) = some o ∧ o.wseq = 8 * (o.seq + 1) ∧
     s.moving 0 0 o.id = false ∧ o.fault = none ∧ ((s.slot o.key).q o.q).depth ≠ 0) ∧
    (let o := { cop .putf with flag := dev, dst := dev }
     let s := demoO o
     ((s.die 0).chan 0).find? (fun o => o.kind == .putf && !(opRequest s 0 0 o).isEmpty) = some o ∧ s.reqs = [] ∧ s.copyRoom 0 = true ∧ o.starved = false) ∧
    (let s := { demoD fun k => { k with walks := [walk1] } with mem := tables, roots := [(2048, 0x10000)] }
     (s.die 0).walks = [walk1] ∧ s.walkNow 1 (diePkg 0) 0 4096 = some (0, 2 ^ 30, 7) ∧
     s.walkBlocked 0 1 0 4096 = false ∧ ∀ n ∈ s.walkStacks 1 (diePkg 0) 0 4096, (s.pkg (diePkg 0)).hbmOut.getLsbD n = false) ∧
    (let r := rq (.load 8 false) dev .flying
     let s := { demoQ r with dies := [(0, { die2 with walks := [walk1] })] }
     s.walkNow 1 (diePkg 0) 0 4096 = none ∧ s.walkBlocked 0 1 0 4096 = false ∧
     (∀ n ∈ s.walkStacks 1 (diePkg 0) 0 4096, (s.pkg (diePkg 0)).hbmOut.getLsbD n = false) ∧ walk1.waiters = [2 * r.id] ∧ s.req? r.id = some r ∧ r.open_ = true) := by decide +kernel

/-- Page 1 of partition 1's device space is mapped to page 5, with these permissions. -/
def demoH (r : Req) (perm : Word) : State :=
  { demoQ r with ranges := [(262144, ⟨0x1000, 0x1000, 0x5000, 0x80 + 4 * perm⟩)], mem := [(devAddr 0 0x5000, 9)] }
theorem met_HomesPerform :
    (([.load 8 false, .store 8 7, .atom 1 8 5 0] : List ReqKind).all fun kind =>
      let r := rq kind dev .flying
      let s := demoH r 7
      decide (r.id < 2 ^ 32 ∧ s.req? r.id = some r ∧ r.st = .flying ∧ s.sendable r = true ∧ s.blocked r = false ∧
        s.folded r = false ∧ s.routed r = false ∧ s.behind (s.inject r) = false ∧ (s.readNote (s.inject r).party r.ptr r.kind.size r.kind.need).length = 0 ∧
        s.reach (s.inject r).party r.ptr r.kind.need = .ready (devAddr 0 0x5000) none ∧
        spaceOf r.ptr ≠ 1 ∧ s.isHidden (devAddr 0 0x5000) r.kind.size = false ∧
        s.planeHit r.part r.ptr r.kind.size = .none ∧ 8192 ≤ devAddr 0 0x5000 / 2 ^ 64)) = true ∧
    (let r := rq (.load 8 false) dev .flying
     let s := demoH r 0
     r.kind.toHome = true ∧ s.behind (s.inject r) = false ∧ s.reach (s.inject r).party r.ptr r.kind.need = .fault .permission) ∧
    (let r := rq (.load 8 false) 0x1000000000020080 .flying
     let s := demoH r 7
     let d := (s.slot (slotKey (keyRid r.key) (keyPkg r.key) (ptrSlot r.ptr))).die
     r.kind.toHome = true ∧ spaceOf r.ptr = 1 ∧ (s.die d).peers = [] ∧
     ((s.die d).spine.any fun l => l.eff == .peer (2 * r.id)) = false) := by decide +kernel
/-- Timed circuit 9 of slot 0, of this direction, with package 1; the running bundle is anchored. -/
def circ (dir : Nat) : BitVec 256 :=
  BitVec.ofNat 256 (1 + 2 * dir + 9 * 2 ^ 4 + 2 ^ 16 + 50 * 2 ^ 32 + 1000 * 2 ^ 128 + 2000 * 2 ^ 160)
def unit (t : Nat) : XUnit := { data := 5, good := true, arrival := t, ends := 0 }
def key9 (pkg : Nat) : Nat := circKey 1 pkg 0 9
def demoT (l : SMap Circuit) (f : Ctx → Ctx) : State :=
  { demoR fun n => { n with cwmax := 1000 } with
    pkgs := [(0, { Pkg.blank with present := true, gtc := 20, links := [(1, { Link.blank with state := 3 })], conns := [(6, ⟨1, 2, 0⟩), (48, ⟨1, 2, 0⟩)] }),
             (1, { Pkg.blank with present := true, gtc := 20, links := [(0, { Link.blank with state := 3 })] })]
    circuits := l, slots := [(key2, f { ctx2 with iss := { ctx2.iss with anchored := true } })] }
def x9 : XF := { xf with oc := 9 }
theorem met_TimedCircuits :
    (let x := { Circuit.blank with desc := circ 0 }
     let s := demoT [(key9 0, x)] id
     s.curCtx.iss.anchored = true ∧ xCirc x9 s s.curCtx = key9 0 ∧ circValid x.desc = true ∧ circDir x.desc = 0 ∧ x.bound = none ∧
     circLen x.desc ≤ (s.node s.curCtx.rid).cwmax ∧ s.circUp s.curCtx x.desc = true ∧
     (circWindow x.desc s.curCtx.tbase (xAt x9 s.curCtx)).isSome = true ∧ x.launch = none ∧ circValid (s.circuit 0).desc = false) ∧
    (let x := { Circuit.blank with desc := circ 0, launch := some 17 }
     let s := demoT [(key9 0, x)] id
     xAt x9 s.curCtx < 17 + 4 ∧ (s.circuit (key9 0)).launch = some 17) ∧
    (let x := { Circuit.blank with desc := circ 1, buf := [unit 15] }
     let s := demoT [(key9 0, x)] id
     let held := s.boundCirc s.curCtx 9
     circDir x.desc = 1 ∧ xAt x9 s.curCtx = s.curCtx.iss.tick ∧ held.buf = [unit 15] ∧ (unit 15).arrival ≤ xAt x9 s.curCtx ∧
     held.badUnit = false ∧ held.overflow = false ∧ xAt { x9 with off := 30 } s.curCtx ≠ s.curCtx.iss.tick) ∧
    (let x := { Circuit.blank with desc := circ 0, out := [(10, unit 0)], flying := [(10, unit 0)], bound := some key2 }
     let y := { Circuit.blank with desc := circ 1 }
     let s := demoT [(key9 0, x), (key9 1, y)] id
     key9 0 < 2 ^ 56 ∧ s.circuit (key9 0) = x ∧ 10 ≤ s.gtc (circKeyPkg (key9 0)) ∧ (unit 0).good = true ∧
     circKey (circKeyPart (key9 0)) (circPeerPkg x.desc) (circPeerSlot x.desc) (circPeerOc x.desc) = key9 1 ∧ key9 1 ≠ key9 0 ∧
     mfind (key9 1) s.circuits = some y ∧ circValid y.desc = true ∧ circDir y.desc = 1 ∧ y.bound = none ∧ y.buf.length < 16) ∧
    (let x := { Circuit.blank with desc := circ 1, buf := [unit 15] }
     let s := demoT [(key9 0, x)] fun c => { c with xrecvs := [(9, 4, 20, 0)] }
     s.curCtx.xrecvDue (s.dieTick s.cur) = some (9, 4, 20, 0) ∧ (s.boundCirc s.curCtx 9).buf = [unit 15] ∧
     (s.boundCirc s.curCtx 9).badUnit = false ∧ (s.boundCirc s.curCtx 9).overflow = false) := by decide +kernel

/-- A region with a handler whose slot has reached a bundle with this header and S slot. -/
def demoI (hdr word : Nat) (f : Ctx → Ctx) : State :=
  { demoR fun n => { n with handler := some 0x400 } with
    slots := [(key2, f { ctx2 with waitlim := 5, progress := 18 })]
    mem := memWrite (bundleAddr 0 0 0x100) (toBytes 16 (hdr + word * 2 ^ 96)) [] }
/-- The state that the checks of its bundle look at. -/
def atLook (s : State) : State := s.commit [.slot s.curKey fun c => { c with
  iss := s.issueOf c s.stageBundle, tried := c.pos + 1
  wait := if c.wait.active then c.wait else { Wait.blank with active := true, pos := c.pos, tick := s.dieTick c.die } }]
/-- XOR s1, s2, s3; TWAIT 1000. -/
def wXor : Nat := 9 + 2 ^ 15 + 2 * 2 ^ 21 + 3 * 2 ^ 27
def wTwait : Nat := 0x40 + 2 ^ 8 + 1000 * 2 ^ 33
theorem met_BundleIssues :
    ([(0x10, wXor), (0x30 + 15 * 2 ^ 16, wXor)].all fun x =>
      let s := demoI x.1 x.2 id
      let c := s.curCtx
      let b := s.stageBundle
      decide (s.atStage = true ∧ c.pending = none ∧ c.early b = false ∧ c.acqUntil = [] ∧ c.loop.isNone = true ∧
        c.pc + 64 ≤ (s.node (keyRid s.curKey)).bmem * 4096 ∧ (State.active (atLook s).curCtx b).length = 1 ∧
        hdrAnchored b = decide (x.1 ≠ 0x10)) &&
      (match ((atLook s).lookGuards b).choose (hdrElastic b) with | .go => true | _ => false) &&
      ((State.active (atLook s).curCtx b).all fun y => match y.2 with | .xor _ => true | _ => false)) = true := by decide +kernel
theorem bundle_issue_arrives (f : SF) (u : State) : slotArrive (.xor f) u = [] := rfl
/-- A slot that waits since its arrival; with a send that landed at tick 0. -/
def waiting (c : Ctx) : Ctx := { c with wait := { Wait.blank with active := true, operand := 1000 }, progress := 14 }
def withSend (c : Ctx) : Ctx := { waiting c with progress := 62, cuffs := [(1, [{ tick := 0, lines := [], told := false }])] }
def stageStates : List State :=
  [demoI 0 0xFF id, demoI 0x10 0xFF id, demoI (0x30 + 15 * 2 ^ 16) 0xFF id,
   demoI (0x30 + 15 * 2 ^ 16) wXor (fun c => { c with tbase := 2, tguard := 2, wait := { Wait.blank with active := true } }),
   demoI 0x10 wTwait waiting, { demoI 0x10 wTwait withSend with dies := [(0, { die2 with tick := 65 })] }]
def stageTrap (s : State) : Option Trap :=
  match ((atLook s).lookGuards s.stageBundle).choose (hdrElastic s.stageBundle) with
  | .trap t => some t
  | _ => none
theorem met_StageTraps :
    (stageStates.all fun s => let c := s.curCtx
      decide (s.atStage = true ∧ c.pending = none ∧ c.early s.stageBundle = false ∧ c.acqUntil = [] ∧ c.loop.isNone = true ∧
        c.pc + 64 ≤ (s.node (keyRid s.curKey)).bmem * 4096 ∧ (s.node (keyRid s.curKey)).handler = some 0x400 ∧
        c.fsr.getLsbD 11 = false) &&
      (!hdrElastic s.stageBundle || !((atLook s).lookGuards s.stageBundle).prompt.isEmpty) &&
      (stageTrap s).any fun t => t.kind == TrapKind.atBundle) = true ∧
    stageStates.map (fun s => ((stageTrap s).map fun t => t.cause, hdrAnchored s.stageBundle)) =
      [(some .illegalSlot, false), (some .illegalSlot, false), (some .illegalSlot, true), (some .lateTick, true), (some .waitLimit, false),
       (some .cuffOverrun, false)] ∧
    (let s := demoI (0x30 + 15 * 2 ^ 16) wXor fun c => { c with tbase := 2, tguard := 2, wait := { Wait.blank with active := true } }
     s.curCtx.wait.active = true ∧ s.curCtx.anchorTarget s.stageBundle + s.curCtx.tguard < s.dieTick 0) ∧
    (let s := demoI 0x10 wTwait waiting
     s.curCtx.wait.active = true ∧ s.curCtx.waitlim ≠ 0 ∧ s.curCtx.progress + s.curCtx.waitlim < s.dieTick 0) ∧
    (let s := { demoI 0x10 wTwait withSend with dies := [(0, { die2 with tick := 65 })] }
     s.curCtx.wait.active = true ∧ (s.curCtx.cuffLate (s.dieTick 0)).isSome = true) := by decide +kernel

/-- A send to cuff 1 of the slot, due at tick 20. -/
def send20 : CuffSend := { tick := 20, lines := [], told := false }
def wWaitw : Nat := 0x27 + 2 * 2 ^ 21
theorem met_BesideTheStage :
    (let s := { demoP id with dies := [(0, { die2 with cuffIn := [(4 * key2 + 1, send20)] })] }
     (s.die 0).cuffIn.find? (fun x => x.1 % 4 == 1 && decide (x.2.tick ≤ s.gtc (diePkg 0))) = some (4 * key2 + 1, send20) ∧
     ((s.slot key2).cuff 1).length < 136) ∧
    (let s := demoC fun c => { c with cuffs := [(1, List.replicate 136 send20)] }
     136 ≤ ((s.slot key2).cuff 1).length) ∧
    (let s := demoD fun k => { k with slip := 1000000000000 }
     s.slipDue s.cur = true) ∧
    (let s := { waits fun w => { w with operand := 5 } with mem := memWrite (bundleAddr 0 0 0x100) (toBytes 16 (0x10 + wWaitw * 2 ^ 96)) [] }
     s.curCtx.wait.active = true ∧ s.curCtx.wait.sent = true ∧ s.curCtx.mode = .run ∧
     (match slotDecode s.stageBundle 0 with
      | some (.ok (.waitw f)) => f.on s.curCtx
      | _ => false) = true ∧ s.waitwReq? s.curKey = none ∧ s.curCtx.wait.word = none ∧ s.curCtx.wait.fault = none) ∧
    (let s := demoD fun k => { k with shadow := [key2, key2 + 1, key2 + 2, key2 + 3] }
     4 ≤ (s.die s.cur).shadow.length ∧ (s.die s.cur).shadow.find? (fun k => (s.node (keyRid k)).server.isNone) = some key2) := by
  decide +kernel
/-- A request with an entry of the load queue. -/
def rqL (kind : ReqKind) (ptr : Word) (st : ReqState) : Req := { rq kind ptr st with lq := some 2 }
/-- Packages 0 and 1, the link between them up, package 0's clock, circuits between its compute die 0 and its fabric die
0 in this state, and an allocation of the partition in each package's crown, package 0's mirrored in package 1. -/
def demoF (gtc up : Nat) (l : List Req) : State :=
  { demo with
    reqs := l, nextReq := l.length
    pkgs := [(0, { Pkg.blank with
                   present := true, gtc := gtc, links := [(1, { Link.blank with state := 3 })], conns := [(6, ⟨1, up, 0⟩), (48, ⟨1, up, 0⟩)]
                   allocs := [(0, [⟨1, 0, 1, 0, some 1, none, false, false, none⟩])] }),
             (1, { Pkg.blank with
                   present := true, gtc := gtc, links := [(0, { Link.blank with state := 3 })]
                   allocs := [(0, [⟨1, 0, 1, 1, none, none, false, false, none⟩, ⟨1, 1, 1, 1, none, some 0, false, false, none⟩])] })]
    windows := [(16, ⟨0x3000100000000000, 64, 11, 0⟩)] }
def crown0 : Word := 0x3000000000000000
def crown1 : Word := 0x3000100000000000
def cred1 (owner : Option (Nat × Nat)) (st : ReqState) : Req := { rq (.cred 0 11 5 false) crown1 st with owner := owner }
theorem met_AnswersAndMerges :
    (let r := rqL (.load 8 false) dev (.performed 7)
     (demoQ r).req? r.id = some r ∧ r.owner = none ∧ r.id < 2 ^ 32 ∧
     (demoQ r).path ((demoQ r).answerer r) (diePkg r.die) = .carried) ∧
    (let r := rqL (.load 8 false) crown1 (.performed 7)
     let s := unlinked (demoF 10 2 [r])
     s.req? r.id = some r ∧ s.path (s.answerer r) (diePkg r.die) = .cut) ∧
    ([.performed 0, .failed ⟨.permission, dev, 0⟩].all fun st =>
      let r := rq (.store 8 7) dev st
      decide ((demoQ r).req? r.id = some r ∧ r.owner = none ∧
        (demoQ r).path ((demoQ r).answerer r) (diePkg r.die) = .carried)) = true ∧
    (let r := rqL (.atom 1 8 1 0) dev .flying
     let s := demoF 30000 2 [r]
     s.req? r.id = some r ∧ s.resendDue r = true ∧ s.timeoutDue r = true) ∧
    (let r := rq (.load 8 false) crown0 .flying
     let s := demoF 10000 0 [r]
     s.req? r.id = some r ∧ s.reqLate r = true) ∧
    (let r := rq (.store 8 7) crown0 (.mirror 0)
     let h : Hidden := { ref := 0, a := homeAddr 2 0 0 0, n := 8 }
     let s := { demoF 10 2 [r] with hidden := [h] }
     s.req? r.id = some r ∧ s.hidden[0]? = some h ∧ h.ref = 2 * r.id ∧
     s.mirrorPath (homeAddr 2 0 0 0) (some (homeAddr 2 1 0 0)) = .carried ∧
     (unlinked s).mirrorPath (homeAddr 2 0 0 0) (some (homeAddr 2 1 0 0)) = .cut ∧
     s.reach r.party r.ptr .write = .ready (homeAddr 2 0 0 0) (some (homeAddr 2 1 0 0)) ∧
     s.planeHit r.part r.ptr 8 = .none ∧ 8192 ≤ homeAddr 2 0 0 0 / 2 ^ 64 ∧ 8192 ≤ homeAddr 2 1 0 0 / 2 ^ 64) := by
  decide +kernel
def merge0 (sent : Bool) (l : List (Nat × Nat × DieId × Nat × Nat)) : Merge := ⟨0, crown1, 1, 0, 11, 5, 10, sent, none, l⟩
theorem met_AnswersAndMerges_merges :
    ([[], [merge0 false []]].all fun l =>
      let r := cred1 (some (0, 4)) .flying
      let s0 := demoF 10 2 [r]
      let s := s0.withPkg 0 { s0.pkg 0 with merges := l }
      decide (s.req? r.id = some r ∧ s.mergeable r = true ∧ r.open_ = true ∧ s.folded r = false ∧ s.sendable r = true ∧
        r.ofMerge = none ∧ (s.inject r).way.any (s.along · == .carried) = true ∧ 0 ∈ (s.inject r).routers ∧
        (s.pkg 0).merges = l)) = true ∧
    (let m := merge0 true [(9, 4, 0, 0, 4)]
     let r := { cred1 (some (3, 0)) (.performed 3) with id := 1, src := 3 }
     let q := { cred1 (some (0, 4)) .flying with src := 9, seq := 4 }
     let s0 := demoF 10 2 [q, r]
     let s := s0.withPkg 0 { s0.pkg 0 with merges := [m] }
     (s.pkg 0).merges.find? (fun x => x.id == m.id) = some m ∧
     s.reqs.find? (fun x => x.ofMerge == some m.id && diePkg x.die == 0 && x.answered) = some r ∧ s.answerOn r = some (.performed 3) ∧
     q ∈ s.reqs ∧ q.open_ = true ∧ q.id ≠ r.id ∧ (m.folded.any fun x => x.1 == q.src && x.2.1 == q.seq) = true) := by
  decide +kernel

/-- Link 1 of package 0, and a ring of plane 3 of its row port that drops colour 6. -/
def demoL (f : Link → Link) : State := demoP fun k =>
  { k with gtc := 3000000, links := [(1, f Link.blank)], rings := [(17 * 3 + 5, { Ring.blank with cv := true, colour := 6, drops := true })] }
theorem met_LinksAndRouting :
    (let s := demoL fun l => { l with state := 3, expect := 65535 }
     (s.linkNo 0 1).state = 3 ∧ (s.linkNo 0 1).expect = 65535 ∧ (s.linkNo 0 1).again < 15 ∧ s.isLink 0 1 = true ∧
     (s.pkg 0).lit 1 (519 / 2 % 128) (519 / 2 ^ 8 % 4) = true ∧ (s.pkg 0).lit 1 (9 / 2 % 128) (9 / 2 ^ 8 % 4) = false ∧
     linkPeer 0 1 = (1, 0) ∧ (s.linkNo 1 0).state ≠ 4) ∧
    ((demoL fun l => { l with state := 3, again := 15 }).linkNo 0 1).again = 15 ∧ ((demoL id).linkNo 0 1).state = 0 ∧
    ((demoL fun l => { l with state := 1 }).linkNo 0 1).state = 1 ∧
    (let s := demoL fun l => { l with state := 2, attempts := 2 }
     (s.linkNo 0 1).state = 2 ∧ (s.linkNo 0 1).attempts = 2 ∧ (s.linkNo 0 1).held = [] ∧ (s.linkNo 0 1).since + 2000000 ≤ (s.pkg 0).gtc) ∧
    (let s := demoL fun l => { l with state := 2 }
     (s.linkNo 0 1).attempts < 2) ∧
    ((demoL fun l => { l with state := 4 }).linkNo 0 1).state = 4 ∧
    (let s := demoL id
     s.flipping = false ∧ s.serviceBusy 0 = false ∧ (s.pkg 0).queue = [] ∧ (s.conn 0 6).state = 0 ∧ s.Canon) ∧
    (let s := demoP fun k => { k with draining := [0] }
     s.flipping = true ∧ s.serviceBusy 0 = false ∧ (s.pkg 0).queue = [] ∧ s.oldPackets 0 = false ∧ 0 ∈ (s.pkg 0).draining ∧ (∀ e ∈ s.pkgs, e.2.flipWait = false) ∧
     mfind 0 s.pkgs = some (s.pkg 0)) ∧
    (let s := demoP fun k => { k with gtc := 5000, conns := [(6, ⟨1, 1, 0⟩)] }
     (s.conn 0 6).state = 1 ∧ (s.conn 0 6).since + 2000 ≤ (s.pkg 0).gtc) := by
  refine ⟨by decide +kernel, by decide +kernel, by decide +kernel, by decide +kernel, by decide +kernel, by decide +kernel,
    by decide +kernel, ⟨by decide, by decide, by decide, by decide, ?_⟩, by decide +kernel, by decide +kernel⟩
  exact ⟨by decide, by decide, by decide, by decide, by decide, by decide, by decide, by decide, by decide, by decide,
    by decide, by decide⟩
theorem met_Optics :
    (let k := (demoP fun k => { k with gtc := 1000, mzms := [(4 * (72 + 71) + 3, ⟨false, true, 7⟩)] }).pkg 0
     (k.mzm (4 * (72 * 1 + 71) + 3)).auto = true ∧ k.gtc % 1000 = 0 ∧ (k.ring (17 * 143 + 4)).failed = false ∧
     (k.ring (17 * 143 + 4)).cv = false ∧ (k.ring (17 * 143 + 16)).failed = false ∧ (k.ring (17 * 143 + 16)).cv = false) ∧
    (let k := (demoP fun k => { k with rings := [(17 * 143 + 15, { Ring.blank with cv := true, colour := 127 })] }).pkg 0
     (k.ring (17 * 143 + 15)).cv = true ∧ (k.ring (17 * 143 + 15)).failed = false ∧ (k.ring (17 * 143 + 15)).colour < 128 ∧
     (k.ring (17 * 143 + 16)).failed = false ∧ (k.ring (17 * 143 + 16)).cv = false) := by decide +kernel
/-- A partition with an allocation of one bank, and the words of a plane descriptor of two lines in it. -/
def demoA : State := demoP fun k => { k with allocs := [(0, [⟨1, 0, 1, 0, none, none, false, false, none⟩])], launchQ := [], nextRid := 3 }
def planeWords : List Nat := [0x3000000000000000, 0x3000000000000100, 0x3000000000000200, 2, 0]
theorem met_ServiceInstallations :
    demoA.serviceBusy 0 = false ∧ (demoA.pkg 0).queue = [] ∧ (demoP fun k => { k with flipWait := true }).serviceBusy 0 = true ∧
    (let r : Range := ⟨word 0x1000, word 0x1000, word 0x5000, word 0x9C⟩
     r.reserved = false ∧ r.beyond = false ∧ (⟨word 1, word 0, word 0, word 0⟩ : Range).reserved = true) ∧
    (∀ d < 8, ∀ w ∈ (demoA.die (dieId 0 d)).walks, w.part = 1 → w.space ≠ 0) ∧
    (let x := planeOf 0x3000000000000000 0x3000000000000100 0x3000000000000200 2 0
     bits 2 63 24 = 0 ∧ bits 0 63 16 = 0 ∧ bits 0 9 5 = 0 ∧ x.inRange = true ∧
     x.meets ((demoA.planes.filter fun e => e.1 / 64 == 1 && e.1 != 64 * 1 + 5).map fun e => e.2) = false ∧
     spaceOf x.base = 3 ∧ (∀ a ∈ x.spans, demoA.crownArea 1 a = true) ∧ x.rule ≠ 1 ∧ demoA.groupRuns 1 x.group = false ∧
     mfind (64 * 1 + 5) demoA.planes = none) ∧
    (let ms : List Nat := [0, 5 * 1024 + 31]
     ms.Nodup ∧ ∀ m ∈ ms, m < 2 ^ 13 ∧ m / 2 ^ 10 % 8 < 6 ∧ rowOf (m % 1024) = rowOf (ms.headD 0 % 1024)) ∧
    (let b : Word := word 0x3000000000000000
     2 ≤ spaceOf b ∧ spaceOf b ≤ 4 ∧ ptrOk 0 b = true) ∧
    (let d : BitVec 256 := ofElems 256 64 [1 + 9 * 2 ^ 4 + 2 ^ 16 + 50 * 2 ^ 32, 0, 50000, 0]
     circReserved (1 + 9 * 2 ^ 4 + 2 ^ 16 + 50 * 2 ^ 32) 50000 0 = false ∧ circValid d = true ∧ circLen d = 50000 ∧
     circPeerSlot d = 0 ∧ circPeerPkg d = 1 ∧ circPort d = 0 ∧ rowOf 1 = rowOf 0) := by decide +kernel

/-- The host's tables, numbered 0, map its page 1 to page 5. -/
def demoN : State :=
  { demoA with ranges := [(0, ⟨0x1000, 0x1000, 0x5000, 0x9C⟩)], mem := [(devAddr 0 0x5000, 9)] }
theorem met_HostAccesses :
    (demoA.pkg 0).launchQ.length < 64 ∧ (2 : Nat) ^ 16 ≤ dev.toNat ∧ spaceOf dev ≠ 5 ∧
    (2 : Nat) ^ 16 ≤ 5 * 2 ^ 60 ∧ spaceOf (word (5 * 2 ^ 60)) = 5 ∧
    (demoN.hostBytes 0 .read dev 8).isSome = true ∧ (demoN.hostBytes 0 .write dev 8).isSome = true ∧
    demoA.hostBytes 0 .read dev 8 = none := by decide +kernel
theorem met_StartsAndAttestation :
    ([(false, 0), (false, 1), (false, 2), (true, 2)].all fun x =>
      let k := (demoP fun k => { k with starting := true, minimal := x.1, fails := x.2, gtc := 2000000000 }).pkg 0
      decide (k.starting = true ∧ passing (maskedDies k.health) ≠ [] ∧ k.minimal = x.1 ∧ k.fails = x.2 ∧
        k.resetAt + 2000000000 ≤ k.gtc)) = true ∧ (demoA.pkg 0).starting = false ∧ keyPkg key2 = 0 ∧
    (State.reset.pkg 0).ready = false ∧ (State.reset.pkg 0).minimal = false ∧ (State.reset.pkg 0).starting = true := by decide +kernel
theorem met_PowerAndFailures :
    ((demoP fun k => { k with gtc := 1000 }).pkg 0).gtc % 1000 = 0 ∧
    (let s := demoP fun k => { k with gtc := 1000 }
     (s.issuer (dieId 0 0)).isSome = true ∧ (s.issuer (dieId 0 1)).isNone = true ∧ diePkg s.cur = 0 ∧ diePhys s.cur < 6 ∧
     (s.die s.cur).service = true ∧ (s.die 1).run = none ∧ 7 ∉ (s.die 1).dead ∧ (s.die 1).spares < 32 ∧
     (s.pkg 0).fdFailed.getLsbD 1 = false ∧ (s.pkg 0).present = true ∧ (s.pkg 0).takeover = false ∧ (s.pkg 0).standby = false) ∧
    (let s := { demo with dies := [(0, { die2 with run := none }), (1, { die2 with run := none, spares := 32 })] }
     (s.die 1).run = none ∧ 32 ≤ (s.die 1).spares ∧ (s.die s.cur).run = none) ∧
    ((demoP fun k => { k with failover := 2 }).pkg 0).failover.getLsbD 1 = true ∧
    ((demoP fun k => { k with takeover := true }).pkg 0).takeover = true := by decide +kernel
/-- Packages 0 and 1, one row, both with their row ports enabled; package 1 is locked, `d` ticks behind. -/
def demoW (d : Nat) (f : Pkg → Pkg) : State :=
  { demo with pkgs := [(0, f { Pkg.blank with present := true, gtc := 70000000, ptp := 1, ptpPrio := 9, syncNo := 7 }),
                       (1, { Pkg.blank with present := true, gtc := 70000000 - d, ptp := 1, disc := 2 })] }
theorem met_TimeBetweenPackages :
    ((demoA.pkg 0).minimal = false ∧ (demoA.pkg 0).disc = 0) ∧
    (let s := demoW 15 fun k => { k with disc := 2, outside := 3, ptp := 2 }
     let k := s.pkg 0
     k.ptp &&& ~~~(1#2 <<< 1) = 0 ∧ k.disc = 2 ∧ k.ptp ≠ 0 ∧ 3 ≤ k.outside ∧ signed 63 21 = 21 ∧ signed 63 20 = 20 ∧
     k.lastSync + 62500000 ≤ k.gtc ∧ k.gtc / syncInterval = k.syncNo + 1 ∧ s.gtcDiff 0 (s.grandmaster 0) = 0) ∧
    (let s := demoW 15 fun k => { k with disc := 1, inside := 15, ptpPrio := 200 }
     s.gtcDiff 0 (s.grandmaster 0) = 15 ∧ s.nearLocked 0 0 = true ∧ signed 63 (2 ^ 63 - 5) = -5 ∧ (s.pkg 0).stepped = false) ∧
    (let s := demoW 50 fun k => { k with disc := 1, inside := 15 }
     s.gtcDiff 0 (s.grandmaster 0) = 0 ∧ s.nearLocked 0 0 = false ∧
     (s.pkg 0).gtc / syncInterval = (s.pkg 0).syncNo + 1) ∧
    (let s := demoW 0 fun k => { k with disc := 1 }
     s.gtcDiff 0 (s.grandmaster 0) + signed 63 (2 ^ 63 - 5) < 0 ∧ s.nearLocked 0 5 = true) ∧
    (let k := (demoP fun k => { k with ptp := 1, disc := 3, gtc := 1000000000 }).pkg 0
     k.disc = 3 ∧ k.holdAt + 1000000000 ≤ k.gtc) := by decide +kernel
/-- Package 0 with the host's post of an RCB at `dev`; the RCB's bytes. -/
def demoY (m : Memory) (f : Pkg → Pkg) : State :=
  { demoP (fun k => f { k with launchQ := [⟨dev, none, 0, 0, []⟩], nextRid := 3, gtc := 20 }) with
    nodes := [(1, { part1 with rcb := devAddr 0 0x5200, bmem := 1, dmask := 1, dieSets := [(0, 1)] })]
    ranges := [(0, ⟨0x1000, 0x1000, 0x5000, 0x9C⟩)], mem := m }
/-- A timetable region of one slot under partition 1, its image at 0x1400. -/
def tableRcb : Memory :=
  let w := fun a n m => memWrite (devAddr 0 (0x5000 + a)) (toBytes 8 n) m
  w 0 3 (w 0x18 0x2000000000001200 (w 0x20 0x2000000000001400 (w 0x30 1
    (w 0x400 0x0AD2682000000001 (w 0x408 1 (w 0x448 1 []))))))
/-- A partition of one slot. -/
def partRcb : Memory := [(devAddr 0 0x5000, 1), (devAddr 0 0x5030, 1)]
/-- What validation makes of the post: the reason of a refusal, and the kind of the node. -/
def verdict (s : State) : Option Nat × NodeKind :=
  let l : Launch := ⟨dev, none, 0, 0, []⟩
  let a := devAddr 0 0x5000
  let par := s.parentOf 0 l (bits (s.num a 8) 1 0) (word (s.num (a + 0x18) 8))
  let up := par.getD (0, rootNode)
  let n := s.nodeAt a l.ptr 3 up.1 up.2 0
  (s.refusal 0 l a 3 par n, n.kind)
theorem met_LaunchesAreValidated :
    ([[], partRcb, tableRcb].all fun m =>
      let s := demoY m id
      let l : Launch := ⟨dev, none, 0, 0, []⟩
      let a := devAddr 0 0x5000
      decide ((s.pkg 0).launchQ = [l] ∧ (s.pkg 0).up = true ∧ (s.pkg 0).takeover = false ∧ spaceOf l.ptr = 2 ∧ l.ptr.toNat % 512 = 0 ∧
        s.launchAddr 0 l.part l.ptr = some a ∧ s.nodeByRcb a = none ∧ bits (s.num (a + 0x78) 8) 63 32 = 0)) = true ∧
    [[], partRcb, tableRcb].map (fun m => verdict (demoY m id)) =
      [(some 7, .timetable), (none, .part), (none, .timetable)] ∧
    (let s := demoY [] fun k => { k with takeover := true, launchQ := [⟨own, none, 0, 0, []⟩] }
     (s.pkg 0).takeover = true) ∧
    (let s := demoY [] fun k => { k with launchQ := [⟨own, none, 0, 0, []⟩] }
     spaceOf own ≠ 2 ∧ (s.pkg 0).launchQ = [⟨own, none, 0, 0, []⟩] ∧ (s.pkg 0).takeover = false) := by decide +kernel

/-- The region before its start, on a die that nothing uses. -/
def demoZ (f : Node → Node) (m : Memory) : State :=
  { demo with
    pkgs := [(0, { Pkg.blank with present := true, ready := true, gtc := 20, quanta := [(0, 1), (7, 1)] })], slots := [], mem := m
    dies := [(0, { die2 with run := none })]
    nodes := [(1, { part1 with dieSets := [(0, 1)] }), (2, f { reg2 with st := 2, placed := [] })] }
theorem demoZ_canon (f : Node → Node) : (demoZ f []).Canon :=
  ⟨rfl, rfl, rfl, rfl, rfl, rfl, rfl, rfl, rfl, rfl, rfl, rfl⟩
def place0 : Place := ⟨0, 0, 0⟩
theorem met_RegionsStart :
    (let s := demoZ id []
     (s.node 2).kind = .timetable ∧ (s.pkg (ridPkg 2)).takeover = false ∧ (s.pkg (ridPkg 2)).up = true ∧ (s.node 2).st = 2 ∧ (s.node 2).start = 0 ∧
     (∀ d ∈ s.predsDone (s.node 2), d = 1) ∧ (s.node 2).halting = false ∧ s.outranked 2 = false ∧
     s.freePlaces 2 0 = some [place0] ∧
     (s.byRank (s.rids.filter fun v => s.ready v && ((s.node v).on v).contains (ridPkg 2))).head? = some 2) ∧
    (let s := demoZ (fun n => { n with preds := [5 * 2 ^ 70] }) [(5 * 2 ^ 70 + 0x10, 2)]
     s.mem.wf = true ∧ s.predsDone (s.node 2) = [2]) ∧
    (let s := demoZ (fun n => { n with start := 20 }) []
     s.startTickDue 2 = true ∧ (∀ d ∈ s.predsDone (s.node 2), d = 1) ∧
     (let s' := s.apply (.node 2 fun n => { n with due := true, readyAt := s.nodeTick 2 })
      s'.outranked 2 = false ∧ s'.freePlaces 2 0 = some [place0]) ∧ s.gangTick 2 ≤ 20 + 1 ∧ s.gangTick 2 ≤ 20 + (s.node 2).tguard) ∧
    (let s := demoZ (fun n => { n with start := 5 }) []
     s.startTickDue 2 = true ∧ (s.node 2).start + (s.node 2).tguard < s.gangTick 2) ∧
    (let s := demoZ (fun n => { n with start := 20, preds := [5 * 2 ^ 70] }) []
     s.startTickDue 2 = true ∧ s.predsDone (s.node 2) = [0]) ∧
    (demoZ (fun n => { n with start := 5, due := true }) []).startLateDue 2 = true := by decide +kernel

/-- A region that sets its own contract runs on die 0. -/
def demoK (f : Node → Node) : State :=
  { demoZ (fun n => f { n with st := 3, placed := [place0], server := some 2, active := true, period := 100, budget := 5, deadline := 50 }) [] with
    slots := [(key2, ctx2)], dies := [(0, die2)] }
theorem met_ContractsAndQuanta :
    (demoK id).Canon ∧ ((demoK id).pkg (ridPkg 2)).takeover = false ∧ ((demoK id).pkg (ridPkg 2)).up = true ∧
    (((demoK id).node 2).active = true ∧ ((demoK fun n => { n with active := false, st := 4 }).node 2).st = 4) ∧
    (demoK fun n => { n with nextAt := 15 }).periodDue 2 = true ∧ (demoK fun n => { n with nextAt := 15 }).under 2 = [2] ∧
    (demoK fun n => { n with used := [(0, 5)] }).budgetDue 2 = true ∧
    (demoK fun n => { n with dueAt := 20 }).deadlineDue 2 = true ∧
    (demoK fun n => { n with server := none }).quantumDue 2 = true := by
  refine ⟨?_, by decide, by decide, by decide, by decide, by decide, by decide, by decide, by decide⟩
  exact ⟨by decide, by decide, by decide, by decide, by decide, by decide, by decide, by decide, by decide, by decide,
    by decide, by decide⟩

theorem met_RegionsStop :
    (let s := demoK fun n => { n with stopping := some 20 }
     (s.node 2).placed = [place0] ∧ (s.node 2).st = 3 ∧ (s.node 2).halting = false ∧ slotKey 2 0 0 = key2 ∧
     (s.slot key2).mode = .run ∧ (s.slot key2).land = [] ∧ s.defers 2 (s.node 2) = false ∧
     s.stopsNow (s.node 2) key2 = true) ∧
    (demoK fun n => { n with stopWin := true, stopping := some 20 }).overrunDue 2 = true ∧
    (let s := { demoZ (fun n => { n with st := 4, placed := [place0] }) [] with slots := [(key2, { ctx2 with mode := .stopped })] }
     (s.node 2).kind = .timetable ∧ (s.node 2).st = 4 ∧ s.ready 2 = true ∧ s.outranked 2 = false ∧
     s.freePlaces 2 0 = some [place0] ∧ (s.pkg (ridPkg 2)).takeover = false ∧ (s.pkg (ridPkg 2)).up = true ∧ (s.node 2).newAct = false ∧
     (s.slot key2).phys = place0.phys ∧ (s.slot key2).mode = .stopped) ∧
    (let s := { demoK id with slots := [(key2, { ctx2 with mode := .ended })] }
     s.doneDue 2 = true ∧ (s.node 2).st = 3) ∧
    (let s := { demoK id with mem := [((demoK id |>.node 2).rcb + 0x7C, 1)] }
     s.cancelSeen 2 = true ∧ s.cancelled 2 = [2]) ∧
    (let s := { demoZ (fun n => n) [] with mem := [((demoK id |>.node 1).rcb + 0x7C, 1)] }
     s.cancelSeen 1 = true ∧ s.cancelled 1 = [1, 2] ∧ (s.node 2).st ≤ 2) ∧
    (demoZ (fun n => { n with st := 3, cancel := true }) []).cancelDue 2 = true := by decide +kernel
/-- A step at a state that is in canonical form. -/
theorem met_TimeNeverGoesBack :
    ({ demo with micro := [.nop .s] } : State).Canon ∧ ∃ t, step { demo with micro := [.nop .s] } = .next t :=
  ⟨⟨rfl, rfl, rfl, rfl, rfl, rfl, rfl, rfl, rfl, rfl, rfl, rfl⟩, _, rfl⟩

/-! ## More clauses -/

/-- An instant begins: a die cycle and a tick come, or only one of them. -/
theorem met_TimeNeverGoesBack_instants :
    ([(0, 0), (0, 5000), (5000, 0)].all fun x =>
      let s := { demoD (fun k => { k with edge := x.1, short := true, run := none }) with
        slots := [], nodes := []
        pkgs := [(0, { Pkg.blank with present := true, ready := true, tickAt := x.2 })] }
      decide (s.micro = [] ∧ s.due = none ∧ s.timerDue = none ∧ s.fetch = none ∧ (s.pkg 0).present = true ∧ 0 ∈ s.clocked ∧
        (s.die 0).edge = x.1 ∧ (s.pkg 0).tickAt = x.2 ∧ (s.die 0).short = true) &&
      (match step s with
       | .next t => decide (t.now = 0)
       | _ => false)) = true := by decide +kernel

/-- The state with one result in flight. -/
def lands (ph : Nat) (e : Effect) : State := demoC fun c => c.push 10 ph e
theorem met_ResultsLand_banks :
    ([(phRead, .ldRead 0x20080 8 true 1), (phRead, .ldRead 0x2FFFF 1 false 1), (phRead, .bankAtom 0x20080 8 1 5 0 (some 2)),
      (phRead, .bankAtom 0x20080 4 1 5 0 none), (phRead, .drainRead 3 7 0), (phSlotWrite, .bankBytes 0x20080 [7, 8]),
      (phSlotWrite, .bankWrite 0x20080 [7, 8])] : List (Nat × Effect)).all (fun x =>
      let s := lands x.1 x.2
      decide ((s.slotLanding s.cur).map (fun l => l.eff) = some x.2 ∧ s.spineLanding s.cur = none ∧
        mfind (s.curCtx.lineNo 1 2) (s.die 0).badLines = none ∧ (s.die 0).dead = [])) = true ∧
    (let s := { demoV 1 with slots := [(key2, ((demoV 1).slot key2).push 10 phRead (.vldRead false [7] [1] 2032 0))] }
     let c := s.curCtx
     groupLines (c.routeOr (s.node c.rid).routes 0 2032).source 0 0 = [(1, 5)] ∧ 1 < (s.node c.rid).brows ∧
     mfind (c.lineNo 1 5) (s.die c.die).badLines = none) ∧
    (let c := (demoV 1).curCtx
     (c.routeOr 16 1 2032).sink 0 = some (5, 1) ∧ (c.routeOr 16 1 2032).sink 1 = none) := by decide +kernel

/-- A loop over one copied bundle. -/
def loop1 (pass total stages : Nat) : Loop :=
  { pc := 0x100, body := [0x40], stages := stages, codes := [0xFFFFFFFF], levels := [⟨total, []⟩], idx := [0], total := total,
    pass := pass, at_ := 0, grb := 0, len := 1, ready := true, counts := List.replicate 64 3, desc := 0x20000 }
/-- A descriptor of one level without deltas, that counts by s5. -/
def desc1 (stages : Nat) (m : Memory) : Memory :=
  memWrite (bankAddr 0 1 0 0) (toBytes 1 (1 + 16 * stages)) (memWrite (bankAddr 0 1 0 32) (toBytes 1 5) m)
theorem met_TransfersAndLoops_more :
    (([(0x10000, 1024), (2 ^ 64 - 64, -1)] : List (Nat × Int)).all fun x =>
      let s : State := demoC fun c => { c with sregs := [(2, word x.1), (63, word x.1)] }
      let size : Int := (s.node (keyRid s.curKey)).bmem * 4096
      let f : SF := { sf with imm := BitVec.ofInt _ x.2, long := some (word x.1) }
      decide (f.on s.curCtx = true ∧ ((f.av s.curCtx).toNat : Int) % 64 = 0 ∧ size ≤ (f.av s.curCtx).toNat ∧
        size ≤ ((s.curCtx.s 63).toNat : Int) ∧ size ≤ 64 * (f.imm.toNat : Int))) = true ∧
    (([(0, true), (1, false)] : List (Nat × Bool)).all fun x =>
      let l : Loop := { loop1 0 3 1 with ready := false }
      let s : State := { demoC fun c => { c.push 10 phRead .loopRead with loop := some l } with mem := desc1 x.1 [] }
      let d := s.descBytes s.curCtx l.desc
      x.2 == descReserved d l.counts l.body.length && (x.2 || decide (descTids d 16 = false ∧ descStages d < 2)) && decide ((s.slotLanding s.cur).map (fun l => l.eff) = some .loopRead ∧ s.spineLanding s.cur = none ∧ s.curCtx.loop = some l)) = true ∧
    (let d := toBytes 48 (1 + 16 + (5 + 2 ^ 8) * 2 ^ 256 + (20 + 2 ^ 8) * 2 ^ 320) ++ List.replicate 464 0
     descReserved d (List.replicate 64 3) 1 = false ∧ descTids d 16 = true) ∧
    ([none, some (trapAfter 0 .permission 0)].all fun t => [0, 3].all fun total =>
      let s := lands phSys (.loopCheck t (loop1 0 total 15))
      decide ((s.slotLanding s.cur).map (fun l => l.eff) = some (.loopCheck t (loop1 0 total 15)) ∧
        s.curCtx.loopHeld = false)) = true := by decide +kernel

/-- A handler that goes back to the bundle at 320, out of a loop. -/
theorem met_TrapsAndReturns_loop :
    [(loop1 0 3 1, 0x100), (loop1 0 3 1, 0x140), (loop1 0 0 1, 0x140)].all (fun x =>
      let s := demoC fun c => { c with fsr := word (5 * 2 ^ 47 + 0x914), loop := some { x.1 with pc := x.2 } }
      decide (s.curCtx.iss.elastic = true ∧ s.curCtx.fsr.getLsbD 11 = true ∧ bits s.curCtx.fsr.toNat 63 47 * 64 = 320 ∧
        s.curCtx.loop = some { x.1 with pc := x.2 })) = true := by decide +kernel
theorem met_OperandQueues_traps :
    (let f := { sf with imm := 5 * 64 + 1 }
     let s := demoC fun c => { c with queues := [(1, ⟨0, 4, 0, 2⟩)] }
     f.qnum < (s.node s.curCtx.rid).queues ∧ s.curCtx.iss.elastic = true ∧ (s.curCtx.q f.qnum).depth < f.qn) ∧
    (demo.curCtx.q 1).depth = 0 := by decide +kernel
/-- A plane region of two lines, with the word of its first element's mark. -/
def demoPl (mark : Nat) : State :=
  { demoP (fun k => { k with allocs := [(0, [⟨1, 0, 1, 0, none, none, false, false, none⟩])] }) with
    planes := [(64, planeOf 0x3000000000000000 0x3000000000000100 0x3000000000000200 2 0)]
    mem := memWrite (homeAddr 2 0 0 0x200) (toBytes 16 mark) [] }
theorem met_Barriers_more :
    (let s := demoB 20 (fun b => { b with phase := 5 }) id
     mfind 20 s.curCtx.phases = none ∧ s.acquired s.curKey 0 = true ∧
     mget s.curCtx.phases 20 7 ≠ 6) ∧
    ([2 ^ 80, 2 ^ 80 + 2 ^ 81, 2 ^ 81].all fun mark =>
      let s := demoPl mark
      let pt : Party := { key := 0, die := 0, part := 1, src := 0 }
      let p := planeOf 0x3000000000000000 0x3000000000000100 0x3000000000000200 2 0
      decide (8 ≤ width p.ty ∧ bit (s.num (homeAddr 2 0 0 0x200) 16) 80 = bit mark 80) &&
      (match s.areaAt pt p.base 0 false, s.areaAt pt p.nbase 0 false, s.markRuns pt p.mbase 0 false with
       | .ok (x, none), .ok (n, none), .ok [((m, none), 16)] =>
         x == homeAddr 2 0 0 0 && n == homeAddr 2 0 0 0x100 && m == homeAddr 2 0 0 0x200
       | _, _, _ => false)) = true := by decide +kernel

/-- A request to the allocator, with a quota, an allocation, and another package in the row. -/
def demoAl (kind : ReqKind) (quota : Nat) (l : List Alloc) (row : Bool) : State :=
  let k : Pkg :=
    { Pkg.blank with
      present := true, allocs := [(0, l)], links := [(1, { Link.blank with state := 3 })]
      conns := [(6, ⟨1, 2, 0⟩), (48, ⟨1, 2, 0⟩)] }
  { demo with
    reqs := [rq kind 0 .flying], nextReq := 1, nodes := [(1, { part1 with crownq := quota, crownUse := 1 }), (2, reg2)]
    pkgs := (0, k) :: (if row then [(1, { Pkg.blank with present := true, links := [(0, { Link.blank with state := 3 })] })] else []) }
def bank0 (units : Nat) (mirror : Option PkgId) : Alloc := ⟨1, 0, units, 0, mirror, none, false, false, none⟩
theorem met_CrownAllocationAndStatus_more :
    ([(ReqKind.alloc 1 none 0 false, 2), (.alloc 0 none 0 false, 2), (.alloc (8192 * 65536 + 1) none 1 false, 2),
      (.alloc 65536 (some 0) 2 false, 1), (.query 0x3000000000000000, 1),
      (.free 0x3000000000000000, 1), (.free 0x3000000000030000, 1)].all fun x =>
      let s := demoAl x.1 x.2 [bank0 1 none] false
      decide (s.reqs.find? (fun q => q.key == key2 && q.open_ && ReqKind.isAlloc q.kind) = some (rq x.1 0 .flying) ∧
        s.allocPath 0 (x.1.crownOf 0).1 = .carried)) = true ∧
    (let s := demoAl (.alloc 1 none 0 false) 2 [bank0 1 none] false
     (s.node 1).crownUse + 1 ≤ (s.node 1).crownq ∧ s.freeRun 0 0 1 = some 1) ∧
    (let s := demoAl (.alloc 65536 none 1 false) 2 [bank0 8192 none] false
     s.freeRun 0 0 1 = none) ∧
    (let s := demoAl (.alloc 1 none 0 true) 9 [bank0 1 none] true
     s.freePair 0 0 1 = some (1, 1) ∧ s.row 0 = [0, 1]) ∧
    (let s := demoAl (.alloc 1 none 0 true) 9 [bank0 1 none] false
     s.allocFails (rq (.alloc 1 none 0 true) 0 .flying) = none ∧ s.row 0 = [0] ∧
     ([(0, 0), (0, 1)].all fun x => (s.freePair x.1 x.2 1).isNone) = true ∧ s.freeRun 0 0 1 ≠ none) ∧
    (let s := demoAl (.alloc 65536 none 1 true) 9 [bank0 8192 none] false
     s.freeRun 0 0 1 = none ∧ s.freePair 0 0 1 = none) ∧
    (let k : ReqKind := .alloc 1 (some 1) 0 false
     let s := demoAl k 9 [] true
     s.allocFails (rq k 0 .flying) = none ∧ 1 ∈ s.row 0 ∧ (unlinked s).allocPath 0 1 = .cut) ∧
    (let s := demoAl (.alloc 65536 (some 1) 0 false) 9 [] false
     1 ∉ s.row 0 ∧ s.allocPath 0 1 ≠ .held 0 0 0) ∧
    (let s := demoAl (.query 0x3000100000000000) 9 [] true
     s.allocPath 0 1 = .carried ∧
       { s with pkgs := [(0, { Pkg.blank with present := true }), (1, { Pkg.blank with present := true })] }.allocPath 0 1 = .cut) ∧
    (let s := { demoAl (.free 0x3000000000000000) 2 [bank0 1 (some 1)] true with planes := (demoPl 0).planes }
     s.allocAt? 1 0x3000000000000000 = some (bank0 1 (some 1)) ∧
     (s.planes.any fun e => decide (e.1 / 64 = 1) && e.2.areas.any (areaIn 0 0 (bank0 1 none))) = true) := by decide +kernel

/-- Operands of a V slot's instruction, one register each. -/
def ops1 (a : VReg) (t : BitVec 512) : VOps :=
  { a := [a], b := [1], c := [2], km := 1, aq := [], bq := [], cq := [], dq := [], ftz := false, tid := t }
theorem met_VectorComputations :
    (let f := { vf with ty := 0 }
     let o := ops1 3 0
     f.long = none ∧ f.ty.toNat ≤ 4 ∧ o.a.length = f.span ∧ o.b.length = f.span ∧ o.c.length = f.span ∧ f.fm = 0 ∧
     nOf f ≤ 1024 ∧ f.dst = 0 ∧ width f.dst = wOf f ∧ o.b.length = (nOf f + 255) / 256) ∧
    (isIntTy vf.ty.toNat = true ∧ width ({ vf with ty := 9, c := 11 } : VF).dst = 2 * wOf { vf with ty := 9, c := 11 } ∧
     (let f := { vf with sp := 2, c := 9 }
      wOf f = 2 * width f.dst ∧ wOf f / width f.dst ≤ f.span)) ∧
    (let f := { vf with c := 0x21 }
     0 < f.selR ∧ f.selK ≤ f.selR ∧ 0 < f.sortG ∧ f.sortG ∣ nOf f) ∧
    (let f := { vf with ty := 1 }
     let o := ops1 3 (BitVec.ofNat 512 (18 * 2 ^ 256))
     (o.tid.extractLsb' 256 5).toNat = 18 ∧ nOf f ≤ 4096) ∧
    ([FVal.nan false].any FVal.isNan = true ∧ [FVal.fin true 3 0].any FVal.isNan = false ∧
     kbMag 7 127 (.fin true 3 0) < 2 ^ 9 ∧ kbMag 7 135 (.fin true 3 0) < 2 ^ 7 ∧ 2 ^ 7 ≤ kbMag 7 0 (.fin true 3 0)) ∧
    (({ ops1 3 0 with km := 0 } : VOps).km = 0) := by decide +kernel

theorem met_MatrixConfiguration_more :
    ([{ mf with tb := 16 }, { mf with tc := 16 }].all fun f =>
      let h := headOf f (cfgWord f demo.curCtx)
      decide (bits (cfgWord f demo.curCtx).toNat 63 49 = 0 ∧ h.row0 + h.m ≤ 128 ∧
        ((demo.node 2).tids ≤ h.tb ∨ (demo.node 2).tids ≤ h.tc))) = true ∧
    (let s := demoC fun c => { c with matrix := { c.matrix with batches := [(0, { Batch.blank with st := .opened, accs := 8, left := 1 })] } }
     (s.curCtx.matrix.busy none).getLsbD (0 + 3) = true ∧ 3 < ({ mf with imm := 3 } : MF).imm.toNat % 64 + 1) ∧
    (mget demo.dies 0 Die.blank).solveAt = 0 ∧
    ((demoD fun k => { k with solveAt := 23 }).die 0).solveAt + 8 ≤ ((demoD id).die 0).cyc + 1 := by decide +kernel
/-- A step over one KB of zeros: its sum is 0. -/
theorem met_MatrixBatches_sum :
    let st := { step1 with tidA := BitVec.ofNat 512 (11 * 2 ^ 256), tidB := BitVec.ofNat 512 (11 * 2 ^ 256)
                           head := { MHead.blank with op := 1, k := 2, m := 1, n := 1, umask := 1 } }
    isIntTy (tidFmt st.tidA) = true ∧ st.head.op = 1 ∧ st.head.k ≤ 32 ∧ st.isLoad = false ∧
    (((List.range st.head.k).map fun k => panelInt st 0 0 0 k * panelInt st 0 1 0 k).sum).natAbs ≤ 2 ^ 24 := by decide +kernel

theorem met_EncoderCommands_more :
    ([none, some ⟨.permission, own, 0⟩].all fun bad => [EncKind.opened, .frame].all fun kind =>
      let e := { enc kind with readAt := 1, frame := [block], lines := 1, bad := bad }
      let s := demoE [e] (if kind == .frame then stream4 else [])
      decide ((s.die s.cur).encQ = [e] ∧ e.issued + 2 + ceilDiv e.lines 128 ≤ (s.die s.cur).cyc ∧ (s.die s.cur).spine = [] ∧
        e.coded = none ∧ (s.stream? s.cur e.stream).isSome = (kind == .frame) ∧ (s.slot e.key).xstat.getLsbD e.tag = false ∧
        encBlockOk block = true)) = true ∧
    encBlockOk 0 = false ∧
    (let e := { enc .frame with coded := some (toBytes 8 3 ++ [1, 2, 3]), outAt := 4 }
     e.outs = 4 ∧ e.data.count = 2 ∧ e.count.count = 2) ∧
    (let e := { enc .frame with coded := some (toBytes 8 3 ++ [1, 2, 3]), out := own }
     let s := { demoE [e] stream4 with
       dies := [(0, { die2 with encQ := [e], streams := stream4, spine := [⟨30, phSpine, 0, .encWrite 0 2⟩] })] }
     let pt := s.sendAs (e.party s s.cur) (e.outPiece 2).1
     (s.die s.cur).encQ.find? (fun y => y.id == e.id) = some e ∧ (s.spineLanding s.cur).map (fun l => l.eff) = some (.encWrite 0 2) ∧
     s.slotLanding s.cur = none ∧ s.hidden = [] ∧ s.pieceBehind pt (e.outPiece 2).1 = false ∧
     s.reach pt (e.outPiece 2).1 .write ((e.outPiece 2).2.length == 64) = .ready (bankAddr 0 1 2 0) none ∧
     s.answerPath pt (bankAddr 0 1 2 0) = .carried ∧ s.isHidden (bankAddr 0 1 2 0) (e.outPiece 2).2.length = false ∧
     s.planeHit pt.part (e.outPiece 2).1 (e.outPiece 2).2.length = .none) := by decide +kernel

/-- A line of a channel has been granted. -/
def demoS1 (o : CopyOp) (e : Effect) : State := demoD fun k => { k with chan0 := [o], spine := [⟨30, phSpine, 0, e⟩] }
theorem met_CopyProgress_lines :
    (let o := { cop .put with src := own, dst := dev, n := 64 }
     let s := demoS1 o (.spineRead 0 1 0)
     let p := o.reads.piece 0
     s.op? 0 0 o.id = some o ∧ (s.spineLanding 0).map (fun l => l.eff) = some (.spineRead 0 o.id 0) ∧ s.slotLanding 0 = none ∧
     s.bankReach (s.slot o.key) (offsetBits p.ptr) = .ready (bankAddr 0 1 2 0) none) ∧
    (let o := { cop .zero with dst := own, n := 64 }
     let s := demoS1 o (.spineWrite 0 1 0)
     let p := o.writes.piece 0
     s.op? 0 0 o.id = some o ∧ (s.spineLanding 0).map (fun l => l.eff) = some (.spineWrite 0 o.id 0) ∧
     (o.writable p).isSome = true ∧ o.writable p ≠ some 0 ∧
     s.bankReach (s.slot o.key) (offsetBits p.ptr) true = .ready (bankAddr 0 1 2 0) none) := by decide +kernel
theorem met_HomesPerform_sound : (demoH (rq (.load 8 false) dev .flying) 7).unsound (devAddr 0 0x5000) 8 = false ∧
    ((demoH (rq (.load 8 false) dev .flying) 0).readNote ((demoH (rq (.load 8 false) dev .flying) 0).inject
      (rq (.load 8 false) dev .flying)).party dev 8 .read).length = 0 := by decide +kernel
theorem met_BundleIssues_loop :
    ([(0, 3, 1), (2, 3, 1), (2, 3, 2), (0, 1, 3)].all fun x =>
      let l := { loop1 x.1 x.2.1 x.2.2 with body := [lineOfBytes (toBytes 64 (0x10 + wXor * 2 ^ 96))] }
      let s := demoI 0x10 wXor fun c => { c with loop := some l, stage := [(32, true)] }
      let c := s.curCtx
      decide (s.atStage = true ∧ c.pending = none ∧ c.early s.stageBundle = false ∧ c.acqUntil = [] ∧ c.looping = some l) &&
      (match ((atLook s).lookGuards s.stageBundle).choose true with | .go => true | _ => false)) = true := by decide +kernel
theorem met_LinksAndRouting_more :
    (demo.isLink 0 1 = true ∧ (demoL id).flipping = false) ∧
    (let s := { demo with pkgs := [(0, { Pkg.blank with present := true }), (1, { Pkg.blank with present := true })] }
     s.packages = [0, 1] ∧ s.flipping = false) := by decide +kernel
theorem met_StartsAndAttestation_links :
    let k := (demoP fun k => { k with starting := true, fails := 2, links := [(1, { Link.blank with state := 2 })] }).pkg 0
    k.starting = true ∧ k.fails = 2 ∧ ∃ e ∈ k.links, e.2.state ≠ 0 := by decide +kernel
theorem met_TimeBetweenPackages_intervals :
    ([(7, 0), (8, 3), (8, 0), (6, 0)].all fun x =>
      let s := demoW 15 fun k => { k with disc := 2, before := x.2, syncNo := x.1, gtc := 70000000 }
      let k := s.pkg 0
      decide (k.ptp ≠ 0 ∧ k.disc = 2 ∧ k.gtc / syncInterval = 8 ∧ k.before = x.2 ∧ s.gtcDiff 0 (s.grandmaster 0) = 0)) = true := by
  decide +kernel
/-- A post of `dev`, of a slot or with what has befallen its domain. -/
def demoYl (l : Launch) (m : Memory) : State := demoY m fun k => { k with launchQ := [l] }
theorem met_LaunchesAreValidated_more :
    ([(⟨dev + 8, some key2, 1, 5, []⟩ : Launch), ⟨dev + 0x100000, none, 0, 0, []⟩].all fun l =>
      let s := demoYl l []
      decide ((s.pkg 0).launchQ = [l] ∧ (s.pkg 0).up = true ∧ (s.pkg 0).takeover = false ∧
        (spaceOf l.ptr ≠ 2 ∨ l.ptr.toNat % 512 ≠ 0 ∨ s.launchAddr 0 l.part l.ptr = none))) = true ∧
    (let s := { demoYl ⟨dev, none, 0, 0, []⟩ [] with nodes := [(1, { part1 with rcb := devAddr 0 0x5000 })] }
     s.launchAddr 0 0 dev = some (devAddr 0 0x5000) ∧ (s.nodeByRcb (devAddr 0 0x5000)).isSome = true) ∧
    (let s := demoYl ⟨dev, none, 0, 0, []⟩ [(devAddr 0 0x507C, 1)]
     s.nodeByRcb (devAddr 0 0x5000) = none ∧ bits (s.num (devAddr 0 0x5000 + 0x78) 8) 63 32 ≠ 0) ∧
    ([(0, some (6, 2)), (1, some (8, 4))].all fun x =>
      let l : Launch := ⟨dev, none, 0, 0, [(x.1, 1)]⟩
      let s := demoYl l tableRcb
      let a := devAddr 0 0x5000
      let up := (s.parentOf 0 l (bits (s.num a 8) 1 0) (word (s.num (a + 0x18) 8))).getD (0, rootNode)
      decide (bits (s.num (a + 0x78) 8) 63 32 = 0 ∧ s.launchStopped l up (s.nodeAt a l.ptr 3 up.1 up.2 0) = x.2)) = true := by
  decide +kernel
theorem met_RegionsStart_kept :
    (demoZ id []).keptAhead 2 = [] ∧
    (let s := demoZ (fun n => { n with start := 20 }) []
     (s.apply (.node 2 fun n => { n with due := true, readyAt := s.nodeTick 2 })).keptAhead 2 = []) ∧
    ((demoZ id []).byRank ((demoZ id []).rids.filter (demoZ id []).ready)).head? = some 2 ∧
    ((demoZ id []).node 2).on 2 = [0] := by decide +kernel
/-- Another region of the band waits for the die, or none does. -/
theorem met_ContractsAndQuanta_quantum :
    (let s0 := demoK fun n => { n with server := none }
     let s := { s0 with nodes := s0.nodes ++ [(3, { reg2 with st := 2, placed := [], rcb := 0x2000000000000003000 })] }
     s.quantumDue 2 = true ∧ 3 ∈ s.rids ∧ s.ready 3 = true ∧ s.wants 3 2 = true ∧ s.preempts 2 3 = false) ∧
    (demoK fun n => { n with server := none }).rids.all (fun v => v == 2 || !(demoK fun n => { n with server := none }).ready v) = true := by
  decide +kernel
theorem met_TimedCircuits_unbound :
    let x := { Circuit.blank with desc := circ 1, buf := [{ unit 15 with ends := 30 }] }
    mfind (key9 0) (demoT [(key9 0, x)] id).circuits = some x ∧ x.bound = none := by decide +kernel

end Sys2Proof.Tests
end

section
/-! SUPPORT. CLZ (R317): how an S field without a long immediate decodes, where a slot's encoding error shows among the
checks of the bundle, what an S-slot operation owes, and the count of leading zeros. -/

namespace Sys2Proof.Machine
open Sys2Proof

/-! ## Decoding an S field without a long immediate -/

/-- Where FM is not 10, the template rules hold of every S instruction (R275), so the field rules alone decide. -/
theorem decodeS_none_of_pickS {w : Word} {i : Instr} (ho : w.extractLsb' 0 8 ≠ 0) (hfm : w.extractLsb' 8 2 ≠ 2)
    (hp : pickS (w.extractLsb' 0 8).toNat (unpackS w none) = some i) :
    decodeS w none = if i.wf then .ok i else .error .slot := by
  have ht : templateOkS i (unpackS w none) = true := Laws.Reads.tmplS_none rfl hfm
  simp only [decodeS, beq_iff_eq, if_neg ho, hp, accept, ht, if_true]

/-- The fields that the encoding of CLZ leaves no choice of. -/
theorem wf_clz_iff (f : SF) :
    (Instr.clz f).wf = true ↔ (f.fm = 0 ∧ f.long = none) ∧ f.b = 0 ∧ f.imm = 0 ∧ f.mod = 0 := by
  simp [Instr.wf, SF.regs, and_assoc]

theorem decodeS_clz {w : Word} (ho : w.extractLsb' 0 8 = 0x11) (hfm : w.extractLsb' 8 2 ≠ 2) :
    decodeS w none = if w.extractLsb' 8 2 = 0 ∧ w.extractLsb' 27 6 = 0 ∧ w.extractLsb' 33 21 = 0 ∧ w.extractLsb' 54 10 = 0
      then .ok (.clz (unpackS w none)) else .error .slot := by
  have hp : pickS (w.extractLsb' 0 8).toNat (unpackS w none) = some (.clz (unpackS w none)) := by rw [ho]; rfl
  rw [decodeS_none_of_pickS (by rw [ho]; decide) hfm hp]
  simp only [wf_clz_iff, unpackS, and_true]

/-! ## Encoding errors among the checks of a bundle -/

/-- A slot whose field breaks the field rules raises the illegal-slot-encoding trap of that slot (R283). -/
theorem illegalSlot_mem_encodingGuards {b : Line} {n : Nat} {e : DecodeErr} (hn : n < 7)
    (hd : slotDecode b n = some (.error e)) (he : e ≠ .template) :
    Guard.trap (trapAt n .illegalSlot 0) ∈ encodingGuards b := by
  refine List.mem_append_right _ (List.mem_map.mpr ⟨n, List.mem_range.mpr hn, ?_⟩)
  cases e with
  | template => exact absurd rfl he
  | slot => simp only [hd]
  | record => simp only [hd]

/-! ## What an S-slot operation owes -/

/-- An S-slot operation whose predicate holds owes its result for sD, and changes nothing else (R277, R284). -/
theorem scalarOp_of_on {f : SF} {s : State} (hon : f.on s.curCtx = true) (lat : Nat) (v : Ctx → Word) :
    scalarOp f lat v s = .next (s.owes lat (.scalar f.d.toNat (v s.curCtx))) := by
  have hk : mget s.slots s.curKey .blank = s.curCtx := rfl
  simp [scalarOp, State.onSlot, State.by_, State.apply, mmod, hk, hon, State.owes, State.running, State.withCtx]

theorem exec_clz {f : SF} {s : State} (hon : f.on s.curCtx = true) :
    exec (.clz f) s = .next (s.owes 1 (.scalar f.d.toNat (word (clz64 (f.av s.curCtx).toNat)))) :=
  scalarOp_of_on hon 1 fun c => word (clz64 (f.av c).toNat)

/-! ## Leading zeros -/

theorem clz64_of_ne_zero {n : Nat} (hn : n ≠ 0) : clz64 n = 63 - n.log2 := by
  simp [clz64, hn]

theorem toNat_word_of_lt {n : Nat} (hn : n < 2 ^ 64) : (word n).toNat = n :=
  BitVec.toNat_ofNat n 64 ▸ Nat.mod_eq_of_lt hn

/-- The most significant one bit of a word other than 0 stands below its leading zeros: at bit `log2`. -/
theorem clz64_spec {a : Word} (ha : a ≠ 0) :
    clz64 a.toNat < 64 ∧ a.getLsbD (63 - clz64 a.toNat) = true ∧
      ∀ i, 63 - clz64 a.toNat < i → a.getLsbD i = false := by
  have hne : a.toNat ≠ 0 := fun h => ha (BitVec.eq_of_toNat_eq h)
  have hlog : a.toNat.log2 < 64 := (Nat.log2_lt hne).mpr a.isLt
  have htop : 63 - clz64 a.toNat = a.toNat.log2 := by rw [clz64_of_ne_zero hne]; omega
  rw [htop]
  refine ⟨by rw [clz64_of_ne_zero hne]; omega, Nat.testBit_log2 hne, fun i hi => ?_⟩
  exact Nat.testBit_lt_two_pow (Nat.lt_of_lt_of_le Nat.lt_log2_self (Nat.pow_le_pow_right (by decide) hi))

end Sys2Proof.Machine
end

section
open Sys2Proof Sys2Proof.Machine

/-- Settles O8: the field rules decide the encoding, a breach is a check of the bundle, and the value is 63 less the
number of the most significant one bit. -/
theorem clzRule : Obligations.ClzRule := by
  unfold Obligations.ClzRule
  refine ⟨fun w ho hfm => decodeS_clz ho hfm, fun b e => illegalSlot_mem_encodingGuards (by decide), fun f s hon => ?_⟩
  refine ⟨_, exec_clz hon, fun h0 => by rw [h0]; rfl, fun h0 => ?_⟩
  obtain ⟨hlt, htop, hbelow⟩ := clz64_spec h0
  rw [toNat_word_of_lt (by omega)]
  exact ⟨hlt, htop, fun i hi _ => hbelow i hi⟩

end

section
/-! SUPPORT. MOV (R349): how its encoding decodes, and what it owes. -/

namespace Sys2Proof.Machine
open Sys2Proof

/-- MOV's encoding leaves no choice of the fields that CLZ's leaves none of (R317, R349). -/
theorem wf_mov_iff (f : SF) :
    (Instr.mov f).wf = true ↔ (f.fm = 0 ∧ f.long = none) ∧ f.b = 0 ∧ f.imm = 0 ∧ f.mod = 0 :=
  wf_clz_iff f

theorem decodeS_mov {w : Word} (ho : w.extractLsb' 0 8 = 0x14) (hfm : w.extractLsb' 8 2 ≠ 2) :
    decodeS w none = if w.extractLsb' 8 2 = 0 ∧ w.extractLsb' 27 6 = 0 ∧ w.extractLsb' 33 21 = 0 ∧ w.extractLsb' 54 10 = 0
      then .ok (.mov (unpackS w none)) else .error .slot := by
  have hp : pickS (w.extractLsb' 0 8).toNat (unpackS w none) = some (.mov (unpackS w none)) := by rw [ho]; rfl
  rw [decodeS_none_of_pickS (by rw [ho]; decide) hfm hp]
  simp only [wf_mov_iff, unpackS, and_true]

/-- MOV owes sA as it stands at issue. -/
theorem exec_mov {f : SF} {s : State} (hon : f.on s.curCtx = true) :
    exec (.mov f) s = .next (s.owes 1 (.scalar f.d.toNat (s.curCtx.s f.a.toNat))) :=
  scalarOp_of_on hon 1 fun c => f.av c

/-- R349's worked encoding: MOV s4, s63. -/
theorem decodeS_mov_s4_s63 :
    ∃ f : SF, decodeS 0x0000000007E20014 none = .ok (.mov f) ∧ f.d = 4 ∧ f.a = 63 :=
  ⟨unpackS 0x0000000007E20014 none, rfl, rfl, rfl⟩

end Sys2Proof.Machine
end

section
open Sys2Proof Sys2Proof.Machine

/-- Settles O6: the field rules decide the encoding, a breach is a check of the bundle, MOV owes sA, and s0 reads 0 and
keeps no write. -/
theorem movRule : Obligations.MovRule := by
  unfold Obligations.MovRule
  exact ⟨fun _ ho hfm => decodeS_mov ho hfm, fun _ _ => illegalSlot_mem_encodingGuards (by decide),
    fun _ _ hon => exec_mov hon, decodeS_mov_s4_s63, Ctx.s_zero, Ctx.setS_zero⟩

end

section
/-! SUPPORT. POPC (R358): how its encoding decodes, what it owes, and the count of one bits. -/

namespace Sys2Proof.Machine
open Sys2Proof

/-- Where FM is not 10, the field rules of the instruction that the opcode names, in whatever form they are stated,
decide the encoding (R283). -/
theorem decodeS_none_of_wf_iff {w : Word} {i : Instr} {p : Prop} [Decidable p] (ho : w.extractLsb' 0 8 ≠ 0)
    (hfm : w.extractLsb' 8 2 ≠ 2) (hp : pickS (w.extractLsb' 0 8).toNat (unpackS w none) = some i)
    (hwf : i.wf = true ↔ p) : decodeS w none = if p then .ok i else .error .slot := by
  rw [decodeS_none_of_pickS ho hfm hp]
  simp only [hwf]

/-- POPC's encoding leaves no choice of the fields that CLZ's leaves none of (R317, R358). -/
theorem wf_popc_iff (f : SF) :
    (Instr.popc f).wf = true ↔ (f.fm = 0 ∧ f.long = none) ∧ f.b = 0 ∧ f.imm = 0 ∧ f.mod = 0 :=
  wf_clz_iff f

theorem decodeS_popc {w : Word} (ho : w.extractLsb' 0 8 = 0x12) (hfm : w.extractLsb' 8 2 ≠ 2) :
    decodeS w none = if w.extractLsb' 8 2 = 0 ∧ w.extractLsb' 27 6 = 0 ∧ w.extractLsb' 33 21 = 0 ∧ w.extractLsb' 54 10 = 0
      then .ok (.popc (unpackS w none)) else .error .slot :=
  decodeS_none_of_wf_iff (by rw [ho]; decide) hfm (by rw [ho]; rfl) (by simp only [wf_popc_iff, unpackS, and_true])

theorem exec_popc {f : SF} {s : State} (hon : f.on s.curCtx = true) :
    exec (.popc f) s = .next (s.owes 1 (.scalar f.d.toNat (word (popcount 64 (f.av s.curCtx).toNat)))) :=
  scalarOp_of_on hon 1 fun c => word (popcount 64 (f.av c).toNat)

theorem bit_toNat {m : Nat} (a : BitVec m) (i : Nat) : bit a.toNat i = a.getLsbD i :=
  Nat.testBit_eq_decide_div_mod_eq.symm

/-- The count of ones is that of the places whose bit is set. -/
theorem popcount_toNat {m : Nat} (n : Nat) (a : BitVec m) :
    popcount n a.toNat = ((List.range n).filter a.getLsbD).length := by
  have hbit : bit a.toNat = a.getLsbD := funext (bit_toNat a)
  rw [popcount, hbit, List.countP_eq_length_filter]

theorem popcount_le (n w : Nat) : popcount n w ≤ n :=
  List.countP_le_length.trans_eq List.length_range

/-- R358's worked encoding: POPC s4, s9. -/
theorem decodeS_popc_s4_s9 :
    ∃ f : SF, decodeS 0x0000000001220012 none = .ok (.popc f) ∧ f.d = 4 ∧ f.a = 9 :=
  ⟨unpackS 0x0000000001220012 none, rfl, rfl, rfl⟩

end Sys2Proof.Machine
end

section
open Sys2Proof Sys2Proof.Machine

/-- Settles O7: the field rules decide the encoding, a breach is a check of the bundle, and the count of at most 64 ones
fits the word that POPC owes. -/
theorem popcRule : Obligations.PopcRule := by
  unfold Obligations.PopcRule
  refine ⟨fun _ ho hfm => decodeS_popc ho hfm, fun _ _ => illegalSlot_mem_encodingGuards (by decide), fun f s hon => ?_,
    decodeS_popc_s4_s9⟩
  have hle : popcount 64 (f.av s.curCtx).toNat ≤ 64 := popcount_le 64 _
  refine ⟨_, exec_popc hon, ?_⟩
  rw [toNat_word_of_lt (by omega)]
  exact ⟨popcount_toNat 64 _, hle⟩

end

section
/-! SUPPORT. OR and XOR (R356, R427): operand b in its three forms (R292), how the two encodings decode, and what the
operations owe. -/

namespace Sys2Proof.Machine
open Sys2Proof

/-! ## Operand b -/

theorem bv_of_register {f : SF} (h : f.fm = 0) (c : Ctx) : f.bv c = c.s f.b.toNat := by
  simp [SF.bv, h]
theorem bv_of_immediate {f : SF} (h : f.fm = 1) (c : Ctx) : f.bv c = f.imm.signExtend 64 := by
  simp [SF.bv, SF.simm, h]
theorem bv_of_long {f : SF} {x : Word} (h : f.fm = 2) (hx : f.long = some x) (c : Ctx) : f.bv c = x := by
  simp [SF.bv, h, hx]

/-- The immediate −1 is 64 ones once it is sign-extended. -/
theorem bv_of_minus_one {f : SF} (h : f.fm = 1) (hi : f.imm = -1) (c : Ctx) : f.bv c = BitVec.allOnes 64 := by
  rw [bv_of_immediate h, hi]
  decide

/-- Without a long immediate operand b is a register, with C 0, or an immediate, with B 0 (R292). -/
theorem opb_iff_of_no_long {f : SF} (hl : f.long = none) :
    f.opb = true ↔ (f.fm = 0 ∧ f.imm = 0) ∨ (f.fm = 1 ∧ f.b = 0) := by
  simp [SF.opb, hl]

/-- An owner of a long immediate whose B and C are 0 keeps to R292. -/
theorem opb_of_long {f : SF} {x : Word} (hl : f.long = some x) (hfm : f.fm = 2) (hb : f.b = 0) (hi : f.imm = 0) :
    f.opb = true := by
  simp [SF.opb, hl, hfm, hb, hi]

/-! ## Decoding -/

/-- An S instruction that takes a long immediate as operand b keeps to the template rules with one, so the field rules
alone decide (R275, R283). -/
theorem decodeS_long_of_pickS {w x : Word} {i : Instr} (ho : w.extractLsb' 0 8 ≠ 0)
    (hp : pickS (w.extractLsb' 0 8).toNat (unpackS w (some x)) = some i) (hl : i.takesLongS = true)
    (hb : (unpackS w (some x)).opb = true) : decodeS w (some x) = if i.wf then .ok i else .error .slot := by
  have ht : templateOkS i (unpackS w (some x)) = true := Laws.Reads.tmplS_opb hl hb
  simp only [decodeS, beq_iff_eq, if_neg ho, hp, accept, ht, if_true]

/-- The instruction of the opcodes 0x08 and 0x09. -/
def orXor (o : BitVec 8) (f : SF) : Instr := if o = 8 then .or_ f else .xor f

theorem pickS_orXor {o : BitVec 8} (ho : o = 8 ∨ o = 9) (f : SF) : pickS o.toNat f = some (orXor o f) := by
  obtain rfl | rfl := ho
  · rfl
  · rfl

theorem wf_orXor_iff (o : BitVec 8) (f : SF) : (orXor o f).wf = true ↔ f.mod = 0 ∧ f.opb = true := by
  have hwf : (orXor o f).wf = (f.opb && f.mod == 0) := by
    unfold orXor
    split
    · rfl
    · rfl
  rw [hwf, Bool.and_eq_true, beq_iff_eq, and_comm]

theorem takesLongS_orXor (o : BitVec 8) (f : SF) : (orXor o f).takesLongS = true := by
  unfold orXor
  split
  · rfl
  · rfl

theorem orXor_opcode_ne_zero {o : BitVec 8} (ho : o = 8 ∨ o = 9) : o ≠ 0 := by
  obtain rfl | rfl := ho
  · decide
  · decide

/-- FM 00 and FM 01. -/
theorem decodeS_orXor {w : Word} (ho : w.extractLsb' 0 8 = 8 ∨ w.extractLsb' 0 8 = 9) (hfm : w.extractLsb' 8 2 ≠ 2) :
    decodeS w none = if w.extractLsb' 54 10 = 0 ∧ ((w.extractLsb' 8 2 = 0 ∧ w.extractLsb' 33 21 = 0) ∨
        (w.extractLsb' 8 2 = 1 ∧ w.extractLsb' 27 6 = 0))
      then .ok (orXor (w.extractLsb' 0 8) (unpackS w none)) else .error .slot :=
  decodeS_none_of_wf_iff (orXor_opcode_ne_zero ho) hfm (pickS_orXor ho _)
    ((wf_orXor_iff _ _).trans (and_congr_right' (opb_iff_of_no_long rfl)))

/-- FM 10. -/
theorem decodeS_orXor_long {w x : Word} (ho : w.extractLsb' 0 8 = 8 ∨ w.extractLsb' 0 8 = 9)
    (hfm : w.extractLsb' 8 2 = 2) (hb : w.extractLsb' 27 6 = 0) (hi : w.extractLsb' 33 21 = 0) :
    decodeS w (some x) = if w.extractLsb' 54 10 = 0
      then .ok (orXor (w.extractLsb' 0 8) (unpackS w (some x))) else .error .slot := by
  have hopb : (unpackS w (some x)).opb = true := opb_of_long rfl hfm hb hi
  rw [decodeS_long_of_pickS (orXor_opcode_ne_zero ho) (pickS_orXor ho _) (takesLongS_orXor _ _) hopb]
  simp only [wf_orXor_iff, hopb, and_true]
  rfl

/-- The worked encodings of R356 and R427: OR s5, s6, s7 and XOR s5, s6, s7. -/
theorem decodeS_or_xor_s5_s6_s7 :
    ∃ f : SF, decodeS 0x0000000038C28008 none = .ok (.or_ f) ∧ decodeS 0x0000000038C28009 none = .ok (.xor f) ∧
      f.fm = 0 ∧ f.d = 5 ∧ f.a = 6 ∧ f.b = 7 :=
  ⟨unpackS 0x0000000038C28008 none, rfl, rfl, rfl, rfl, rfl, rfl⟩

/-! ## Results -/

variable {f : SF} {s : State}

theorem exec_or (hon : f.on s.curCtx = true) :
    exec (.or_ f) s = .next (s.owes 1 (.scalar f.d.toNat (f.av s.curCtx ||| f.bv s.curCtx))) :=
  scalarOp_of_on hon 1 fun c => f.av c ||| f.bv c

theorem exec_xor (hon : f.on s.curCtx = true) :
    exec (.xor f) s = .next (s.owes 1 (.scalar f.d.toNat (f.av s.curCtx ^^^ f.bv s.curCtx))) :=
  scalarOp_of_on hon 1 fun c => f.av c ^^^ f.bv c

theorem exec_or_minus_one (hon : f.on s.curCtx = true) (hfm : f.fm = 1) (hi : f.imm = -1) :
    exec (.or_ f) s = .next (s.owes 1 (.scalar f.d.toNat (BitVec.allOnes 64))) := by
  rw [exec_or hon, bv_of_minus_one hfm hi, BitVec.or_allOnes]

/-- XOR with −1 complements (R427). -/
theorem exec_xor_minus_one (hon : f.on s.curCtx = true) (hfm : f.fm = 1) (hi : f.imm = -1) :
    exec (.xor f) s = .next (s.owes 1 (.scalar f.d.toNat (~~~(f.av s.curCtx)))) := by
  rw [exec_xor hon, bv_of_minus_one hfm hi, BitVec.xor_allOnes]

end Sys2Proof.Machine
end

section
open Sys2Proof Sys2Proof.Machine

/-- Settles O9: the field rules decide the encodings in the three forms of operand b, a breach is a check of the bundle,
each operation owes its value, with −1 standing for 64 ones, and s0 keeps no write. -/
theorem orAndXorRules : Obligations.OrAndXorRules := by
  unfold Obligations.OrAndXorRules
  refine ⟨fun _ ho hfm => decodeS_orXor ho hfm, fun _ _ ho hfm hb hi => decodeS_orXor_long ho hfm hb hi,
    fun _ _ => illegalSlot_mem_encodingGuards (by decide), fun f s hon => ?_, fun f c => ?_, Ctx.setS_zero,
    decodeS_or_xor_s5_s6_s7⟩
  · exact ⟨exec_or hon, exec_xor hon, fun hfm hi => ⟨exec_or_minus_one hon hfm hi, exec_xor_minus_one hon hfm hi⟩⟩
  · exact ⟨fun h => bv_of_register h c, fun h => bv_of_immediate h c, fun _ h hx => bv_of_long h hx c⟩

end

section
/-! SUPPORT. Records (log 6): the maps read every instruction of the table back from its parts, and what they read has
those parts; so decode and encode invert each other. -/

namespace Sys2Proof.Laws.Reads
open Sys2Proof

/-- Every instruction of the table is read back from its own parts. -/
theorem statement : ∀ i : Instr, Statement i
  | .launchPortStore pkg ptr => launchPortStore pkg ptr
  | .launchValidate pkg => launchValidate pkg
  | .gangStart rid choice => gangStart rid choice
  | .startTick rid choice => startTick rid choice
  | .startLate rid => startLate rid
  | .regionDone rid => regionDone rid
  | .periodStart rid => periodStart rid
  | .budgetExhausted rid => budgetExhausted rid
  | .deadlineMiss rid => deadlineMiss rid
  | .quantumExpiry rid => quantumExpiry rid
  | .dispatch pkg choice => dispatch pkg choice
  | .preemptStop rid => preemptStop rid
  | .windowOverrun rid => windowOverrun rid
  | .resume rid choice => resume rid choice
  | .cancelObserved rid => cancelObserved rid
  | .cancelComplete rid => cancelComplete rid
  | .millinerTakeover pkg => millinerTakeover pkg
  | .ptpSync pkg offset => ptpSync pkg offset
  | .syncTimeout pkg => syncTimeout pkg
  | .holdoverTimeout pkg => holdoverTimeout pkg
  | .spineLineTransfer die chan => spineLineTransfer die chan
  | .peerBankAccess die req => peerBankAccess die req
  | .cuffLanding die cuff => cuffLanding die cuff
  | .copyComplete die chan => copyComplete die chan
  | .cgathEntryWrite die chan => cgathEntryWrite die chan
  | .cputfFlagIncrement die chan => cputfFlagIncrement die chan
  | .pageWalk die part space vpage => pageWalk die part space vpage
  | .homeAccess die chan item => homeAccess die chan item
  | .loadReturn req => loadReturn req
  | .storeAck req => storeAck req
  | .atomicResend req => atomicResend req
  | .atomicTimeout req => atomicTimeout req
  | .resultCacheExpiry pkg src seq => resultCacheExpiry pkg src seq
  | .routerCredReceive pkg req => routerCredReceive pkg req
  | .mergeForward pkg merge => mergeForward pkg merge
  | .mergeAnswer pkg merge => mergeAnswer pkg merge
  | .mirrorAck req => mirrorAck req
  | .crownAllocatorAnswer slot => crownAllocatorAnswer slot
  | .fabricDieFailed pkg fd => fabricDieFailed pkg fd
  | .failoverComplete pkg fd => failoverComplete pkg fd
  | .barrierArrival part entry writer => barrierArrival part entry writer
  | .planeMerge part group home => planeMerge part group home
  | .phaseFlip part entry => phaseFlip part entry
  | .flitReceive pkg link seq good => flitReceive pkg link seq good
  | .lossOfLight pkg link => lossOfLight pkg link
  | .opticalLock pkg link => opticalLock pkg link
  | .authAttempt pkg link good => authAttempt pkg link good
  | .authTimeout pkg link => authTimeout pkg link
  | .drainMarker pkg src => drainMarker pkg src
  | .biasLimit pkg port plane mzm high => biasLimit pkg port plane mzm high
  | .heaterApply pkg port plane ring => heaterApply pkg port plane ring
  | .monUpdate pkg port plane ring reading => monUpdate pkg port plane ring reading
  | .colourTakeover pkg port plane ring => colourTakeover pkg port plane ring
  | .circuitUp pkg src dst => circuitUp pkg src dst
  | .circuitWaitTimeout req => circuitWaitTimeout req
  | .xsendLaunch circ => xsendLaunch circ
  | .unitLanding circ => unitLanding circ
  | .windowEnd circ => windowEnd circ
  | .hostAccess pkg write ptr size data => hostAccess pkg write ptr size data
  | .reset pkg outcome => reset pkg outcome
  | .readyTimeout pkg => readyTimeout pkg
  | .attestationRequest pkg nonce => attestationRequest pkg nonce
  | .installRangeEntry pkg part index w0 w1 w2 w3 => installRangeEntry pkg part index w0 w1 w2 w3
  | .invalidateTranslation pkg part space first last => invalidateTranslation pkg part space first last
  | .installPlaneDescriptor pkg part index w0 w1 w2 w3 w4 w5 w6 w7 => installPlaneDescriptor pkg part index w0 w1 w2 w3 w4 w5 w6 w7
  | .installBarrierEntry pkg part index members => installBarrierEntry pkg part index members
  | .installReductionWindow pkg part index base size ty op => installReductionWindow pkg part index base size ty op
  | .installCircuitDescriptor pkg part slot index w0 w1 w2 w3 => installCircuitDescriptor pkg part slot index w0 w1 w2 w3
  | .routingUpdate pkg dest entry => routingUpdate pkg dest entry
  | .routingFlip pkg => routingFlip pkg
  | .connectionTableEntry pkg src dst count => connectionTableEntry pkg src dst count
  | .setBandQuantum pkg band value => setBandQuantum pkg band value
  | .linkEnable pkg link => linkEnable pkg link
  | .powerGrant pkg demands => powerGrant pkg demands
  | .stackFailure pkg stack => stackFailure pkg stack
  | .bankRetire die bank => bankRetire die bank
  | .ringFailure pkg port plane ring => ringFailure pkg port plane ring
  | .tstatRead f => tstatRead f
  | .mstatRead f => mstatRead f
  | .xstatWrite f => xstatWrite f
  | .vflagsWrite f => vflagsWrite f
  | .rrbWrite f => rrbWrite f
  | .grbWrite f => grbWrite f
  | .tguardWrite f => tguardWrite f
  | .fsrWrite f => fsrWrite f
  | .waitlimWrite f => waitlimWrite f
  | .opselWrite f => opselWrite f
  | .ringWrite f => ringWrite f
  | .mzmWrite f => mzmWrite f
  | .elogstatWrite f => elogstatWrite f
  | .injctlWrite f => injctlWrite f
  | .intstatWrite pkg bits => intstatWrite pkg bits
  | .nop slot => nop slot
  | .add f => add f
  | .sub f => sub f
  | .mul f => mul f
  | .mulh f => mulh f
  | .div f => div f
  | .rem f => rem f
  | .and_ f => and_ f
  | .andn f => andn f
  | .or_ f => or_ f
  | .xor f => xor f
  | .shl f => shl f
  | .shr f => shr f
  | .sra f => sra f
  | .rol f => rol f
  | .min f => min f
  | .max f => max f
  | .clz f => clz f
  | .popc f => popc f
  | .sel f => sel f
  | .mov f => mov f
  | .li f => li f
  | .cmp f => cmp f
  | .pand f => pand f
  | .por f => por f
  | .pxor f => pxor f
  | .pnot f => pnot f
  | .kpop f => kpop f
  | .kpopN f => kpopN f
  | .ld f => ld f
  | .st f => st f
  | .atom f => atom f
  | .atomCas f => atomCas f
  | .red f => red f
  | .lqpop f => lqpop f
  | .apush f => apush f
  | .fence f => fence f
  | .waitw f => waitw f
  | .brRel f => brRel f
  | .brReg f => brReg f
  | .jmpImm f => jmpImm f
  | .jmpReg f => jmpReg f
  | .jmpLong f => jmpLong f
  | .callRel f => callRel f
  | .callReg f => callReg f
  | .ret f => ret f
  | .loop f => loop f
  | .trap f => trap f
  | .tret f => tret f
  | .end_ f => end_ f
  | .yield f => yield f
  | .launch f => launch f
  | .twait f => twait f
  | .twaitAbs f => twaitAbs f
  | .wtagall f => wtagall f
  | .wtagany f => wtagany f
  | .tagff f => tagff f
  | .tagclr f => tagclr f
  | .qwait f => qwait f
  | .qadv f => qadv f
  | .qset f => qset f
  | .bara f => bara f
  | .barw f => barw f
  | .step f => step f
  | .pstat f => pstat f
  | .sysrd f => sysrd f
  | .syswr f => syswr f
  | .tidset f => tidset f
  | .falloc f => falloc f
  | .fallocAt f => fallocAt f
  | .fallocQuery f => fallocQuery f
  | .ffree f => ffree f
  | .vadd f => vadd f
  | .vsub f => vsub f
  | .vmul f => vmul f
  | .vfma f => vfma f
  | .vfms f => vfms f
  | .vmin f => vmin f
  | .vmax f => vmax f
  | .vabs f => vabs f
  | .vneg f => vneg f
  | .vand f => vand f
  | .vor f => vor f
  | .vxor f => vxor f
  | .vnot f => vnot f
  | .vshl f => vshl f
  | .vshr f => vshr f
  | .vsra f => vsra f
  | .vcmp f => vcmp f
  | .vsel f => vsel f
  | .vmov f => vmov f
  | .vbcastIdx f => vbcastIdx f
  | .vbcastFirst f => vbcastFirst f
  | .viota f => viota f
  | .vext f => vext f
  | .vdot f => vdot f
  | .vred f => vred f
  | .vamax f => vamax f
  | .vcvt f => vcvt f
  | .vwid f => vwid f
  | .vnar f => vnar f
  | .vquant f => vquant f
  | .vperm f => vperm f
  | .vcompact f => vcompact f
  | .vld f => vld f
  | .vst f => vst f
  | .kand f => kand f
  | .kor f => kor f
  | .kxor f => kxor f
  | .knot f => knot f
  | .vexp2 f => vexp2 f
  | .vlog2 f => vlog2 f
  | .vrcp f => vrcp f
  | .vrsq f => vrsq f
  | .vsqrt f => vsqrt f
  | .vtanh f => vtanh f
  | .scan f => scan f
  | .selk f => selk f
  | .sortk f => sortk f
  | .rsolve f => rsolve f
  | .mcfgHead f => mcfgHead f
  | .mcfgLevel f => mcfgLevel f
  | .mroute f => mroute f
  | .mgath f => mgath f
  | .mgo f => mgo f
  | .mcommit f => mcommit f
  | .mwaitb f => mwaitb f
  | .mdrain f => mdrain f
  | .mzero f => mzero f
  | .mlda f => mlda f
  | .mstop f => mstop f
  | .cget f => cget f
  | .cput f => cput f
  | .cputf f => cputf f
  | .cgath f => cgath f
  | .cscat f => cscat f
  | .catom f => catom f
  | .cred f => cred f
  | .cfence f => cfence f
  | .czero f => czero f
  | .croute f => croute f
  | .cbund f => cbund f
  | .cencOpen f => cencOpen f
  | .cencFrame f => cencFrame f
  | .cencClose f => cencClose f
  | .xsend f => xsend f
  | .xrecv f => xrecv f
  | .lightPresent pkg link => lightPresent pkg link
  | .ptpPortEnable pkg port enable => ptpPortEnable pkg port enable
  | .barrierRootAnswer slot => barrierRootAnswer slot
  | .takeoverComplete pkg => takeoverComplete pkg
  | .unknownCommand pkg code => unknownCommand pkg code
  | .bundleIssue => bundleIssue
  | .anchoredBundleIssue => anchoredBundleIssue
  | .lateTickExpiry => lateTickExpiry
  | .resultLanding => resultLanding
  | .waitLimit => waitLimit
  | .slipExceeded => slipExceeded
  | .contextEvict => contextEvict
  | .cuffOverrun => cuffOverrun
  | .matrixStepStart => matrixStepStart
  | .matrixStepComplete => matrixStepComplete
  | .tableMove => tableMove
  | .xrecvTake => xrecvTake
  | .waitwReread => waitwReread
  | .computeDieFailure => computeDieFailure
  | .encodeComplete => encodeComplete

end Sys2Proof.Laws.Reads

namespace Sys2Proof

/-! ## The record of an instruction -/

/-- NOP of a slot. -/
def Instr.isNop : Instr → Bool
  | .nop _ => true
  | _ => false

/-- An instruction is NOP, a slot instruction or an event. -/
def Instr.hasParts (i : Instr) : Bool :=
  i.isNop || i.sParts.isSome || i.vParts.isSome || i.mParts.isSome || i.cParts.isSome || i.xParts.isSome ||
    i.eventArgs.isSome

theorem Instr.hasParts_eq_true (i : Instr) : i.hasParts = true := by
  cases i <;> rfl

/-! The record of each kind, by the constructor: it has no parts of the kind, or they are the ones that `encode` writes. -/

theorem encode_of_sParts {i : Instr} {o : BitVec 8} {f : SF} (h : i.sParts = some (o, f)) :
    encode i = slotRecord 1 (packS o f).toNat f.long := by
  cases i <;> cases h <;> rfl
theorem encode_of_vParts {i : Instr} {o : BitVec 8} {f : VF} (h : i.vParts = some (o, f)) :
    encode i = slotRecord (if f.v1 then 3 else 2) (packV o f).toNat f.long := by
  cases i <;> cases h <;> rfl
theorem encode_of_mParts {i : Instr} {o : BitVec 8} {f : MF} (h : i.mParts = some (o, f)) :
    encode i = slotRecord 4 (packM o f).toNat f.long := by
  cases i <;> cases h <;> rfl
theorem encode_of_cParts {i : Instr} {o : BitVec 8} {f : CF} (h : i.cParts = some (o, f)) :
    encode i = slotRecord (if f.c1 then 6 else 5) (packC o f).toNat f.long := by
  cases i <;> cases h <;> rfl
theorem encode_of_xParts {i : Instr} {o : BitVec 4} {f : XF} (h : i.xParts = some (o, f)) :
    encode i = slotRecord 7 (packX o f).toNat none := by
  cases i <;> cases h <;> rfl
theorem encode_of_eventArgs {i : Instr} {row : Nat} {args : List Nat} (h : i.eventArgs = some (row, args)) :
    encode i = 8 :: (bytesOfNat 2 row ++ (BitVec.ofNat 8 args.length :: u64Bytes args)) := by
  cases i <;> cases h <;> rfl

/-! ## Decoding what was encoded -/

section
open Laws.Reads
variable {i : Instr} {rest : List Byte}

theorem decode_encode_of_field {tag w : Nat} {long : Option Word} (he : encode i = slotRecord tag w long)
    (ht : tag < 8) (hw : w < 2 ^ 64) (hd : decodeField tag w long = .ok i) : decode (encode i ++ rest) = .ok (i, rest) := by
  rw [he, decode_slotRecord tag w long rest ht hw, hd]
  rfl

theorem decode_encode_nop (n : SlotName) : decode (encode (.nop n) ++ rest) = .ok (.nop n, rest) :=
  decode_encode_of_field (tag := n.tag) (w := 0) (long := none) rfl (by cases n <;> decide) (by decide)
    (by cases n <;> rfl)

theorem decode_encode_s {o : BitVec 8} {f : SF} (hw : i.wf = true) (h : i.sParts = some (o, f)) :
    decode (encode i ++ rest) = .ok (i, rest) := by
  obtain ⟨(ho : o ≠ 0#8), hp, ht⟩ := (statement i).s o f hw h
  refine decode_encode_of_field (encode_of_sParts h) (by decide) (packS o f).isLt ?_
  simp [decodeField, decodeS, opc_packS, unpackS_packS, ho, hp, accept, ht, hw]

theorem decode_encode_v {o : BitVec 8} {f : VF} (hw : i.wf = true) (h : i.vParts = some (o, f)) :
    decode (encode i ++ rest) = .ok (i, rest) := by
  obtain ⟨(ho : o ≠ 0#8), hp, ht, hv1⟩ := (statement i).v o f hw h
  have hd : decodeV (packV o f) f.v1 f.long = .ok i := by
    have hv : ¬((64 ≤ o.toNat ∧ o.toNat < 96) ∧ f.v1 = false) := fun hc => by simp [hv1 hc.1.1 hc.1.2] at hc
    simp [decodeV, opc_packV, unpackV_packV, ho, hp, accept, ht, hw, hv]
  refine decode_encode_of_field (encode_of_vParts h) (by split <;> decide) (packV o f).isLt ?_
  cases hf : f.v1 <;> simpa [decodeField, hf] using hd

theorem decode_encode_m {o : BitVec 8} {f : MF} (hw : i.wf = true) (h : i.mParts = some (o, f)) :
    decode (encode i ++ rest) = .ok (i, rest) := by
  obtain ⟨(ho : o ≠ 0#8), hp, ht⟩ := (statement i).m o f hw h
  refine decode_encode_of_field (encode_of_mParts h) (by decide) (packM o f).isLt ?_
  simp [decodeField, decodeM, opc_packM, unpackM_packM, ho, hp, accept, ht, hw]

theorem decode_encode_c {o : BitVec 8} {f : CF} (hw : i.wf = true) (h : i.cParts = some (o, f)) :
    decode (encode i ++ rest) = .ok (i, rest) := by
  obtain ⟨(ho : o ≠ 0#8), hp, ht⟩ := (statement i).c o f hw h
  have hd : decodeC (packC o f) f.c1 f.long = .ok i := by
    simp [decodeC, opc_packC, unpackC_packC, ho, hp, accept, ht, hw]
  refine decode_encode_of_field (encode_of_cParts h) (by split <;> decide) (packC o f).isLt ?_
  cases hf : f.c1 <;> simpa [decodeField, hf] using hd

theorem decode_encode_x {o : BitVec 4} {f : XF} (hw : i.wf = true) (h : i.xParts = some (o, f)) :
    decode (encode i ++ rest) = .ok (i, rest) := by
  obtain ⟨(ho : o ≠ 0#4), hp⟩ := (statement i).x o f h
  have hlt : (packX o f).toNat < 2 ^ 32 := (packX o f).isLt
  refine decode_encode_of_field (encode_of_xParts h) (by decide) (hlt.trans (by decide)) ?_
  simp [decodeField, decodeX, opc_packX, unpackX_packX, ho, hp, accept, hw]
  exact hlt

theorem decode_encode_event {row : Nat} {args : List Nat} (hw : i.wf = true) (h : i.eventArgs = some (row, args)) :
    decode (encode i ++ rest) = .ok (i, rest) := by
  obtain ⟨hr, hn, ha, hi⟩ := (statement i).e row args hw h
  rw [encode_of_eventArgs h]
  exact decode_eventRecord row args i rest hr hn ha hi hw

theorem decode_encode (i : Instr) (rest : List Byte) (hw : i.wf = true) : decode (encode i ++ rest) = .ok (i, rest) := by
  have hp := i.hasParts_eq_true
  simp only [Instr.hasParts, Bool.or_eq_true, Option.isSome_iff_exists, Prod.exists] at hp
  rcases hp with (((((hn | ⟨o, f, h⟩) | ⟨o, f, h⟩) | ⟨o, f, h⟩) | ⟨o, f, h⟩) | ⟨o, f, h⟩) | ⟨row, args, h⟩
  · cases i with
    | nop n => exact decode_encode_nop n
    | _ => exact nomatch hn
  · exact decode_encode_s hw h
  · exact decode_encode_v hw h
  · exact decode_encode_m hw h
  · exact decode_encode_c hw h
  · exact decode_encode_x hw h
  · exact decode_encode_event hw h

end

/-! ## The parts of what the maps read -/

theorem sParts_of_pickS {o : Nat} {f : SF} {i : Instr} (h : pickS o f = some i) : i.sParts = some (BitVec.ofNat 8 o, f) := by
  unfold pickS at h
  split at h <;> cases h
  all_goals repeat' split
  all_goals rfl
theorem vParts_of_pickV {o : Nat} {f : VF} {i : Instr} (h : pickV o f = some i) : i.vParts = some (BitVec.ofNat 8 o, f) := by
  unfold pickV at h
  split at h <;> cases h
  all_goals repeat' split
  all_goals rfl
theorem mParts_of_pickM {o : Nat} {f : MF} {i : Instr} (h : pickM o f = some i) : i.mParts = some (BitVec.ofNat 8 o, f) := by
  unfold pickM at h
  split at h <;> cases h
  all_goals repeat' split
  all_goals rfl
theorem cParts_of_pickC {o : Nat} {f : CF} {i : Instr} (h : pickC o f = some i) : i.cParts = some (BitVec.ofNat 8 o, f) := by
  unfold pickC at h
  split at h <;> cases h
  all_goals repeat' split
  all_goals rfl
theorem xParts_of_pickX {o : Nat} {f : XF} {i : Instr} (h : pickX o f = some i) : i.xParts = some (BitVec.ofNat 4 o, f) := by
  unfold pickX at h
  split at h <;> cases h <;> rfl
/-- The two branches of a decision, one at a time. -/
theorem of_dite_eq {α : Type} {c q : Prop} [Decidable c] {t : c → α} {e : ¬c → α} {x : α}
    (ht : ∀ h, t h = x → q) (he : ∀ h, e h = x → q) : dite c t e = x → q := by
  split
  · exact ht _
  · exact he _

set_option smartUnfolding false in
/-- Row by row, as `eventOf` compares them, and by the number of operands; so deep a match is too dear for `split`. -/
theorem eventArgs_of_eventOf {row : Nat} {args : List Nat} {i : Instr} :
    eventOf row args = some i → i.eventArgs = some (row, args) := by
  repeat' refine of_dite_eq (fun hr => ?_) (fun _ => ?_)
  any_goals subst hr
  all_goals
    rcases args with _ | ⟨a, _ | ⟨b, _ | ⟨c, _ | ⟨d, _ | ⟨e, _ | ⟨f, _ | ⟨g, _ | ⟨k, _ | ⟨l, _ | ⟨m, _ | ⟨n, _ | ⟨o, args⟩⟩⟩⟩⟩⟩⟩⟩⟩⟩⟩⟩
    all_goals
      intro h
      cases h
    all_goals rfl

/-! ## What decodes is the record of a well-formed instruction -/

/-- `accept` lets an instruction of the map through alone, and a well-formed one (R283). -/
theorem of_accept {o : Option Instr} {fields : Bool} {tmpl : Instr → Bool} {i : Instr}
    (h : accept o fields tmpl = .ok i) : o = some i ∧ i.wf = true := by
  unfold accept at h
  split at h
  · split at h <;> cases h
  · split at h
    · split at h
      · cases h
        exact ⟨rfl, ‹_›⟩
      · cases h
    · cases h

/-- The only field of opcode 0 that decodes is 0, of an owner of no long immediate: NOP (R280). -/
theorem of_acceptNop {zero owner fields : Bool} {u : SlotName} {i : Instr}
    (h : acceptNop zero owner fields u = .ok i) : i = .nop u ∧ zero = true ∧ owner = false := by
  unfold acceptNop at h
  cases owner <;> cases zero <;> cases fields <;> cases h
  exact ⟨rfl, rfl, rfl⟩

section
variable {long : Option Word} {i : Instr}

theorem of_decodeS {w : Word} (h : decodeS w long = .ok i) : i.wf = true ∧ encode i = slotRecord 1 w.toNat long := by
  unfold decodeS at h
  dsimp only at h
  split at h
  · obtain ⟨rfl, hz, hl⟩ := of_acceptNop h
    simp only [beq_iff_eq, bne_eq_false_iff_eq] at hz hl
    exact ⟨rfl, by rw [hz, hl]; rfl⟩
  · obtain ⟨hp, hw⟩ := of_accept h
    have he := encode_of_sParts (sParts_of_pickS hp)
    rw [BitVec.ofNat_toNat, BitVec.setWidth_eq, packS_unpackS] at he
    exact ⟨hw, he⟩

theorem of_decodeV {w : Word} {v1 : Bool} (h : decodeV w v1 long = .ok i) :
    i.wf = true ∧ encode i = slotRecord (if v1 then 3 else 2) w.toNat long := by
  unfold decodeV at h
  dsimp only at h
  split at h
  · obtain ⟨rfl, hz, hl⟩ := of_acceptNop h
    simp only [beq_iff_eq, bne_eq_false_iff_eq] at hz hl
    rw [hz, hl]
    cases v1 <;> exact ⟨rfl, rfl⟩
  · split at h
    · cases h
    · obtain ⟨hp, hw⟩ := of_accept h
      have he := encode_of_vParts (vParts_of_pickV hp)
      rw [BitVec.ofNat_toNat, BitVec.setWidth_eq, packV_unpackV] at he
      exact ⟨hw, he⟩

theorem of_decodeM {w : Word} (h : decodeM w long = .ok i) : i.wf = true ∧ encode i = slotRecord 4 w.toNat long := by
  unfold decodeM at h
  dsimp only at h
  split at h
  · obtain ⟨rfl, hz, hl⟩ := of_acceptNop h
    simp only [beq_iff_eq, bne_eq_false_iff_eq] at hz hl
    exact ⟨rfl, by rw [hz, hl]; rfl⟩
  · obtain ⟨hp, hw⟩ := of_accept h
    have he := encode_of_mParts (mParts_of_pickM hp)
    rw [BitVec.ofNat_toNat, BitVec.setWidth_eq, packM_unpackM] at he
    exact ⟨hw, he⟩

theorem of_decodeC {w : Word} {c1 : Bool} (h : decodeC w c1 long = .ok i) :
    i.wf = true ∧ encode i = slotRecord (if c1 then 6 else 5) w.toNat long := by
  unfold decodeC at h
  dsimp only at h
  split at h
  · obtain ⟨rfl, hz, hl⟩ := of_acceptNop h
    simp only [beq_iff_eq, bne_eq_false_iff_eq] at hz hl
    rw [hz, hl]
    cases c1 <;> exact ⟨rfl, rfl⟩
  · obtain ⟨hp, hw⟩ := of_accept h
    have he := encode_of_cParts (cParts_of_pickC hp)
    rw [BitVec.ofNat_toNat, BitVec.setWidth_eq, packC_unpackC] at he
    exact ⟨hw, he⟩

theorem of_decodeX {w : BitVec 32} (h : decodeX w = .ok i) : i.wf = true ∧ encode i = slotRecord 7 w.toNat none := by
  unfold decodeX at h
  split at h
  · split at h
    · rename_i hz
      cases h
      rw [eq_of_beq hz]
      exact ⟨rfl, rfl⟩
    · cases h
  · obtain ⟨hp, hw⟩ := of_accept h
    have he := encode_of_xParts (xParts_of_pickX hp)
    rw [BitVec.ofNat_toNat, BitVec.setWidth_eq, packX_unpackX] at he
    exact ⟨hw, he⟩

theorem of_decodeField {tag w : Nat} (hw : w < 2 ^ 64) (h : decodeField tag w long = .ok i) :
    i.wf = true ∧ encode i = slotRecord tag w long := by
  have hn : (BitVec.ofNat 64 w).toNat = w := by rw [BitVec.toNat_ofNat, Nat.mod_eq_of_lt hw]
  unfold decodeField at h
  split at h
  · simpa only [hn] using of_decodeS h
  · simpa only [hn] using! of_decodeV h
  · simpa only [hn] using! of_decodeV h
  · simpa only [hn] using of_decodeM h
  · simpa only [hn] using! of_decodeC h
  · simpa only [hn] using! of_decodeC h
  · split at h
    · rename_i hc
      simp only [Bool.and_eq_true, beq_iff_eq, decide_eq_true_eq] at hc
      obtain ⟨rfl, hlt⟩ := hc
      simpa only [BitVec.toNat_ofNat, Nat.mod_eq_of_lt hlt] using of_decodeX h
    · cases h
  · cases h

/-- Sixteen bytes and what follows are the record's two numbers and the rest. -/
theorem body_eq {body : List Byte} (h : ¬ body.length < 16) :
    bytesOfNat 8 (natOfBytes (body.take 8)) ++ bytesOfNat 8 (natOfBytes ((body.drop 8).take 8)) ++ body.drop 16 = body := by
  have h1 : (body.take 8).length = 8 := by rw [List.length_take]; omega
  have h2 : ((body.drop 8).take 8).length = 8 := by rw [List.length_take, List.length_drop]; omega
  have e1 := bytesOfNat_natOfBytes (body.take 8)
  have e2 := bytesOfNat_natOfBytes ((body.drop 8).take 8)
  rw [h1] at e1
  rw [h2] at e2
  rw [e1, e2, List.append_assoc, show 16 = 8 + 8 from rfl, ← List.drop_drop, List.take_append_drop, List.take_append_drop]

theorem natOfBytes_take_lt (l : List Byte) : natOfBytes (l.take 8) < 2 ^ 64 := by
  have h := natOfBytes_lt (l.take 8)
  have hl : (l.take 8).length ≤ 8 := List.length_take_le 8 l
  exact lt_of_lt_of_le h (Nat.pow_le_pow_right (by decide) hl)

theorem of_decode_slot {tag has : Byte} {body rest : List Byte} (ht : tag ≠ 8)
    (h : decode (tag :: has :: body) = .ok (i, rest)) : i.wf = true ∧ tag :: has :: body = encode i ++ rest := by
  simp only [decode, beq_iff_eq, if_neg ht] at h
  split at h
  · cases h
  rename_i hlen
  have hb := body_eq hlen
  have hw := natOfBytes_take_lt body
  have hm := natOfBytes_take_lt (body.drop 8)
  split at h
  · cases h
  rename_i hzero
  split at h
  · cases h
  rename_i hhas
  split at h
  · cases h
  rename_i i' hd
  cases h
  obtain ⟨hwf, he⟩ := of_decodeField hw hd
  refine ⟨hwf, ?_⟩
  rw [he, slotRecord, BitVec.ofNat_toNat, BitVec.setWidth_eq]
  conv => lhs; rw [← hb]
  by_cases h0 : has = 0
  · have hi : natOfBytes ((body.drop 8).take 8) = 0 := by simpa [h0] using hzero
    simp [h0, hi]
  · have h1 : has = 1 := by
      apply BitVec.eq_of_toNat_eq
      have : has.toNat ≠ 0 := fun h => h0 (BitVec.eq_of_toNat_eq h)
      show has.toNat = 1
      omega
    simp [h1]
    exact congrArg (bytesOfNat 8) (Nat.mod_eq_of_lt hm).symm

theorem of_decode_event {tail rest : List Byte} (h : decode (8 :: tail) = .ok (i, rest)) :
    i.wf = true ∧ 8 :: tail = encode i ++ rest := by
  simp only [decode, BEq.rfl, reduceIte] at h
  split at h
  · rename_i r0 r1 n args
    split at h
    · cases h
    rename_i xs rest' hr
    split at h
    · cases h
    rename_i j he
    split at h
    · cases h
      obtain ⟨hlen, hargs, -⟩ := u64Bytes_readU64s _ _ _ _ hr
      have hrow := bytesOfNat_natOfBytes [r0, r1]
      rw [encode_of_eventArgs (eventArgs_of_eventOf he), hlen, hargs, BitVec.ofNat_toNat, BitVec.setWidth_eq]
      refine ⟨‹_›, ?_⟩
      rw [show 2 = [r0, r1].length from rfl, hrow]
      simp
    · cases h
  · cases h

theorem encode_of_decode {bs rest : List Byte} (h : decode bs = .ok (i, rest)) : i.wf = true ∧ bs = encode i ++ rest := by
  match bs with
  | [] => cases h
  | tag :: tail =>
    by_cases ht : tag = 8
    · subst ht
      exact of_decode_event h
    · match tail with
      | [] => simp [decode] at h
      | has :: body => exact of_decode_slot ht h

end
end Sys2Proof
end

section
open Sys2Proof

/-- Settles O10: an instruction is NOP, a slot instruction or an event, and the record of each is read back from its parts. -/
theorem decodeOfEncode : Obligations.DecodeOfEncode := by
  unfold Obligations.DecodeOfEncode
  exact fun i rest hw => decode_encode i rest hw

/-- Settles O11: what the field, opcode and event maps read has the parts that were read, so its record is the bytes read. -/
theorem encodeOfDecode : Obligations.EncodeOfDecode := by
  unfold Obligations.EncodeOfDecode
  exact fun _ _ _ h => encode_of_decode h

/-- Settles O12: each of the worked words, read field by field. -/
theorem workedEncodings : Obligations.WorkedEncodings := by
  unfold Obligations.WorkedEncodings
  refine ⟨?_, ?_, ?_, ?_, ?_, ?_, ?_, ?_, ?_, ?_⟩ <;> rfl
end

section
/-! SUPPORT. What any list of changes keeps, what a step can be, and the canonical form of the state. -/

namespace Sys2Proof.Machine

/-! ## Changes -/

/-- What every change of a list keeps, all of them together keep. -/
theorem State.commit_keeps {P : State → Prop} : ∀ {us : List Upd} {s : State},
    (∀ u ∈ us, ∀ s, P s → P (s.apply u)) → P s → P (s.commit us)
  | [], _, _, hs => hs
  | u :: us, s, h, hs => by
    rw [State.commit_cons]
    exact State.commit_keeps (fun v hv => h v (List.mem_cons_of_mem u hv)) (h u List.mem_cons_self s hs)

@[simp] theorem State.apply_now (s : State) (u : Upd) : (s.apply u).now = s.now := by
  cases u <;> rfl
@[simp] theorem State.commit_now (s : State) (us : List Upd) : (s.commit us).now = s.now :=
  State.commit_keeps (P := fun t => t.now = s.now) (fun u _ t h => (t.apply_now u).trans h) rfl

/-! ## What a step can be -/

/-- A step is an instruction's changes, after its place in the lists of what is to be done is taken, or time that passes. -/
theorem step_cases {s t : State} (h : step s = .next t) :
    (∃ micro cur timers agenda us,
      t = ({ s with micro := micro, cur := cur, timers := timers, agenda := agenda } : State).commit us) ∨
    s.advance = some t := by
  simp only [step] at h
  split at h
  · obtain ⟨us, ht⟩ := exec_next h
    exact .inl ⟨_, s.cur, s.timers, s.agenda, us, ht⟩
  split at h
  · obtain ⟨us, ht⟩ := exec_next h
    exact .inl ⟨s.micro, _, s.timers, s.agenda, us, ht⟩
  split at h
  · obtain ⟨us, ht⟩ := exec_next h
    exact .inl ⟨s.micro, s.cur, _, s.agenda, us, ht⟩
  split at h
  · simp only [State.carryOut] at h
    split at h
    · obtain ⟨us, ht⟩ := exec_next h
      exact .inl ⟨s.micro, _, s.timers, _, us, ht⟩
    · cases h
  split at h
  · cases h
    exact .inr ‹_›
  · cases h

/-- Time passes to the next instant, which is not an earlier one. -/
theorem advance_cases {s t : State} (h : s.advance = some t) : ∃ n, t = ({ s with now := max s.now n } : State).instant := by
  obtain ⟨n, -, ht⟩ := Option.map_eq_some_iff.mp h
  exact ⟨n, ht.symm⟩

/-- What the packages' ticks of an instant change. -/
def State.tickUpds (s : State) : List Upd :=
  (s.packages.filter fun p => (s.pkg p).tickAt <= s.now).flatMap fun p => chargeUpds s p ++ [.pkg p (Pkg.clock (s.rate p))]
/-- The dies whose cycle ends at an instant. -/
def State.cycling (s : State) : List DieId := s.clocked.filter fun d => (s.die d).edge <= s.now
/-- The cycles of dies, one after another. -/
def State.cycles (s : State) (ds : List DieId) : State := ds.foldl (fun s d => s.commit (s.dieCycle d)) s

theorem instant_eq (s : State) : s.instant = (s.commit s.tickUpds).cycles (s.commit s.tickUpds).cycling := rfl

theorem cycles_eq_commit : ∀ (ds : List DieId) (s : State), ∃ us, s.cycles ds = s.commit us
  | [], _ => ⟨[], rfl⟩
  | d :: ds, s => by
    obtain ⟨us, hus⟩ := cycles_eq_commit ds (s.commit (s.dieCycle d))
    exact ⟨s.dieCycle d ++ us, by rw [State.commit_append, ← hus]; rfl⟩

/-- An instant is a list of changes. -/
theorem instant_eq_commit (s : State) : ∃ us, s.instant = s.commit us := by
  obtain ⟨us, hus⟩ := cycles_eq_commit (s.commit s.tickUpds).cycling (s.commit s.tickUpds)
  exact ⟨s.tickUpds ++ us, by rw [State.commit_append, ← hus, instant_eq]⟩

/-! ## The canonical form -/

theorem keysFrom_mmod {β : Type} {m : SMap β} (k : Nat) (d : β) (f : β → β) (h : keysFrom 0 m = true) :
    keysFrom 0 (mmod m k d f) = true :=
  keysFrom_mput _ (Nat.zero_le k) h

theorem keysFrom_mupd {β : Type} {m : SMap β} (k : Nat) (f : Option β → Option β) (h : keysFrom 0 m = true) :
    keysFrom 0 (mupd m k f) = true := by
  unfold mupd
  split
  · exact keysFrom_mput _ (Nat.zero_le k) h
  · exact keysFrom_mdel k h

theorem Canon.apply {s : State} (h : s.Canon) (u : Upd) : (s.apply u).Canon := by
  cases u with
  | slot k f => exact { h with slots := keysFrom_mmod k _ f h.slots }
  | die d f => exact { h with dies := keysFrom_mmod d _ f h.dies }
  | pkg p f => exact { h with pkgs := keysFrom_mmod p _ f h.pkgs }
  | node r f => exact { h with nodes := keysFrom_mmod r _ f h.nodes }
  | range k v => exact { h with ranges := keysFrom_mupd k (fun _ => v) h.ranges }
  | root k v => exact { h with roots := keysFrom_mupd k (fun _ => v) h.roots }
  | plane k f => exact { h with planes := keysFrom_mupd k f h.planes }
  | barrier k f => exact { h with barriers := keysFrom_mupd k f h.barriers }
  | window k v => exact { h with windows := keysFrom_mupd k (fun _ => v) h.windows }
  | circuit k f => exact { h with circuits := keysFrom_mupd k f h.circuits }
  | seqNo src n => exact { h with seqs := keysFrom_mput n (Nat.zero_le src) h.seqs }
  | mem a bs => exact { h with mem := wf_memWrite bs a h.mem }
  | zero a n => exact { h with mem := wf_memClear a n h.mem }
  | _ => exact { h with }

theorem Canon.commit {s : State} (h : s.Canon) (us : List Upd) : (s.commit us).Canon :=
  State.commit_keeps (P := State.Canon) (fun u _ _ ht => Canon.apply ht u) h

theorem step_keeps_canon {s t : State} (hs : s.Canon) (h : step s = .next t) : t.Canon := by
  rcases step_cases h with ⟨micro, cur, timers, agenda, us, rfl⟩ | h
  · exact Canon.commit (s := { s with micro := micro, cur := cur, timers := timers, agenda := agenda }) { hs with } us
  · obtain ⟨n, rfl⟩ := advance_cases h
    obtain ⟨us, hus⟩ := instant_eq_commit { s with now := max s.now n }
    rw [hus]
    exact Canon.commit (s := { s with now := max s.now n }) { hs with } us

/-! ## The instant -/

theorem step_now_le {s t : State} (h : step s = .next t) : s.now ≤ t.now := by
  rcases step_cases h with ⟨micro, cur, timers, agenda, us, rfl⟩ | h
  · rw [State.commit_now]
  · obtain ⟨n, rfl⟩ := advance_cases h
    obtain ⟨us, hus⟩ := instant_eq_commit { s with now := max s.now n }
    rw [hus, State.commit_now]
    exact Nat.le_max_left s.now n

end Sys2Proof.Machine
end

section
open Sys2Proof Sys2Proof.Machine

/-- Settles O14: a step is a list of changes or an instant of time, which is one too, and every change keeps the form. -/
theorem stepKeepsCanonicalForm : Obligations.StepKeepsCanonicalForm := by
  unfold Obligations.StepKeepsCanonicalForm
  exact fun _ _ hs h => step_keeps_canon hs h

/-- Settles O15: nothing is listed at reset but package 0 and its dies, in the order of their keys. -/
theorem resetIsCanonical : Obligations.ResetIsCanonical := by
  unfold Obligations.ResetIsCanonical
  constructor <;> decide

/-- Settles O13: the dispatch of `step`, branch by branch. -/
theorem stepRunsTheDecodedInstruction : Obligations.StepRunsTheDecodedInstruction := by
  unfold Obligations.StepRunsTheDecodedInstruction
  refine fun s => ⟨fun i rest hm => ?_, fun e i rest hm hd ht ha hat hdec => ?_, fun d i hm hd => ?_⟩
  · simp only [step, hm]
  · have hf : s.fetch = some e := by
      unfold State.fetch
      cases hag : s.agenda with
      | nil => simp [hag] at ha
      | cons e' l =>
        obtain rfl : e' = e := by simpa [hag] using ha
        simp [hat]
    simp only [step, hm, hd, ht, hf, State.carryOut, hdec]
  · simp only [step, hm, hd]

end

section
/-! SUPPORT. What an instant brings (R54–R56): the ticks of packages change their clocks alone, and a die cycle changes no
clock but that of its own die. -/

namespace Sys2Proof.Machine

/-! ## Changes beside the clocks -/

/-- The parts of a die that its cycle generator owns are the same. -/
structure Die.SameClock (k k' : Die) : Prop where
  cyc : k'.cyc = k.cyc
  edge : k'.edge = k.edge
  period : k'.period = k.period
  tick : k'.tick = k.tick
  slip : k'.slip = k.slip
  slipmax : k'.slipmax = k.slipmax
  short : k'.short = k.short

theorem Die.SameClock.rfl' (k : Die) : k.SameClock k := ⟨rfl, rfl, rfl, rfl, rfl, rfl, rfl⟩
theorem Die.SameClock.trans {k k' k'' : Die} (h : k.SameClock k') (h' : k'.SameClock k'') : k.SameClock k'' :=
  ⟨h'.cyc.trans h.cyc, h'.edge.trans h.edge, h'.period.trans h.period, h'.tick.trans h.tick, h'.slip.trans h.slip,
    h'.slipmax.trans h.slipmax, h'.short.trans h.short⟩

/-- A change of slots, of the region tree, of the free values, or of die `d` beside its clock. -/
def Upd.Beside (d : DieId) : Upd → Prop
  | .slot _ _ | .node _ _ | .drawn _ => True
  | .die e f => e = d ∧ ∀ k : Die, k.SameClock (f k)
  | _ => False

/-- Memory, packages, the instant, the other dies and the clock of die `d` are the same. -/
structure Beside (d : DieId) (s t : State) : Prop where
  mem : t.mem = s.mem
  pkgs : t.pkgs = s.pkgs
  now : t.now = s.now
  others : ∀ e, e ≠ d → t.die e = s.die e
  clock : (s.die d).SameClock (t.die d)

theorem Beside.rfl' (d : DieId) (s : State) : Beside d s s := ⟨rfl, rfl, rfl, fun _ _ => rfl, .rfl' _⟩
theorem Beside.trans {d : DieId} {s t u : State} (h : Beside d s t) (h' : Beside d t u) : Beside d s u :=
  ⟨h'.mem.trans h.mem, h'.pkgs.trans h.pkgs, h'.now.trans h.now, fun e he => (h'.others e he).trans (h.others e he),
    h.clock.trans h'.clock⟩

theorem Upd.Beside.apply {d : DieId} {u : Upd} (h : u.Beside d) (s : State) : Machine.Beside d s (s.apply u) := by
  cases u with
  | slot k f => exact ⟨rfl, rfl, rfl, fun _ _ => rfl, .rfl' _⟩
  | node r f => exact ⟨rfl, rfl, rfl, fun _ _ => rfl, .rfl' _⟩
  | drawn n => exact ⟨rfl, rfl, rfl, fun _ _ => rfl, .rfl' _⟩
  | die e f =>
    obtain ⟨rfl, hf⟩ := h
    refine ⟨rfl, rfl, rfl, fun e' he => ?_, ?_⟩
    · rw [State.die_apply_die, if_neg he]
    · rw [State.die_apply_die, if_pos rfl]
      exact hf _
  | _ => exact h.elim

theorem beside_commit {d : DieId} {us : List Upd} (h : ∀ u ∈ us, u.Beside d) (s : State) : Beside d s (s.commit us) :=
  State.commit_keeps (P := Beside d s) (fun u hu _ ht => ht.trans ((h u hu).apply _)) (.rfl' d s)

/-- The changes of rules that are applied one after another are those of one rule after another. -/
theorem commit_seqUpds (s : State) (fs : List (State → List Upd)) :
    s.commit (seqUpds s fs) = fs.foldl (fun s f => s.commit (f s)) s := by
  have hacc : ∀ (fs : List (State → List Upd)) (t : State) (us : List Upd), t = s.commit us →
      s.commit (fs.foldl (fun (acc : State × List Upd) f => (acc.1.commit (f acc.1), acc.2 ++ f acc.1)) (t, us)).2 =
        fs.foldl (fun s f => s.commit (f s)) t := by
    intro fs
    induction fs with
    | nil => exact fun t us h => h.symm
    | cons f fs ih => exact fun t us h => ih _ _ (by rw [State.commit_append, h])
  exact hacc fs s [] rfl

/-! ## What a die cycle does beside its clock -/

theorem activation_beside (s : State) (d : DieId) (k : SlotKey) (tick : Nat) : ∀ u ∈ s.activation k tick, u.Beside d := by
  unfold State.activation
  dsimp only
  split
  · intro u hu
    rcases List.mem_cons.mp hu with rfl | hu
    · trivial
    · obtain ⟨j, -, rfl⟩ := List.mem_map.mp hu
      trivial
  · exact fun u hu => absurd hu List.not_mem_nil

theorem arrayErrors_beside (s : State) (d : DieId) : ∀ u ∈ s.arrayErrors d, u.Beside d := by
  unfold State.arrayErrors
  dsimp only
  split
  · exact fun u hu => absurd hu List.not_mem_nil
  · intro u hu
    simp only [List.mem_append, List.mem_flatMap, List.mem_singleton] at hu
    rcases hu with (⟨x, -, hx⟩ | ⟨x, -, hx | hx⟩) | rfl
    · split at hx
      · obtain rfl := List.mem_singleton.mp hx
        exact ⟨rfl, fun _ => ⟨rfl, rfl, rfl, rfl, rfl, rfl, rfl⟩⟩
      · cases hx
    · split at hx
      · obtain rfl := List.mem_singleton.mp hx
        exact ⟨rfl, fun _ => ⟨rfl, rfl, rfl, rfl, rfl, rfl, rfl⟩⟩
      · cases hx
    · split at hx
      · obtain rfl := List.mem_singleton.mp hx
        exact ⟨rfl, fun _ => ⟨rfl, rfl, rfl, rfl, rfl, rfl, rfl⟩⟩
      · cases hx
    · trivial

theorem lane_sameClock (k : Die) (e : Effect) : k.SameClock (k.lane e) := ⟨rfl, rfl, rfl, rfl, rfl, rfl, rfl⟩
theorem modOp_sameClock (k : Die) (ch id : Nat) (f : CopyOp → CopyOp) : k.SameClock (k.modOp ch id f) := by
  unfold Die.modOp
  dsimp only
  split <;> exact ⟨rfl, rfl, rfl, rfl, rfl, rfl, rfl⟩

theorem encStarts_beside (s : State) (d : DieId) : ∀ u ∈ encStarts s d, u.Beside d := by
  unfold encStarts
  split
  · split
    · intro u hu
      simp only [List.mem_cons, List.not_mem_nil, or_false] at hu
      rcases hu with rfl | rfl <;> exact ⟨rfl, fun _ => ⟨rfl, rfl, rfl, rfl, rfl, rfl, rfl⟩⟩
    · exact fun u hu => absurd hu List.not_mem_nil
  · exact fun u hu => absurd hu List.not_mem_nil

/-- What the spine has granted stands beside the clock of its die. -/
def Granted.Beside (d : DieId) (g : Granted) : Prop := ∀ u ∈ g.us, u.Beside d

theorem give_beside {d : DieId} {g : Granted} (h : g.Beside d) {us : List Upd} (hus : ∀ u ∈ us, u.Beside d) (bank : Nat) :
    (g.give us bank).Beside d := fun u hu => by
  rcases List.mem_append.mp hu with hu | hu
  · exact h u hu
  · exact hus u hu

theorem enc_beside {d : DieId} : ∀ (n : Nat) {g : Granted}, g.Beside d → (Granted.enc d n g).Beside d
  | 0, _, h => h
  | n + 1, g, h => by
    unfold Granted.enc
    split
    · exact h
    split
    · exact h
    split
    · refine enc_beside n (give_beside h (fun u hu => ?_) _)
      simp only [List.mem_cons, List.not_mem_nil, or_false] at hu
      rcases hu with rfl | rfl <;> exact ⟨rfl, fun _ => ⟨rfl, rfl, rfl, rfl, rfl, rfl, rfl⟩⟩
    · exact h

theorem peer_beside {d : DieId} : ∀ (l stuck : List Nat) {g : Granted}, g.Beside d → (Granted.peer d l stuck g).Beside d
  | [], _, _, h => h
  | ref :: l, stuck, g, h => by
    unfold Granted.peer
    dsimp only
    split
    · refine peer_beside l stuck (give_beside h (fun u hu => ?_) _)
      obtain rfl := List.mem_singleton.mp hu
      exact ⟨rfl, fun _ => ⟨rfl, rfl, rfl, rfl, rfl, rfl, rfl⟩⟩
    split
    · exact peer_beside l _ h
    · refine peer_beside l stuck (give_beside h (fun u hu => ?_) _)
      simp only [List.mem_cons, List.not_mem_nil, or_false] at hu
      rcases hu with rfl | rfl <;> exact ⟨rfl, fun _ => ⟨rfl, rfl, rfl, rfl, rfl, rfl, rfl⟩⟩

theorem chan_beside {d : DieId} {ch : Nat} : ∀ (n : Nat) {g : Granted}, g.Beside d → (Granted.chan d ch n g).Beside d
  | 0, _, h => h
  | n + 1, g, h => by
    unfold Granted.chan
    dsimp only
    split
    · exact h
    split
    · refine chan_beside n (give_beside h (fun u hu => ?_) _)
      obtain rfl := List.mem_singleton.mp hu
      exact ⟨rfl, fun k => (modOp_sameClock k _ _ _).trans (lane_sameClock _ _)⟩
    · exact h

theorem grants_beside (s : State) (d : DieId) : ∀ u ∈ s.grants d, u.Beside d := by
  unfold State.grants
  dsimp only
  intro u hu
  simp only [List.mem_append, List.mem_singleton] at hu
  rcases hu with (hu | hu) | rfl
  · exact encStarts_beside s d u hu
  · exact chan_beside _ (chan_beside _ (peer_beside _ _ (enc_beside _ fun u hu => absurd hu List.not_mem_nil))) u hu
  · exact ⟨rfl, fun _ => ⟨rfl, rfl, rfl, rfl, rfl, rfl, rfl⟩⟩

/-- A die cycle is a cycle of the die's clock, and what stands beside it. -/
theorem dieCycle_beside (s : State) (d : DieId) :
    Beside d (s.apply (.die d (Die.cycle (s.sample d) (cycleLength (s.die d).short (s.rate (diePkg d)) (s.freeWord 0))
      (s.rate (diePkg d))))) (s.commit (s.dieCycle d)) := by
  rw [State.dieCycle, commit_seqUpds]
  simp only [List.foldl_cons, List.foldl_nil, List.cons_append, List.nil_append, State.commit_cons]
  refine ((Beside.trans ?_ (beside_commit ?_ _)).trans (beside_commit (arrayErrors_beside _ d) _)).trans
    (beside_commit (grants_beside _ d) _)
  · refine (Upd.Beside.apply (u := .drawn 1) trivial _).trans (beside_commit (fun u hu => ?_) _)
    split at hu
    · obtain rfl := List.mem_singleton.mp hu
      trivial
    · cases hu
  · split
    · exact activation_beside _ d _ _
    · exact fun u hu => absurd hu List.not_mem_nil

/-! ## The clock of a die -/

/-- A die cycle as R54–R56 and R55 have it, from the tick that is read at its start. -/
structure Die.NextCycle (tick : Nat) (k k' : Die) : Prop where
  cyc : k'.cyc = k.cyc + 1
  edge : k'.edge = k.edge + k'.period
  le_period : 500 ≤ k'.period
  period_le : k'.period ≤ 625
  short : k.short = true → 500 < k'.period
  slip : k'.slip = max 0 (k.slip + 20 * k'.period - (10000 + k.slipmax))
  tick : k'.tick = tick

/-- A die cycle lasts 0.5 to 0.625 ns, and longer than 0.5 ns while the grant is below the demand (R54, R264). -/
theorem cycleLength_bounds (short : Bool) (rate : Int) (free : Word) :
    500 ≤ cycleLength short rate free ∧ cycleLength short rate free ≤ 625 ∧
      (short = true → 500 < cycleLength short rate free) := by
  unfold cycleLength
  dsimp only [Config.cycleMin, Config.cycleMax]
  by_cases hr : 0 < rate <;> cases short <;> simp [hr] <;> omega

theorem cycle_nextCycle (k : Die) (tick : Nat) (rate : Int) (free : Word) :
    k.NextCycle tick (Die.cycle tick (cycleLength k.short rate free) rate k) := by
  obtain ⟨h1, h2, h3⟩ := cycleLength_bounds k.short rate free
  exact ⟨rfl, rfl, h1, h2, h3, rfl, rfl⟩

theorem Die.NextCycle.of_sameClock {tick : Nat} {k k' k'' : Die} (h : k.NextCycle tick k') (h' : k'.SameClock k'') :
    k.NextCycle tick k'' := by
  obtain ⟨hc, he, hl, hu, hs, hp, ht⟩ := h
  obtain ⟨hc', he', hp', ht', hs', -, -⟩ := h'
  exact ⟨hc'.trans hc, by rw [he', hp', he], by rw [hp']; exact hl, by rw [hp']; exact hu, by rw [hp']; exact hs,
    by rw [hs', hp', hp], ht'.trans ht⟩

theorem sample_le (s : State) (d : DieId) : s.sample d ≤ (s.pkg (diePkg d)).gtc := by
  unfold State.sample
  dsimp only
  split <;> omega
theorem le_sample (s : State) (d : DieId) : (s.pkg (diePkg d)).gtc ≤ s.sample d + 1 := by
  unfold State.sample
  dsimp only
  split <;> omega

/-- The cycle of one die: its clock goes on by one cycle, and the other dies, the packages and memory stay. -/
theorem dieCycle_spec (s : State) (d : DieId) : let t := s.commit (s.dieCycle d)
    t.mem = s.mem ∧ t.pkgs = s.pkgs ∧ (∀ e, e ≠ d → t.die e = s.die e) ∧ (s.die d).NextCycle (s.sample d) (t.die d) := by
  obtain ⟨hm, hp, -, ho, hc⟩ := dieCycle_beside s d
  refine ⟨hm, hp, fun e he => (ho e he).trans ?_, ?_⟩
  · rw [State.die_apply_die, if_neg he]
  · rw [State.die_apply_die, if_pos rfl] at hc
    exact (cycle_nextCycle _ _ _ _).of_sameClock hc

/-- A cycle of a die that reads the GTC of its package at most one tick late (R56). -/
def Die.Ticks (gtc : Nat) (k k' : Die) : Prop := ∃ tick, tick ≤ gtc ∧ gtc ≤ tick + 1 ∧ k.NextCycle tick k'

/-- The cycles of several dies: each of them goes on by one, and no other. -/
theorem cycles_spec : ∀ (ds : List DieId) (s : State), ds.Nodup → let t := s.cycles ds
    t.mem = s.mem ∧ t.pkgs = s.pkgs ∧ (∀ e ∉ ds, t.die e = s.die e) ∧
      ∀ e ∈ ds, (s.die e).Ticks (s.pkg (diePkg e)).gtc (t.die e)
  | [], s, _ => ⟨rfl, rfl, fun _ _ => rfl, fun e he => absurd he List.not_mem_nil⟩
  | d :: ds, s, hn => by
    obtain ⟨hd, hn⟩ := List.nodup_cons.mp hn
    obtain ⟨hm, hp, ho, hc⟩ := dieCycle_spec s d
    obtain ⟨im, ip, io, ic⟩ := cycles_spec ds (s.commit (s.dieCycle d)) hn
    have hpkg : ∀ p, (s.commit (s.dieCycle d)).pkg p = s.pkg p := fun p => by rw [State.pkg, hp]; rfl
    refine ⟨im.trans hm, ip.trans hp, fun e he => ?_, fun e he => ?_⟩
    · obtain ⟨hed, heds⟩ := List.ne_and_not_mem_of_not_mem_cons he
      exact (io e heds).trans (ho e hed)
    · by_cases hed : e = d
      · subst hed
        exact ⟨_, sample_le s e, le_sample s e, by
          rw [show (s.cycles (e :: ds)).die e = (s.commit (s.dieCycle e)).die e from io e hd]
          exact hc⟩
      · have := ic e ((List.mem_cons.mp he).resolve_left hed)
        rwa [hpkg, ho e hed] at this

/-! ## The ticks of packages -/

/-- The keys of a map that rises are different. -/
theorem keysFrom_nodup {β : Type} : ∀ {lo : Nat} {m : SMap β}, keysFrom lo m = true →
    (m.map fun e => e.1).Nodup ∧ ∀ e ∈ m, lo ≤ e.1
  | _, [], _ => ⟨List.nodup_nil, fun _ h => absurd h List.not_mem_nil⟩
  | lo, (k, v) :: m, h => by
    simp only [keysFrom, Bool.and_eq_true, decide_eq_true_eq] at h
    obtain ⟨hn, hl⟩ := keysFrom_nodup h.2
    refine ⟨List.nodup_cons.mpr ⟨fun hk => ?_, hn⟩, fun e he => ?_⟩
    · obtain ⟨e, he, hek⟩ := List.mem_map.mp hk
      have hle : k + 1 ≤ e.1 := hl e he
      have hek : e.1 = k := hek
      omega
    · rcases List.mem_cons.mp he with rfl | he
      · exact h.1
      · have hle : k + 1 ≤ e.1 := hl e he
        have hlo : lo ≤ k := h.1
        omega

theorem keysFrom_nodup_filter {β : Type} {lo : Nat} {m : SMap β} (h : keysFrom lo m = true) (p : Nat × β → Bool) :
    ((m.filter p).map fun e => e.1).Nodup :=
  (keysFrom_nodup (keysFrom_filter p h)).1

/-- What a map holds elsewhere than its default is listed. -/
theorem mem_of_mfind {β : Type} {k : Nat} {v : β} : ∀ {m : SMap β}, mfind k m = some v → (k, v) ∈ m
  | [], h => by cases h
  | (j, w) :: m, h => by
    simp only [mfind] at h
    split at h
    · rename_i hj
      obtain rfl := eq_of_beq hj
      cases h
      exact List.mem_cons_self
    · split at h
      · exact List.mem_cons_of_mem _ (mem_of_mfind h)
      · cases h

theorem mem_packages {s : State} {p : PkgId} (h : (s.pkg p).present = true) : p ∈ s.packages := by
  have hp : s.pkg p = (mfind p s.pkgs).getD .blank := rfl
  cases hf : mfind p s.pkgs with
  | none =>
    rw [hp, hf] at h
    cases h
  | some v =>
    rw [hp, hf] at h
    exact List.mem_map.mpr ⟨(p, v), List.mem_filter.mpr ⟨mem_of_mfind hf, h⟩, rfl⟩

/-- Charges of budgets are changes of the region tree alone. -/
theorem chargeUpds_node (s : State) (p : PkgId) : ∀ u ∈ chargeUpds s p, ∃ r f, u = .node r f := by
  unfold chargeUpds
  intro u hu
  obtain ⟨e, -, hu⟩ := List.mem_flatMap.mp hu
  split at hu
  · cases hu
  · obtain ⟨x, -, rfl⟩ := List.mem_map.mp hu
    exact ⟨_, _, rfl⟩

/-- Changes of the region tree alone. -/
theorem commit_nodes {us : List Upd} (h : ∀ u ∈ us, ∃ r f, u = .node r f) (s : State) :
    (s.commit us).mem = s.mem ∧ (s.commit us).pkgs = s.pkgs ∧ (s.commit us).dies = s.dies :=
  State.commit_keeps (P := fun t => t.mem = s.mem ∧ t.pkgs = s.pkgs ∧ t.dies = s.dies)
    (fun u hu t ht => by obtain ⟨r, f, rfl⟩ := h u hu; exact ht) ⟨rfl, rfl, rfl⟩

/-- The ticks of several packages: the clock of each of them goes on once, and no other. -/
theorem ticks_spec (charge : PkgId → List Upd) (hc : ∀ p, ∀ u ∈ charge p, ∃ r f, u = .node r f) (rate : PkgId → Int) :
    ∀ (ps : List PkgId) (s : State), ps.Nodup →
      let t := s.commit (ps.flatMap fun p => charge p ++ [.pkg p (Pkg.clock (rate p))])
      t.mem = s.mem ∧ t.dies = s.dies ∧ (∀ p ∉ ps, t.pkg p = s.pkg p) ∧ ∀ p ∈ ps, t.pkg p = Pkg.clock (rate p) (s.pkg p)
  | [], _, _ => ⟨rfl, rfl, fun _ _ => rfl, fun p hp => absurd hp List.not_mem_nil⟩
  | p :: ps, s, hn => by
    obtain ⟨hp, hn⟩ := List.nodup_cons.mp hn
    obtain ⟨cm, cp, cd⟩ := commit_nodes (hc p) s
    obtain ⟨im, id, io, ic⟩ := ticks_spec charge hc rate ps ((s.commit (charge p)).apply (.pkg p (Pkg.clock (rate p)))) hn
    simp only [List.flatMap_cons, State.commit_append, State.commit_cons, State.commit_nil] at im id io ic ⊢
    have hpkg : ∀ q, (s.commit (charge p)).pkg q = s.pkg q := fun q => by rw [State.pkg, cp]; rfl
    refine ⟨im.trans cm, id.trans cd, fun q hq => ?_, fun q hq => ?_⟩
    · obtain ⟨hqp, hqs⟩ := List.ne_and_not_mem_of_not_mem_cons hq
      rw [io q hqs, State.pkg_apply_pkg, if_neg hqp, hpkg]
    · by_cases hqp : q = p
      · subst hqp
        rw [io q hp, State.pkg_apply_pkg, if_pos rfl, hpkg]
      · rw [ic q ((List.mem_cons.mp hq).resolve_left hqp), State.pkg_apply_pkg, if_neg hqp, hpkg]

/-! ## An instant -/

theorem packages_nodup {s : State} (h : s.Canon) : s.packages.Nodup := keysFrom_nodup_filter h.pkgs _
theorem clocked_nodup {s : State} (h : s.Canon) : s.clocked.Nodup := keysFrom_nodup_filter h.dies _

/-- The ticks leave the presence of packages, so the dies that a package clocks stay. -/
theorem clocked_eq {s t : State} (hd : t.dies = s.dies) (hp : ∀ p, (t.pkg p).present = (s.pkg p).present) :
    t.clocked = s.clocked := by
  simp only [State.clocked, hd, hp]

/-- What an instant does to the packages and the dies. -/
theorem instant_spec {s : State} (h : s.Canon) : let t := s.instant
    t.mem = s.mem ∧
    (∀ p, (s.pkg p).present = true → ((s.pkg p).tickAt ≤ s.now → t.pkg p = Pkg.clock (s.rate p) (s.pkg p)) ∧
      (s.now < (s.pkg p).tickAt → t.pkg p = s.pkg p)) ∧
    ∀ d ∈ s.clocked, ((s.die d).edge ≤ s.now → (s.die d).Ticks (t.pkg (diePkg d)).gtc (t.die d)) ∧
      (s.now < (s.die d).edge → t.die d = s.die d) := by
  obtain ⟨tm, td, to_, tc⟩ := ticks_spec (chargeUpds s) (chargeUpds_node s) s.rate
    (s.packages.filter fun p => (s.pkg p).tickAt <= s.now) s ((packages_nodup h).filter _)
  change (s.commit s.tickUpds).mem = s.mem at tm
  change (s.commit s.tickUpds).dies = s.dies at td
  have hdie : ∀ d, (s.commit s.tickUpds).die d = s.die d := fun d => by rw [State.die, td]; rfl
  have hpres : ∀ p, ((s.commit s.tickUpds).pkg p).present = (s.pkg p).present := fun p => by
    by_cases hp : p ∈ s.packages.filter fun p => (s.pkg p).tickAt <= s.now
    · rw [show (s.commit s.tickUpds).pkg p = _ from tc p hp]
      rfl
    · rw [show (s.commit s.tickUpds).pkg p = _ from to_ p hp]
  have hcl : (s.commit s.tickUpds).clocked = s.clocked := clocked_eq td hpres
  have hcyc : ∀ d, d ∈ (s.commit s.tickUpds).cycling ↔ d ∈ s.clocked ∧ (s.die d).edge ≤ s.now := fun d => by
    rw [State.cycling, List.mem_filter, hcl, hdie, State.commit_now, decide_eq_true_eq]
  obtain ⟨cm, cp, co, cc⟩ := cycles_spec (s.commit s.tickUpds).cycling (s.commit s.tickUpds)
    ((clocked_nodup (Canon.commit h s.tickUpds)).filter _)
  rw [← instant_eq] at cm cp co cc
  have hpkg : ∀ p, s.instant.pkg p = (s.commit s.tickUpds).pkg p := fun p => by rw [State.pkg, cp]; rfl
  refine ⟨cm.trans tm, fun p hp => ⟨fun ht => ?_, fun ht => ?_⟩, fun d hd => ⟨fun he => ?_, fun he => ?_⟩⟩
  · rw [hpkg]
    exact tc p (List.mem_filter.mpr ⟨mem_packages hp, by simpa using ht⟩)
  · rw [hpkg]
    exact to_ p fun hm => by
      have := (List.mem_filter.mp hm).2
      simp only [decide_eq_true_eq] at this
      omega
  · rw [hpkg]
    exact hdie d ▸ cc d ((hcyc d).mpr ⟨hd, he⟩)
  · exact (co d fun hm => by have := ((hcyc d).mp hm).2; omega).trans (hdie d)

/-- When nothing is due, a step is an instant of time that passes. -/
theorem step_idle {s t : State} (hm : s.micro = []) (hd : s.due = none) (ht : s.timerDue = none) (hf : s.fetch = none)
    (h : step s = .next t) : ∃ n, t = ({ s with now := max s.now n } : State).instant := by
  simp only [step, hm, hd, ht, hf] at h
  split at h
  · cases h
    exact advance_cases ‹_›
  · cases h

end Sys2Proof.Machine
end

section
open Sys2Proof Sys2Proof.Machine

/-- Settles O16: changes leave the instant, and an instant that passes is the ticks of packages and the cycles of dies, each
of which changes its own clock alone. -/
theorem timeNeverGoesBack : Obligations.TimeNeverGoesBack := by
  unfold Obligations.TimeNeverGoesBack
  refine ⟨fun _ _ h => step_now_le h, fun s t hs hm hd ht hf h => ?_⟩
  obtain ⟨n, rfl⟩ := step_idle hm hd ht hf h
  have hnow : ({ s with now := max s.now n } : State).instant.now = max s.now n := by
    obtain ⟨us, hus⟩ := instant_eq_commit { s with now := max s.now n }
    rw [hus, State.commit_now]
  obtain ⟨im, ip, id⟩ := instant_spec (s := { s with now := max s.now n }) { hs with }
  rw [hnow]
  refine ⟨im, fun p hp => ⟨fun h => ?_, (ip p hp).2⟩, fun d hd => ⟨fun h => ?_, (id d hd).2⟩⟩
  · rw [(ip p hp).1 h]
    rfl
  · obtain ⟨tick, hle, hge, hc⟩ := (id d hd).1 h
    exact ⟨hc.cyc, hc.edge, hc.le_period, hc.period_le, hc.short, hc.slip, hc.tick ▸ hle, hc.tick ▸ hge⟩

end

section
/-! SUPPORT. S-slot arithmetic, logic and predicates: what each operation owes, and its value in the integers. -/

namespace Sys2Proof.Machine

/-- A predicate operation whose predicate holds owes its result for p(D), and changes nothing else (R277, R357). -/
theorem predOp_of_on {f : SF} {s : State} (hon : f.on s.curCtx = true) (v : Ctx → Bool) :
    predOp f v s = .next (s.owes 1 (.pred f.d.toNat (v s.curCtx))) := by
  have hk : mget s.slots s.curKey .blank = s.curCtx := rfl
  simp [predOp, State.onSlot, State.by_, State.apply, mmod, hk, hon, State.owes, State.running, State.withCtx]

/-! ## Words and their integers -/

theorem signed_toNat {n : Nat} (hn : 0 < n) (a : BitVec n) : signed n a.toNat = a.toInt := by
  have h2 : 2 ^ n = 2 * 2 ^ (n - 1) := by rw [← Nat.pow_succ']; congr 1; omega
  simp only [signed, Nat.mod_eq_of_lt a.isLt, BitVec.toInt_eq_toNat_cond]
  by_cases h : a.toNat < 2 ^ (n - 1)
  · rw [if_pos h, if_pos (by omega)]
  · rw [if_neg h, if_neg (by omega)]
    norm_cast

theorem word_wrap (z : Int) : word (wrap 64 z) = BitVec.ofInt 64 z := by
  apply BitVec.eq_of_toNat_eq
  simp only [word, wrap, BitVec.toNat_ofNat, BitVec.toNat_ofInt]
  rw [Nat.mod_eq_of_lt]
  · rfl
  · omega

theorem word_toNat (a : Word) : word a.toNat = a := by
  simp [word]

/-- An integer of 64 bits two's complement comes back from the word that holds it. -/
theorem toInt_ofInt_of_range {z : Int} (h1 : -2 ^ 63 ≤ z) (h2 : z < 2 ^ 63) : (BitVec.ofInt 64 z).toInt = z := by
  rw [BitVec.toInt_ofInt]
  exact Int.bmod_eq_of_le (by simpa using h1) (by simpa using h2)

theorem clampInt_eq {lo hi : Int} (h : lo ≤ hi) (z : Int) : clampInt lo hi z = max lo (min hi z) := by
  unfold clampInt
  split <;> [skip; split] <;> omega

theorem toInt_bounds (a : Word) : -2 ^ 63 ≤ a.toInt ∧ a.toInt < 2 ^ 63 :=
  ⟨by simpa using BitVec.le_toInt a, by simpa using BitVec.toInt_lt (x := a)⟩

/-! ## Sums and products (R294, R352, R379) -/

section
variable {f : SF} (op : Int → Int → Int) (a b : Word)

theorem satScalar_wraps (h : f.mod = 0) : satScalar f op a b = BitVec.ofInt 64 (op a.toInt b.toInt) := by
  simp [satScalar, h, wordI]

theorem toInt_satScalar_i64 (h : f.mod = 1) :
    (satScalar f op a b).toInt = max (-2 ^ 63) (min (2 ^ 63 - 1) (op a.toInt b.toInt)) := by
  have hc := clampInt_eq (lo := -(2 ^ 63)) (hi := 2 ^ 63 - 1) (by decide) (op a.toInt b.toInt)
  simp only [satScalar, beq_iff_eq, h, if_true, wordI, hc]
  exact toInt_ofInt_of_range (by omega) (by omega)

theorem toNat_satScalar_n64 (h : f.mod = 3) :
    ((satScalar f op a b).toNat : Int) = max 0 (min (2 ^ 64 - 1) (op a.toNat b.toNat)) := by
  have hc := clampInt_eq (lo := 0) (hi := 2 ^ 64 - 1) (by decide) (op a.toNat b.toNat)
  simp only [satScalar, beq_iff_eq, h, if_true, hc]
  rw [toNat_word_of_lt (by omega)]
  omega

end

variable {f : SF} (a b : Word)

theorem toNat_satScalar_add (h : f.mod = 3) : (satScalar f (· + ·) a b).toNat = min (2 ^ 64 - 1) (a.toNat + b.toNat) := by
  have := toNat_satScalar_n64 (· + ·) a b h
  omega
theorem toNat_satScalar_sub (h : f.mod = 3) : (satScalar f (· - ·) a b).toNat = a.toNat - b.toNat := by
  have := toNat_satScalar_n64 (· - ·) a b h
  have := a.isLt
  omega
theorem toNat_satScalar_mul (h : f.mod = 3) : (satScalar f (· * ·) a b).toNat = min (2 ^ 64 - 1) (a.toNat * b.toNat) := by
  have := toNat_satScalar_n64 (· * ·) a b h
  have hc : ((a.toNat * b.toNat : Nat) : Int) = (a.toNat : Int) * b.toNat := Nat.cast_mul _ _
  rw [← hc] at this
  omega

theorem satScalar_add (h : f.mod = 0) : satScalar f (· + ·) a b = a + b := by
  rw [satScalar_wraps _ _ _ h, BitVec.ofInt_add, BitVec.ofInt_toInt, BitVec.ofInt_toInt]
theorem satScalar_sub (h : f.mod = 0) : satScalar f (· - ·) a b = a - b := by
  rw [satScalar_wraps _ _ _ h]
  apply BitVec.eq_of_toInt_eq
  rw [BitVec.toInt_ofInt, BitVec.toInt_sub]
theorem satScalar_mul (h : f.mod = 0) : satScalar f (· * ·) a b = a * b := by
  rw [satScalar_wraps _ _ _ h, BitVec.ofInt_mul, BitVec.ofInt_toInt, BitVec.ofInt_toInt]

/-- Bits [127:64] of a product of unsigned words (R352). -/
theorem toNat_mulh_unsigned (a b : Word) : (word (a.toNat * b.toNat / 2 ^ 64)).toNat = a.toNat * b.toNat / 2 ^ 64 := by
  apply toNat_word_of_lt
  rw [Nat.div_lt_iff_lt_mul (by decide)]
  exact Nat.mul_lt_mul'' a.isLt b.isLt

/-- Bits [127:64] of a product of signed words (R352). -/
theorem toInt_mulh_signed (a b : Word) : (wordI (a.toInt * b.toInt / 2 ^ 64)).toInt = a.toInt * b.toInt / 2 ^ 64 := by
  obtain ⟨ha1, ha2⟩ := toInt_bounds a
  obtain ⟨hb1, hb2⟩ := toInt_bounds b
  have habs : |a.toInt * b.toInt| ≤ 2 ^ 63 * 2 ^ 63 := by
    rw [abs_mul]
    exact mul_le_mul (abs_le.mpr ⟨ha1, ha2.le⟩) (abs_le.mpr ⟨hb1, hb2.le⟩) (abs_nonneg _) (by decide)
  obtain ⟨h1, h2⟩ := abs_le.mp habs
  exact toInt_ofInt_of_range (by omega) (by omega)

/-! ## Quotients and remainders (T6.7) -/

theorem divRem_zero (sgn : Bool) (a : Word) : divRem 64 sgn a.toNat (0 : Word).toNat = (2 ^ 64 - 1, a.toNat) := by
  have ha := Nat.mod_eq_of_lt a.isLt
  simp [divRem, ha]

theorem divRem_signed {b : Word} (hb : b ≠ 0) (a : Word) : divRem 64 true a.toNat b.toNat =
    (wrap 64 (a.toInt.tdiv b.toInt), wrap 64 (a.toInt.tmod b.toInt)) := by
  have h0 : b.toNat ≠ 0 := fun h => hb (BitVec.eq_of_toNat_eq h)
  simp [divRem, Nat.mod_eq_of_lt b.isLt, h0, signed_toNat]

theorem divRem_unsigned {b : Word} (hb : b ≠ 0) (a : Word) : divRem 64 false a.toNat b.toNat =
    (a.toNat / b.toNat, a.toNat % b.toNat) := by
  have h0 : b.toNat ≠ 0 := fun h => hb (BitVec.eq_of_toNat_eq h)
  simp [divRem, Nat.mod_eq_of_lt a.isLt, Nat.mod_eq_of_lt b.isLt, h0]

/-- A remainder that truncates toward zero is no larger than the dividend, so it fits a word. -/
theorem toInt_tmod (a b : Word) : (BitVec.ofInt 64 (a.toInt.tmod b.toInt)).toInt = a.toInt.tmod b.toInt := by
  obtain ⟨ha1, ha2⟩ := toInt_bounds a
  have hle : (a.toInt.tmod b.toInt).natAbs ≤ a.toInt.natAbs := by
    rw [Int.natAbs_tmod]
    exact Nat.mod_le _ _
  have hpos : 0 ≤ a.toInt → 0 ≤ a.toInt.tmod b.toInt := fun h => Int.tmod_nonneg _ h
  have hneg : a.toInt ≤ 0 → a.toInt.tmod b.toInt ≤ 0 := fun h => by
    have hn := Int.tmod_nonneg b.toInt (Int.neg_nonneg.mpr h)
    rw [Int.neg_tmod] at hn
    omega
  exact toInt_ofInt_of_range (by omega) (by omega)

/-! ## Shifts (R122, R369) -/

theorem shiftAmt_64 (x : Nat) : shiftAmt 64 x = x % 256 := rfl

theorem word_shl (a : Word) (n : Nat) : word (shl 64 a.toNat n) = if 64 ≤ n then 0 else a <<< n := by
  unfold shl
  split
  · rfl
  · apply BitVec.eq_of_toNat_eq
    simp [word, Nat.shiftLeft_eq]

theorem word_shr (a : Word) (n : Nat) : word (shr 64 a.toNat n) = if 64 ≤ n then 0 else a >>> n := by
  unfold shr
  split
  · rfl
  · apply BitVec.eq_of_toNat_eq
    have hlt := Nat.lt_of_le_of_lt (Nat.div_le_self a.toNat (2 ^ n)) a.isLt
    rw [Nat.mod_eq_of_lt a.isLt, toNat_word_of_lt hlt, BitVec.toNat_ushiftRight, Nat.shiftRight_eq_div_pow]

theorem word_sra_of_ge {n : Nat} (h : 64 ≤ n) (a : Word) : word (sra 64 a.toNat n) = if a.getLsbD 63 then BitVec.allOnes 64 else 0 := by
  simp only [sra, h, if_true, bit_toNat]
  split <;> rfl

theorem toInt_sra_of_lt {n : Nat} (h : n < 64) (a : Word) : (word (sra 64 a.toNat n)).toInt = a.toInt / 2 ^ n := by
  obtain ⟨ha1, ha2⟩ := toInt_bounds a
  simp only [sra, Nat.not_le.mpr h, if_false, signed_toNat (n := 64) (by decide), word_wrap]
  have hp : (0 : Int) < 2 ^ n := by positivity
  refine toInt_ofInt_of_range ?_ ?_
  · rw [Int.le_ediv_iff_mul_le hp]
    have : (1 : Int) ≤ 2 ^ n := hp
    nlinarith
  · rw [Int.ediv_lt_iff_lt_mul hp]
    have : (1 : Int) ≤ 2 ^ n := hp
    nlinarith

theorem word_rol (a : Word) (n : Nat) : word (rol 64 a.toNat n) = a.rotateLeft n := by
  have hk : n % 64 < 64 := Nat.mod_lt n (by decide)
  have hlow : a.toNat / 2 ^ (64 - n % 64) < 2 ^ (n % 64) := by
    rw [Nat.div_lt_iff_lt_mul (by positivity), ← Nat.pow_add, show n % 64 + (64 - n % 64) = 64 by omega]
    exact a.isLt
  have hor : a.toNat * 2 ^ (n % 64) + a.toNat / 2 ^ (64 - n % 64) =
      a.toNat <<< (n % 64) ||| a.toNat >>> (64 - n % 64) := by
    rw [Nat.shiftRight_eq_div_pow, ← Nat.shiftLeft_add_eq_or_of_lt hlow, Nat.shiftLeft_eq]
  apply BitVec.eq_of_toNat_eq
  simp only [word, rol, Nat.mod_eq_of_lt a.isLt, hor, BitVec.toNat_ofNat, Nat.mod_mod, Nat.or_mod_two_pow,
    BitVec.toNat_rotateLeft]
  congr 1
  rw [Nat.shiftRight_eq_div_pow]
  exact Nat.mod_eq_of_lt (Nat.lt_of_le_of_lt (Nat.div_le_self _ _) a.isLt)

theorem getLsbD_rotateLeft_add (a : Word) (n : Nat) {i : Nat} (hi : i < 64) :
    (a.rotateLeft n).getLsbD ((i + n) % 64) = a.getLsbD i := by
  rw [BitVec.getLsbD_rotateLeft]
  by_cases h : (i + n) % 64 < n % 64
  · rw [decide_eq_true h, cond_true]
    congr 1
    omega
  · rw [decide_eq_false h, cond_false, decide_eq_true (Nat.mod_lt _ (by decide)), Bool.true_and]
    congr 1
    omega

/-! ## The smaller and the larger (R342) -/

theorem toInt_ite_sle (a b : Word) : (if a.sle b then a else b).toInt = min a.toInt b.toInt ∧
    (if a.sle b then b else a).toInt = max a.toInt b.toInt := by
  rw [BitVec.sle_eq_decide]
  by_cases h : a.toInt ≤ b.toInt
  · simp [h]
  · simp [h, (not_le.mp h).le]
theorem toNat_ite_ule (a b : Word) : (if a.ule b then a else b).toNat = min a.toNat b.toNat ∧
    (if a.ule b then b else a).toNat = max a.toNat b.toNat := by
  simp only [BitVec.ule_eq_decide_le, BitVec.le_def]
  by_cases h : a.toNat ≤ b.toNat
  · simp [h]
  · simp [h, (not_le.mp h).le]

/-! ## What a die slot holds at reset, and the fixed members of R92 -/

theorem reset_die {d : Nat} (h : d < 6) : State.reset.die d = Die.blank := by
  interval_cases d <;> rfl

section
variable (c : Ctx) (n m : Nat)

theorem s_setS_of_fixed (v : Word) : (c.setS n v).s m = if m = 0 then 0 else if m = n then v else c.s m := by
  rw [Ctx.s_setS]
  by_cases hm : m = 0
  · subst hm
    by_cases hn : 0 = n <;> simp [hn, Ctx.s]
  · by_cases hn : m = n <;> simp_all
theorem p_setP_of_fixed (v : Bool) : (c.setP n v).p m = if m = 0 then true else if m = n then v else c.p m := by
  rw [Ctx.p_setP]
  by_cases hm : m = 0
  · subst hm
    by_cases hn : 0 = n <;> simp [hn, Ctx.p]
  · by_cases hn : m = n <;> simp_all
theorem k_setK_of_fixed (v : Mask) :
    (c.setK n v).k m = if m = 0 then BitVec.allOnes 1024 else if m = n then v else c.k m := by
  rw [Ctx.k_setK]
  by_cases hm : m = 0
  · subst hm
    by_cases hn : 0 = n <;> simp [hn, Ctx.k]
  · by_cases hn : m = n <;> simp_all

end

end Sys2Proof.Machine
end

section
open Sys2Proof Sys2Proof.Machine

/-- Settles O1: each operation owes the value that `satScalar`, or the high half of the product, gives. -/
theorem scalarSumsAndProducts : Obligations.ScalarSumsAndProducts := by
  unfold Obligations.ScalarSumsAndProducts
  intro f s hon a b
  refine ⟨⟨_, scalarOp_of_on hon 1 fun c => satScalar f (· + ·) (f.av c) (f.bv c), fun h => ?_, fun h => ?_, fun h => ?_⟩,
    ⟨_, scalarOp_of_on hon 1 fun c => satScalar f (· - ·) (f.av c) (f.bv c), fun h => ?_, fun h => ?_, fun h => ?_⟩,
    ⟨_, scalarOp_of_on hon 3 fun c => satScalar f (· * ·) (f.av c) (f.bv c), fun h => ?_, fun h => ?_, fun h => ?_⟩,
    ⟨_, scalarOp_of_on hon 3 _, fun h => ?_, fun h => ?_⟩⟩
  · exact satScalar_add a b h
  · exact toInt_satScalar_i64 (· + ·) a b h
  · exact toNat_satScalar_add a b h
  · exact satScalar_sub a b h
  · exact toInt_satScalar_i64 (· - ·) a b h
  · exact toNat_satScalar_sub a b h
  · exact satScalar_mul a b h
  · exact toInt_satScalar_i64 (· * ·) a b h
  · exact toNat_satScalar_mul a b h
  · simp only [SF.uns, h]
    exact toInt_mulh_signed a b
  · simp only [SF.uns, h]
    exact toNat_mulh_unsigned a b

/-- Settles O2: what DIV and REM owe is the pair of `divRem`, in its three cases. -/
theorem scalarDivision : Obligations.ScalarDivision := by
  unfold Obligations.ScalarDivision
  intro f s hon a b
  have hs : f.mod = 0 → f.uns = false := fun h => by simp [SF.uns, h]
  have hu : f.mod = 2 → f.uns = true := fun h => by rw [SF.uns, h]; rfl
  refine ⟨⟨_, scalarOp_of_on hon 20 fun c => word (divRem 64 (!f.uns) (f.av c).toNat (f.bv c).toNat).1,
      fun h0 => ?_, fun h0 h => ?_, fun h0 h => ?_⟩,
    ⟨_, scalarOp_of_on hon 20 fun c => word (divRem 64 (!f.uns) (f.av c).toNat (f.bv c).toNat).2,
      fun h0 => ?_, fun h0 h => ?_, fun h0 h => ?_⟩⟩
  · rw [show f.bv s.curCtx = 0 from h0, divRem_zero]
    rfl
  · rw [hs h, Bool.not_false, divRem_signed h0, word_wrap]
  · rw [hu h, Bool.not_true, divRem_unsigned h0]
    exact toNat_word_of_lt (Nat.lt_of_le_of_lt (Nat.div_le_self _ _) a.isLt)
  · rw [show f.bv s.curCtx = 0 from h0, divRem_zero]
    exact word_toNat a
  · rw [hs h, Bool.not_false, divRem_signed h0, word_wrap]
    exact toInt_tmod a b
  · rw [hu h, Bool.not_true, divRem_unsigned h0]
    exact toNat_word_of_lt (Nat.lt_of_le_of_lt (Nat.mod_le _ _) a.isLt)

/-- Settles O3: the operations owe what they compute of their operands; the counts are those of the mask's bits. -/
theorem scalarLogicAndSelections : Obligations.ScalarLogicAndSelections := by
  unfold Obligations.ScalarLogicAndSelections
  refine ⟨fun f s hon => ⟨scalarOp_of_on hon 1 _, scalarOp_of_on hon 1 _, exec_or hon, exec_xor hon,
    scalarOp_of_on hon 1 _⟩, fun f s hon => ?_⟩
  intro a b
  have hs : f.mod = 0 → f.uns = false := fun h => by simp [SF.uns, h]
  have hu : f.mod = 2 → f.uns = true := fun h => by rw [SF.uns, h]; rfl
  refine ⟨⟨_, scalarOp_of_on hon 1 _, fun h => ?_, fun h => ?_⟩, ⟨_, scalarOp_of_on hon 1 _, fun h => ?_, fun h => ?_⟩,
    (scalarOp_of_on hon 1 _).trans ?_, (scalarOp_of_on hon 1 _).trans ?_, fun hn => (scalarOp_of_on hon 1 _).trans ?_⟩
  · simp only [hs h, Bool.false_eq_true, if_false]
    exact (toInt_ite_sle a b).1
  · simp only [hu h, if_true]
    exact (toNat_ite_ule a b).1
  · simp only [hs h, Bool.false_eq_true, if_false]
    exact (toInt_ite_sle a b).2
  · simp only [hu h, if_true]
    exact (toNat_ite_ule a b).2
  · cases s.curCtx.p (f.mod.toNat % 16) <;> cases f.mod.getLsbD 4 <;> rfl
  · rw [popcount_toNat]
  · rw [popcount_toNat]

/-- Settles O4: the shifts of the model are those of the library's words, by an amount of 0 to 255. -/
theorem scalarShifts : Obligations.ScalarShifts := by
  unfold Obligations.ScalarShifts
  intro f s hon a n
  refine ⟨(scalarOp_of_on hon 1 _).trans ?_, (scalarOp_of_on hon 1 _).trans ?_,
    ⟨_, scalarOp_of_on hon 1 fun c => word (sra 64 (f.av c).toNat (shiftAmt 64 (f.bv c).toNat)), fun h i hi => ?_, fun h => ?_⟩,
    ⟨_, scalarOp_of_on hon 1 fun c => word (rol 64 (f.av c).toNat (shiftAmt 64 (f.bv c).toNat)), fun i hi => ?_⟩⟩
  · rw [shiftAmt_64, word_shl]
  · rw [shiftAmt_64, word_shr]
  · rw [shiftAmt_64, word_sra_of_ge h]
    cases h63 : a.getLsbD 63
    · rw [if_neg Bool.false_ne_true]
      exact BitVec.getLsbD_zero
    · rw [if_pos rfl, BitVec.getLsbD_allOnes, decide_eq_true hi]
  · rw [shiftAmt_64]
    exact toInt_sra_of_lt h a
  · rw [shiftAmt_64, word_rol]
    exact getLsbD_rotateLeft_add a n hi

/-- Settles O5: each condition of T16.8 is the comparison that it names. -/
theorem predicateResults : Obligations.PredicateResults := by
  unfold Obligations.PredicateResults
  intro f s hon a b p q
  refine ⟨⟨_, predOp_of_on hon fun c => cmpCond (f.mod.toNat % 16) (f.av c) (f.bv c), ?_⟩, predOp_of_on hon _,
    predOp_of_on hon _, (predOp_of_on hon _).trans ?_, predOp_of_on hon _⟩
  · refine ⟨?_, ?_, ?_, ?_, ?_, ?_, ?_, ?_, ?_, ?_⟩ <;> intro h <;>
      simp [h, cmpCond, BitVec.slt_iff_toInt_lt, BitVec.sle_iff_toInt_le, BitVec.ult_iff_toNat_lt, BitVec.ule_iff_toNat_le, a, b]
  · cases hp : s.curCtx.p f.a.toNat <;> cases hq : s.curCtx.p f.b.toNat <;> simp [p, q, hp, hq]

/-- Settles O18: the parts of reset and of a blank slot, and the fixed members of R92 by what a read after a write gives. -/
theorem resetValues : Obligations.ResetValues := by
  unfold Obligations.ResetValues
  refine ⟨⟨rfl, rfl, rfl, rfl, rfl, rfl, rfl, fun d hd => ?_, rfl⟩, fun n => ⟨?_, rfl, rfl, rfl, rfl⟩,
    fun n hn => ⟨?_, ?_⟩, fun _ _ _ => rfl, rfl, rfl, rfl, s_setS_of_fixed, p_setP_of_fixed, k_setK_of_fixed,
    Ctx.v_setV⟩
  · rw [reset_die hd]
    exact ⟨rfl, rfl, rfl, rfl⟩
  · simp [Ctx.s, Ctx.blank]
  · simp [Ctx.p, Ctx.blank, hn]
  · simp [Ctx.k, Ctx.blank, hn]

end

section
/-! SUPPORT. How a guarded instruction goes on: its checks pass, trap or wait; and what changes of the running slot come to. -/

namespace Sys2Proof.Machine

/-! ## Checks -/

@[simp] theorem Guard.seq_nil : Guard.seq [] = .go := rfl
@[simp] theorem Guard.seq_go (l : List Guard) : Guard.seq (.go :: l) = Guard.seq l := rfl
@[simp] theorem Guard.seq_trap (t : Trap) (l : List Guard) : Guard.seq (.trap t :: l) = .trap t := rfl
@[simp] theorem Guard.seq_wait (t : Trap) (l : List Guard) : Guard.seq (.wait t :: l) = .wait t := rfl

/-- The checks of a slot pass when each of them does. -/
theorem Guard.seq_eq_go_iff : ∀ {l : List Guard}, Guard.seq l = .go ↔ ∀ g ∈ l, g = .go
  | [] => by simp
  | .go :: l => by simp [Guard.seq_eq_go_iff]
  | .trap t :: l => by simp
  | .wait t :: l => by simp

@[simp] theorem need_true (t : Trap) : need true t = .go := rfl
@[simp] theorem need_false (t : Trap) : need false t = .trap t := rfl
@[simp] theorem await_true (t : Trap) : await_ true t = .go := rfl
@[simp] theorem await_false (t : Trap) : await_ false t = .wait t := rfl
@[simp] theorem need_eq_go_iff {b : Bool} {t : Trap} : need b t = .go ↔ b = true := by cases b <;> simp
@[simp] theorem await_eq_go_iff {b : Bool} {t : Trap} : await_ b t = .go ↔ b = true := by cases b <;> simp
theorem needElastic_of {s : State} (h : s.curCtx.iss.elastic = true) (slot : Nat) : needElastic s slot = .go := by
  simp [needElastic, h]

/-! ## Instructions under their checks -/

section
variable {f : SF} {s : State} (hon : f.on s.curCtx = true)
include hon

theorem scalarGuarded_go {g : State → Guard} (us : State → List Upd) (hg : g s = .go) :
    scalarGuarded f g us s = .next (s.commit (us s)) := by
  simp [scalarGuarded, hon, hg, State.guarded, State.by_]
theorem scalarGuarded_trap {g : State → Guard} (us : State → List Upd) {t : Trap} (hg : g s = .trap t) :
    scalarGuarded f g us s = .next (s.commit (takeTrap s s.curKey t)) := by
  simp [scalarGuarded, hon, hg, State.guarded, State.by_]

/-- A waiting instruction that has its condition issues, after what it does on arrival. -/
theorem waiting_go {check ready : State → Guard} {arrive us : State → List Upd} {t : State} (hc : check s = .go)
    (ha : s.commit (arrive s) = t) (hr : ready t = .go) : waiting f check arrive ready us s = .next (t.commit (us t)) := by
  subst ha
  simp [waiting, hon, hc, hr, State.guarded, State.by_]
theorem waiting_trap {check ready : State → Guard} {arrive us : State → List Upd} {x : Trap} (hc : check s = .trap x) :
    waiting f check arrive ready us s = .next (s.commit (takeTrap s s.curKey x)) := by
  simp [waiting, hon, hc, State.guarded, State.by_]
theorem waiting_ready_trap {check ready : State → Guard} {arrive us : State → List Upd} {t : State} {x : Trap}
    (hc : check s = .go) (ha : s.commit (arrive s) = t) (hr : ready t = .trap x) :
    waiting f check arrive ready us s = .next (t.commit (takeTrap t t.curKey x)) := by
  subst ha
  simp [waiting, hon, hc, hr, State.guarded, State.by_]

end

/-! ## Changes of one slot -/

theorem mput_mput {β : Type} (k : Nat) (v w : β) : ∀ m : SMap β, mput k w (mput k v m) = mput k w m
  | [] => by simp [mput]
  | (j, x) :: m => by
    by_cases h1 : j = k
    · subst h1
      simp [mput]
    · by_cases h2 : j < k
      · simp [mput, h1, h2, mput_mput k v w m]
      · simp [mput, h1, h2]

theorem commit_slot (s : State) (f : Ctx → Ctx) : s.commit [.slot s.curKey f] = s.running f := rfl

theorem apply_slot_slot (s : State) (k : SlotKey) (f g : Ctx → Ctx) :
    (s.apply (.slot k f)).apply (.slot k g) = s.apply (.slot k fun c => g (f c)) := by
  simp [State.apply, mmod, mput_mput]

/-- Two changes of the running slot are one. -/
theorem commit_slot_slot (s : State) (f g : Ctx → Ctx) (us : List Upd) :
    s.commit (.slot s.curKey f :: .slot s.curKey g :: us) = s.commit ((.slot s.curKey fun c => g (f c)) :: us) := by
  simp only [State.commit_cons, apply_slot_slot]

@[simp] theorem running_curKey (s : State) (f : Ctx → Ctx) : (s.running f).curKey = s.curKey := rfl
@[simp] theorem running_curCtx (s : State) (f : Ctx → Ctx) : (s.running f).curCtx = f s.curCtx := by
  show mget (mput s.curKey (f s.curCtx) s.slots) s.curKey .blank = _
  simp
@[simp] theorem running_slot (s : State) (f : Ctx → Ctx) : (s.running f).slot s.curKey = f s.curCtx := running_curCtx s f

theorem withCtx_slot (s : State) (k j : SlotKey) (c : Ctx) : (s.withCtx k c).slot j = if j = k then c else s.slot j := by
  show mget (mput k c s.slots) j .blank = _
  rw [mget_mput]
  rfl

theorem onSlot_eq (s : State) (f : Ctx → Ctx) : s.onSlot f = .next (s.running f) := rfl

/-! ## Instructions that change nothing (R277) -/

/-- A next state in which every slot, and everything else, is as it was. -/
def Idle (s : State) (o : Host.Outcome State Fault Refusal) : Prop :=
  ∃ t, o = .next t ∧ (∀ k, t.slot k = s.slot k) ∧ t = { s with slots := t.slots }

theorem idle_same (s : State) : Idle s s.same := ⟨s, rfl, fun _ => rfl, rfl⟩
theorem idle_onSlot {s : State} {f : Ctx → Ctx} (h : f s.curCtx = s.curCtx) : Idle s (s.onSlot f) := by
  refine ⟨s.running f, rfl, fun k => ?_, rfl⟩
  rw [State.running, h, withCtx_slot]
  split
  · subst k
    rfl
  · rfl

section
variable {f : SF} {s : State} (hoff : f.on s.curCtx = false)
include hoff

theorem idle_scalarOp (lat : Nat) (v : Ctx → Word) : Idle s (scalarOp f lat v s) := idle_onSlot (by simp [hoff])
theorem idle_predOp (v : Ctx → Bool) : Idle s (predOp f v s) := idle_onSlot (by simp [hoff])
theorem idle_scalarGuarded (g : State → Guard) (us : State → List Upd) : Idle s (scalarGuarded f g us s) := by
  simp only [scalarGuarded, hoff]
  exact idle_same s
theorem idle_waiting (check ready : State → Guard) (arrive us : State → List Upd) :
    Idle s (waiting f check arrive ready us s) := by
  simp only [waiting, hoff]
  exact idle_same s
theorem idle_sysRead (l : List Effect) : Idle s (sysReadExec f l s) := idle_scalarGuarded hoff _ _
theorem idle_sysWrite : Idle s (sysWriteExec f s) := idle_scalarGuarded hoff _ _
theorem idle_transfer (t : Ctx → Int) : Idle s (transfer f t s) := idle_scalarGuarded hoff _ _
theorem idle_callTo (t : Ctx → Int) : Idle s (callTo f t s) := idle_scalarGuarded hoff _ _
theorem idle_twait : Idle s (twaitExec f s) := idle_waiting hoff _ _ _ _
theorem idle_alloc (check : State → Guard) (kind : State → ReqKind) (ok : State → Bool) :
    Idle s (allocExec f check kind ok s) := idle_waiting hoff _ _ _ _

end

/-- A false predicate leaves every S instruction but LOOP without effect: each is one of five kinds of operation. -/
theorem idle_exec {i : Instr} {o : BitVec 8} {f : SF} {s : State} (h : i.sParts = some (o, f))
    (hoff : f.on s.curCtx = false) (hl : ∀ g, i ≠ .loop g) : Idle s (exec i s) := by
  cases i with
  | add g | sub g | mul g | mulh g | div g | rem g | and_ g | andn g | or_ g | xor g | shl g | shr g | sra g
  | rol g | min g | max g | clz g | popc g | sel g | mov g | li g | kpop g | kpopN g | tagff g =>
    cases h
    unfold exec
    exact idle_scalarOp hoff _ _
  | cmp g | pand g | por g | pxor g | pnot g =>
    cases h
    unfold exec
    exact idle_predOp hoff _
  | tguardWrite g | ld g | st g | atom g | atomCas g | red g | lqpop g | apush g | fence g | tret g | wtagall g
  | wtagany g | qwait g | qadv g | qset g | tidset g =>
    cases h
    unfold exec
    exact idle_scalarGuarded hoff _ _
  | tstatRead g | mstatRead g | sysrd g =>
    cases h
    unfold exec
    exact idle_sysRead hoff _
  | xstatWrite g | vflagsWrite g | rrbWrite g | grbWrite g | fsrWrite g | waitlimWrite g | opselWrite g
  | ringWrite g | mzmWrite g | elogstatWrite g | injctlWrite g | syswr g =>
    cases h
    unfold exec
    exact idle_sysWrite hoff
  | brRel g | brReg g | jmpImm g | jmpReg g | jmpLong g | ret g =>
    cases h
    unfold exec
    exact idle_transfer hoff _
  | callRel g | callReg g =>
    cases h
    unfold exec
    exact idle_callTo hoff _
  | waitw g | end_ g | yield g | launch g | twaitAbs g | bara g | barw g | step g | pstat g =>
    cases h
    unfold exec
    exact idle_waiting hoff _ _ _ _
  | twait g =>
    cases h
    unfold exec
    exact idle_twait hoff
  | falloc g | fallocAt g | fallocQuery g | ffree g =>
    cases h
    unfold exec
    exact idle_alloc hoff _ _ _
  | trap g | tagclr g =>
    cases h
    unfold exec
    exact idle_onSlot (by simp [hoff])
  | loop g => exact absurd rfl (hl g)
  | _ => cases h

theorem exec_loop_of_off {f : SF} {s : State} (hoff : f.on s.curCtx = false) :
    exec (.loop f) s = .next (s.running fun c => { c with pc := c.iss.pc + 64 + 64 * (f.imm.toNat % 128) }) := by
  show execLoop f s = _
  rw [execLoop, hoff]
  rfl

end Sys2Proof.Machine
end

section
open Sys2Proof Sys2Proof.Machine

/-- Settles O19: each S instruction is an operation of one of five kinds, which a false predicate leaves without effect. -/
theorem falsePredicateDoesNothing : Obligations.FalsePredicateDoesNothing := by
  unfold Obligations.FalsePredicateDoesNothing
  exact ⟨fun _ _ => rfl, fun _ _ _ _ h hoff hl => idle_exec h hoff hl, fun _ _ hoff => exec_loop_of_off hoff⟩

end

section
/-! SUPPORT. S-slot memory instructions, waits and queues: the checks that pass under the conditions of the rules, and what
the changes of the running slot come to. -/

namespace Sys2Proof.Machine

/-! ## Pointers and requests -/

theorem ptrGuard_go {s : State} {k : SlotKey} {p : Word} {n : Nat} (hp : ptrOk (s.node (keyRid k)).slots p = true)
    (ha : p.toNat % n = 0) : ptrGuard s k p n = .go := by
  simp [ptrGuard, hp, ha]
theorem ownGuard_ready {s : State} {k : SlotKey} {p : Word} {a : Nat} {m : Option Nat}
    (h : s.bankReach (s.slot k) (offsetBits p) = .ready a m) : ownGuard s k p = .go := by
  simp [ownGuard, h]
theorem ownGuard_elsewhere {s : State} {k : SlotKey} {p : Word} (h : spaceOf p ≠ 0) : ownGuard s k p = .go := by
  simp [ownGuard, h]

/-- A new request is on its way, as its maker has made it; a numbered one takes the next number of its source. -/
theorem newReq_eq (s : State) (k : SlotKey) (queue : Nat) (kind : ReqKind) (p : Word) (pc : Nat) (lq : Option Nat)
    (owner : Option (Nat × Nat)) : ∃ g : Nat → Req, (∀ i, (g i).id = i ∧ (g i).key = k ∧ (g i).kind = kind ∧
      (g i).ptr = p ∧ (g i).lq = lq ∧ (g i).st = .flying) ∧
      s.newReq k queue kind p pc lq owner = .addReq g :: (if kind.numbered then
        [.seqNo (sourceId (s.slot k).die queue) ((mget s.seqs (sourceId (s.slot k).die queue) 0 + 1) % 65536)] else []) :=
  ⟨_, fun _ => ⟨rfl, rfl, rfl, rfl, rfl, rfl⟩, rfl⟩

/-! ## LD and ST (R336, R377) -/

section
variable {f : SF} {s : State} (hon : f.on s.curCtx = true)
  (hp : ptrOk (s.node (keyRid s.curKey)).slots (f.av s.curCtx + f.bv s.curCtx) = true)
  (ha : (f.av s.curCtx + f.bv s.curCtx).toNat % 2 ^ (f.mod.toNat % 8) = 0)
include hon hp ha

theorem exec_ld_own {a : Nat} (h0 : spaceOf (f.av s.curCtx + f.bv s.curCtx) = 0)
    (hr : s.bankReach (s.slot s.curKey) (offsetBits (f.av s.curCtx + f.bv s.curCtx)) = .ready a none) :
    exec (.ld f) s = .next (s.running fun c => c.later 2 phRead
      (.ldRead (offsetBits (f.av s.curCtx + f.bv s.curCtx)) (2 ^ (f.mod.toNat % 8)) (f.mod.getLsbD 3) f.d.toNat)) := by
  have hg : ldGuard f s = .go := by
    simp [ldGuard, SF.addr, SF.size, ptrGuard_go hp ha, ownGuard_ready hr, h0]
  refine (scalarGuarded_go hon (ldUpds f) hg).trans ?_
  simp only [ldUpds, SF.addr, SF.size, h0, beq_self_eq_true, if_true]
  rfl

theorem exec_st_own {a : Nat} (h0 : spaceOf (f.av s.curCtx + f.bv s.curCtx) = 0)
    (hr : s.bankReach (s.slot s.curKey) (offsetBits (f.av s.curCtx + f.bv s.curCtx)) = .ready a none) :
    exec (.st f) s = .next (s.running fun c =>
      (c.later 3 phSlotWrite (.bankBytes (offsetBits (f.av s.curCtx + f.bv s.curCtx))
        (toBytes (2 ^ (f.mod.toNat % 8)) (s.curCtx.s f.d.toNat).toNat))).progressed c.iss.tick) := by
  have hg : stGuard f s = .go := by
    simp [stGuard, SF.addr, SF.size, ptrGuard_go hp ha, ownGuard_ready hr, h0]
  refine (scalarGuarded_go hon (stUpds f) hg).trans ?_
  simp only [stUpds, SF.addr, SF.size, h0, beq_self_eq_true, if_true, List.singleton_append, commit_slot_slot]
  rfl

theorem exec_ld_elsewhere (h0 : spaceOf (f.av s.curCtx + f.bv s.curCtx) ≠ 0) (hl : s.curCtx.lq.length < 256) :
    ∃ r : Req, exec (.ld f) s = .next { s.withCtx s.curKey s.curCtx.lqAlloc with
        reqs := s.reqs ++ [r], nextReq := s.nextReq + 1 } ∧
      r.id = s.nextReq ∧ r.key = s.curKey ∧ r.kind = .load (2 ^ (f.mod.toNat % 8)) (f.mod.getLsbD 3) ∧
      r.ptr = f.av s.curCtx + f.bv s.curCtx ∧ r.lq = some s.curCtx.nextLq ∧ r.st = .flying := by
  have hg : ldGuard f s = .go := by
    simp [ldGuard, SF.addr, SF.size, ptrGuard_go hp ha, ownGuard_elsewhere h0, h0, lqGuard, hl]
  obtain ⟨g, hr, hnew⟩ := newReq_eq s s.curKey 0 (.load (2 ^ (f.mod.toNat % 8)) (f.mod.getLsbD 3))
    (f.av s.curCtx + f.bv s.curCtx) s.curCtx.iss.pc (some s.curCtx.nextLq) none
  refine ⟨g s.nextReq, (scalarGuarded_go hon (ldUpds f) hg).trans ?_, hr s.nextReq⟩
  simp only [ldUpds, SF.addr, SF.size, beq_iff_eq, h0, if_false, hnew]
  rfl

theorem exec_st_elsewhere (h0 : spaceOf (f.av s.curCtx + f.bv s.curCtx) ≠ 0) (hl : s.curCtx.sq.length < 256) :
    ∃ r : Req, exec (.st f) s = .next { s.withCtx s.curKey ((s.curCtx.sqPush s.nextReq).progressed s.curCtx.iss.tick) with
        reqs := s.reqs ++ [r], nextReq := s.nextReq + 1 } ∧
      r.id = s.nextReq ∧ r.key = s.curKey ∧ r.kind = .store (2 ^ (f.mod.toNat % 8)) (s.curCtx.s f.d.toNat) ∧
      r.ptr = f.av s.curCtx + f.bv s.curCtx ∧ r.lq = none ∧ r.st = .flying := by
  have hg : stGuard f s = .go := by
    simp [stGuard, SF.addr, SF.size, ptrGuard_go hp ha, ownGuard_elsewhere h0, h0, sqGuard, hl]
  obtain ⟨g, hr, hnew⟩ := newReq_eq s s.curKey 0 (.store (2 ^ (f.mod.toNat % 8)) (s.curCtx.s f.d.toNat))
    (f.av s.curCtx + f.bv s.curCtx) s.curCtx.iss.pc none none
  refine ⟨g s.nextReq, (scalarGuarded_go hon (stUpds f) hg).trans ?_, hr s.nextReq⟩
  simp only [stUpds, SF.addr, SF.size, beq_iff_eq, h0, if_false, hnew]
  simp [State.apply, mmod, mput_mput, State.withCtx, ReqKind.numbered]
  rfl

end

/-! ## ATOM and RED (R297, R298, R366) -/

section
variable {f : SF} {s : State} (hon : f.on s.curCtx = true) (hord : f.ord = 0)
  (hp : ptrOk (s.node (keyRid s.curKey)).slots (f.av s.curCtx) = true) (ha : (f.av s.curCtx).toNat % SF.atomSize f = 0)

include hord hp ha in
theorem atomGuard_go (hown : ownGuard s s.curKey (f.av s.curCtx) = .go) (hl : s.curCtx.lq.length < 256) :
    atomGuard f s = .go := by
  simp [atomGuard, ordGuard, ordRelease, hord, ptrGuard_go hp ha, hown, lqGuard, hl]
include hord hp ha in
theorem redGuard_go (hown : ownGuard s s.curKey (f.av s.curCtx) = .go)
    (hl : spaceOf (f.av s.curCtx) ≠ 0 → s.curCtx.sq.length < 256) : redGuard f s = .go := by
  by_cases h0 : spaceOf (f.av s.curCtx) = 0
  · simp [redGuard, ordGuard, ordRelease, hord, ptrGuard_go hp ha, hown, h0]
  · simp [redGuard, ordGuard, ordRelease, hord, ptrGuard_go hp ha, hown, h0, sqGuard, hl h0]

include hord in
theorem acquirePart_eq_nil (ref : Nat) : acquirePart f ref s = [] := by
  simp [acquirePart, hord]

include hord in
/-- ATOM's effect in the own banks (R298). -/
theorem commit_atomUpds_own (cmp : Word) (h0 : spaceOf (f.av s.curCtx) = 0) :
    s.commit (atomUpds f cmp s) = s.running fun c => (c.lqAlloc.later 3 phRead
      (.bankAtom (offsetBits (f.av s.curCtx)) (SF.atomSize f) f.atomOp (f.bv c) cmp (some s.curCtx.nextLq))).progressed
        c.iss.tick := by
  simp only [atomUpds, acquirePart_eq_nil hord, h0, beq_self_eq_true, if_true, List.cons_append, List.nil_append,
    commit_slot_slot]
  rfl

include hord in
/-- RED's effect in the own banks (R366). -/
theorem commit_redUpds_own (h0 : spaceOf (f.av s.curCtx) = 0) :
    s.commit (redUpds f s) = s.running fun c => (c.later 3 phRead
      (.bankAtom (offsetBits (f.av s.curCtx)) (SF.atomSize f) f.atomOp (f.bv c) 0 none)).progressed c.iss.tick := by
  simp only [redUpds, acquirePart_eq_nil hord, h0, beq_self_eq_true, if_true, List.cons_append, List.nil_append,
    commit_slot_slot]
  rfl

include hord in
/-- ATOM's effect elsewhere: a request with its load-queue entry (R298). -/
theorem commit_atomUpds_elsewhere (cmp : Word) (h0 : spaceOf (f.av s.curCtx) ≠ 0) : ∃ t r,
    s.commit (atomUpds f cmp s) = t ∧ t.reqs = s.reqs ++ [r] ∧ r.kind = .atom f.atomOp (SF.atomSize f) (f.bv s.curCtx) cmp ∧
      r.ptr = f.av s.curCtx ∧ r.lq = some s.curCtx.nextLq ∧ t.slot s.curKey = s.curCtx.lqAlloc.progressed s.curCtx.iss.tick ∧
      t.mem = s.mem := by
  obtain ⟨g, hr, hnew⟩ := newReq_eq s s.curKey 0 (.atom f.atomOp (SF.atomSize f) (f.bv s.curCtx) cmp) (f.av s.curCtx)
    s.curCtx.iss.pc (some s.curCtx.nextLq) none
  obtain ⟨-, -, hkind, hptr, hlq, -⟩ := hr s.nextReq
  refine ⟨_, g s.nextReq, rfl, ?_, hkind, hptr, hlq, ?_, ?_⟩ <;>
    simp only [atomUpds, acquirePart_eq_nil hord, beq_iff_eq, h0, if_false, hnew]
  · rfl
  · simp [State.apply, mmod, State.slot, ReqKind.numbered]
    rfl
  · rfl

include hord in
/-- RED's effect elsewhere: a request with its store-queue entry (R366). -/
theorem commit_redUpds_elsewhere (h0 : spaceOf (f.av s.curCtx) ≠ 0) : ∃ t r,
    s.commit (redUpds f s) = t ∧ t.reqs = s.reqs ++ [r] ∧ r.kind = .red f.atomOp (SF.atomSize f) (f.bv s.curCtx) ∧
      r.ptr = f.av s.curCtx ∧ r.lq = none ∧
      t.slot s.curKey = (s.curCtx.sqPush s.nextReq).progressed s.curCtx.iss.tick ∧ t.mem = s.mem := by
  obtain ⟨g, hr, hnew⟩ := newReq_eq s s.curKey 0 (.red f.atomOp (SF.atomSize f) (f.bv s.curCtx)) (f.av s.curCtx)
    s.curCtx.iss.pc none none
  obtain ⟨-, -, hkind, hptr, hlq, -⟩ := hr s.nextReq
  refine ⟨_, g s.nextReq, rfl, ?_, hkind, hptr, hlq, ?_, ?_⟩ <;>
    simp only [redUpds, acquirePart_eq_nil hord, beq_iff_eq, h0, if_false, hnew]
  · rfl
  · simp [State.apply, mmod, State.slot, ReqKind.numbered]
    rfl
  · rfl

end

/-! ## The queues and FENCE (R177, R191, R341) -/

section
variable {f : SF} {s : State} (hon : f.on s.curCtx = true)
include hon

theorem exec_lqpop_value {e : LqEntry} {rest : List LqEntry} {v : Word} (hq : s.curCtx.lq = e :: rest)
    (hv : e.st = .value v) :
    exec (.lqpop f) s = .next (s.running fun c => { c with lq := rest }.later 1 phReg (.scalar f.d.toNat v)) := by
  refine (scalarGuarded_go hon (lqpopUpds f) (g := lqpopGuard) ?_).trans ?_
  · simp [lqpopGuard, hq, hv]
  · simp only [lqpopUpds, hq, hv]
    rfl

theorem exec_lqpop_fault {e : LqEntry} {rest : List LqEntry} {x : EngFault} (hq : s.curCtx.lq = e :: rest)
    (hv : e.st = .fault x) :
    exec (.lqpop f) s = .next (s.running fun c =>
      { c with lq := rest, pending := c.pending <|> some (trapAfter 0 x.cause x.ptr.toNat x.detail) }.later 1 phReg
        (.scalar f.d.toNat 0)) := by
  refine (scalarGuarded_go hon (lqpopUpds f) (g := lqpopGuard) ?_).trans ?_
  · simp [lqpopGuard, hq, hv]
  · simp only [lqpopUpds, hq, hv]
    rfl

theorem exec_lqpop_empty (hq : s.curCtx.lq = []) :
    exec (.lqpop f) s = .next (s.commit (takeTrap s s.curKey (trapAt 0 .loadQueueEmpty 0 32))) :=
  scalarGuarded_trap hon (lqpopUpds f) (g := lqpopGuard) (by simp only [lqpopGuard, hq]; rfl)

theorem exec_apush (hl : s.curCtx.aq.length < 1024) :
    exec (.apush f) s = .next (s.running fun c => { c with aq := c.aq ++ [(f.av c).truncate 32] }) :=
  scalarGuarded_go hon (fun s => [.slot s.curKey fun c => { c with aq := c.aq ++ [(f.av c).truncate 32] }])
    (g := apushGuard) (by simp [apushGuard, hl])

theorem exec_fence (he : s.curCtx.iss.elastic = true)
    (hr : SF.fkind f < 2 ∨ s.released s.curKey (SF.fscope f) = true) :
    exec (.fence f) s = .next (s.commit (fenceUpds f s)) :=
  scalarGuarded_go hon (fenceUpds f) (g := fenceGuard f) (by
    rcases hr with h | h <;> simp [fenceGuard, needElastic_of he, h])

end

/-- What a fence leaves: its acquire part holds the bundles after it, or it completes (R191). -/
theorem commit_fenceUpds (f : SF) (s : State) {refs : List Nat}
    (h : (if SF.fkind f != 2 then s.acquireRefs s.curKey (SF.fscope f) else []) = refs) :
    s.commit (fenceUpds f s) = s.running fun c =>
      if refs = [] then c.progressed c.iss.tick else { c with acqUntil := c.acqUntil ++ refs ++ [refFence] } := by
  simp only [fenceUpds, h, List.isEmpty_iff]
  rfl

end Sys2Proof.Machine
end

section
open Sys2Proof Sys2Proof.Machine

/-- Settles O21: the checks of the address pass, and what is then owed or on its way is the one change. -/
theorem loadAndStore : Obligations.LoadAndStore := by
  unfold Obligations.LoadAndStore
  refine ⟨fun f s a hon => ?_, fun f s hon => ?_⟩
  · intro p n hp ha h0 hr
    exact ⟨exec_ld_own hon hp ha h0 hr, exec_st_own hon hp ha h0 hr⟩
  · intro p n c hp ha h0
    refine ⟨fun hl => ?_, fun hl => ?_⟩
    · obtain ⟨r, he, hr⟩ := exec_ld_elsewhere hon hp ha h0 hl
      exact ⟨_, r, he, rfl, hr⟩
    · obtain ⟨r, he, hr⟩ := exec_st_elsewhere hon hp ha h0 hl
      exact ⟨_, r, he, rfl, hr⟩

end

section
open Sys2Proof Sys2Proof.Machine

/-- Settles O22: the checks pass, and the access performs at issue + 3 or one numbered request is on its way. -/
theorem atomics : Obligations.Atomics := by
  unfold Obligations.Atomics
  intro f s a hon hord c p n op hp ha
  refine ⟨fun h0 hr hl => ?_, fun h0 hr => ?_, fun h0 hl => ?_, fun h0 hl => ?_, fun h0 hl => ?_⟩
  · have hg := atomGuard_go hord hp ha (ownGuard_ready hr) hl
    refine ⟨(scalarGuarded_go hon (atomUpds f 0) hg).trans ?_,
      (scalarGuarded_go hon (fun s => atomUpds f (f.cv s.curCtx) s) hg).trans ?_⟩
    · rw [commit_atomUpds_own hord 0 h0]
      rfl
    · rw [commit_atomUpds_own hord _ h0]
      rfl
  · have hg := redGuard_go hord hp ha (ownGuard_ready hr) (absurd h0)
    refine (scalarGuarded_go hon (redUpds f) hg).trans ?_
    rw [commit_redUpds_own hord h0]
    rfl
  · have hg := atomGuard_go hord hp ha (ownGuard_elsewhere h0) hl
    obtain ⟨t, r, he, hr⟩ := commit_atomUpds_elsewhere hord 0 h0
    exact ⟨t, r, (scalarGuarded_go hon (atomUpds f 0) hg).trans (congrArg _ he), hr⟩
  · have hg := atomGuard_go hord hp ha (ownGuard_elsewhere h0) hl
    obtain ⟨t, r, he, hr⟩ := commit_atomUpds_elsewhere hord (f.cv s.curCtx) h0
    exact ⟨t, r, (scalarGuarded_go hon (fun s => atomUpds f (f.cv s.curCtx) s) hg).trans (congrArg _ he), hr⟩
  · have hg := redGuard_go hord hp ha (ownGuard_elsewhere h0) fun _ => hl
    obtain ⟨t, r, he, hr⟩ := commit_redUpds_elsewhere hord h0
    exact ⟨t, r, (scalarGuarded_go hon (redUpds f) hg).trans (congrArg _ he), hr⟩

/-- Settles O23: the oldest entry decides what LQPOP does, and what a fence waits for decides whether it holds. -/
theorem queuesAndFence : Obligations.QueuesAndFence := by
  unfold Obligations.QueuesAndFence
  intro f s hon
  refine ⟨fun _ _ _ hq hv => exec_lqpop_value hon hq hv, fun _ _ _ hq hv => exec_lqpop_fault hon hq hv,
    exec_lqpop_empty hon, exec_apush hon, fun he hk hr => ?_, fun he hk hr => ?_, fun he hk hr => ?_⟩
  · have hf : SF.fkind f = 1 := hk
    rw [exec_fence hon he (.inl (by omega)),
      commit_fenceUpds f s (refs := s.acquireRefs s.curKey (f.mod.toNat / 4)) (by rw [hf]; rfl)]
    simp only [hr, if_false]
  · have hf : SF.fkind f = 1 := hk
    rw [exec_fence hon he (.inl (by omega)), commit_fenceUpds f s (refs := []) (by rw [hf]; exact hr)]
    rfl
  · have hf : SF.fkind f = 2 := hk
    rw [exec_fence hon he (.inr hr), commit_fenceUpds f s (refs := []) (by rw [hf]; rfl)]
    rfl

end

section
/-! SUPPORT. S-slot waits, TRAP and TRET, LAUNCH, tags and operand queues. -/

namespace Sys2Proof.Machine

@[simp] theorem Guard.seq_need (b : Bool) (t : Trap) (l : List Guard) :
    Guard.seq (need b t :: l) = if b then Guard.seq l else .trap t := by cases b <;> rfl
@[simp] theorem Guard.seq_await (b : Bool) (t : Trap) (l : List Guard) :
    Guard.seq (await_ b t :: l) = if b then Guard.seq l else .wait t := by cases b <;> rfl

/-! ## Changes beside the slots -/

/-- A change that neither reads nor changes the slots' records. -/
def Upd.Aside (u : Upd) : Prop := ∀ (s : State) (m : SMap Ctx), ({ s with slots := m } : State).apply u = { s.apply u with slots := m }

theorem commit_aside : ∀ {us : List Upd}, (∀ u ∈ us, u.Aside) → ∀ (s : State) (m : SMap Ctx),
    ({ s with slots := m } : State).commit us = { s.commit us with slots := m }
  | [], _, _, _ => rfl
  | u :: us, h, s, m => by
    rw [State.commit_cons, h u List.mem_cons_self, commit_aside fun v hv => h v (List.mem_cons_of_mem u hv)]
    rfl

theorem commit_aside_slots {us : List Upd} (h : ∀ u ∈ us, u.Aside) (s : State) : (s.commit us).slots = s.slots := by
  have he := congrArg State.slots (commit_aside h s s.slots)
  exact he

theorem writeBytes_aside (a : Nat) (bs : List Byte) : ∀ u ∈ writeBytes a bs, u.Aside := by
  intro u hu s m
  unfold writeBytes at hu
  rcases List.mem_cons.mp hu with rfl | hu
  · rfl
  · split at hu
    · cases List.mem_singleton.mp hu
      rfl
    · split at hu
      · cases List.mem_singleton.mp hu
        rfl
      · cases hu

/-! ## A trap taken when the running slot's record is the one that it was -/

theorem domainOf_slot (s : State) (k : SlotKey) (g : Ctx → Ctx) (r : Rid) : (s.apply (.slot k g)).domainOf r = s.domainOf r := by
  have h : ∀ n r, (s.apply (.slot k g)).domainFrom n r = s.domainFrom n r := by
    intro n
    induction n with
    | zero => exact fun _ => rfl
    | succ n ih => exact fun r => by simp only [State.domainFrom, ih]; rfl
  exact h _ r

section
variable {s : State} {k : SlotKey} {g : Ctx → Ctx} (hg : g (s.slot k) = s.slot k)
include hg

theorem slot_apply_same (j : SlotKey) : (s.apply (.slot k g)).slot j = s.slot j := by
  rw [State.slot_apply_slot]
  split
  · subst j
    exact hg
  · rfl

/-- What a later change of the slot makes of it stands alone. -/
theorem apply_same_slot (f : Ctx → Ctx) : (s.apply (.slot k g)).apply (.slot k f) = s.apply (.slot k f) := by
  rw [apply_slot_slot]
  show ({ s with slots := mput k (f (g (s.slot k))) s.slots } : State) = _
  rw [hg]
  rfl

theorem takeTrap_same (t : Trap) : takeTrap (s.apply (.slot k g)) k t = takeTrap s k t := by
  simp only [takeTrap, unhandled, stopDomain, stopGang, State.onDie, slot_apply_same hg, State.domainRegions, domainOf_slot]
  rfl

/-- A trap is taken the same after a change that left the slot's record as it was. -/
theorem commit_takeTrap_same (t : Trap) :
    (s.apply (.slot k g)).commit (takeTrap (s.apply (.slot k g)) k t) = s.commit (takeTrap s k t) := by
  have halt : ∀ {us : List Upd} (f : Ctx → Ctx), (∀ u ∈ us, u.Aside) →
      ((s.apply (.slot k g)).commit us).apply (.slot k f) = (s.commit us).apply (.slot k f) := by
    intro us f h
    have hs : (s.commit us).slot k = s.slot k := congrArg (fun m => mget m k Ctx.blank) (commit_aside_slots h s)
    have he : (s.apply (.slot k g)).commit us = (s.commit us).apply (.slot k g) := by
      refine (commit_aside h s _).trans ?_
      show _ = { s.commit us with slots := mmod (s.commit us).slots k .blank g }
      rw [commit_aside_slots h s]
    rw [he, apply_same_slot (hs ▸ hg)]
  rw [takeTrap_same hg]
  unfold takeTrap
  split
  · exact apply_same_slot hg _
  · unfold unhandled
    rw [State.commit_append, State.commit_append, State.commit_cons, State.commit_cons, halt]
    intro u hu
    split at hu
    · rcases List.mem_cons.mp hu with rfl | hu
      · exact fun _ _ => rfl
      · exact writeBytes_aside _ _ u hu
    · cases hu

end

/-! ## WAITW and TWAIT (R388, R425) -/

theorem exec_waitw {f : SF} {s : State} {w : Word} (hon : f.on s.curCtx = true) (he : s.curCtx.iss.elastic = true)
    (hp : ptrOk (s.node (keyRid s.curKey)).slots (f.av s.curCtx) = true) (ha : (f.av s.curCtx).toNat % 8 = 0)
    (h0 : spaceOf (f.av s.curCtx) ≠ 0) (hs : s.curCtx.wait.sent = true) (hf : s.curCtx.wait.fault = none)
    (hw : s.curCtx.wait.word = some w) (hq : s.acquired s.curKey (SF.wscope f) = true) :
    exec (.waitw f) s = .next (s.running fun c => (c.later 1 phReg (.scalar f.d.toNat w)).progressed c.iss.tick) := by
  unfold exec
  refine (waiting_go (t := s) hon ?_ ?_ ?_).trans ?_
  · simp [waitwCheck, needElastic_of he, ptrGuard_go hp ha, ownGuard_elsewhere h0]
  · simp only [waitwArrive, hs, if_true, State.commit_nil]
  · simp [waitwReady, hf, hw, hq]
  · show Host.Outcome.next (s.withCtx s.curKey ((s.curCtx.later 1 phReg (.scalar f.d.toNat (s.curCtx.wait.word.getD 0))).progressed
      s.curCtx.iss.tick)) = _
    rw [hw]
    rfl

/-- What a TWAIT does on arrival. -/
def twaitSent (f : SF) (c : Ctx) : Ctx :=
  if c.wait.sent then c else { c with wait := { c.wait with sent := true, operand := f.bv c } }

theorem twaitSent_same {f : SF} {s : State} (hs : s.curCtx.wait.sent = true) : twaitSent f (s.slot s.curKey) = s.slot s.curKey :=
  if_pos hs

section
variable {f : SF} {s : State} (hon : f.on s.curCtx = true) (he : s.curCtx.iss.elastic = true)
  (hs : s.curCtx.wait.sent = true)
include hs

theorem twaitTarget_sent : twaitTarget f s.curCtx =
    if f.mod.getLsbD 0 then (s.curCtx.wait.operand.toNat : Int) else s.curCtx.tbase + s.curCtx.wait.operand.toInt := by
  simp [twaitTarget, hs]

theorem twaitReady_same : twaitReady f (s.running (twaitSent f)) = twaitReady f s := by
  simp only [twaitReady, running_curCtx]
  rw [show twaitSent f s.curCtx = s.curCtx from twaitSent_same hs]

include hon he

theorem twaitExec_done (hr : twaitReady f s = .go) : twaitExec f s = .next (s.running fun c => c.progressed c.iss.tick) := by
  refine (waiting_go hon (needElastic_of he 0) (t := s.running (twaitSent f)) rfl ((twaitReady_same hs).trans hr)).trans ?_
  exact congrArg _ (apply_same_slot (twaitSent_same hs) _)

theorem twaitExec_trap {t : Trap} (hr : twaitReady f s = .trap t) :
    twaitExec f s = .next (s.commit (takeTrap s s.curKey t)) := by
  refine (waiting_ready_trap hon (needElastic_of he 0) (t := s.running (twaitSent f)) rfl ((twaitReady_same hs).trans hr)).trans ?_
  exact congrArg _ (commit_takeTrap_same (twaitSent_same hs) t)

end

/-! ## TRAP and TRET (R250) -/

theorem exec_tret {f : SF} {s : State} (hon : f.on s.curCtx = true) (he : s.curCtx.iss.elastic = true)
    (hin : s.curCtx.fsr.getLsbD 11 = true)
    (hp : bits s.curCtx.fsr.toNat 63 47 * 64 < (s.node (keyRid s.curKey)).bmem * 4096) :
    exec (.tret f) s = .next (s.running Ctx.leaveHandler) := by
  unfold exec
  refine (scalarGuarded_go hon (fun s => [.slot s.curKey Ctx.leaveHandler]) (g := tretGuard) ?_).trans rfl
  have hp : decide (fsrRpc s.curCtx.fsr * 64 < s.bmemBytes s.curKey) = true := decide_eq_true hp
  simp only [tretGuard, needElastic_of he, Ctx.inHandler, hin, hp, need_true, Guard.seq_go, Guard.seq_nil]

theorem exec_tret_outside {f : SF} {s : State} (hon : f.on s.curCtx = true) (he : s.curCtx.iss.elastic = true)
    (hin : s.curCtx.fsr.getLsbD 11 = false) :
    exec (.tret f) s = .next (s.commit (takeTrap s s.curKey (trapAt 0 .illegalBundle 0))) := by
  unfold exec
  refine scalarGuarded_trap hon (fun s => [.slot s.curKey Ctx.leaveHandler]) (g := tretGuard) ?_
  simp only [tretGuard, needElastic_of he, Ctx.inHandler, hin, need_false, Guard.seq_go, Guard.seq_trap]

section
variable (c : Ctx)

theorem leaveHandler_no_loop (h : c.loop = none) :
    c.leaveHandler.pc = fsrRpc c.fsr * 64 ∧ c.leaveHandler.loop = none := by
  simp [Ctx.leaveHandler, h]
theorem leaveHandler_other_loop {l : Loop} (h : c.loop = some l) (hp : l.pc + 64 * l.at_ ≠ fsrRpc c.fsr * 64) :
    c.leaveHandler.pc = fsrRpc c.fsr * 64 ∧ c.leaveHandler.loop = none := by
  simp [Ctx.leaveHandler, h, Option.filter, hp]
theorem leaveHandler_resumes {l : Loop} (h : c.loop = some l) (hp : l.pc + 64 * l.at_ = fsrRpc c.fsr * 64)
    (hv : ¬(l.ready = true ∧ l.total = 0)) :
    c.leaveHandler.pc = fsrRpc c.fsr * 64 ∧ c.leaveHandler.loop = some l := by
  have hv : l.void = false := by simpa [Loop.void] using hv
  simp [Ctx.leaveHandler, h, Option.filter, hp, hv]
theorem leaveHandler_void {l : Loop} (h : c.loop = some l) (hp : l.pc + 64 * l.at_ = fsrRpc c.fsr * 64)
    (hr : l.ready = true) (ht : l.total = 0) :
    c.leaveHandler.pc = l.pc + 64 * l.body.length ∧ c.leaveHandler.loop = none := by
  simp [Ctx.leaveHandler, h, Option.filter, hp, Loop.void, Loop.exit, hr, ht]

end

/-! ## The entry of a handler (R249, T13.2) -/

theorem Cause.code_lt (x : Cause) : x.code < 256 := by cases x <;> decide
theorem Cause.class_lt (x : Cause) : x.class_ < 8 := by cases x <;> decide
theorem TrapKind.code_lt (x : TrapKind) : x.code < 4 := by cases x <;> decide

/-- FSR of a trap in a handler as a number: its fields do not reach into one another. -/
theorem Trap.fsr_toNat (t : Trap) (rpc : Nat) : (t.fsr rpc true).toNat = rpc % 2 ^ 17 * 2 ^ 47 + min t.count 127 * 2 ^ 40 +
    t.detail % 2 ^ 16 * 2 ^ 24 + t.slot % 8 * 2 ^ 20 + t.kind.code * 2 ^ 18 + t.unit % 64 * 2 ^ 12 + 2 ^ 11 +
    t.cause.class_ * 2 ^ 8 + t.cause.code := by
  have h1 := t.cause.code_lt
  have h2 := t.cause.class_lt
  have h3 := t.kind.code_lt
  simp only [Trap.fsr, if_true]
  rw [toNat_word_of_lt (by omega)]
  omega

theorem Trap.fsr_fields (t : Trap) (rpc : Nat) (hd : t.detail < 65536) (hu : t.unit < 64) (hs : t.slot < 8) :
    let w := t.fsr rpc true
    bits w.toNat 7 0 = t.cause.code ∧ bits w.toNat 10 8 = t.cause.class_ ∧ w.getLsbD 11 = true ∧
    bits w.toNat 17 12 = t.unit ∧ bits w.toNat 19 18 = t.kind.code ∧ bits w.toNat 22 20 = t.slot ∧
    bits w.toNat 39 24 = t.detail ∧ bits w.toNat 46 40 = min t.count 127 ∧ bits w.toNat 63 47 = rpc % 2 ^ 17 := by
  have h1 := t.cause.code_lt
  have h2 := t.cause.class_lt
  have h3 := t.kind.code_lt
  simp only [BitVec.getLsbD, Nat.testBit_eq_decide_div_mod_eq, decide_eq_true_eq, Trap.fsr_toNat, bits]
  refine ⟨?_, ?_, ?_, ?_, ?_, ?_, ?_, ?_, ?_⟩ <;> omega

theorem commit_takeTrap_handled {s : State} {k : SlotKey} {h : Nat} (t : Trap) (hh : (s.node (keyRid k)).handler = some h)
    (hin : (s.slot k).fsr.getLsbD 11 = false) :
    s.commit (takeTrap s k t) = s.withCtx k ((s.slot k).enterHandler h t) := by
  simp only [takeTrap, hh, Ctx.inHandler, hin]
  rfl

/-! ## LAUNCH (R32, R334) -/

@[simp] theorem keeps_keep (n phase : Nat) (c : Ctx) : (c.keep n phase).keeps n = true := by
  simp [Ctx.keeps, Ctx.keptAs, Ctx.keep, Option.filter]

theorem mfind_mdel_same {β : Type} (k : Nat) : ∀ m : SMap β, mfind k (mdel k m) = none
  | [] => rfl
  | (j, v) :: m => by
    by_cases h : j = k
    · simpa [mdel, h] using mfind_mdel_same k m
    · have ih : mfind k (List.filter (fun e => e.1 != k) m) = none := mfind_mdel_same k m
      simp [mdel, h, mfind, ih]

theorem keeps_unkeep (n : Nat) (c : Ctx) : (c.unkeep n).keeps n = false := by
  have hk : ((mfind n (c.unkeep n).kept).filter fun x => x.2 == c.iss.pc) = none := by
    by_cases h : ((mfind n c.kept).any fun x => x.2 == c.iss.pc) = true
    · simp [Ctx.unkeep, h, mfind_mdel_same]
    · rw [show (c.unkeep n).kept = c.kept from if_neg h]
      cases hm : mfind n c.kept with
      | none => rfl
      | some x => simpa [hm, Option.filter] using h
  have ha : ((c.unkeep n).aside.find? fun x => x.1 == n && x.2.2 == c.iss.pc) = none := by
    refine List.find?_eq_none.mpr fun x hx => ?_
    have hn := (List.mem_filter.mp hx).2
    rw [Bool.not_eq_true'] at hn
    rw [hn]
    exact Bool.false_ne_true
  simp only [Ctx.keeps, Ctx.keptAs, show (c.unkeep n).iss = c.iss from rfl, hk, ha]
  rfl

theorem sameRegisters_keep_unkeep (n phase : Nat) (c : Ctx) : SameRegisters c ((c.keep n phase).unkeep n) :=
  ⟨rfl, rfl, rfl, rfl, rfl⟩

/-- What a LAUNCH posts (R32). -/
def launchOf (f : SF) (s : State) : Launch :=
  { ptr := f.av s.curCtx, fromKey := some s.curKey, part := (s.node s.curCtx.rid).part, tbase := s.curCtx.tbase, hits := [] }
/-- The state with a launch in its queue, before the bundle that posted it has issued. -/
def State.posted (s : State) (l : Launch) : State :=
  (s.apply (.pkg s.curCtx.pkg fun k => { k with launchQ := k.launchQ ++ [l] })).running (Ctx.keep 64 0)

theorem posted_slot (s : State) (l : Launch) :
    ((s.posted l).running (Ctx.unkeep 64)).slot s.curKey = (s.curCtx.keep 64 0).unkeep 64 := by
  have h : ((s.posted l).running (Ctx.unkeep 64)).slot s.curKey = (s.posted l).curCtx.unkeep 64 := running_slot _ _
  have h' : (s.posted l).curCtx = s.curCtx.keep 64 0 := running_curCtx _ _
  rw [h, h']
theorem posted_launchQ (s : State) (l : Launch) :
    (((s.posted l).running (Ctx.unkeep 64)).pkg s.curCtx.pkg).launchQ = (s.pkg s.curCtx.pkg).launchQ ++ [l] := by
  show ((s.apply (.pkg s.curCtx.pkg fun k => { k with launchQ := k.launchQ ++ [l] })).pkg s.curCtx.pkg).launchQ = _
  rw [State.pkg_apply_pkg, if_pos rfl]

theorem exec_launch {f : SF} {s : State} (hon : f.on s.curCtx = true) (he : s.curCtx.iss.elastic = true)
    (h2 : spaceOf (f.av s.curCtx) = 2) (hp : ptrOk (s.node s.curCtx.rid).slots (f.av s.curCtx) = true)
    (ha : (f.av s.curCtx).toNat % 512 = 0) (hr : s.released s.curKey 2 = true)
    (hq : (s.pkg s.curCtx.pkg).launchQ.length < 64) (hk : s.curCtx.keeps 64 = false) :
    exec (.launch f) s = .next ((s.posted (launchOf f s)).running (Ctx.unkeep 64)) := by
  unfold exec
  refine (waiting_go hon ?_ (t := s.posted (launchOf f s)) ?_ ?_).trans rfl
  · simp [launchCheck, needElastic_of he, h2, hp, ha]
  · simp only [launchArrive, hk, hr, hq, decide_true, Bool.and_self, Bool.not_true, Bool.or_self, Bool.false_eq_true, if_false]
    rfl
  · simp [launchReady, State.posted]

/-! ## Tags (R248, R382, R426) -/

theorem lowest_eq {w : Word} {n : Nat} (hn : n < 64) (hb : w.getLsbD n = true) (hm : ∀ m < n, w.getLsbD m = false) :
    lowest w = n := by
  have h : (List.range 64).find? w.getLsbD = some n := List.find?_range_eq_some.mpr ⟨hb, List.mem_range.mpr hn, by simpa using hm⟩
  simp [lowest, h]
@[simp] theorem lowest_zero : lowest 0#64 = 64 := by decide

theorem tagFault_none {c : Ctx} {m : Word} (h : c.xstat &&& m = 0) : tagFault c m = none := by
  simp [tagFault, h]
theorem tagFault_some {c : Ctx} {m : Word} {n : Nat} (hn : n < 64) (hb : (c.xstat &&& m).getLsbD n = true)
    (hm : ∀ i < n, (c.xstat &&& m).getLsbD i = false) : ∃ e, tagFault c m = some (trapEngine 0 n e) :=
  ⟨mget c.engine n { cause := .machine, ptr := 0, detail := 0 }, by simp only [tagFault, lowest_eq hn hb hm, hn, if_true]⟩
theorem raise_none (c : Ctx) : c.raise none = c := by
  cases c
  simp [Ctx.raise]

section
variable {f : SF} {s : State} (hon : f.on s.curCtx = true)
include hon

theorem exec_wtagall (he : s.curCtx.iss.elastic = true) (ht : s.curCtx.tags &&& f.bv s.curCtx = f.bv s.curCtx) :
    exec (.wtagall f) s = .next (s.running fun c => (c.progressed c.iss.tick).raise (tagFault c (f.bv c))) := by
  unfold exec
  refine (scalarGuarded_go hon (fun s => [.slot s.curKey fun c => (c.progressed c.iss.tick).raise (tagFault c (f.bv c))])
    (g := wtagallGuard f) ?_).trans rfl
  simp [wtagallGuard, needElastic_of he, ht]

theorem exec_wtagany (he : s.curCtx.iss.elastic = true) (hb : f.bv s.curCtx ≠ 0) (ht : s.curCtx.tags &&& f.bv s.curCtx ≠ 0) :
    exec (.wtagany f) s = .next (s.running fun c =>
      ((c.later 1 phReg (.scalar f.d.toNat (word (lowest (c.tags &&& f.bv c))))).progressed c.iss.tick).raise
        (tagFault c (f.bv c))) := by
  unfold exec
  refine (scalarGuarded_go hon (fun s => [.slot s.curKey fun c =>
      ((c.later 1 phReg (.scalar f.d.toNat (word (lowest (c.tags &&& f.bv c))))).progressed c.iss.tick).raise
        (tagFault c (f.bv c))]) (g := wtaganyGuard f) ?_).trans rfl
  have hb : f.bv s.curCtx ≠ 0#64 := hb
  have ht : s.curCtx.tags &&& f.bv s.curCtx ≠ 0#64 := ht
  simp [wtaganyGuard, needElastic_of he, hb, ht]

theorem exec_tagff : exec (.tagff f) s =
    .next (s.owes 1 (.scalar f.d.toNat (word (lowest (s.curCtx.tags &&& f.bv s.curCtx))))) := by
  unfold exec
  exact scalarOp_of_on hon 1 _

theorem exec_tagclr : exec (.tagclr f) s = .next (s.running fun c => { c with tags := c.tags &&& ~~~f.bv s.curCtx }) := by
  show s.onSlot _ = _
  rw [onSlot_eq]
  simp [State.running, hon]

/-! ## Operand queues (R361, R363, R364) -/

theorem exec_qwait (hq : f.qnum < (s.node s.curCtx.rid).queues) (he : s.curCtx.iss.elastic = true)
    (h0 : (s.curCtx.q f.qnum).depth ≠ 0) (hn : f.qn ≤ (s.curCtx.q f.qnum).depth)
    (hr : if f.qwhich then f.qn ≤ (s.curCtx.q f.qnum).depth - (s.curCtx.q f.qnum).count else f.qn ≤ (s.curCtx.q f.qnum).count) :
    exec (.qwait f) s = .next (s.running fun c => c.progressed c.iss.tick) := by
  unfold exec
  refine (scalarGuarded_go hon (fun s => [.slot s.curKey fun c => c.progressed c.iss.tick]) (g := qwaitGuard f) ?_).trans rfl
  simp [qwaitGuard, needElastic_of he, qPermit, hq, h0, hn, hr]

theorem exec_qwait_reserved (hq : f.qnum < (s.node s.curCtx.rid).queues) (he : s.curCtx.iss.elastic = true)
    (hd : (s.curCtx.q f.qnum).depth = 0 ∨ (s.curCtx.q f.qnum).depth < f.qn) :
    exec (.qwait f) s = .next (s.commit (takeTrap s s.curKey (trapAt 0 .reservedField 0 f.qnum))) := by
  unfold exec
  refine scalarGuarded_trap hon (fun s => [.slot s.curKey fun c => c.progressed c.iss.tick]) (g := qwaitGuard f) ?_
  have hd : ((s.curCtx.q f.qnum).depth != 0 && decide (f.qn ≤ (s.curCtx.q f.qnum).depth)) = false := by
    rcases hd with h | h
    · simp [h]
    · simp [Nat.not_le.mpr h]
  simp [qwaitGuard, needElastic_of he, qPermit, hq, hd]

theorem exec_qadv (hq : f.qnum < (s.node s.curCtx.rid).queues) (h0 : (s.curCtx.q f.qnum).depth ≠ 0)
    (hr : if f.qwhich then f.qn ≤ (s.curCtx.q f.qnum).depth - (s.curCtx.q f.qnum).count else f.qn ≤ (s.curCtx.q f.qnum).count) :
    exec (.qadv f) s = .next (s.running fun c => c.later 1 phSys (.qadv f.qnum f.qwhich f.qn)) := by
  unfold exec
  refine (scalarGuarded_go hon (fun s => [.slot s.curKey fun c => c.later 1 phSys (.qadv f.qnum f.qwhich f.qn)])
    (g := qadvGuard f) ?_).trans rfl
  by_cases hw : f.qwhich = true
  · simp only [hw, if_true] at hr
    simp [qadvGuard, qPermit, hq, h0, hw, hr]
  · simp only [hw] at hr
    simp_all [qadvGuard, qPermit]

theorem exec_qadv_reserved (hq : f.qnum < (s.node s.curCtx.rid).queues) (hd : (s.curCtx.q f.qnum).depth = 0) :
    exec (.qadv f) s = .next (s.commit (takeTrap s s.curKey (trapAt 0 .reservedField 0 f.qnum))) := by
  unfold exec
  refine scalarGuarded_trap hon (fun s => [.slot s.curKey fun c => c.later 1 phSys (.qadv f.qnum f.qwhich f.qn)])
    (g := qadvGuard f) ?_
  simp [qadvGuard, qPermit, hq, hd]

theorem exec_qset (hq : f.qnum < (s.node s.curCtx.rid).queues)
    (hb : f.qdepth = 0 ∨ ((f.av s.curCtx).toNat / 2 ^ 54 = 0 ∧ (f.av s.curCtx).toNat % 512 = 0 ∧
      (f.av s.curCtx).toNat + 512 * f.qdepth ≤ 0x400000 ∧
      ((f.av s.curCtx).toNat + 512 * f.qdepth - 1) / 2 ^ 17 < (s.node s.curCtx.rid).brows)) :
    exec (.qset f) s = .next (s.running fun c => c.later 1 phSys (.qset f.qnum ((f.av s.curCtx).toNat / 512) f.qdepth)) := by
  unfold exec
  refine (scalarGuarded_go hon (fun s => [.slot s.curKey fun c => c.later 1 phSys (.qset f.qnum ((f.av c).toNat / 512) f.qdepth)])
    (g := qsetGuard f) ?_).trans rfl
  rcases hb with h | ⟨h1, h2, h3, h4⟩
  · simp [qsetGuard, qPermit, hq, h]
  · simp only [qsetGuard, qPermit, hq, h1, h2, h3, h4, beq_self_eq_true, decide_true, Bool.or_true, need_true, Guard.seq_go,
      Guard.seq_nil]

end

end Sys2Proof.Machine
end

section
open Sys2Proof Sys2Proof.Machine

/-- Settles O24: WAITW has its word and its acquire; a TWAIT that has stored its operand compares the tick with its target. -/
theorem waitsComplete : Obligations.WaitsComplete := by
  unfold Obligations.WaitsComplete
  refine ⟨fun f s w hon he hp ha h0 hs hf hw hq => exec_waitw hon he hp ha h0 hs hf hw hq, ?_⟩
  intro f s hon he hs b t
  have ht : twaitTarget f s.curCtx = t := twaitTarget_sent hs
  refine ⟨fun h1 h2 => ?_, fun h => ?_⟩
  · have hr : twaitReady f s = .go := by
      simp only [twaitReady, ht, if_neg (Int.not_lt.mpr h2), decide_eq_true h1, await_true]
    exact ⟨twaitExec_done hon he hs hr, twaitExec_done hon he hs hr⟩
  · have hr : twaitReady f s = .trap (trapAt 0 .lateTick (wordI t).toNat 0 s.curCtx.iss.tick) := by
      simp only [twaitReady, ht, if_pos h]
    exact ⟨_, twaitExec_trap hon he hs hr, twaitExec_trap hon he hs hr, rfl, rfl, rfl⟩

/-- Settles O26: TRAP leaves its trap, TRET's record is that of `Ctx.leaveHandler`, a handled trap's of `Ctx.enterHandler`. -/
theorem trapsAndReturns : Obligations.TrapsAndReturns := by
  unfold Obligations.TrapsAndReturns
  refine ⟨fun f s hon => ⟨?_, fun he hin hp => ?_, fun he hin => exec_tret_outside hon he hin⟩, fun s k h t hh hin hd hu hs => ?_⟩
  · show s.onSlot _ = _
    rw [onSlot_eq]
    simp only [State.running, hon, if_true]
    rfl
  · refine ⟨_, exec_tret hon he hin hp, rfl, rfl, rfl, rfl, ⟨rfl, rfl, rfl, rfl, rfl⟩, leaveHandler_no_loop _, fun l hl => ?_⟩
    exact ⟨leaveHandler_other_loop _ hl, leaveHandler_resumes _ hl, leaveHandler_void _ hl⟩
  · obtain ⟨h1, h2, h3, h4, h5, h6, h7, h8, h9⟩ := t.fsr_fields ((s.slot k).pc / 64) hd hu hs
    refine ⟨_, commit_takeTrap_handled t hh hin, rfl, rfl, rfl, h1, h2, h3, h4, h5, h6, h7, h8, h9, ⟨rfl, rfl, rfl, rfl, rfl⟩,
      rfl, rfl, rfl, ?_⟩
    show (s.slot k).trapPos t + 3 = _
    cases hk : t.kind <;> simp [Ctx.trapPos, TrapKind.isAfter, hk]

/-- Settles O27: the post joins the queue, and the bundle that has posted keeps nothing. -/
theorem launchPosts : Obligations.LaunchPosts := by
  unfold Obligations.LaunchPosts
  intro f s hon he h2 hp ha hr hq hk
  refine ⟨(s.posted (launchOf f s)).running (Ctx.unkeep 64), exec_launch hon he h2 hp ha hr hq hk,
    posted_launchQ s (launchOf f s), ?_, rfl, rfl, ?_⟩ <;> rw [posted_slot]
  · exact sameRegisters_keep_unkeep 64 0 s.curCtx
  · exact keeps_unkeep 64 _

/-- Settles O28: what the tags and the queue's count are decides what each of them does. -/
theorem tagsAndOperandQueues : Obligations.TagsAndOperandQueues := by
  unfold Obligations.TagsAndOperandQueues
  refine ⟨fun f s hon => ⟨fun he ht hx => ?_, fun he ht n hn hb hm => ?_, fun he hx n hn hb hm => ?_, fun n hn hb hm => ?_,
    fun h0 => ?_, exec_tagclr hon⟩, fun f s hon hq => ?_⟩
  · rw [exec_wtagall hon he ht]
    simp only [State.running, tagFault_none hx, raise_none]
  · obtain ⟨e, hf⟩ := tagFault_some hn hb hm
    refine ⟨e, ?_⟩
    rw [exec_wtagall hon he ht]
    simp only [State.running, hf]
    rfl
  · have hne : s.curCtx.tags &&& f.bv s.curCtx ≠ 0 := fun h => by simp [h] at hb
    rw [exec_wtagany hon he (fun h => hne (by simp [h])) hne]
    simp only [State.running, tagFault_none hx, raise_none, lowest_eq hn hb hm]
  · rw [exec_tagff hon, lowest_eq hn hb hm]
  · rw [exec_tagff hon, h0]
    rfl
  · exact ⟨exec_qwait hon hq, exec_qadv hon hq, exec_qset hon hq, exec_qwait_reserved hon hq, exec_qadv_reserved hon hq⟩

end

section
/-! SUPPORT. Transfers, loops, and results that land. -/

namespace Sys2Proof.Machine

/-! ## Transfers (R303, R304, R331, R368) -/

section
variable {s : State} {t : Int}

theorem targetGuard_go (h64 : t % 64 = 0) (h0 : 0 ≤ t) (hs : t < s.bmemBytes s.curKey) : targetGuard s t = .go := by
  simp [targetGuard, h64, h0, hs]
theorem targetGuard_misaligned (h64 : t % 64 ≠ 0) : targetGuard s t = .trap (trapAt 0 .misalignment (wordI t).toNat) := by
  simp [targetGuard, h64]
theorem targetGuard_outside (h64 : t % 64 = 0) (h : t < 0 ∨ s.bmemBytes s.curKey ≤ t) :
    targetGuard s t = .trap (trapAt 0 .permission (wordI t).toNat) := by
  simp only [targetGuard, Guard.seq_need, h64, beq_self_eq_true, if_true]
  rw [if_neg]
  simp only [Bool.and_eq_true, decide_eq_true_eq]
  omega

end

/-- What a taken transfer leaves of the slot's record, and a taken CALL. -/
def Ctx.called (t : Int) (c : Ctx) : Ctx := (c.jump t).later 1 phReg (.scalar 63 (word (c.iss.pc + 64)))

/-- An instruction goes to a target: it is taken, or raises misalignment or permission. -/
def Goes (i : Instr) (s : State) (t : Int) (after : State) : Prop :=
  (t % 64 = 0 → 0 ≤ t → t < (s.node (keyRid s.curKey)).bmem * 4096 → exec i s = .next after) ∧
  (t % 64 ≠ 0 → exec i s = .next (s.commit (takeTrap s s.curKey (trapAt 0 .misalignment (wordI t).toNat)))) ∧
  (t % 64 = 0 → t < 0 ∨ (s.node (keyRid s.curKey)).bmem * 4096 ≤ t →
    exec i s = .next (s.commit (takeTrap s s.curKey (trapAt 0 .permission (wordI t).toNat))))

section
variable {f : SF} {s : State} (hon : f.on s.curCtx = true)
include hon

theorem goes_of_guarded {i : Instr} (target : Ctx → Int) (us : State → List Upd)
    (hi : exec i s = scalarGuarded f (fun s => targetGuard s (target s.curCtx)) us s) :
    Goes i s (target s.curCtx) (s.commit (us s)) := by
  have hb : ((s.bmemBytes s.curKey : Nat) : Int) = (s.node (keyRid s.curKey)).bmem * 4096 := by
    simp [State.bmemBytes]
  refine ⟨fun h64 h0 hs => ?_, fun h64 => ?_, fun h64 h => ?_⟩ <;> rw [hi]
  · exact scalarGuarded_go hon us (targetGuard_go h64 h0 (by omega))
  · exact scalarGuarded_trap hon us (targetGuard_misaligned h64)
  · exact scalarGuarded_trap hon us (targetGuard_outside h64 (by omega))

theorem goes_transfer {i : Instr} (target : Ctx → Int) (hi : exec i s = transfer f target s) :
    Goes i s (target s.curCtx) (s.running (Ctx.jump (target s.curCtx))) :=
  goes_of_guarded hon target _ hi

theorem goes_call {i : Instr} (target : Ctx → Int) (hi : exec i s = callTo f target s) :
    Goes i s (target s.curCtx) (s.running (Ctx.called (target s.curCtx))) :=
  goes_of_guarded hon target _ hi

/-- LOOP's copy of what it starts with. -/
theorem exec_loop (hg : loopGuard f s = .go) : exec (.loop f) s = .next (s.commit (loopUpds f s)) := by
  show execLoop f s = _
  simp [execLoop, hon, State.guarded, hg, State.by_]

end

/-! ## The next result lands (R146) -/

/-- A result leaves the list of a slot's results in flight. -/
def Ctx.landed (l : Landing) (c : Ctx) : Ctx := { c with land := c.land.filter fun x => x.seq != l.seq }
/-- The same for an access of the banks, which performs. -/
def Ctx.landedBank (l : Landing) (c : Ctx) : Ctx := { c.landed l with performed := c.pos + 1 }

/-- A line of the banks without an error (R74). -/
def State.Sound (s : State) (c : Ctx) (row bank : Nat) : Prop :=
  mfind (c.lineNo row bank) (s.die c.die).badLines = none ∧ c.lineNo row bank % 2048 ∉ (s.die c.die).dead

section
variable {s : State} {c : Ctx}

theorem eccNote_of_sound {row bank : Nat} (h : s.Sound c row bank) : eccNote s c row bank = [] := by
  simp [eccNote, eccLog, errKey, h.1]
theorem eccNotes_of_sound {lines : List (Nat × Nat)} (h : ∀ x ∈ lines, s.Sound c x.1 x.2) :
    (lines.flatMap fun x => eccNote s c x.1 x.2) = [] :=
  List.flatMap_eq_nil_iff.mpr fun x hx => eccNote_of_sound (h x hx)
theorem lineBad_of_sound {row bank : Nat} (h : s.Sound c row bank) (reads : Bool) :
    (s.die c.die).lineBad (c.lineNo row bank) reads = false := by
  obtain ⟨h1, h2⟩ := h
  simp [Die.lineBad, mget, h1, h2]
theorem machineGuard_of_sound {lines : List (Nat × Nat)} (h : ∀ x ∈ lines, s.Sound c x.1 x.2) (fslot : Nat) (reads : Bool) :
    machineGuard s c fslot lines reads = .go := by
  have hn : linesGood s c lines reads = none :=
    List.find?_eq_none.mpr fun x hx => by simp [lineBad_of_sound (h x hx) reads]
  simp [machineGuard, hn]

end

section
variable {s : State} {l : Landing} (hl : s.slotLanding s.cur = some l) (hm : ∀ m, s.spineLanding s.cur = some m → l.ph < m.ph)
include hl hm

theorem exec_resultLanding : exec .resultLanding s = .next (s.commit (slotLandUpds s s.curKey l)) := by
  show s.by_ (landNext s s.curKey s.cur (s.slotLanding s.cur) (s.spineLanding s.cur)) = _
  rw [hl]
  cases h : s.spineLanding s.cur with
  | none => rfl
  | some m => simp [landNext, hm m h, State.by_]

/-- A result that reads no line of the banks. -/
theorem exec_resultLanding_quiet (hq : l.eff.isBank = false) (hr : effectReads s s.curCtx l.eff = []) :
    exec .resultLanding s = .next ((s.running (Ctx.landed l)).commit (landUpds (s.running (Ctx.landed l)) s.curKey l)) := by
  rw [exec_resultLanding hl hm]
  have hp : performs s (s.slot s.curKey) l.eff = false := by simp [performs, hq]
  simp only [slotLandUpds, hp, show effectReads s (s.slot s.curKey) l.eff = [] from hr]
  rfl

/-- A result that changes the slot's record alone. -/
theorem exec_resultLanding_slot (hq : l.eff.isBank = false) (hr : effectReads s s.curCtx l.eff = []) (g : Ctx → Ctx)
    (hg : landUpds (s.running (Ctx.landed l)) s.curKey l = [.slot s.curKey g]) :
    exec .resultLanding s = .next (s.running fun c => g (c.landed l)) := by
  rw [exec_resultLanding_quiet hl hm hq hr, hg]
  exact congrArg _ (commit_slot_slot s (Ctx.landed l) g [])

/-- A result that reads lines of the banks, all of them sound. -/
theorem exec_resultLanding_reads (hq : l.eff.isBank = false)
    (hr : ∀ x ∈ effectReads s s.curCtx l.eff, s.Sound s.curCtx x.1 x.2) :
    exec .resultLanding s = .next ((s.running (Ctx.landed l)).commit (landUpds (s.running (Ctx.landed l)) s.curKey l)) := by
  rw [exec_resultLanding hl hm]
  have hp : performs s (s.slot s.curKey) l.eff = false := by simp [performs, hq]
  have he : ((effectReads s (s.slot s.curKey) l.eff).flatMap fun x => eccNote s (s.slot s.curKey) x.1 x.2) = [] :=
    eccNotes_of_sound hr
  simp only [slotLandUpds, hp, he]
  rfl

/-- An access of the banks whose lines are sound. -/
theorem exec_resultLanding_bank (hp : performs s s.curCtx l.eff = true)
    (hr : ∀ x ∈ effectReads s s.curCtx l.eff, s.Sound s.curCtx x.1 x.2) :
    exec .resultLanding s = .next ((s.running (Ctx.landedBank l)).commit (landUpds (s.running (Ctx.landed l)) s.curKey l)) := by
  rw [exec_resultLanding hl hm]
  have hp : performs s (s.slot s.curKey) l.eff = true := hp
  have he : ((effectReads s (s.slot s.curKey) l.eff).flatMap fun x => eccNote s (s.slot s.curKey) x.1 x.2) = [] :=
    eccNotes_of_sound hr
  simp only [slotLandUpds, hp, he]
  rfl

end

/-! ## LOOP's descriptor (R155, R157) -/

/-- The lines of a descriptor. -/
def descLines (off : Nat) : List (Nat × Nat) := (List.range 8).map fun i => ((off + 64 * i) / 2 ^ 17, (off + 64 * i) / 64 % 2048)

/-- A descriptor whose lines are sound is read: what its checks find, and the loop that it gives, follow at issue + 3. -/
theorem exec_loopRead {s : State} {l : Landing} {x : Loop} (hl : s.slotLanding s.cur = some l)
    (hm : ∀ m, s.spineLanding s.cur = some m → l.ph < m.ph) (he : l.eff = .loopRead) (hx : s.curCtx.loop = some x)
    (hs : ∀ i < 8, s.Sound s.curCtx ((x.desc + 64 * i) / 2 ^ 17) ((x.desc + 64 * i) / 64 % 2048)) {t : Option Trap}
    (ht : (if descReserved (s.descBytes s.curCtx x.desc) x.counts x.body.length then some (trapAfter 0 .reservedField x.desc)
      else if descTids (s.descBytes s.curCtx x.desc) (s.node s.curCtx.rid).tids then some (trapAfter 0 .permission x.desc)
      else if 2 <= descStages (s.descBytes s.curCtx x.desc) && !hdrRot (x.body.getLastD 0) then
        some (trapAfter 0 .reservedField x.desc)
      else none) = t) :
    exec .resultLanding s = .next (s.running fun c =>
      (c.landed l).later 3 phSys (.loopCheck t (loopOf (s.descBytes s.curCtx x.desc) x))) := by
  have hr : effectReads s s.curCtx l.eff = descLines x.desc := by
    simp only [he, effectReads, hx]
    rfl
  have hso : ∀ y ∈ descLines x.desc, s.Sound s.curCtx y.1 y.2 := by
    intro y hy
    obtain ⟨i, hi, rfl⟩ := List.mem_map.mp hy
    exact hs i (List.mem_range.mp hi)
  rw [exec_resultLanding_reads hl hm (by rw [he]; rfl) (hr ▸ hso)]
  have hk : (s.running (Ctx.landed l)).slot s.curKey = s.curCtx.landed l := running_slot s _
  have hg : machineGuard (s.running (Ctx.landed l)) (s.curCtx.landed l) 0 (descLines x.desc) true = .go :=
    machineGuard_of_sound (s := s.running (Ctx.landed l)) (c := s.curCtx.landed l) hso 0 true
  have hu : landUpds (s.running (Ctx.landed l)) s.curKey l = [.slot s.curKey fun c =>
      c.later 3 phSys (.loopCheck t (loopOf (s.descBytes s.curCtx x.desc) x))] := by
    have hr' : effectReads (s.running (Ctx.landed l)) (s.curCtx.landed l) .loopRead = descLines x.desc := by
      simp only [effectReads, show (s.curCtx.landed l).loop = some x from hx]
      rfl
    simp only [landUpds, he, hk, hr', hg, loopReadUpds, show (s.curCtx.landed l).loop = some x from hx]
    exact congrArg (fun b => [Upd.slot s.curKey fun c => c.later 3 phSys (.loopCheck b _)]) ht
  rw [hu]
  exact congrArg _ (commit_slot_slot s (Ctx.landed l) _ [])

theorem physG_inj {grb i j : Nat} (hi : i < 32) (hj : j < 32) (h : physG grb (32 + i) = physG grb (32 + j)) : i = j := by
  simp only [physG] at h
  rw [if_neg (by omega), if_neg (by omega)] at h
  omega

/-- The stage predicates that LOOP writes. -/
theorem foldl_setG (grb : Nat) (b : Nat → Bool) (c : Ctx) : ∀ n ≤ 32, ∃ m,
    (List.range n).foldl (fun c i => c.setG (physG grb (32 + i)) (b i)) c = { c with stage := m } ∧
    ∀ i < n, mget m (physG grb (32 + i)) false = b i
  | 0, _ => ⟨c.stage, rfl, fun _ h => absurd h (Nat.not_lt_zero _)⟩
  | n + 1, hn => by
    obtain ⟨m, hf, hg⟩ := foldl_setG grb b c n (by omega)
    refine ⟨mput (physG grb (32 + n)) (b n) m, ?_, fun i hi => ?_⟩
    · rw [List.range_succ, List.foldl_append, hf]
      rfl
    · rw [mget_mput]
      split
      · next h => rw [physG_inj (by omega) (by omega) h]
      · next h =>
        refine hg i (Nat.lt_of_le_of_ne (Nat.le_of_lt_succ hi) fun e => h ?_)
        rw [e]

theorem loopChecked_trap {t : Trap} {x : Loop} {c : Ctx} (hh : c.loopHeld = false) :
    c.loopChecked (some t) x = { c with loop := none, pending := c.pending <|> some t } := by
  have h : (if c.loopHeld then none else some t) = some t := if_neg (by simp [hh])
  show ({ c with loop := none } : Ctx).raise (if c.loopHeld then none else some t) = _
  rw [h]
  rfl

theorem loopChecked_go {x : Loop} {c : Ctx} (hst : x.stages ≤ 15) (hh : c.loopHeld = false) : ∃ d, c.loopChecked none x = d ∧
    SameRegisters c d ∧ (∀ i < x.stages, d.g (physG x.grb (32 + i)) = (decide (i = 0) && decide (x.total ≠ 0))) ∧
    (x.total ≠ 0 → d.loop = some x ∧ d.pc = c.pc) ∧ (x.total = 0 → d.loop = none ∧ d.pc = x.pc + 64 * x.body.length) := by
  obtain ⟨m, hf, hg⟩ := foldl_setG x.grb (fun i => i == 0 && x.total != 0) c x.stages (by omega)
  have hd : c.loopChecked none x = if x.total = 0 then { c with stage := m, loop := none, pc := x.exit }
      else { c with stage := m, loop := some x } := by
    simp only [Ctx.loopChecked, hf]
    by_cases h0 : x.total = 0 <;> simp [h0, hh]
  refine ⟨_, hd, ?_, fun i hi => ?_, fun h => ?_, fun h => ?_⟩
  · split <;> exact ⟨rfl, rfl, rfl, rfl, rfl⟩
  · have hs : ∀ d : Ctx, d.stage = m → d.g (physG x.grb (32 + i)) = (decide (i = 0) && decide (x.total ≠ 0)) := by
      intro d h
      rw [Ctx.g, h, hg i hi]
      by_cases h0 : i = 0 <;> by_cases ht : x.total = 0 <;> simp [h0, ht]
    split <;> exact hs _ rfl
  · rw [if_neg h]
    exact ⟨rfl, rfl⟩
  · rw [if_pos h]
    exact ⟨rfl, rfl⟩

end Sys2Proof.Machine
end

section
open Sys2Proof Sys2Proof.Machine

/-- Settles O25: a target passes its two checks or raises one of two traps; a loop starts with the copy of its issue, and its
descriptor's read and check decide what becomes of it. -/
theorem transfersAndLoops : Obligations.TransfersAndLoops := by
  unfold Obligations.TransfersAndLoops
  refine ⟨fun f s hon => ?_, fun f s hon hg => ?_, fun s l hl hm => ?_⟩
  · intro c size goes calls rel reg does
    exact ⟨goes_transfer hon (relTarget f) rfl, goes_call hon (relTarget f) rfl, goes_transfer hon (regTarget f) rfl,
      goes_transfer hon (regTarget f) rfl, goes_call hon (regTarget f) rfl, goes_transfer hon (fun _ => immTarget f) rfl,
      fun x hx => by
        have h := goes_transfer (i := .jmpLong f) hon (fun _ => longTarget f) rfl
        simp only [longTarget, hx] at h
        exact h,
      goes_transfer hon (fun c => ((c.s 63).toNat : Int)) rfl⟩
  · exact ⟨_, _, exec_loop hon hg, rfl, rfl, rfl, rfl, rfl, rfl, rfl⟩
  · intro c rest
    refine ⟨fun x he hx hs => ?_, fun t x he hh => ?_, fun x he hst hh => ?_⟩
    · intro d reads
      refine ⟨fun h => exec_loopRead hl hm he hx hs (if_pos h), fun h h' => exec_loopRead hl hm he hx hs ?_,
        fun h h' h'' => exec_loopRead hl hm he hx hs ?_⟩
      · rw [if_neg (by simpa using h), if_pos h']
      · rw [if_neg (by simpa using h), if_neg (by simpa using h'), if_neg fun hb =>
          absurd (of_decide_eq_true (Bool.and_eq_true_iff.mp hb).1) (Nat.not_le.mpr h'')]
    · rw [exec_resultLanding_slot hl hm (by rw [he]; rfl) (by rw [he]; rfl) (Ctx.loopChecked (some t) x) (by simp [landUpds, he])]
      simp only [State.running, loopChecked_trap (c := s.curCtx.landed l) (t := t) hh]
      rfl
    · obtain ⟨d, hd, h⟩ := loopChecked_go (x := x) (c := c.landed l) hst hh
      refine ⟨d, ?_, h⟩
      rw [exec_resultLanding_slot hl hm (by rw [he]; rfl) (by rw [he]; rfl) (Ctx.loopChecked none x) (by simp [landUpds, he])]
      rw [← hd]
      rfl

end

section
/-! SUPPORT. Results and bank accesses that land. -/

namespace Sys2Proof.Machine

/-! ## Results on their way -/

/-- What `pushAll` adds to a slot's results in flight. -/
def pushedList (seq : Nat) (l : List (Nat × Nat × Effect)) : List Landing := l.zipIdx.map fun x => ⟨x.1.1, x.1.2.1, seq + x.2, x.1.2.2⟩

theorem pushedList_cons (seq : Nat) (e : Nat × Nat × Effect) (l : List (Nat × Nat × Effect)) :
    pushedList seq (e :: l) = ⟨e.1, e.2.1, seq, e.2.2⟩ :: pushedList (seq + 1) l := by
  simp only [pushedList, List.zipIdx_cons, List.map_cons, Nat.zero_add, Nat.add_zero, List.zipIdx_succ, List.map_map]
  congr 1
  refine List.map_congr_left fun x _ => ?_
  simp [Nat.add_comm, Nat.add_left_comm]

theorem pushAll_land : ∀ (l : List (Nat × Nat × Effect)) (c : Ctx), (c.pushAll l).land = c.land ++ pushedList c.nextSeq l
  | [], c => (List.append_nil _).symm
  | e :: l, c => by
    rw [pushedList_cons]
    refine (pushAll_land l (c.push e.1 e.2.1 e.2.2)).trans ?_
    simp

theorem pushAll_registers : ∀ (l : List (Nat × Nat × Effect)) (c : Ctx), SameRegisters c (c.pushAll l)
  | [], _ => ⟨rfl, rfl, rfl, rfl, rfl⟩
  | e :: l, c => pushAll_registers l (c.push e.1 e.2.1 e.2.2)

/-! ## Writes of memory -/

/-- A write of bytes changes memory there, and of the dies their marks of errors. -/
theorem commit_writeBytes (s : State) (a : Nat) (bs : List Byte) :
    ∃ dies, s.commit (writeBytes a bs) = { s with mem := memWrite a bs s.mem, dies := dies } := by
  unfold writeBytes
  rw [State.commit_cons]
  split
  · exact ⟨_, rfl⟩
  · split <;> exact ⟨_, rfl⟩

theorem commit_writeBytes_list {α : Type} (at_ : α → Nat) (bs : α → List Byte) : ∀ (l : List α) (s : State),
    ∃ dies, s.commit (l.flatMap fun x => writeBytes (at_ x) (bs x)) =
      { s with mem := l.foldl (fun m x => memWrite (at_ x) (bs x) m) s.mem, dies := dies }
  | [], s => ⟨s.dies, rfl⟩
  | x :: l, s => by
    obtain ⟨dies, h⟩ := commit_writeBytes s (at_ x) (bs x)
    obtain ⟨dies', h'⟩ := commit_writeBytes_list at_ bs l { s with mem := memWrite (at_ x) (bs x) s.mem, dies := dies }
    exact ⟨dies', by rw [List.flatMap_cons, State.commit_append, h, h']; rfl⟩

/-! ## Checks of a route's lines -/

theorem rowsGuard_of_below {s : State} {c : Ctx} {fslot : Nat} {lines : List (Nat × Nat)}
    (h : ∀ x ∈ lines, x.1 < (s.node c.rid).brows) : rowsGuard s c fslot lines = .go := by
  have hn : (lines.find? fun l => decide ((s.node c.rid).brows ≤ l.1)) = none :=
    List.find?_eq_none.mpr fun x hx => by simpa using h x hx
  simp only [rowsGuard, hn]

/-- The write gauntlet's check of one of its lines. -/
def writeCheck (s : State) (k : SlotKey) (x : Nat × Nat × Nat × Line) : Guard :=
  Guard.seq [rowsGuard s (s.slot k) x.1 [(x.2.1, x.2.2.1)], machineGuard s (s.slot k) x.1 [(x.2.1, x.2.2.1)] false]

theorem writeCheck_of_good {s : State} {k : SlotKey} {x : Nat × Nat × Nat × Line} (hr : x.2.1 < (s.node (s.slot k).rid).brows)
    (hd : (s.slot k).lineNo x.2.1 x.2.2.1 % 2048 ∉ (s.die (s.slot k).die).dead) : writeCheck s k x = .go := by
  have hm : machineGuard s (s.slot k) x.1 [(x.2.1, x.2.2.1)] false = .go := by
    simp [machineGuard, linesGood, Die.lineBad, hd]
  rw [writeCheck, rowsGuard_of_below (by simpa using hr), hm]
  rfl

/-- The write gauntlet writes all of its lines when none is beyond the budget or on a bank that is gone (R78). -/
theorem gauntletWrites_of_good {s : State} {k : SlotKey} {lines : List (Nat × Nat × Nat × Line)}
    (h : ∀ x ∈ lines, writeCheck s k x = .go) : gauntletWrites s k lines = lines.flatMap fun x =>
      writeBytes (bankAddr (s.slot k).die ((s.slot k).physRow x.2.1) x.2.2.1 0) (bytesOfLine x.2.2.2) := by
  have hc : ((lines.map (writeCheck s k)).find? (· != .go)) = none := by
    refine List.find?_eq_none.mpr fun g hg => ?_
    obtain ⟨x, hx, rfl⟩ := List.mem_map.mp hg
    simp [h x hx]
  have hw : (lines.flatMap fun x => match writeCheck s k x with
      | .go => writeBytes (bankAddr (s.slot k).die ((s.slot k).physRow x.2.1) x.2.2.1 0) (bytesOfLine x.2.2.2)
      | _ => []) = lines.flatMap fun x =>
        writeBytes (bankAddr (s.slot k).die ((s.slot k).physRow x.2.1) x.2.2.1 0) (bytesOfLine x.2.2.2) := by
    refine List.flatMap_congr fun x hx => ?_
    rw [h x hx]
  refine Eq.trans ?_ ((List.append_nil _).trans hw)
  refine congrArg₂ (· ++ ·) rfl ?_
  refine (congrArg (fun g => lateGuard k (Option.getD g .go) []) hc).trans rfl

/-! ## What lands: registers and entries -/

/-- What a landing changes of its slot's record alone. -/
def Landing.own (l : Landing) : Option (Ctx → Ctx) :=
  match l.eff with
  | .scalar r v => some fun c => c.setS r v
  | .pred r v => some fun c => c.setP r v
  | .mask r v en => some fun c => c.setK r (blend (c.k r) v en)
  | .vec r v en => some fun c => c.setV r (blend (c.v r) v en)
  | .flags v => some fun c => c.mergeFlags v.toNat
  | .lqFill e v => some fun c => c.fillLq e (.value v)
  | .qset q qb depth => some (Ctx.setQueue q qb depth)
  | .loopDelta d => some (Ctx.addDelta d)
  | .accZero first count => some (Ctx.zeroAccs first count)
  | _ => none

section
variable {s : State} {l : Landing} (hl : s.slotLanding s.cur = some l) (hm : ∀ m, s.spineLanding s.cur = some m → l.ph < m.ph)
include hl hm

theorem exec_resultLanding_own {g : Ctx → Ctx} (h : l.own = some g) :
    exec .resultLanding s = .next (s.running fun c => g (c.landed l)) := by
  obtain ⟨due, ph, seq, eff⟩ := l
  cases eff <;> cases h <;> exact exec_resultLanding_slot hl hm rfl rfl _ rfl

end

theorem word_mod_flags (v : Word) : word (v.toNat % 64) = v &&& 0x3F := by
  apply BitVec.eq_of_toNat_eq
  rw [toNat_word_of_lt (by omega), BitVec.toNat_and]
  exact (Nat.and_two_pow_sub_one_eq_mod v.toNat 6).symm

theorem ofBytes_lt : ∀ l : List Byte, ofBytes l < 256 ^ l.length
  | [] => by simp [ofBytes]
  | b :: l => by
    have ih := ofBytes_lt l
    have hb := b.isLt
    simp only [ofBytes, List.length_cons, pow_succ]
    omega
theorem num_lt (s : State) (a : Nat) {n : Nat} (hn : n ≤ 8) : s.num a n < 2 ^ 64 := by
  have h := ofBytes_lt (s.bytes a n)
  rw [show (s.bytes a n).length = n by simp [State.bytes, memRead]] at h
  exact h.trans_le ((Nat.pow_le_pow_right (by omega) hn).trans (by norm_num))

theorem toInt_wordI_signed {n : Nat} (h0 : 0 < n) (h8 : n ≤ 8) (v : Nat) :
    (wordI (signed (8 * n) v)).toInt = signed (8 * n) v := by
  have hp : 2 ^ (8 * n) = 2 * 2 ^ (8 * n - 1) := by rw [← pow_succ', Nat.sub_add_cancel (by omega)]
  have hle : 2 ^ (8 * n - 1) ≤ 2 ^ 63 := Nat.pow_le_pow_right (by omega) (by omega)
  have hlt : v % 2 ^ (8 * n) < 2 ^ (8 * n) := Nat.mod_lt _ (by positivity)
  have hr : -2 ^ 63 ≤ signed (8 * n) v ∧ signed (8 * n) v < 2 ^ 63 := by
    have hi : ((2 : Int) ^ (8 * n)) = ((2 * 2 ^ (8 * n - 1) : Nat) : Int) := by rw [← hp]; push_cast; rfl
    unfold signed
    rw [hi]
    generalize v % 2 ^ (8 * n) = r at hlt ⊢
    rw [hp] at hlt
    generalize 2 ^ (8 * n - 1) = p at hlt hle ⊢
    split <;> omega
  exact toInt_ofInt_of_range hr.1 hr.2

/-! ## What lands: accesses of the banks -/

/-- An access of the banks leaves results in flight alone. -/
def Reads (s : State) (l : Landing) (new : List (Nat × Nat × Effect)) : Prop :=
  ∃ d, exec .resultLanding s = .next (s.withCtx s.curKey d) ∧ SameRegisters s.curCtx d ∧
    d.land = (s.curCtx.land.filter fun x => x.seq != l.seq) ++ pushedList s.curCtx.nextSeq new

/-- An access of the banks leaves memory as it writes it, and no other part but the slot's list of results differs. -/
def Writes (s : State) (mem : Memory) : Prop :=
  ∃ t, exec .resultLanding s = .next t ∧ t.mem = mem ∧ SameRegisters s.curCtx (t.slot s.curKey) ∧
    (∀ k, k ≠ s.curKey → t.slot k = s.slot k) ∧ t.pkgs = s.pkgs ∧ t.nodes = s.nodes ∧ t.reqs = s.reqs

section
variable {s : State} {l : Landing} (hl : s.slotLanding s.cur = some l) (hm : ∀ m, s.spineLanding s.cur = some m → l.ph < m.ph)
include hl hm

/-- An access whose lines are sound and that owes results alone. -/
theorem reads_of_land (hp : performs s s.curCtx l.eff = true)
    (hr : ∀ x ∈ effectReads s s.curCtx l.eff, s.Sound s.curCtx x.1 x.2) (g : Ctx → Ctx) (new : List (Nat × Nat × Effect))
    (hg : (s.running (Ctx.landedBank l)).commit (landUpds (s.running (Ctx.landed l)) s.curKey l) =
      s.running fun c => (g (c.landedBank l)).pushAll new)
    (hregs : ∀ c, SameRegisters c (g c) ∧ (g c).land = c.land ∧ (g c).nextSeq = c.nextSeq) : Reads s l new := by
  refine ⟨(g (s.curCtx.landedBank l)).pushAll new, ?_, ?_, ?_⟩
  · rw [exec_resultLanding_bank hl hm hp hr, hg]
    rfl
  · obtain ⟨⟨h1, h2, h3, h4, h5⟩, -, -⟩ := hregs (s.curCtx.landedBank l)
    obtain ⟨h1', h2', h3', h4', h5'⟩ := pushAll_registers new (g (s.curCtx.landedBank l))
    exact ⟨h1'.trans h1, h2'.trans h2, h3'.trans h3, h4'.trans h4, h5'.trans h5⟩
  · obtain ⟨-, hland, hseq⟩ := hregs (s.curCtx.landedBank l)
    rw [pushAll_land, hland, hseq]
    rfl

omit hl hm in
theorem running_slot_slot (s : State) (h g : Ctx → Ctx) (f : Ctx → Ctx) :
    (s.running h).commit [.slot s.curKey g, .slot s.curKey f] = s.running fun c => f (g (h c)) :=
  (commit_slot_slot (s.running h) g f []).trans (commit_slot_slot s h _ [])

omit hl hm in
theorem lineGuard_of_sound {s : State} {c : Ctx} {off : Nat} (h : s.Sound c (off / 2 ^ 17) (off / 64 % 2048)) :
    lineGuard s c off = .go ∧ eccNote s c (off / 2 ^ 17) (off / 64 % 2048) = [] :=
  ⟨machineGuard_of_sound (by simpa using h) 0 true, eccNote_of_sound h⟩

theorem reads_ld {off n d : Nat} {g : Bool} (he : l.eff = .ldRead off n g d)
    (hs : s.Sound s.curCtx (off / 2 ^ 17) (off / 64 % 2048)) :
    Reads s l [(l.due + 4, phReg, .scalar d (extendVal n g (s.num (s.curCtx.bankAt off) n)))] := by
  obtain ⟨hg, hn⟩ := lineGuard_of_sound (s := s.running (Ctx.landed l)) (c := s.curCtx.landed l) hs
  refine reads_of_land hl hm (by rw [he]; rfl) (by simp [he, effectReads]) (fun c => { c with ownRead := c.pos + 1 }) _ ?_
    fun c => ⟨⟨rfl, rfl, rfl, rfl, rfl⟩, rfl, rfl⟩
  simp only [landUpds, he, ldReadUpds, running_slot, hg, hn, lateGuard, List.singleton_append]
  exact running_slot_slot s _ _ _

theorem reads_atom {off n op : Nat} {b x : Word} {q : Option Nat} (he : l.eff = .bankAtom off n op b x q)
    (hs : s.Sound s.curCtx (off / 2 ^ 17) (off / 64 % 2048)) :
    Reads s l ((l.due, phSlotWrite, .bankWrite off (toBytes n (atomNew op n (s.num (s.curCtx.bankAt off) n) b.toNat x.toNat))) ::
      (match q with
       | some e => [(l.due + 1, phSys, .lqFill e (word (s.num (s.curCtx.bankAt off) n)))]
       | none => [])) := by
  obtain ⟨hg, hn⟩ := lineGuard_of_sound (s := s.running (Ctx.landed l)) (c := s.curCtx.landed l) hs
  refine reads_of_land hl hm (by rw [he]; rfl) (by simp [he, effectReads])
    (fun c => if q.isSome then { c with ownRead := c.pos + 1 } else { c with ownRed := c.pos + 1 }) _ ?_
    fun c => by split <;> exact ⟨⟨rfl, rfl, rfl, rfl, rfl⟩, rfl, rfl⟩
  cases q <;> simp only [landUpds, he, bankAtomUpds, running_slot, hg, hn, List.singleton_append] <;>
    exact running_slot_slot s _ _ _

/-- The registers that a VLD writes (R404). -/
def vldNew (s : State) (l : Landing) (v1 : Bool) (regs : List Nat) (en : List VReg) (rt row : Nat) : List (Nat × Nat × Effect) :=
  (regs.zip en).zipIdx.map fun x => (l.due + 3, phReg, .vec x.1.1 (ofLines ((List.range 8).map fun j =>
    match (s.curCtx.routeOr (s.node s.curCtx.rid).routes 0 rt).source ((if v1 then 512 else 0) + 8 * x.2 + j) with
    | some b => s.bankLine s.curCtx (row + b.2) b.1
    | none => 0)) x.1.2)

theorem reads_vld {v1 : Bool} {regs : List Nat} {en : List VReg} {rt row : Nat} (he : l.eff = .vldRead v1 regs en rt row)
    (hs : ∀ x ∈ groupLines (s.curCtx.routeOr (s.node s.curCtx.rid).routes 0 rt).source (if v1 then 1 else 0) row,
      x.1 < (s.node s.curCtx.rid).brows ∧ s.Sound s.curCtx x.1 x.2) :
    Reads s l (vldNew s l v1 regs en rt row) := by
  refine reads_of_land hl hm (by rw [he]; rfl) (by simpa [he, effectReads] using fun a b h => (hs (a, b) h).2) id _ ?_
    fun c => ⟨⟨rfl, rfl, rfl, rfl, rfl⟩, rfl, rfl⟩
  have hg : Guard.seq [rowsGuard (s.running (Ctx.landed l)) (s.curCtx.landed l) (if v1 then 2 else 1)
      (groupLines ((s.curCtx.landed l).routeOr ((s.running (Ctx.landed l)).node (s.curCtx.landed l).rid).routes 0 rt).source
        (if v1 then 1 else 0) row), machineGuard (s.running (Ctx.landed l)) (s.curCtx.landed l) (if v1 then 2 else 1)
      (groupLines ((s.curCtx.landed l).routeOr ((s.running (Ctx.landed l)).node (s.curCtx.landed l).rid).routes 0 rt).source
        (if v1 then 1 else 0) row) true] = .go := by
    refine Guard.seq_eq_go_iff.mpr (List.forall_mem_cons.mpr ⟨?_, List.forall_mem_singleton.mpr ?_⟩)
    · exact rowsGuard_of_below (s := s.running (Ctx.landed l)) (c := s.curCtx.landed l) fun x hx => (hs x hx).1
    · exact machineGuard_of_sound (s := s.running (Ctx.landed l)) (c := s.curCtx.landed l) (fun x hx => (hs x hx).2) _ true
  simp only [landUpds, he, vldReadUpds, running_slot, hg, lateGuard]
  exact commit_slot_slot s _ _ []

/-- What a drain reads (R140): its output lines, and the largest magnitude of its tile. -/
def drainNew (l : Landing) (c : Ctx) (a t : Nat) (e : BitVec 512) : List (Nat × Nat × Effect) :=
  ((List.range (drainLr (tidOfmt e) / 2)).map fun y => (l.due + 3 + y, phPort, Effect.wLines ((List.range 256).map fun j =>
    (1024 + j, drainLine c a e (256 * y + j))) none 0)) ++
  [(l.due + 7, phReg, .amax t ((List.range 16384).foldl (fun x i => max x ((c.acc a (i / 128) (i % 128)).toNat % 2 ^ 31)) 0))]

omit hl hm in
theorem foldl_max (f : Nat → Nat) : ∀ n, (∀ i < n, f i ≤ (List.range n).foldl (fun x i => max x (f i)) 0) ∧
    ((List.range n).foldl (fun x i => max x (f i)) 0 = 0 ∨ ∃ i < n, (List.range n).foldl (fun x i => max x (f i)) 0 = f i)
  | 0 => ⟨fun _ h => absurd h (Nat.not_lt_zero _), .inl rfl⟩
  | n + 1 => by
    obtain ⟨hle, hatt⟩ := foldl_max f n
    simp only [List.range_succ, List.foldl_append, List.foldl_cons, List.foldl_nil]
    refine ⟨fun i hi => ?_, ?_⟩
    · rcases Nat.lt_succ_iff_lt_or_eq.mp hi with h | rfl
      · exact (hle i h).trans (le_max_left _ _)
      · exact le_max_right _ _
    · rcases le_total ((List.range n).foldl (fun x i => max x (f i)) 0) (f n) with h | h
      · exact .inr ⟨n, Nat.lt_succ_self n, max_eq_right h⟩
      · rw [max_eq_left h]
        exact hatt.imp_right fun ⟨i, hi, he⟩ => ⟨i, Nat.lt_succ_of_lt hi, he⟩

omit hl hm in
theorem drainMax_spec (c : Ctx) (a : Nat) :
    let m := (List.range 16384).foldl (fun x i => max x ((c.acc a (i / 128) (i % 128)).toNat % 2 ^ 31)) 0
    (∀ i < 128, ∀ j < 128, (c.acc a i j).toNat % 2 ^ 31 ≤ m) ∧
      (m = 0 ∨ ∃ i < 128, ∃ j < 128, m = (c.acc a i j).toNat % 2 ^ 31) := by
  obtain ⟨hle, hatt⟩ := foldl_max (fun i => (c.acc a (i / 128) (i % 128)).toNat % 2 ^ 31) 16384
  refine ⟨fun i hi j hj => ?_, hatt.imp_right fun ⟨n, hn, he⟩ => ⟨n / 128, by omega, n % 128, by omega, he⟩⟩
  have h := hle (128 * i + j) (by omega)
  rwa [show (128 * i + j) / 128 = i by omega, show (128 * i + j) % 128 = j by omega] at h

theorem reads_drain {a t : Nat} {e : BitVec 512} (he : l.eff = .drainRead a t e) : Reads s l (drainNew l s.curCtx a t e) := by
  refine reads_of_land hl hm (by rw [he]; rfl) (by simp [he, effectReads]) id _ ?_
    fun c => ⟨⟨rfl, rfl, rfl, rfl, rfl⟩, rfl, rfl⟩
  simp only [landUpds, he, drainUpds]
  exact commit_slot_slot s _ _ []

/-- An access that writes memory alone. -/
theorem writes_of_land {mem : Memory} (hp : performs s s.curCtx l.eff = true) (hr : effectReads s s.curCtx l.eff = [])
    (hg : ∃ dies, (s.running (Ctx.landedBank l)).commit (landUpds (s.running (Ctx.landed l)) s.curKey l) =
      { s.running (Ctx.landedBank l) with mem := mem, dies := dies }) : Writes s mem := by
  obtain ⟨dies, hg⟩ := hg
  refine ⟨_, (exec_resultLanding_bank hl hm hp (by simp [hr])).trans (congrArg _ hg), rfl, ?_, fun k hk => ?_, rfl, rfl, rfl⟩
  · have hk : (({ s.running (Ctx.landedBank l) with mem := mem, dies := dies } : State)).slot s.curKey = s.curCtx.landedBank l :=
      running_slot s _
    rw [hk]
    exact ⟨rfl, rfl, rfl, rfl, rfl⟩
  · have h := withCtx_slot s s.curKey k (s.curCtx.landedBank l)
    rwa [if_neg hk] at h

theorem writes_bankWrite {off : Nat} {bs : List Byte} (he : l.eff = .bankWrite off bs) :
    Writes s (memWrite (s.curCtx.bankAt off) bs s.mem) := by
  refine writes_of_land hl hm (by rw [he]; rfl) (by rw [he]; rfl) ?_
  simp only [landUpds, he, running_slot]
  exact commit_writeBytes _ _ _

theorem writes_st {off : Nat} {bs : List Byte} (he : l.eff = .bankBytes off bs)
    (hs : s.Sound s.curCtx (off / 2 ^ 17) (off / 64 % 2048)) : Writes s (memWrite (s.curCtx.bankAt off) bs s.mem) := by
  obtain ⟨hg, hn⟩ := lineGuard_of_sound (s := s.running (Ctx.landed l)) (c := s.curCtx.landed l) hs
  refine writes_of_land hl hm (by rw [he]; rfl) (by rw [he]; rfl) ?_
  simp only [landUpds, he, stWriteUpds, running_slot, hg, hn, lateGuard, List.nil_append]
  exact commit_writeBytes _ _ _

/-- The lines that a VST writes, by its route (R78, R422). -/
def vstLines (s : State) (ports : List (Nat × Line)) (rt row : Nat) : List (Nat × Nat × Line) :=
  ports.filterMap fun p => ((s.curCtx.routeOr (s.node s.curCtx.rid).routes 1 rt).sink p.1).map fun b => (row + b.2, b.1, p.2)

/-- The same lines with the FSR.SLOT of their ports. -/
def gauntletLines (s : State) (ports : List (Nat × Line)) (rt row : Nat) : List (Nat × Nat × Nat × Line) :=
  ports.filterMap fun p => ((s.curCtx.routeOr (s.node s.curCtx.rid).routes 1 rt).sink p.1).map fun b =>
    (portSlot true p.1, row + b.2, b.1, p.2)

omit hl hm in
theorem gauntletLines_snd (ports : List (Nat × Line)) (rt row : Nat) :
    (gauntletLines s ports rt row).map (fun x => x.2) = vstLines s ports rt row := by
  simp only [gauntletLines, vstLines, List.map_filterMap, Option.map_map]
  rfl

theorem writes_vst {ports : List (Nat × Line)} {rt row : Nat} (he : l.eff = .wLines ports (some rt) row)
    (hs : ∀ x ∈ vstLines s ports rt row, x.1 < (s.node s.curCtx.rid).brows ∧
      s.curCtx.lineNo x.1 x.2.1 % 2048 ∉ (s.die s.curCtx.die).dead) :
    Writes s ((vstLines s ports rt row).foldl (fun m x =>
      memWrite (bankAddr s.curCtx.die (s.curCtx.physRow x.1) x.2.1 0) (bytesOfLine x.2.2) m) s.mem) := by
  refine writes_of_land hl hm (by rw [he]; rfl) (by rw [he]; rfl) ?_
  have hc : ∀ x ∈ gauntletLines s ports rt row, writeCheck (s.running (Ctx.landed l)) s.curKey x = .go := by
    intro x hx
    have hx' : x.2 ∈ vstLines s ports rt row := by
      rw [← gauntletLines_snd]
      exact List.mem_map_of_mem hx
    obtain ⟨h1, h2⟩ := hs x.2 hx'
    refine writeCheck_of_good ?_ ?_ <;> rw [running_slot]
    · exact h1
    · exact h2
  have hw := gauntletWrites_of_good hc
  have hu : landUpds (s.running (Ctx.landed l)) s.curKey l =
      gauntletWrites (s.running (Ctx.landed l)) s.curKey (gauntletLines s ports rt row) := by
    simp only [landUpds, he, wLinesUpds, running_slot]
    rfl
  rw [hu, hw, running_slot]
  obtain ⟨dies, h⟩ := commit_writeBytes_list (fun x : Nat × Nat × Nat × Line => bankAddr s.curCtx.die (s.curCtx.physRow x.2.1) x.2.2.1 0)
    (fun x => bytesOfLine x.2.2.2) (gauntletLines s ports rt row) (s.running (Ctx.landedBank l))
  refine ⟨dies, h.trans ?_⟩
  rw [← gauntletLines_snd, List.foldl_map]
  rfl

end

end Sys2Proof.Machine
end

section
open Sys2Proof Sys2Proof.Machine

/-- Settles O20: what a result lands in is named once, and a bank access on sound lines owes its results or writes its bytes. -/
theorem resultsLand : Obligations.ResultsLand := by
  unfold Obligations.ResultsLand
  refine ⟨fun s l hl hm => ?_, fun s l hl hm => ?_⟩
  · intro rest
    have own : ∀ g : Ctx → Ctx, l.own = some g → exec .resultLanding s = .next (s.running fun c => g (c.landed l)) :=
      fun g h => exec_resultLanding_own hl hm h
    refine ⟨fun r v h => own (fun c => c.setS r v) ?_, fun r v h => own (fun c => c.setP r v) ?_,
      fun r v en h => own (fun c => c.setK r (blend (c.k r) v en)) ?_,
      fun r v en h => own (fun c => c.setV r (blend (c.v r) v en)) ?_, fun v h => ?_,
      fun e v h => own (fun c => c.fillLq e (.value v)) ?_, fun q b n h => own (Ctx.setQueue q b n) ?_,
      fun n v h => own (Ctx.addDelta { isTid := false, num := n, delta := v }) ?_,
      fun a n h => own (Ctx.zeroAccs a n) ?_⟩
    case refine_5 =>
      refine (own (fun c => c.mergeFlags v.toNat) (by simp only [Landing.own, h])).trans ?_
      simp only [Ctx.mergeFlags, word_mod_flags]
      rfl
    all_goals simp only [Landing.own, h]
  · intro c k sound reads writes
    refine ⟨fun off n g d he h0 h8 hs => ?_, fun off n op b x q he hs => reads_atom hl hm he hs, fun v1 regs en rt row he => ?_,
      fun a t e he => ?_, fun off bs he => ?_, fun ports rt row he => ?_⟩
    · refine ⟨_, reads_ld hl hm he hs, ?_, ?_⟩
      · intro hg
        rw [hg]
        exact toNat_word_of_lt (num_lt s _ h8)
      · intro hg
        rw [hg]
        exact toInt_wordI_signed h0 h8 _
    · intro src base hs
      exact reads_vld hl hm he hs
    · exact ⟨_, reads_drain hl hm he, drainMax_spec c a⟩
    · rcases he with he | ⟨he, hs⟩
      · exact writes_bankWrite hl hm he
      · exact writes_st hl hm he hs
    · intro lines hs
      exact writes_vst hl hm he hs
end

section
/-! SUPPORT. Barriers, steps and merges (R215–R221). -/

namespace Sys2Proof.Machine

/-! ## Changes that write memory alone -/

/-- Every change of a list writes bytes of a home. -/
def WritesOnly (us : List Upd) : Prop := ∀ u ∈ us, u.Aside

theorem writesOnly_nil : WritesOnly [] := fun _ h => absurd h List.not_mem_nil
theorem WritesOnly.append {us vs : List Upd} (h : WritesOnly us) (h' : WritesOnly vs) : WritesOnly (us ++ vs) := fun u hu =>
  (List.mem_append.mp hu).elim (h u) (h' u)
theorem writesOnly_writeHome (a : Nat × Option Nat) (bs : List Byte) : WritesOnly (writeHome a bs) := by
  refine WritesOnly.append (writeBytes_aside _ _) ?_
  split
  · exact writeBytes_aside _ _
  · exact writesOnly_nil
theorem writesOnly_putElem (s : State) (w : Nat) (a : Nat × Option Nat) (hi : Bool) (v : Nat) :
    WritesOnly (putElem s w a hi v) := by
  unfold putElem
  split <;> exact writesOnly_writeHome _ _
theorem writesOnly_putMark : ∀ (l : List ((Nat × Option Nat) × Nat)) (bs : List Byte), WritesOnly (putMark l bs)
  | [], _ => writesOnly_nil
  | _ :: l, _ => (writesOnly_writeHome _ _).append (writesOnly_putMark l _)
theorem writesOnly_mergeElem (s : State) (pt : Party) (p : Plane) (e : Nat) : WritesOnly (mergeElem s pt p e).1 := by
  simp only [mergeElem]
  split
  · split
    · refine WritesOnly.append ?_ (writesOnly_putMark _ _)
      split
      · exact writesOnly_nil
      · exact writesOnly_putElem _ _ _ _ _
    · exact writesOnly_nil
  · exact writesOnly_nil

/-- What every step of a fold keeps, the fold keeps. -/
theorem foldl_keeps {α β : Type} {P : β → Prop} {f : β → α → β} (hf : ∀ b a, P b → P (f b a)) : ∀ (l : List α) (b : β),
    P b → P (l.foldl f b)
  | [], _, h => h
  | a :: l, b, h => foldl_keeps hf l (f b a) (hf b a h)

theorem writesOnly_mergePlane (s : State) (pt : Party) (p : Plane) : WritesOnly (mergePlane s pt p).1 := by
  unfold mergePlane
  exact foldl_keeps (P := fun acc : State × List Upd × List Nat => WritesOnly acc.2.1)
    (fun acc e h => h.append (writesOnly_mergeElem _ _ _ _)) _ _ writesOnly_nil

theorem writesOnly_mergeAt (s : State) (part g home : Nat) : WritesOnly (s.mergeAt part g home).us := by
  unfold State.mergeAt
  exact foldl_keeps (P := fun acc : State × Merged => WritesOnly acc.2.us)
    (fun acc e h => h.append (writesOnly_mergePlane _ _ _)) _ _ writesOnly_nil

/-! ## BARA, BARW and STEP (R217, R221, R378) -/

theorem barCheck_go {s : State} {b : Nat} {group : Bool} {x : Barrier} (he : s.curCtx.iss.elastic = true)
    (hb : decide (b < 16) = group) (hx : s.barrier? b = some x) : barCheck b group s = .go := by
  simp [barCheck, needElastic_of he, hb, hx]

theorem mfind_mupd_some {β : Type} {m : SMap β} (k : Nat) {f : Option β → Option β} {v : β} (h : f (mfind k m) = some v) :
    mfind k (mupd m k f) = some v := by
  simp [mupd, h]

theorem mfind_apply_barrier (s : State) (k : Nat) (y : Barrier) :
    mfind k (s.apply (.barrier k fun _ => some y)).barriers = some y :=
  mfind_mput_same k y s.barriers

/-- The slot has arrived at a barrier, and its bundle has not issued. -/
def State.arrivedAt (s : State) (b : Nat) (x : Barrier) : State :=
  (s.apply (.barrier (64 * (s.node s.curCtx.rid).part + b) (Option.map fun y =>
    { y with moving := y.moving ++ [memberOf s.curKey] }))).running fun c =>
      { c.keep b x.phase with phases := mput b (x.phase + 1) c.phases }

section
variable {f : SF} {s : State} {x : Barrier} (hon : f.on s.curCtx = true) (he : s.curCtx.iss.elastic = true)
include hon he

theorem exec_bara (hb : 16 ≤ SF.bar f) (hx : s.barrier? (SF.bar f) = some x) (hh : x.has (memberOf s.curKey) = false)
    (hk : s.curCtx.keeps (SF.bar f) = false) (hr : s.released s.curKey (SF.bscope f) = true) :
    exec (.bara f) s = .next ((s.arrivedAt (SF.bar f) x).running (Ctx.unkeep (SF.bar f))) := by
  unfold exec
  refine (waiting_go hon (barCheck_go he (by simpa using hb) hx) (t := s.arrivedAt (SF.bar f) x) ?_ ?_).trans rfl
  · simp only [hr, if_true, arriveUpds, hx, hk, hh, Bool.or_self, Bool.false_eq_true, if_false]
    rfl
  · have hc : (s.arrivedAt (SF.bar f) x).curCtx = { s.curCtx.keep (SF.bar f) x.phase with
        phases := mput (SF.bar f) (x.phase + 1) s.curCtx.phases } := running_curCtx _ _
    have hk : ({ s.curCtx.keep (SF.bar f) x.phase with phases := mput (SF.bar f) (x.phase + 1) s.curCtx.phases } : Ctx).keeps
      (SF.bar f) = true := keeps_keep _ _ _
    simp only [hc, hk, await_true]

theorem exec_barw (hb : 16 ≤ SF.bar f) (hx : s.barrier? (SF.bar f) = some x)
    (hp : ∀ p, mfind (SF.bar f) s.curCtx.phases = some p → x.phase + 1 ≠ p) (hq : s.acquired s.curKey (SF.bscope f) = true) :
    exec (.barw f) s = .next (s.running fun c => c.progressed c.iss.tick) := by
  unfold exec
  refine (waiting_go hon (barCheck_go he (by simpa using hb) hx) (State.commit_nil s) ?_).trans rfl
  cases hm : mfind (SF.bar f) s.curCtx.phases with
  | none => simp [barwReady, hm, hq]
  | some p => simp [barwReady, hm, hx, hq, hp p hm]

theorem exec_step (hx : s.barrier? (SF.group f) = some x) (hk : s.curCtx.keeps (SF.group f) = true)
    (hp : (mget s.curCtx.kept (SF.group f) (x.phase, 0)).1 ≠ x.phase) : exec (.step f) s = .next (s.commit (stepUpds f s)) := by
  unfold exec
  refine waiting_go hon (barCheck_go he (decide_eq_true (Nat.mod_lt _ (by omega))) hx) (t := s) ?_ ?_
  · have ha : arriveUpds (SF.group f) s = [] := by simp [arriveUpds, hx, hk]
    rw [ha, ite_self]
    rfl
  · obtain ⟨p, hp'⟩ := Option.isSome_iff_exists.mp hk
    simp [stepReady, hp', hx, hp]

end

/-- STEP's result: the collisions of the merge (R378). -/
def Ctx.stepped (f : SF) (x : Barrier) (c : Ctx) : Ctx :=
  ((c.unkeep (SF.group f)).later 1 phReg (.scalar f.d.toNat (word (min x.coll (2 ^ 32 - 1))))).progressed c.iss.tick

theorem stepped_spec (f : SF) (x : Barrier) (c : Ctx) : SameRegisters c (c.stepped f x) ∧
    (⟨c.iss.pos + 1, phReg, c.nextSeq, .scalar f.d.toNat (word (min x.coll (2 ^ 32 - 1)))⟩ : Landing) ∈ (c.stepped f x).land ∧
    (c.stepped f x).progress = c.iss.tick ∧ (c.stepped f x).pending = c.pending :=
  ⟨⟨rfl, rfl, rfl, rfl, rfl⟩, List.mem_append_right _ List.mem_cons_self, rfl, rfl⟩

theorem commit_stepUpds {f : SF} {s : State} {x : Barrier} (hx : s.barrier? (SF.group f) = some x) (hz : x.frozeAt = false)
    (hf : x.faultColl = false) : s.commit (stepUpds f s) = s.running (Ctx.stepped f x) := by
  simp only [stepUpds, hx, Option.getD_some, hz, hf, Bool.false_eq_true, if_false, raise_none]
  rfl

theorem arrivedAt_slot (s : State) (b : Nat) (x : Barrier) : ((s.arrivedAt b x).running (Ctx.unkeep b)).slot s.curKey =
    ({ s.curCtx.keep b x.phase with phases := mput b (x.phase + 1) s.curCtx.phases } : Ctx).unkeep b := by
  have h : ((s.arrivedAt b x).running (Ctx.unkeep b)).slot s.curKey = (s.arrivedAt b x).curCtx.unkeep b := running_slot _ _
  have h' : (s.arrivedAt b x).curCtx = { s.curCtx.keep b x.phase with phases := mput b (x.phase + 1) s.curCtx.phases } :=
    running_curCtx _ _
  rw [h, h']

theorem arrivedAt_barrier {s : State} {b : Nat} {x : Barrier} (hx : s.barrier? b = some x) :
    mfind (64 * (s.node s.curCtx.rid).part + b) ((s.arrivedAt b x).running (Ctx.unkeep b)).barriers =
      some { x with moving := x.moving ++ [memberOf s.curKey] } :=
  mfind_mupd_some (m := s.barriers) _ (by rw [show mfind _ s.barriers = some x from hx]; rfl)

/-! ## The barrier root (R215, R220, R221) -/

/-- A barrier after an arrival, before the root looks whether it is the last one. -/
def Barrier.arrive (w : Nat) (b : Barrier) : Barrier := { b with moving := b.moving.erase w, arrived := b.arrived ++ [w] }
/-- The start of a merge at homes. -/
def Barrier.startMerge (homes : List Nat) (group froze : Bool) (b : Barrier) : Barrier :=
  { b with merging := some homes, mcoll := 0, mfirst := 0, mfault := false, mfroze := froze }.reported group

theorem reported_unless (group : Bool) (b : Barrier) : (b.reported group).arrived = b.arrived ∧ (b.reported group).moving = b.moving ∧
    (b.reported group).phase = b.phase ∧ (b.reported group).merging = b.merging ∧ (b.reported group).mcoll = b.mcoll := by
  unfold Barrier.reported
  split <;> exact ⟨rfl, rfl, rfl, rfl, rfl⟩

section
variable {s : State} {part entry : Nat} {b : Barrier} (hb : mfind (64 * part + entry) s.barriers = some b)
include hb

theorem exec_barrierArrival_waits {w : Nat} (hr : s.rootReaches b (w % 1024) = false) :
    exec (.barrierArrival part entry w) s = .next s := by
  show execBarrierArrival part entry w s = _
  simp [execBarrierArrival, hb, hr, State.same]

/-- What the root makes of an arrival. -/
def arrivedBarrier (s : State) (part entry w : Nat) (b : Barrier) : Barrier :=
  if b.merging.isNone && b.members.all (b.arrived ++ [w]).contains then
    (b.arrive w).startMerge (if entry < 16 then s.groupHomes part entry else []) (entry < 16)
      (entry < 16 && s.frozenIn part entry)
  else b.arrive w

omit hb in
theorem arrivedBarrier_spec (s : State) (part entry w : Nat) (b : Barrier) : let y := arrivedBarrier s part entry w b
    y.arrived = b.arrived ++ [w] ∧ y.moving = b.moving.erase w ∧ y.phase = b.phase ∧
    (b.merging = none → (∀ m ∈ b.members, m ∈ b.arrived ++ [w]) →
      y.merging = some (if entry < 16 then s.groupHomes part entry else []) ∧ y.mcoll = 0) := by
  intro y
  by_cases h : (b.merging.isNone && b.members.all (b.arrived ++ [w]).contains) = true
  · have hy : y = (b.arrive w).startMerge (if entry < 16 then s.groupHomes part entry else []) (entry < 16)
        (entry < 16 && s.frozenIn part entry) := if_pos h
    obtain ⟨h1, h2, h3, h4, h5⟩ := reported_unless (entry < 16) { b.arrive w with
      merging := some (if entry < 16 then s.groupHomes part entry else []), mcoll := 0, mfirst := 0, mfault := false,
      mfroze := entry < 16 && s.frozenIn part entry }
    rw [hy]
    exact ⟨h1, h2, h3, fun _ _ => ⟨h4, h5⟩⟩
  · have hy : y = b.arrive w := if_neg h
    rw [hy]
    refine ⟨rfl, rfl, rfl, fun hn ha => absurd ?_ h⟩
    simp only [hn, Option.isNone_none, Bool.true_and, List.all_eq_true, List.contains_iff_mem]
    exact ha

omit hb in
/-- With the last home the step is counted and its collisions are the group's (R219). -/
theorem reported_step (b : Barrier) (hs : List Nat) (hm : b.merging = some hs) : (b.reported true).merging = some hs ∧
    (b.reported true).phase = b.phase ∧ (b.reported true).mcoll = b.mcoll ∧
    (b.reported true).coll = (if hs = [] then b.mcoll else b.coll) ∧
    (b.reported true).steps = (if hs = [] then b.steps + 1 else b.steps) := by
  unfold Barrier.reported
  rw [hm]
  by_cases h : hs = []
  · simp [h]
  · have hne : (some hs == some []) = false := by simpa using h
    rw [hne]
    simp [h, hm]

theorem exec_barrierArrival {w : Nat} (hm : w ∈ b.moving) (hw : w ∈ b.members) (ha : w ∉ b.arrived)
    (hr : s.rootReaches b (w % 1024) = true) : exec (.barrierArrival part entry w) s =
      .next (s.commit [.barrier (64 * part + entry) fun _ => some (arrivedBarrier s part entry w b)]) := by
  show execBarrierArrival part entry w s = _
  have hc : (b.members.contains w && !b.arrived.contains w) = true := by simp [hw, ha]
  simp only [execBarrierArrival, hb, List.contains_iff_mem.mpr hm, hr, hc, Bool.not_true, Bool.or_self, Bool.false_eq_true,
    if_false, if_true, State.by_, arrivedBarrier]
  split <;> rfl

theorem exec_phaseFlip (hm : b.merging = some []) (hr : ∀ w ∈ b.members, s.rootReaches b (w % 1024) = true) :
    exec (.phaseFlip part entry) s = .next (s.commit [.barrier (64 * part + entry) fun _ => some
      { b with phase := b.phase + 1, merging := none, arrived := [] }]) := by
  show execPhaseFlip part entry s = _
  have ha : (b.members.all fun m => s.rootReaches b (m % 1024)) = true := List.all_eq_true.mpr hr
  simp [execPhaseFlip, hb, hm, ha, State.by_]

theorem exec_planeMerge {hs : List Nat} {home : Nat} (hm : b.merging = some hs) (hh : home ∈ hs)
    (hw : s.mergeWaits part entry = false) (hr : s.rootReaches b (homeOwner home) = true) : ∃ first fault froze,
    exec (.planeMerge part entry home) s = .next ((s.commit (s.mergeAt part entry home).us).apply
      (.barrier (64 * part + entry) fun _ => some ({ b with
        merging := some (hs.erase home), mcoll := b.mcoll + (s.mergeAt part entry home).coll, mfirst := first,
        mfault := fault, mfroze := froze }.reported true))) := by
  show ∃ first fault froze, execPlaneMerge part entry home s = _
  simp only [execPlaneMerge, hb, hm, List.contains_iff_mem.mpr hh, hw, hr, Bool.not_true, Bool.or_self, Bool.false_eq_true,
    if_false, State.by_, State.commit_append]
  exact ⟨_, _, _, rfl⟩

end

/-! ## The merge of one element (R215) -/

theorem markAt_single (s : State) (m : Nat) : s.markAt [((m, none), 16)] =
    { v0 := s.num m 16 % 2 ^ 64, w0 := bits (s.num m 16) 79 64, x := bit (s.num m 16) 81, w := bit (s.num m 16) 80 } := by
  simp only [State.markAt, List.flatMap_singleton]
  rfl

section
variable {s : State} {pt : Party} {p : Plane} {e x n m : Nat} (h8 : 8 ≤ width p.ty)
  (hx : s.areaAt pt p.base (e * width p.ty / 8) false = .ok (x, none))
  (hn : s.areaAt pt p.nbase (e * width p.ty / 8) false = .ok (n, none))
  (hm : s.markRuns pt p.mbase e false = .ok [((m, none), 16)])
include h8 hx hn hm

omit h8 in
theorem mergeElem_unwritten (hw : bit (s.num m 16) 80 = false) : mergeElem s pt p e = ([], false) := by
  simp only [mergeElem, hx, hn, hm, markAt_single, hw, Bool.false_eq_true, if_false]

theorem mergeElem_written (hw : bit (s.num m 16) 80 = true) : mergeElem s pt p e =
    ((if p.rule == 2 && bit (s.num m 16) 81 then [] else writeBytes x (toBytes (width p.ty / 8) (s.num n (width p.ty / 8)))) ++
      writeBytes m (List.replicate 16 0), bit (s.num m 16) 81) := by
  have h4 : (width p.ty == 4) = false := by simp; omega
  simp only [mergeElem, hx, hn, hm, markAt_single, hw, if_true, putElem, State.elemAt, h4, Bool.false_and,
    Bool.false_eq_true, if_false, writeHome, putMark, List.append_nil]
  rfl

theorem mergeElem_mem (hw : bit (s.num m 16) 80 = true) : (s.commit (mergeElem s pt p e).1).mem =
    memWrite m (List.replicate 16 0) (if p.rule = 2 ∧ bit (s.num m 16) 81 = true then s.mem
      else memWrite x (toBytes (width p.ty / 8) (s.num n (width p.ty / 8))) s.mem) := by
  have hb : ∀ (t : State) (a : Nat) (bs : List Byte), (t.commit (writeBytes a bs)).mem = memWrite a bs t.mem := by
    intro t a bs
    obtain ⟨dies, h⟩ := commit_writeBytes t a bs
    rw [h]
  rw [mergeElem_written h8 hx hn hm hw, State.commit_append, hb]
  congr 1
  by_cases h : p.rule = 2 ∧ bit (s.num m 16) 81 = true
  · rw [if_pos h, if_pos (by simpa using h)]
    rfl
  · rw [if_neg h, if_neg (by simpa using h), hb]

end

end Sys2Proof.Machine
end

section
open Sys2Proof Sys2Proof.Machine

/-- Settles O29: the root's events replace its barrier, a merge writes memory alone, and an arrival is kept until its bundle
issues. -/
theorem barriers : Obligations.Barriers := by
  unfold Obligations.Barriers
  refine ⟨fun f s x hon he => ?_, fun s part entry b hb => ?_⟩
  · intro part b g me
    refine ⟨fun h16 hx hh hk hr => ?_, fun h16 hx hp hn hq => ?_, fun h16 hx hn hq => ?_, fun hx hk hp hz hf hh => ?_⟩
    · refine ⟨_, exec_bara hon he h16 hx hh hk hr, arrivedAt_barrier hx, ?_, ?_, rfl⟩ <;>
        rw [arrivedAt_slot s (SF.bar f) x]
      · exact mget_mput_same _ _ _ _
      · exact sameRegisters_keep_unkeep b x.phase s.curCtx
    · refine exec_barw hon he h16 hx (fun p hm h => hp ?_) hq
      simp [mget, show mfind b s.curCtx.phases = some p from hm, h]
    · exact exec_barw hon he h16 hx (fun p hm => absurd (hn.symm.trans hm) (by simp)) hq
    · exact ⟨s.curCtx.stepped f x, (exec_step hon he hx hk hp).trans (congrArg _ (commit_stepUpds hx hz hf)),
        stepped_spec f x s.curCtx⟩
  · refine ⟨fun w hw hr => exec_barrierArrival_waits hb hr, fun w hm hw ha hr => ?_, fun hs home hmg hh hw hr => ?_,
      fun hmg hr => ⟨_, exec_phaseFlip hb hmg hr, rfl, ?_⟩, fun pt p e x n m h8 hx hn hm => ?_⟩
    · refine ⟨_, exec_barrierArrival hb hm hw ha hr, rfl, _, mfind_apply_barrier s _ _, arrivedBarrier_spec s part entry w b⟩
    · obtain ⟨first, fault, froze, hx⟩ := exec_planeMerge hb hmg hh hw hr
      refine ⟨_, hx, rfl, commit_aside_slots (writesOnly_mergeAt s part entry home) s, _, mfind_apply_barrier _ _ _, ?_⟩
      obtain ⟨h1, h2, h3, h4, h5⟩ := reported_step { b with
        merging := some (hs.erase home), mcoll := b.mcoll + (s.mergeAt part entry home).coll, mfirst := first,
        mfault := fault, mfroze := froze } (hs.erase home) rfl
      refine ⟨h1, h3 ▸ Nat.le_add_right _ _, h2, ?_, h5⟩
      rw [h4, h3]
    · exact mfind_apply_barrier s _ _
    · exact ⟨mergeElem_unwritten hx hn hm, fun hw => ⟨by rw [mergeElem_written h8 hx hn hm hw],
        mergeElem_mem h8 hx hn hm hw⟩⟩

end

section
/-! SUPPORT. Crown allocation, group status, and the requests whose answer a bundle waits for (R201–R205, R219). -/

namespace Sys2Proof.Machine

/-! ## A bundle takes its answer -/

/-- The answer for a scalar register, and the request that has gone. -/
def State.answered (s : State) (r : Req) (g : Ctx → Ctx) : State :=
  { s.running g with reqs := s.reqs.filter fun q => q.id != r.id }

section
variable {f : SF} {s : State} {r : Req} {v : Word} (hon : f.on s.curCtx = true) (hv : r.st = .performed v)
include hon hv

theorem waiting_asked {is : ReqKind → Bool} (ha : s.asked is = some r) {check : State → Guard} (hc : check s = .go)
    (kind : State → ReqKind) (ok : State → Bool) (prog : Bool) :
    waiting f check (fun s => askUpds is (kind s) (ok s) s) (askReady is) (askUse is f.d.toNat prog) s =
      .next (s.answered r fun c => let c := c.later 1 phReg (.scalar f.d.toNat v)
        if prog then c.progressed c.iss.tick else c) := by
  refine (waiting_go hon hc (t := s) ?_ ?_).trans ?_
  · simp [askUpds, ha]
  · simp [askReady, ha, askFault, answer?, hv]
  · simp only [askUse, ha, answer?, Option.bind_some, hv, Option.getD_some]
    rfl

theorem allocExec_done (ha : s.asked ReqKind.isAlloc = some r) {check : State → Guard} (hc : check s = .go)
    (kind : State → ReqKind) (ok : State → Bool) :
    allocExec f check kind ok s = .next (s.answered r fun c => c.later 1 phReg (.scalar f.d.toNat v)) :=
  waiting_asked hon hv ha hc kind ok false

theorem exec_pstat (ha : s.asked ReqKind.isStat = some r) (he : s.curCtx.iss.elastic = true)
    (hb : (s.barrier? (SF.group f)).isSome = true) : exec (.pstat f) s =
      .next (s.answered r fun c => (c.later 1 phReg (.scalar f.d.toNat v)).progressed c.iss.tick) := by
  obtain ⟨x, hx⟩ := Option.isSome_iff_exists.mp hb
  exact waiting_asked hon hv ha (barCheck_go he (decide_eq_true (Nat.mod_lt _ (by omega))) hx)
    (fun _ => .pstat (SF.group f) (f.imm.getLsbD 4)) (fun _ => true) true

end

theorem crownCheck_go {f : SF} {s : State} (he : s.curCtx.iss.elastic = true) (hp : crownPtr (f.av s.curCtx) = true) :
    crownCheck f s = .go := by
  simp [crownCheck, needElastic_of he, hp]

section
variable {f : SF} {s : State} {r : Req} {v : Word} (hon : f.on s.curCtx = true) (hv : r.st = .performed v)
  (he : s.curCtx.iss.elastic = true) (ha : s.asked ReqKind.isAlloc = some r)
include hon hv he ha

theorem exec_falloc : exec (.falloc f) s = .next (s.answered r fun c => c.later 1 phReg (.scalar f.d.toNat v)) :=
  allocExec_done hon hv ha (check := fun s => needElastic s 0) (needElastic_of he 0) (allocKind f none) (fun _ => true)
theorem exec_fallocAt : exec (.fallocAt f) s = .next (s.answered r fun c => c.later 1 phReg (.scalar f.d.toNat v)) :=
  allocExec_done hon hv ha (check := fun s => needElastic s 0) (needElastic_of he 0)
    (fun s => allocKind f (some ((s.curCtx.s f.b.toNat).toNat % 1024)) s) (fun _ => true)
theorem exec_fallocQuery (hp : crownPtr (f.av s.curCtx) = true) :
    exec (.fallocQuery f) s = .next (s.answered r fun c => c.later 1 phReg (.scalar f.d.toNat v)) :=
  allocExec_done hon hv ha (crownCheck_go he hp) (fun s => .query (f.av s.curCtx)) (fun _ => true)
theorem exec_ffree (hp : crownPtr (f.av s.curCtx) = true) :
    exec (.ffree f) s = .next (s.answered r fun c => c.later 1 phReg (.scalar f.d.toNat v)) :=
  allocExec_done hon hv ha (crownCheck_go he hp) (fun s => .free (f.av s.curCtx))
    (fun s => s.allocQuiet s.curKey (f.av s.curCtx))

end

/-! ## Free runs (R203) -/

theorem lowestOf_cons (x : Nat) (l : List Nat) : lowestOf (x :: l) = some (l.foldl Nat.min x) := by
  have h : ∀ (l : List Nat) (y : Nat), l.foldl (fun m x => match m with
      | some y => some (Nat.min y x)
      | none => some x) (some y) = some (l.foldl Nat.min y) := by
    intro l
    induction l with
    | nil => exact fun _ => rfl
    | cons a l ih => exact fun y => ih (Nat.min y a)
  exact h l x

theorem lowestOf_spec {l : List Nat} {b : Nat} (h : lowestOf l = some b) : b ∈ l ∧ ∀ x ∈ l, b ≤ x := by
  cases l with
  | nil => cases h
  | cons x l =>
    rw [lowestOf_cons] at h
    cases h
    induction l generalizing x with
    | nil => simp
    | cons a l ih =>
      obtain ⟨hm, hle⟩ := ih (Nat.min x a)
      refine ⟨?_, fun y hy => ?_⟩
      · rcases List.mem_cons.mp hm with h | h
        · rcases Nat.le_total x a with hxa | hxa
          · exact List.mem_cons.mpr (.inl (h.trans (Nat.min_eq_left hxa)))
          · exact List.mem_cons_of_mem _ (List.mem_cons.mpr (.inl (h.trans (Nat.min_eq_right hxa))))
        · exact List.mem_cons_of_mem _ (List.mem_cons_of_mem _ h)
      · have h0 := hle (Nat.min x a) List.mem_cons_self
        rcases List.mem_cons.mp hy with rfl | hy
        · exact h0.trans (Nat.min_le_left _ _)
        · rcases List.mem_cons.mp hy with rfl | hy
          · exact h0.trans (Nat.min_le_right _ _)
          · exact hle y (List.mem_cons_of_mem _ hy)

theorem exists_end_below {x : Nat} (n : Nat) : ∀ {l : List Alloc}, (∀ a ∈ l, a.bank + a.units ≤ x ∨ x + n ≤ a.bank) →
    ∃ c ∈ 0 :: l.map fun a => a.bank + a.units, c ≤ x ∧ ∀ a ∈ l, a.bank + a.units ≤ c ∨ x + n ≤ a.bank
  | [], _ => ⟨0, List.mem_cons_self, Nat.zero_le x, fun _ h => absurd h List.not_mem_nil⟩
  | a :: l, h => by
    obtain ⟨c, hc, hcx, hca⟩ := exists_end_below n fun b hb => h b (List.mem_cons_of_mem a hb)
    have hc' : c ∈ 0 :: (a :: l).map fun a => a.bank + a.units := by
      simp only [List.map_cons, List.mem_cons] at hc ⊢
      tauto
    rcases h a List.mem_cons_self with ha | ha
    · by_cases hle : a.bank + a.units ≤ c
      · exact ⟨c, hc', hcx, List.forall_mem_cons.mpr ⟨.inl hle, hca⟩⟩
      · refine ⟨a.bank + a.units, List.mem_cons_of_mem _ List.mem_cons_self, ha,
          List.forall_mem_cons.mpr ⟨.inl le_rfl, fun b hb => ?_⟩⟩
        exact (hca b hb).imp_left fun h => h.trans (by omega)
    · exact ⟨c, hc', hcx, List.forall_mem_cons.mpr ⟨.inr ha, hca⟩⟩

/-- A free run begins no earlier than a free run that begins where an allocation ends, or at the first bank. -/
theorem exists_runStart {s : State} {p fd n x : Nat} (h : s.runFree p fd x n = true) :
    ∃ c ∈ s.runStarts p fd, c ≤ x ∧ s.runFree p fd c n = true := by
  simp only [State.runFree, Bool.and_eq_true, decide_eq_true_eq, List.all_eq_true, Bool.or_eq_true] at h
  obtain ⟨⟨hk, hb⟩, ha⟩ := h
  obtain ⟨c, hc, hcx, hca⟩ := exists_end_below n ha
  refine ⟨c, hc, hcx, ?_⟩
  simp only [State.runFree, Bool.and_eq_true, decide_eq_true_eq, List.all_eq_true, Bool.or_eq_true]
  refine ⟨⟨hk, by omega⟩, fun a hm => ?_⟩
  have := hca a hm
  omega

theorem freeRun_spec {s : State} {p fd n b : Nat} (h : s.freeRun p fd n = some b) :
    s.runFree p fd b n = true ∧ ∀ x < b, s.runFree p fd x n = false := by
  obtain ⟨hb, hle⟩ := lowestOf_spec h
  refine ⟨(List.mem_filter.mp hb).2, fun x hx => ?_⟩
  by_contra hf
  obtain ⟨c, hc, hcx, hcf⟩ := exists_runStart (Bool.not_eq_false _ ▸ hf)
  have := hle c (List.mem_filter.mpr ⟨hc, hcf⟩)
  omega

/-! ## The allocator answers (R202–R205) -/

/-- A slot's request has its answer, a progress event (R202). -/
def State.gives (s : State) (r : Req) (v : Word) : State :=
  s.commit [setReq r.id (.performed v), .slot r.key fun c => c.progressed (s.gtc (keyPkg r.key))]

section
variable {s : State} {k : SlotKey} {r : Req}
  (hr : s.reqs.find? (fun q => q.key == k && q.open_ && ReqKind.isAlloc q.kind) = some r)
include hr

theorem key_of_find : r.key = k := by
  have h := List.find?_some hr
  simp only [Bool.and_eq_true, beq_iff_eq] at h
  exact h.1.1

theorem exec_allocator_fails {v : Word} (hf : s.allocFails r = some v) :
    exec (.crownAllocatorAnswer k) s = .next (s.gives r v) := by
  show execCrownAllocatorAnswer k s = _
  simp only [execCrownAllocatorAnswer, hr, hf, State.by_]
  rfl

theorem exec_allocator_cut (hf : s.allocFails r = none)
    (hp : s.allocPath (keyPkg k) (r.kind.crownOf (keyPkg k)).1 = .cut) : exec (.crownAllocatorAnswer k) s =
    .next (s.commit [setReq r.id (.failed { cause := .circuitDown, ptr := (r.kind.crownOf (keyPkg k)).2, detail := 0 })]) := by
  show execCrownAllocatorAnswer k s = _
  have hk := key_of_find hr
  simp only [execCrownAllocatorAnswer, hr, hk, hf, hp, State.by_]

theorem exec_allocator (hf : s.allocFails r = none)
    (hp : s.allocPath (keyPkg k) (r.kind.crownOf (keyPkg k)).1 = .carried) {us : List Upd} {v : Word}
    (ha : s.allocAnswer r = (us, v)) : exec (.crownAllocatorAnswer k) s =
    .next ((s.commit us).commit [setReq r.id (.performed v), .slot r.key fun c => c.progressed (s.gtc (keyPkg r.key))]) := by
  show execCrownAllocatorAnswer k s = _
  have hk := key_of_find hr
  simp only [execCrownAllocatorAnswer, hr, hk, hf, hp, State.by_, ha, State.commit_append]

end

/-! ## FALLOC (R203) -/

/-- The places at which FALLOC looks, in order. -/
def fallocPlaces (s : State) (own : PkgId) (at_ : Option Nat) (fd : Nat) : List (PkgId × Nat) :=
  (match at_ with
   | some q => [q]
   | none => own :: (s.row own).filter (· != own)).flatMap fun q => (if fd = 0 then [0, 1] else [fd - 1]).map fun f => (q, f)
/-- A new allocation. -/
def newAlloc (part b n q : Nat) (mirror of_ : Option PkgId) : Alloc :=
  { part := part, bank := b, units := n, home := q, mirror := mirror, isMirror := of_, degraded := false, lost := false,
    failing := none }
/-- Banks of a crown are filled with zeros. -/
def zeroBanks (p f b n : Nat) : List Upd :=
  [.zero (homeAddr 2 p f (b * 65536)) (n * 65536), .die (crownDie p) (Die.zeroedCrown f (b * 65536) (n * 65536))]
/-- What FALLOC changes once it has found a run, without and with a mirror. -/
def fallocUpds (part charge b n q f : Nat) : Option PkgId → List Upd
  | none => [.node part fun x => { x with crownUse := x.crownUse + charge }, addAlloc q f (newAlloc part b n q none none)] ++
      zeroBanks q f b n
  | some o => [.node part fun x => { x with crownUse := x.crownUse + charge }, addAlloc q f (newAlloc part b n q (some o) none)] ++
      zeroBanks q f b n ++ addAlloc o f (newAlloc part b n o none (some q)) :: zeroBanks o f b n

section
variable (s : State) (own part : Nat) (size : Word) (at_ : Option Nat) (fd : Nat) {n : Nat}

theorem falloc_single (hn : (size.toNat + 65535) / 65536 = n) : s.falloc own part size at_ fd false =
    match (fallocPlaces s own at_ fd).findSome? fun x => (s.freeRun x.1 x.2 n).map fun b => (x.1, x.2, b) with
    | some (q, f, b) => (fallocUpds part n b n q f none, crownAt q f (b * 65536))
    | none => ([], crownFail 2) := by
  subst hn
  simp only [State.falloc, Bool.not_false, if_true, fallocPlaces, beq_iff_eq, allocCharge, Bool.false_eq_true, if_false,
    List.append_nil]
  rfl

theorem falloc_mirrored (hn : (size.toNat + 65535) / 65536 = n) : s.falloc own part size at_ fd true =
    match (fallocPlaces s own at_ fd).findSome? fun x => (s.freePair x.1 x.2 n).map fun y => (x.1, x.2, y) with
    | some (q, f, b, o) => (fallocUpds part (2 * n) b n q f (some o), crownAt q f (b * 65536))
    | none => ([], crownFail (if (fallocPlaces s own at_ fd).any fun x => (s.freeRun x.1 x.2 n).isSome then 5 else 2)) := by
  subst hn
  simp only [State.falloc, Bool.not_true, Bool.false_eq_true, if_false, fallocPlaces, beq_iff_eq, allocCharge, if_true]
  rfl

end

/-- The mirror of a pair is on another package. -/
theorem freePair_ne {s : State} {p fd n b : Nat} {o : PkgId} (h : s.freePair p fd n = some (b, o)) : o ≠ p := by
  simp only [State.freePair] at h
  split at h
  · obtain ⟨q, hq, he⟩ := Option.map_eq_some_iff.mp h
    cases he
    have hm := List.mem_of_find?_eq_some hq
    simpa using (List.mem_filter.mp hm).2
  · cases h

/-! ### Failures that are decided before any crown is looked at -/

section
variable {s : State} {own : PkgId} {part : Nat} {size : Word} {at_ : Option Nat} {m : Bool} {n : Nat}
  (hn : (size.toNat + 65535) / 65536 = n)
include hn

theorem fallocFails_size (h : n = 0 ∨ 8192 < n) : s.fallocFails own part size at_ m = some (crownFail 4) := by
  have hb : (n == 0 || decide (crownBanks < n)) = true := by
    rw [Bool.or_eq_true, beq_iff_eq, decide_eq_true_eq]
    exact h
  simp only [State.fallocFails, hn, hb, if_true]

theorem fallocFails_row (h0 : 0 < n) (h8 : n ≤ 8192) (h : ¬∀ q, at_ = some q → q ∈ s.row own) :
    s.fallocFails own part size at_ m = some (crownFail 3) := by
  have hb : (n == 0 || decide (crownBanks < n)) = false := by
    rw [Bool.or_eq_false_iff, beq_eq_false_iff_ne, decide_eq_false_iff_not]
    exact ⟨by omega, Nat.not_lt.mpr h8⟩
  have ha : (at_.any fun q => !(s.row own).contains q) = true := by
    push Not at h
    obtain ⟨q, rfl, hq⟩ := h
    simpa using hq
  simp only [State.fallocFails, hn, hb, ha, Bool.false_eq_true, if_false, if_true]

theorem fallocFails_quota (h0 : 0 < n) (h8 : n ≤ 8192) (h : ∀ q, at_ = some q → q ∈ s.row own) :
    s.fallocFails own part size at_ m =
      if (s.node part).crownUse + (if m then 2 * n else n) ≤ (s.node part).crownq then none else some (crownFail 1) := by
  have hb : (n == 0 || decide (crownBanks < n)) = false := by
    rw [Bool.or_eq_false_iff, beq_eq_false_iff_ne, decide_eq_false_iff_not]
    exact ⟨by omega, Nat.not_lt.mpr h8⟩
  have ha : (at_.any fun q => !(s.row own).contains q) = false := by
    cases at_ with
    | none => rfl
    | some q => simpa using h q rfl
  have hc : allocCharge size m = if m then 2 * n else n := by simp only [allocCharge, hn]
  simp only [State.fallocFails, hn, hb, ha, hc, Bool.false_eq_true, if_false]
  by_cases hr : (s.node part).crownUse + (if m then 2 * n else n) ≤ (s.node part).crownq
  · rw [if_pos hr, if_neg (Nat.not_lt.mpr hr)]
  · rw [if_neg hr, if_pos (Nat.not_le.mp hr)]

end

/-! ### What an allocation changes -/

theorem commit_zeroBanks (s : State) (p f b n : Nat) : ∃ dies, s.commit (zeroBanks p f b n) =
    { s with mem := memClear (homeAddr 2 p f (b * 65536)) (n * 65536) s.mem, dies := dies } := ⟨_, rfl⟩

theorem allocs_addAlloc (s : State) (p f : Nat) (a : Alloc) (q g : Nat) : mget ((s.apply (addAlloc p f a)).pkg q).allocs g [] =
    if q = p ∧ g = f then mget (s.pkg q).allocs g [] ++ [a] else mget (s.pkg q).allocs g [] := by
  simp only [addAlloc, State.pkg_apply_pkg]
  by_cases hq : q = p
  · subst hq
    by_cases hg : g = f
    · subst hg
      simp
    · simp [hg, mget_mmod]
  · simp [hq]

theorem allocs_zeroBanks (s : State) (p f b n q g : Nat) :
    mget ((s.commit (zeroBanks p f b n)).pkg q).allocs g [] = mget (s.pkg q).allocs g [] := rfl

section
variable (s : State) (part charge b n q f : Nat)

theorem crownUse_add (r : Nat) : ((s.apply (.node r fun x => { x with crownUse := x.crownUse + charge })).node r).crownUse =
    (s.node r).crownUse + charge := by
  rw [State.node_apply_node, if_pos rfl]

theorem commit_fallocUpds_none : let t := s.commit (fallocUpds part charge b n q f none)
    (t.node part).crownUse = (s.node part).crownUse + charge ∧
    mget (t.pkg q).allocs f [] = mget (s.pkg q).allocs f [] ++ [newAlloc part b n q none none] ∧
    t.mem = memClear (homeAddr 2 q f (b * 65536)) (n * 65536) s.mem := by
  refine ⟨crownUse_add s charge part, ?_, rfl⟩
  rw [fallocUpds, State.commit_append, allocs_zeroBanks, State.commit_cons, State.commit_cons, State.commit_nil,
    allocs_addAlloc, if_pos ⟨rfl, rfl⟩]
  rfl

theorem commit_fallocUpds_some {o : PkgId} (ho : o ≠ q) : let t := s.commit (fallocUpds part charge b n q f (some o))
    (t.node part).crownUse = (s.node part).crownUse + charge ∧
    mget (t.pkg q).allocs f [] = mget (s.pkg q).allocs f [] ++ [newAlloc part b n q (some o) none] ∧
    mget (t.pkg o).allocs f [] = mget (s.pkg o).allocs f [] ++ [newAlloc part b n o none (some q)] ∧
    t.mem = memClear (homeAddr 2 o f (b * 65536)) (n * 65536) (memClear (homeAddr 2 q f (b * 65536)) (n * 65536) s.mem) := by
  have hl : ∀ p, mget ((s.commit (fallocUpds part charge b n q f (some o))).pkg p).allocs f [] =
      mget (((s.apply (addAlloc q f (newAlloc part b n q (some o) none))).apply
        (addAlloc o f (newAlloc part b n o none (some q)))).pkg p).allocs f [] := fun p => rfl
  refine ⟨crownUse_add s charge part, ?_, ?_, rfl⟩
  · rw [hl, allocs_addAlloc, if_neg fun h => ho h.1.symm, allocs_addAlloc, if_pos ⟨rfl, rfl⟩]
  · rw [hl, allocs_addAlloc, if_pos ⟨rfl, rfl⟩, allocs_addAlloc, if_neg fun h => ho h.1]

end

/-! ## FFREE (R205) -/

theorem allocs_dropAllocs (s : State) (p fd : Nat) (gone : Alloc → Bool) (q : Nat) :
    mget ((s.apply (.pkg p (dropAllocs fd gone))).pkg q).allocs fd [] =
      if q = p then (mget (s.pkg q).allocs fd []).filter fun x => !gone x else mget (s.pkg q).allocs fd [] := by
  rw [State.pkg_apply_pkg]
  by_cases hq : q = p
  · subst hq
    simp [dropAllocs]
  · simp [hq]

/-- What FFREE changes (R205). -/
def ffreeUpds (part : Nat) (q fd : Nat) (a : Alloc) : List Upd :=
  .node part (fun x => { x with crownUse := x.crownUse - if a.mirror.isSome then 2 * a.units else a.units }) :: freeAlloc q fd a

theorem freeAlloc_pkg (q fd : Nat) (a : Alloc) : ∀ u ∈ freeAlloc q fd a, ∃ p f, u = .pkg p f := by
  intro u hu
  rcases List.mem_append.mp hu with hu | hu
  · exact ⟨_, _, List.mem_singleton.mp hu⟩
  · split at hu
    · exact ⟨_, _, List.mem_singleton.mp hu⟩
    · cases hu

/-- After the removal of an allocation neither it nor its mirror is listed, and every other one is. -/
theorem allocs_freeAlloc (s : State) (q fd : Nat) (a : Alloc) : let t := s.commit (freeAlloc q fd a)
    (∀ x ∈ mget (t.pkg q).allocs fd [], ¬(x.isMirror = none ∧ x.bank = a.bank)) ∧
    (∀ p, ∀ x ∈ mget (s.pkg p).allocs fd [], x.bank ≠ a.bank → x ∈ mget (t.pkg p).allocs fd []) ∧
    (∀ o, a.mirror = some o → ∀ x ∈ mget (t.pkg o).allocs fd [], ¬(x.isMirror = some q ∧ x.bank = a.bank)) := by
  let s₁ := s.apply (.pkg q (dropAllocs fd fun x => x.isMirror.isNone && x.bank == a.bank))
  have h₁ : ∀ x ∈ mget (s₁.pkg q).allocs fd [], ¬(x.isMirror = none ∧ x.bank = a.bank) := by
    intro x hx
    rw [allocs_dropAllocs, if_pos rfl] at hx
    rintro ⟨hm, hb⟩
    simpa [hm, hb] using (List.mem_filter.mp hx).2
  have k₁ : ∀ p, ∀ x ∈ mget (s.pkg p).allocs fd [], x.bank ≠ a.bank → x ∈ mget (s₁.pkg p).allocs fd [] := by
    intro p x hx hb
    rw [allocs_dropAllocs]
    split
    · exact List.mem_filter.mpr ⟨hx, by simp [hb]⟩
    · exact hx
  cases ho : a.mirror <|> (if a.home == q then none else some a.home) with
  | none =>
    have ht : s.commit (freeAlloc q fd a) = s₁ := by simp only [freeAlloc, ho]; rfl
    rw [ht]
    refine ⟨h₁, k₁, fun o hm => ?_⟩
    rw [hm] at ho
    cases ho
  | some o =>
    have ht : s.commit (freeAlloc q fd a) =
        s₁.apply (.pkg o (dropAllocs fd fun x => x.isMirror == some q && x.bank == a.bank)) := by
      simp only [freeAlloc, ho]
      rfl
    rw [ht]
    refine ⟨fun x hx => ?_, fun p x hx hb => ?_, fun o' hm x hx => ?_⟩
    · rw [allocs_dropAllocs] at hx
      split at hx
      · exact h₁ x (List.mem_of_mem_filter hx)
      · exact h₁ x hx
    · rw [allocs_dropAllocs]
      split
      · exact List.mem_filter.mpr ⟨k₁ p x hx hb, by simp [hb]⟩
      · exact k₁ p x hx hb
    · rw [hm] at ho
      cases ho
      rw [allocs_dropAllocs, if_pos rfl] at hx
      rintro ⟨hm, hb⟩
      simpa [hm, hb] using (List.mem_filter.mp hx).2

theorem commit_ffreeUpds (s : State) (part q fd : Nat) (a : Alloc) : let t := s.commit (ffreeUpds part q fd a)
    t.mem = s.mem ∧ (t.node part).crownUse = (s.node part).crownUse - (if a.mirror.isSome then 2 * a.units else a.units) ∧
    (∀ x ∈ mget (t.pkg q).allocs fd [], ¬(x.isMirror = none ∧ x.bank = a.bank)) ∧
    (∀ p, ∀ x ∈ mget (s.pkg p).allocs fd [], x.bank ≠ a.bank → x ∈ mget (t.pkg p).allocs fd []) ∧
    (∀ o, a.mirror = some o → ∀ x ∈ mget (t.pkg o).allocs fd [], ¬(x.isMirror = some q ∧ x.bank = a.bank)) := by
  have hn : ∀ us : List Upd, (∀ u ∈ us, ∃ p f, u = .pkg p f) → ∀ u : State, (u.commit us).mem = u.mem ∧ (u.commit us).nodes = u.nodes :=
    fun us hus u => State.commit_keeps (P := fun t => t.mem = u.mem ∧ t.nodes = u.nodes)
      (fun v hv t ht => by obtain ⟨p, f, rfl⟩ := hus v hv; exact ht) ⟨rfl, rfl⟩
  let s' := s.apply (.node part fun x => { x with crownUse := x.crownUse - if a.mirror.isSome then 2 * a.units else a.units })
  obtain ⟨hmem, hnodes⟩ := hn (freeAlloc q fd a) (freeAlloc_pkg q fd a) s'
  refine ⟨hmem, ?_, ?_⟩
  · have h : ((s'.commit (freeAlloc q fd a)).node part) = s'.node part := congrArg (fun m => mget m part Node.blank) hnodes
    refine (congrArg Node.crownUse h).trans ?_
    rw [State.node_apply_node, if_pos rfl]
  · exact allocs_freeAlloc s' q fd a

theorem ffree_none {s : State} {part : Nat} {p : Word} (h : s.allocAt? part p = none) : s.ffree part p = ([], 6) := by
  simp only [State.ffree, h]
theorem ffree_used {s : State} {part : Nat} {p : Word} {a : Alloc} (h : s.allocAt? part p = some a)
    (hu : (s.planes.any fun e => decide (e.1 / 64 = part) &&
      e.2.areas.any (areaIn (ptrPkg p) (if p.getLsbD 29 then 1 else 0) a)) = true) : s.ffree part p = ([], 7) := by
  simp only [State.ffree, h]
  exact if_pos hu
theorem ffree_free {s : State} {part : Nat} {p : Word} {a : Alloc} (h : s.allocAt? part p = some a)
    (hu : (s.planes.any fun e => decide (e.1 / 64 = part) &&
      e.2.areas.any (areaIn (ptrPkg p) (if p.getLsbD 29 then 1 else 0) a)) = false) :
    s.ffree part p = (ffreeUpds part (ptrPkg p) (if p.getLsbD 29 then 1 else 0) a, 0) := by
  simp only [State.ffree, h]
  exact if_neg (by rw [← Bool.not_eq_true] at hu; exact hu)

/-! ## PSTAT (R219) -/

section
variable {s : State} {k : SlotKey} {r : Req} {g : Nat} {b : Barrier}
  (hr : s.reqs.find? (fun q => q.key == k && q.open_ && ReqKind.isStat q.kind) = some r) (hk : r.kind = .pstat g false)
  (hb : mfind (64 * r.part + g) s.barriers = some b)
include hr hk hb

theorem exec_answer_carried (hp : s.roundTrip (keyPkg r.key) b.root = .carried) : exec (.barrierRootAnswer k) s =
    .next (s.commit [setReq r.id (.performed (s.groupStatus r.part g b))]) := by
  show execBarrierRootAnswer k s = _
  simp only [execBarrierRootAnswer, hr, hk, hb, hp, Bool.false_eq_true, if_false, State.by_]
theorem exec_answer_cut (hp : s.roundTrip (keyPkg r.key) b.root = .cut) : exec (.barrierRootAnswer k) s =
    .next (s.commit [setReq r.id (.failed { cause := .circuitDown, ptr := 0, detail := g })]) := by
  show execBarrierRootAnswer k s = _
  simp only [execBarrierRootAnswer, hr, hk, hb, hp, State.by_]

end

end Sys2Proof.Machine
end

section
open Sys2Proof Sys2Proof.Machine

/-- Settles O30: a bundle takes the answer of its request; the allocator looks at the places in order for the lowest free run,
and a removal leaves every other allocation listed. -/
theorem crownAllocationAndStatus : Obligations.CrownAllocationAndStatus := by
  unfold Obligations.CrownAllocationAndStatus
  refine ⟨fun f s r v hon he hv => ?_, fun s k r => ?_⟩
  · intro owes gone done
    exact ⟨fun ha hb => exec_pstat hon hv ha he hb, fun ha => ⟨exec_falloc hon hv he ha, exec_fallocAt hon hv he ha⟩,
      fun ha hp => ⟨exec_fallocQuery hon hv he ha hp, exec_ffree hon hv he ha hp⟩⟩
  · intro own
    refine ⟨fun hr => ?_, fun q f n b h => freeRun_spec h, fun g b hr hk hb => ⟨exec_answer_carried hr hk hb, exec_answer_cut hr hk hb⟩⟩
    obtain rfl : r.key = k := key_of_find hr
    intro gets answers carried
    refine ⟨exec_allocator_cut hr, fun p hk hc => ?_, fun size at_ fd m hk => ?_, fun p hk hc => ?_⟩
    · have hf : s.allocFails r = none := by simp only [State.allocFails, hk]
      exact ⟨fun a ha => exec_allocator hr hf hc (us := []) (v := a.status) (by simp only [State.allocAnswer, hk, ha]; rfl),
        fun ha => exec_allocator hr hf hc (us := []) (v := crownFail 6) (by simp only [State.allocAnswer, hk, ha]; rfl)⟩
    · intro n charge near room places a list makes
      have hfails : s.allocFails r = s.fallocFails own r.part size at_ m := by simp only [State.allocFails, hk]; rfl
      have hans : s.allocAnswer r = s.falloc own r.part size at_ fd m := by simp only [State.allocAnswer, hk]; rfl
      have hplaces : fallocPlaces s own at_ fd = places := rfl
      have fails : 0 < n → n ≤ 8192 → near → room → s.allocFails r = none := fun h0 h8 hn hr => by
        rw [hfails, fallocFails_quota rfl h0 h8 hn, if_pos hr]
      refine ⟨fun h => ?_, fun h0 h8 hn => ?_, fun h0 h8 hn hro => ?_, fun hc h0 h8 hn hro hnone hpair => ?_,
        fun hc h0 h8 hn hro hm hpair hrun => ?_, fun q f b hc h0 h8 hn hro hm hfound => ?_,
        fun q f b o hc h0 h8 hn hro hm hfound => ?_⟩
      · exact exec_allocator_fails hr (hfails.trans (fallocFails_size rfl h))
      · exact exec_allocator_fails hr (hfails.trans (fallocFails_row rfl h0 h8 hn))
      · exact exec_allocator_fails hr (hfails.trans ((fallocFails_quota rfl h0 h8 hn).trans (if_neg hro)))
      · refine exec_allocator hr (fails h0 h8 hn hro) hc (us := []) (v := crownFail 2) (hans.trans ?_)
        cases m with
        | false =>
          have h : (places.findSome? fun x => (s.freeRun x.1 x.2 n).map fun b => (x.1, x.2, b)) = none :=
            List.findSome?_eq_none_iff.mpr fun x hx => by rw [hnone x hx]; rfl
          rw [falloc_single s own r.part size at_ fd (n := n) rfl, hplaces, h]
        | true =>
          have h : (places.findSome? fun x => (s.freePair x.1 x.2 n).map fun y => (x.1, x.2, y)) = none :=
            List.findSome?_eq_none_iff.mpr fun x hx => by rw [hpair rfl x hx]; rfl
          have h' : (places.any fun x => (s.freeRun x.1 x.2 n).isSome) = false :=
            List.any_eq_false.mpr fun x hx => by simp [hnone x hx]
          rw [falloc_mirrored s own r.part size at_ fd (n := n) rfl, hplaces, h, h']
          rfl
      · refine exec_allocator hr (fails h0 h8 hn hro) hc (us := []) (v := crownFail 5) (hans.trans ?_)
        subst hm
        have h : (places.findSome? fun x => (s.freePair x.1 x.2 n).map fun y => (x.1, x.2, y)) = none :=
          List.findSome?_eq_none_iff.mpr fun x hx => by rw [hpair x hx]; rfl
        have h' : (places.any fun x => (s.freeRun x.1 x.2 n).isSome) = true := by
          obtain ⟨x, hx, hne⟩ := hrun
          exact List.any_eq_true.mpr ⟨x, hx, Option.isSome_iff_ne_none.mpr hne⟩
        rw [falloc_mirrored s own r.part size at_ fd (n := n) rfl, hplaces, h, h']
        rfl
      · subst hm
        have he := exec_allocator hr (fails h0 h8 hn hro) hc (hans.trans
          ((falloc_single s own r.part size at_ fd (n := n) rfl).trans (by rw [hplaces, hfound])))
        obtain ⟨h1, h2, h3⟩ := commit_fallocUpds_none s r.part n b n q f
        exact ⟨_, _, he, rfl, h1, h2, h3⟩
      · subst hm
        have he := exec_allocator hr (fails h0 h8 hn hro) hc (hans.trans
          ((falloc_mirrored s own r.part size at_ fd (n := n) rfl).trans (by rw [hplaces, hfound])))
        have ho : o ≠ q := by
          obtain ⟨x, -, hx⟩ := List.exists_of_findSome?_eq_some hfound
          obtain ⟨y, hy, hxy⟩ := Option.map_eq_some_iff.mp hx
          cases hxy
          exact freePair_ne hy
        obtain ⟨h1, h2, h3, h4⟩ := commit_fallocUpds_some s r.part (2 * n) b n q f ho
        generalize s.commit (fallocUpds r.part (2 * n) b n q f (some o)) = u at he h1 h2 h3 h4
        exact ⟨_, _, he, rfl, h1, h2, h3, h4⟩
    · have hf : s.allocFails r = none := by simp only [State.allocFails, hk]
      have hans : s.allocAnswer r = s.ffree r.part p := by simp only [State.allocAnswer, hk]
      intro fd list used
      refine ⟨fun ha => exec_allocator hr hf hc (hans.trans (ffree_none ha)),
        fun a ha hu => exec_allocator hr hf hc (hans.trans (ffree_used ha hu)), fun a ha hu => ?_⟩
      obtain ⟨h1, h2, h3, h4, h5⟩ := commit_ffreeUpds s r.part (ptrPkg p) fd a
      exact ⟨_, _, exec_allocator hr hf hc (hans.trans (ffree_free ha hu)), rfl, h1, h2, h3, h4, h5⟩

end

section
/-! SUPPORT. System registers, END and YIELD. -/

namespace Sys2Proof.Machine

/-! ## SYSRD (R380, R381) -/

section
variable {f : SF} {s : State} (hon : f.on s.curCtx = true)
include hon

theorem sysReadExec_ok (l : List Effect) (h : f.sysnum < 0x900 ∨ (s.node s.curCtx.rid).service = true) :
    sysReadExec f l s = .next { s.running fun c => (c.later 1 phReg (.scalar f.d.toNat (s.sysRead f.sysnum))).pushAll
      (l.map fun e => (c.iss.pos + 1, phSys, e)) with fresh := s.fresh + 2 } := by
  refine (scalarGuarded_go hon _ (g := sysReadGuard f) ?_).trans rfl
  simpa [sysReadGuard] using h

theorem exec_sysrd_permission (h : 0x900 ≤ f.sysnum) (hs : (s.node s.curCtx.rid).service = false) :
    exec (.sysrd f) s = .next (s.commit (takeTrap s s.curKey (trapAt 0 .permission f.sysnum))) := by
  show sysReadExec f [] s = _
  refine scalarGuarded_trap hon _ (g := sysReadGuard f) ?_
  simp [sysReadGuard, hs, Nat.not_lt.mpr h]

/-! ## SYSWR and TIDSET (R380, R384, R385) -/

omit hon in
theorem sysWriteGuard_go (h : sysWritable f.sysnum = true ∨ (0x100 ≤ f.sysnum ∧ (s.node s.curCtx.rid).service = true)) :
    sysWriteGuard f s = .go := by
  simpa [sysWriteGuard] using h

theorem sysWriteExec_ok (h : sysWritable f.sysnum = true ∨ (0x100 ≤ f.sysnum ∧ (s.node s.curCtx.rid).service = true)) :
    sysWriteExec f s = .next (s.running fun c => c.later 1 phSys (.sysReg (f.sysnum + 4096 * c.opsel) (f.av c))) :=
  (scalarGuarded_go hon _ (g := sysWriteGuard f) (sysWriteGuard_go h)).trans rfl

theorem exec_tguardWrite (h : sysWritable f.sysnum = true ∨ (0x100 ≤ f.sysnum ∧ (s.node s.curCtx.rid).service = true)) :
    exec (.tguardWrite f) s = .next (s.running fun c => { c with tguard := (f.av c).toNat % 65536 }) := by
  unfold exec
  exact (scalarGuarded_go hon (fun s => sysLand s s.curKey 0x002 (f.av s.curCtx)) (g := sysWriteGuard f)
    (sysWriteGuard_go h)).trans rfl

theorem exec_tidset (h : SF.tidN f < (s.node s.curCtx.rid).tids) : exec (.tidset f) s =
    .next (s.running fun c => c.later 1 phSys (.tidWord (SF.tidN f) (SF.tidW f) (f.av c))) := by
  unfold exec
  exact (scalarGuarded_go hon (fun s => [.slot s.curKey fun c => c.later 1 phSys (.tidWord (SF.tidN f) (SF.tidW f) (f.av c))])
    (g := fun s => need (SF.tidN f < (s.node s.curCtx.rid).tids) (trapAt 0 .permission (SF.tidN f))) (by simp [h])).trans rfl
theorem exec_tidset_permission (h : (s.node s.curCtx.rid).tids ≤ SF.tidN f) : exec (.tidset f) s =
    .next (s.commit (takeTrap s s.curKey (trapAt 0 .permission (SF.tidN f)))) := by
  unfold exec
  exact scalarGuarded_trap hon (fun s => [.slot s.curKey fun c => c.later 1 phSys (.tidWord (SF.tidN f) (SF.tidW f) (f.av c))])
    (g := fun s => need (SF.tidN f < (s.node s.curCtx.rid).tids) (trapAt 0 .permission (SF.tidN f)))
    (by simp [Nat.not_lt.mpr h])

theorem exec_syswr_permission (hw : sysWritable f.sysnum = false)
    (h : f.sysnum < 0x100 ∨ (s.node s.curCtx.rid).service = false) :
    exec (.syswr f) s = .next (s.commit (takeTrap s s.curKey (trapAt 0 .permission f.sysnum))) := by
  show sysWriteExec f s = _
  refine scalarGuarded_trap hon _ (g := sysWriteGuard f) ?_
  rcases h with h | h
  · simp [sysWriteGuard, hw, Nat.not_le.mpr h]
  · simp [sysWriteGuard, hw, h]

end

/-! ## What the registers read (R381) -/

theorem sysRead_queue (s : State) {n : Nat} (h : n < 32) : s.sysRead (0x030 + n) = word (s.curCtx.q n).word := by
  simp (disch := omega) only [State.sysRead, beq_iff_eq, Bool.and_eq_true, decide_eq_true_eq, if_neg, if_pos,
    Nat.add_sub_cancel_left]
theorem sysRead_ring (s : State) {n : Nat} (h : n < 17) :
    s.sysRead (0x110 + n) = word ((s.pkg s.curCtx.pkg).ring (ringKey (opselPlane s.curCtx.opsel) n)).word := by
  simp (disch := omega) only [State.sysRead, beq_iff_eq, Bool.and_eq_true, decide_eq_true_eq, if_neg, if_pos,
    Nat.add_sub_cancel_left]
theorem sysRead_row (s : State) {n : Nat} (h : n < 32) :
    s.sysRead (0x140 + n) = word (if n = colOf s.curCtx.pkg then 0 else (s.link s.curCtx.pkg 0 n).word) := by
  simp (disch := omega) only [State.sysRead, beq_iff_eq, Bool.and_eq_true, decide_eq_true_eq, if_neg, if_pos,
    Nat.add_sub_cancel_left]
theorem sysRead_col (s : State) {n : Nat} (h : n < 32) :
    s.sysRead (0x160 + n) = word (if n = rowOf s.curCtx.pkg then 0 else (s.link s.curCtx.pkg 1 n).word) := by
  simp (disch := omega) only [State.sysRead, beq_iff_eq, Bool.and_eq_true, decide_eq_true_eq, if_neg, if_pos,
    Nat.add_sub_cancel_left]

/-! ## Fields of a register -/

theorem extractLsb'_word (x start len : Nat) (h : start + len ≤ 64) :
    (word x).extractLsb' start len = BitVec.ofNat len (x / 2 ^ start) := by
  apply BitVec.eq_of_toNat_eq
  have hp : 2 ^ 64 = 2 ^ start * (2 ^ len * 2 ^ (64 - start - len)) := by
    rw [← pow_add, ← pow_add]
    congr 1
    omega
  simp only [word, BitVec.extractLsb'_toNat, BitVec.toNat_ofNat, Nat.shiftRight_eq_div_pow]
  rw [hp, Nat.mod_mul_right_div_self, Nat.mod_mul_right_mod]
theorem getLsbD_word {x i : Nat} (h : i < 64) : (word x).getLsbD i = decide (x / 2 ^ i % 2 = 1) := by
  rw [word, BitVec.getLsbD_ofNat, decide_eq_true h, Bool.true_and, Nat.testBit_eq_decide_div_mod_eq]

theorem flag_div_mod (b : Bool) (i : Nat) : flag b i = (if b then 1 else 0) * 2 ^ i := by
  cases b <;> simp [flag]

theorem tstatWord_fields (k : Pkg) (slip : Bool) : let t := word (tstatWord k slip)
    t.extractLsb' 0 2 = BitVec.ofNat 2 k.disc ∧ t.getLsbD 2 = slip ∧
      (t.extractLsb' 32 16).toInt = max (-32767) (min 32767 k.ofs) := by
  intro t
  rw [extractLsb'_word _ _ _ (by omega), getLsbD_word (by omega), extractLsb'_word _ _ _ (by omega), BitVec.toInt_eq_toNat_bmod,
    BitVec.toNat_ofNat]
  have hz := clampInt_eq (show (-32767 : Int) ≤ 32767 by omega) k.ofs
  simp only [tstatWord, flag_div_mod, hz]
  have hw : wrap 16 (max (-32767) (min 32767 k.ofs)) = ((max (-32767) (min 32767 k.ofs)) % 65536).toNat := rfl
  refine ⟨BitVec.eq_of_toNat_eq ?_, ?_, ?_⟩
  · simp only [BitVec.toNat_ofNat]
    cases slip <;> simp only [if_true, Bool.false_eq_true, if_false] <;> omega
  · cases slip <;> simp only [if_true, Bool.false_eq_true, if_false, decide_eq_true_eq, decide_eq_false_iff_not] <;> omega
  · unfold Int.bmod
    cases slip <;> simp only [if_true, Bool.false_eq_true, if_false] <;> omega

theorem queueWord_fields (q : Queue) : let w := word q.word
    w.extractLsb' 0 9 = BitVec.ofNat 9 q.rp ∧ w.extractLsb' 9 9 = BitVec.ofNat 9 q.wp ∧
      w.extractLsb' 18 13 = BitVec.ofNat 13 q.qb ∧ w.extractLsb' 31 33 = BitVec.ofNat 33 q.depth := by
  intro w
  refine ⟨?_, ?_, ?_, ?_⟩ <;> rw [extractLsb'_word _ _ _ (by omega)] <;> apply BitVec.eq_of_toNat_eq <;>
    simp only [BitVec.toNat_ofNat, Queue.word] <;> omega

theorem ringWord_fields (x : Ring) : let w := word x.word
    w.getLsbD 39 = x.cv ∧ w.extractLsb' 32 7 = BitVec.ofNat 7 x.colour ∧ w.getLsbD 30 = decide (x.mon < 1024) ∧
      w.extractLsb' 12 16 = BitVec.ofNat 16 x.mon ∧ w.extractLsb' 0 12 = BitVec.ofNat 12 x.heat := by
  intro w
  rw [extractLsb'_word _ _ _ (by omega), extractLsb'_word _ _ _ (by omega), extractLsb'_word _ _ _ (by omega),
    getLsbD_word (by omega), getLsbD_word (by omega)]
  have hd : (if x.heat == 0 then 1 else if x.heat == 4095 then 2 else 0) < 4 := by split_ifs <;> omega
  simp only [Ring.word, flag_div_mod]
  generalize (if x.heat == 0 then 1 else if x.heat == 4095 then 2 else 0) = h at hd ⊢
  generalize decide (x.mon < 1024) = m
  generalize x.cv = cv
  refine ⟨?_, BitVec.eq_of_toNat_eq ?_, ?_, BitVec.eq_of_toNat_eq ?_, BitVec.eq_of_toNat_eq ?_⟩ <;> cases cv <;> cases m <;>
    simp only [BitVec.toNat_ofNat, if_true, Bool.false_eq_true, if_false, decide_eq_true_eq, decide_eq_false_iff_not] <;> omega

theorem linkWord_fields (l : Link) : let w := word l.word
    w.extractLsb' 0 3 = BitVec.ofNat 3 l.state ∧ (w.extractLsb' 4 2).toNat = min l.attempts 3 ∧
      (w.extractLsb' 16 16).toNat = min l.replays 65535 := by
  intro w
  rw [extractLsb'_word _ _ _ (by omega), extractLsb'_word _ _ _ (by omega), extractLsb'_word _ _ _ (by omega)]
  refine ⟨BitVec.eq_of_toNat_eq ?_, ?_, ?_⟩ <;> simp only [BitVec.toNat_ofNat, Link.word] <;> omega

/-! ## END (R33, R328) -/

/-- What END does to the batches of a slot on arrival. -/
def commitBatches (n : Nat) (m : Matrix) : Matrix := (List.range n).foldl (fun m b => m.modBatch b Batch.commit) m

theorem mem_mput {β : Type} {k : Nat} {v : β} : ∀ {m : SMap β} {e : Nat × β}, e ∈ mput k v m → e = (k, v) ∨ e ∈ m
  | [], e, h => by
    simp only [mput, List.mem_singleton] at h
    exact .inl h
  | (j, w) :: m, e, h => by
    simp only [mput] at h
    split at h
    · exact (List.mem_cons.mp h).imp_right (List.mem_cons_of_mem _)
    · split at h
      · rcases List.mem_cons.mp h with h | h
        · exact .inr (h ▸ List.mem_cons_self)
        · exact (mem_mput h).imp_right (List.mem_cons_of_mem _)
      · exact List.mem_cons.mp h

theorem batch_idle_of_quiet {m : Matrix} (h : m.quiet = true) (b : Nat) : (m.batch b).st = .idle := by
  rw [Matrix.batch, mget]
  cases hf : mfind b m.batches with
  | none => rfl
  | some x => simpa using List.all_eq_true.mp h _ (mem_of_mfind hf)

/-- On a slot without an incomplete batch END changes none. -/
theorem commitBatches_quiet {m : Matrix} (h : m.quiet = true) : ∀ n,
    (commitBatches n m).quiet = true ∧ ∀ b, (commitBatches n m).batch b = m.batch b
  | 0 => ⟨h, fun _ => rfl⟩
  | n + 1 => by
    obtain ⟨hq, hb⟩ := commitBatches_quiet h n
    have hs : commitBatches (n + 1) m = (commitBatches n m).modBatch n Batch.commit := by
      simp [commitBatches, List.range_succ]
    have hi := batch_idle_of_quiet hq n
    have hc : ((commitBatches n m).batch n).commit = (commitBatches n m).batch n := by
      simp [Batch.commit, hi]
    have hm : ((commitBatches n m).modBatch n Batch.commit).batches =
        mput n ((commitBatches n m).batch n) (commitBatches n m).batches := congrArg (fun x => mput n x _) hc
    rw [hs]
    refine ⟨List.all_eq_true.mpr fun e he => ?_, fun b => ?_⟩
    · rw [hm] at he
      rcases mem_mput he with rfl | he
      · simp [hi]
      · exact List.all_eq_true.mp hq e he
    · rw [Matrix.batch, hm, mget_mput]
      split
      · subst b
        exact hb n
      · exact hb b

theorem released_withCtx {s : State} {k : SlotKey} {c : Ctx} (hb : c.banksDone = (s.slot k).banksDone) (scope : Nat) :
    (s.withCtx k c).released k scope = s.released k scope := by
  simp only [State.released, withCtx_slot, if_true, hb]
  rfl
theorem enginesDone_withCtx {s : State} {k : SlotKey} {c : Ctx} (hd : c.die = (s.slot k).die)
    (hq : c.matrix.quiet = (s.slot k).matrix.quiet) : (s.withCtx k c).enginesDone k = s.enginesDone k := by
  simp only [State.enginesDone, withCtx_slot, if_true, hd, hq]
  rfl

/-- The slot's record as END finds it once it has arrived. -/
def Ctx.committed (c : Ctx) : Ctx := { c with matrix := commitBatches 8 c.matrix }
/-- The slot's record as END leaves it. -/
def Ctx.ended (c : Ctx) : Ctx := { c.committed.progressed c.committed.iss.tick with mode := .ended, lq := [] }

theorem committed_die (c : Ctx) : c.committed.die = c.die := by simp only [Ctx.die, Ctx.committed]
theorem committed_place (c : Ctx) : c.committed.rid = c.rid ∧ c.committed.pkg = c.pkg ∧ c.committed.slot = c.slot ∧
    c.committed.iss = c.iss := by
  simp only [Ctx.committed, and_self]
theorem ended_spec (c : Ctx) : c.ended.mode = .ended ∧ c.ended.lq = [] ∧ SameRegisters c c.ended := by
  simp only [Ctx.ended, Ctx.committed, Ctx.progressed, SameRegisters, and_self]
theorem committed_rid (c : Ctx) : c.committed.rid = c.rid := by simp only [Ctx.committed]
theorem committed_banksDone (c : Ctx) : c.committed.banksDone = c.banksDone := by simp only [Ctx.banksDone, Ctx.committed]

theorem endFault_committed {c : Ctx} (h : c.matrix.quiet = true) : endFault c.committed = endFault c := by
  have hb : ∀ b, c.committed.matrix.batch b = c.matrix.batch b := (commitBatches_quiet h 8).2
  have hx : c.committed.xstat = c.xstat ∧ c.committed.engine = c.engine := by simp only [Ctx.committed, and_self]
  simp only [endFault, tagFault, hb, hx]

theorem commit_endArrive (s : State) : s.commit (endArrive s) = s.running Ctx.committed := by
  simp only [endArrive, commit_slot]
  rfl

section
variable {f : SF} {s : State} (hon : f.on s.curCtx = true) (he : s.curCtx.iss.elastic = true)
include hon he

theorem exec_end (hf : endFault s.curCtx = none) (hd : s.enginesDone s.curKey = true)
    (hr : s.released s.curKey (if (s.node s.curCtx.rid).pkgs.isEmpty then 1 else 2) = true) :
    exec (.end_ f) s = .next ((s.running Ctx.ended).apply (.node s.curCtx.rid fun n =>
      { n with endedS := n.endedS ++ [(s.curCtx.pkg, s.curCtx.slot)] }.yieldsAt s.curCtx.iss.tick)) := by
  have hd' := hd
  simp only [State.enginesDone, Bool.and_eq_true] at hd'
  obtain ⟨⟨hch, hq⟩, henc⟩ := hd'
  have hc : (s.running Ctx.committed).curCtx = s.curCtx.committed := running_curCtx s _
  have hf' : endFault s.curCtx.committed = none := (endFault_committed hq).trans hf
  unfold exec
  refine (waiting_go hon (needElastic_of he 0) (commit_endArrive s) ?_).trans ?_
  · have he' : (s.running Ctx.committed).enginesDone s.curKey = true :=
      (enginesDone_withCtx (committed_die _) ((commitBatches_quiet hq 8).1.trans hq.symm)).trans hd
    have hr' : (s.running Ctx.committed).released s.curKey (if (s.node s.curCtx.rid).pkgs.isEmpty then 1 else 2) = true :=
      (released_withCtx (committed_banksDone _) _).trans hr
    have hp : ((s.running Ctx.committed).node s.curCtx.committed.rid).pkgs = (s.node s.curCtx.rid).pkgs := by
      rw [committed_rid]
      rfl
    simp only [endReady, hc, running_curKey, he', hp, hr', Bool.and_self, Bool.or_true, await_true]
  · obtain ⟨hrid, hpkg, hslot, hiss⟩ := committed_place s.curCtx
    simp only [endUpds, hc, hf', running_curKey, hrid, hpkg, hslot, hiss]
    exact congrArg Host.Outcome.next (commit_slot_slot s Ctx.committed
      (fun c => { c.progressed c.iss.tick with mode := .ended, lq := [] }) [_])

theorem exec_yield (hy : (s.curCtx.pkg, s.curCtx.slot) ∈ (s.node s.curCtx.rid).yieldS)
    (ha : (s.node s.curCtx.rid).allYield = true) (hw : s.windowOpen s.curCtx.rid = false) :
    ∃ nodes, exec (.yield f) s = .next { s.running (fun c => { c.progressed c.iss.tick with mode := .yielded }) with nodes := nodes } ∧
      mget nodes s.curCtx.rid .blank = s.node s.curCtx.rid := by
  have hn : mget (mmod s.nodes s.curCtx.rid .blank fun n => if n.yieldS.contains (s.curCtx.pkg, s.curCtx.slot) then n
      else { n with yieldS := n.yieldS ++ [(s.curCtx.pkg, s.curCtx.slot)] }.yieldsAt s.curCtx.iss.tick) s.curCtx.rid .blank =
        s.node s.curCtx.rid := by
    rw [mget_mmod_same]
    exact if_pos (List.contains_iff_mem.mpr hy)
  refine ⟨_, ?_, hn⟩
  unfold exec
  refine (waiting_go hon (needElastic_of he 0) (t := s.commit (yieldArrive s)) rfl ?_).trans rfl
  have hw' : (s.commit (yieldArrive s)).windowOpen (s.commit (yieldArrive s)).curCtx.rid = false := hw
  have ha' : ((s.commit (yieldArrive s)).node (s.commit (yieldArrive s)).curCtx.rid).allYield = true :=
    (congrArg Node.allYield hn).trans ha
  simp only [yieldReady, hw', ha']
  simp

end

end Sys2Proof.Machine
end

section
open Sys2Proof Sys2Proof.Machine

/-- Settles O31: the value of a register at issue, by its number, and the fields of its word. -/
theorem systemRegisterReads : Obligations.SystemRegisterReads := by
  unfold Obligations.SystemRegisterReads
  intro f s hon n
  refine ⟨fun h => ⟨sysReadExec_ok hon [] h, sysReadExec_ok hon [.tstatClear] h, sysReadExec_ok hon [.mstatClear] h⟩,
    fun h hs => exec_sysrd_permission hon h hs, rfl, rfl, rfl, rfl, rfl, word_toNat _, word_toNat _, word_toNat _, rfl,
    word_toNat _, rfl, ?_⟩
  intro c k t q ring row col reads
  refine ⟨rfl, word_wrap _, tstatWord_fields _ _, rfl, rfl, rfl, rfl, word_toNat _, fun _ => rfl, fun n hn => ?_, rfl,
    fun n hn => ?_, fun n hn hne => ?_, ?_, fun n hn hne => ?_⟩
  · rw [show q n = _ from sysRead_queue s hn]
    exact queueWord_fields _
  · rw [show ring n = _ from sysRead_ring s hn]
    exact ringWord_fields _
  · rw [show row n = _ from sysRead_row s hn, if_neg (show n ≠ colOf s.curCtx.pkg from hne)]
    exact linkWord_fields _
  · rw [show row (c.pkg % 32) = _ from sysRead_row s (Nat.mod_lt _ (by omega)), if_pos (show c.pkg % 32 = colOf s.curCtx.pkg from rfl)]
    rfl
  · rw [show col n = _ from sysRead_col s hn, if_neg (show n ≠ rowOf s.curCtx.pkg from hne)]
    exact linkWord_fields _

/-- Settles O32: the writes of SYSWR share one operation, and a landed one changes its register alone. -/
theorem systemRegisterWrites : Obligations.SystemRegisterWrites := by
  unfold Obligations.SystemRegisterWrites
  refine ⟨fun f s hon => ⟨fun h => ?_, exec_syswr_permission hon⟩, fun s k o w => ?_, fun f s hon => ?_⟩
  · have hw := sysWriteExec_ok hon h
    refine ⟨hw, hw, hw, hw, hw, hw, hw, hw, hw, hw, hw, hw, ?_⟩
    exact exec_tguardWrite hon h
  · simp only [sysLand, Nat.add_mul_mod_self_left]
    exact ⟨rfl, rfl, rfl, rfl, rfl, rfl, rfl⟩
  · exact ⟨exec_tidset hon, exec_tidset_permission hon⟩

/-- Settles O33: on arrival neither END nor YIELD changes what its condition looks at. -/
theorem endAndYield : Obligations.EndAndYield := by
  unfold Obligations.EndAndYield
  intro f s hon he r me
  refine ⟨fun hf _ hd hr => ?_, fun hy ha hw => ?_⟩
  · obtain ⟨hm, hl, hregs⟩ := ended_spec s.curCtx
    have hk : ∀ g, ((s.running Ctx.ended).apply (.node s.curCtx.rid g)).slot s.curKey = s.curCtx.ended := fun _ => running_slot s _
    refine ⟨_, exec_end hon he hf hd hr, ?_, ?_, ?_, ?_, rfl⟩
    · rw [hk]
      exact hm
    · refine (congrArg Node.endedS (State.node_apply_node _ _ _ _)).trans ?_
      rw [if_pos rfl]
      unfold Node.yieldsAt
      split <;> rfl
    · rw [hk]
      exact hl
    · rw [hk]
      exact hregs
  · obtain ⟨nodes, h, hn⟩ := exec_yield hon he hy ha hw
    have hk := running_slot s fun c => { c.progressed c.iss.tick with mode := .yielded }
    exact ⟨_, h, congrArg Ctx.mode hk, (congrArg (SameRegisters s.curCtx) hk).mpr ⟨rfl, rfl, rfl, rfl, rfl⟩, rfl, hn⟩

end

section
/-! SUPPORT. V-slot instructions: their checks, what follows, the elements that they compute, and the lines of their routes. -/

namespace Sys2Proof.Machine

/-! ## Operands in registers -/

/-- The check that an instruction has of its own (T8.1, R415). -/
def vOwnGuard (i : Instr) (v : VInfo) (s : State) : Guard :=
  match i with
  | .vquant f => quantGuard s s.curCtx f v.nd
  | .selk _ => intervalGuard s.curCtx v.f.fslot 1
  | .sortk _ => intervalGuard s.curCtx v.f.fslot 1
  | _ => .go

/-- SELK and SORTK take their unit for 8 die cycles (T8.1). -/
def takesUnit (i : Instr) (x : Ctx) : Ctx :=
  match i with
  | .selk _ => { x with vclass := mput 1 (x.iss.pos + 1) x.vclass }
  | .sortk _ => { x with vclass := mput 1 (x.iss.pos + 1) x.vclass }
  | _ => x

theorem vGuard_eq (i : Instr) (v : VInfo) (s : State) : vGuard i v s = Guard.seq [vOwnGuard i v s,
    need ((vcapture v s.curCtx).dq.isEmpty || !queueClash s.curCtx v.f.vslot (s.curCtx.iss.pos + v.lat)) (trapAt v.f.fslot .illegalBundle 0),
    queueGuard s s.curCtx v.f.fslot v.f.a.toNat v.na false, queueGuard s s.curCtx v.f.fslot v.f.b.toNat v.nb false,
    queueGuard s s.curCtx v.f.fslot v.f.c.toNat v.nc false, queueGuard s s.curCtx v.f.fslot v.f.d.toNat v.nd true,
    machineGuard s s.curCtx v.f.fslot (operandLines (s.readRoute s.curCtx s.curCtx.iss.rrt) v.f.vslot (vcapture v s.curCtx)) true] := by
  unfold vGuard vOwnGuard
  cases i <;> rfl

theorem vUpds_eq (i : Instr) (v : VInfo) (s : State) : vUpds i v s =
    if (vcapture v s.curCtx).aq.isEmpty && (vcapture v s.curCtx).bq.isEmpty && (vcapture v s.curCtx).cq.isEmpty then
      [.slot s.curKey fun x => (takesUnit i x).pushAll
        (vlandings v s.curCtx.iss (vcapture v s.curCtx) (vresult i (vcapture v s.curCtx) s.curCtx))]
    else [.slot s.curKey fun x => (takesUnit i x).later 1 phRead (.vlate i s.curCtx.iss (vcapture v s.curCtx))] := by
  unfold vUpds takesUnit
  cases i <;> rfl

/-- The entries of an operand that names no queue. -/
theorem entries_of_inRegs (c : Ctx) {n count : Nat} (h : count = 0 ∨ isQ n = false) (tail : Bool) :
    (if count == 0 then [] else queueEntries c n count tail) = [] := by
  rcases h with h | h <;> simp [h, queueEntries]

theorem queueGuard_of_inRegs (s : State) (c : Ctx) (fslot : Nat) {n count : Nat} (h : count = 0 ∨ isQ n = false) (tail : Bool) :
    queueGuard s c fslot n count tail = .go := by
  rcases h with h | h <;> simp [h, queueGuard]

section
variable {v : VInfo} (h : v.inRegs) (c : Ctx)
include h

theorem vcapture_aq : (vcapture v c).aq = [] := entries_of_inRegs c h.1 false
theorem vcapture_bq : (vcapture v c).bq = [] := entries_of_inRegs c h.2.1 false
theorem vcapture_cq : (vcapture v c).cq = [] := entries_of_inRegs c h.2.2.1 false
theorem vcapture_dq : (vcapture v c).dq = [] := entries_of_inRegs c h.2.2.2 true

/-- With its operands in registers an instruction has its own check alone. -/
theorem vGuard_of_inRegs {i : Instr} {s : State} (hown : vOwnGuard i v s = .go) : vGuard i v s = .go := by
  obtain ⟨ha, hb, hc, hd⟩ := h
  rw [vGuard_eq, hown, queueGuard_of_inRegs _ _ _ ha, queueGuard_of_inRegs _ _ _ hb, queueGuard_of_inRegs _ _ _ hc,
    queueGuard_of_inRegs _ _ _ hd, vcapture_dq ⟨ha, hb, hc, hd⟩, operandLines, vcapture_aq ⟨ha, hb, hc, hd⟩,
    vcapture_bq ⟨ha, hb, hc, hd⟩, vcapture_cq ⟨ha, hb, hc, hd⟩]
  rfl

theorem vectorOp_of_inRegs {i : Instr} {s : State} (hi : vinfo i s.curCtx = some v) (hown : vOwnGuard i v s = .go) :
    vectorOp i s = .next (s.running fun x => (takesUnit i x).pushAll
      (vlandings v s.curCtx.iss (vcapture v s.curCtx) (vresult i (vcapture v s.curCtx) s.curCtx))) := by
  simp only [vectorOp, hi, vGuard_of_inRegs h hown, State.guarded, vUpds_eq, vcapture_aq h, vcapture_bq h, vcapture_cq h]
  rfl

end

/-- A V-slot instruction that computes, with the spans of its operands. -/
theorem runs_of_vinfo {i : Instr} {s : State} {f : VF} {v : VInfo} {lat : Nat} (he : exec i s = vectorOp i s)
    (hi : vinfo i s.curCtx = some v) (hf : v.f = f) (hl : v.lat = lat) (hown : vOwnGuard i v s = .go) :
    ∃ v, vinfo i s.curCtx = some v ∧ v.f = f ∧ v.lat = lat ∧ (v.inRegs → exec i s = .next (s.running fun x =>
      (takesUnit i x).pushAll
        (vlandings v s.curCtx.iss (vcapture v s.curCtx) (vresult i (vcapture v s.curCtx) s.curCtx)))) :=
  ⟨v, hi, hf, hl, fun h => he.trans (vectorOp_of_inRegs h hi hown)⟩

theorem intervalGuard_go {c : Ctx} (h : mget c.vclass 1 0 = 0 ∨ mget c.vclass 1 0 + 8 ≤ c.iss.pos + 1) (fslot : Nat) :
    intervalGuard c fslot 1 = .go := by
  simpa [intervalGuard] using h

theorem quantGuard_go {s : State} {c : Ctx} {f : VF} {nd : Nat} (ht : f.c.toNat % 256 < (s.node c.rid).tids)
    (hk : isKb (quantFmt f c) = true) (hd : f.d.toNat + nd ≤ 1536) : quantGuard s c f nd = .go := by
  simp [quantGuard, ht, hk, hd]

/-! ## Operands in queues -/

theorem exec_of_vinfo {i : Instr} {s : State} {v : VInfo} (h : vinfo i s.curCtx = some v) : exec i s = vectorOp i s := by
  cases i <;> simp only [vinfo, reduceCtorEq] at h <;> rfl

theorem takesUnit_registers (i : Instr) (c : Ctx) : SameRegisters c (takesUnit i c) := by
  cases i <;> exact ⟨rfl, rfl, rfl, rfl, rfl⟩
theorem takesUnit_land (i : Instr) (c : Ctx) : (takesUnit i c).land = c.land := by cases i <;> rfl
theorem takesUnit_queues (i : Instr) (c : Ctx) : (takesUnit i c).queues = c.queues := by cases i <;> rfl
theorem takesUnit_nextSeq (i : Instr) (c : Ctx) : (takesUnit i c).nextSeq = c.nextSeq := by cases i <;> rfl
theorem takesUnit_iss (i : Instr) (c : Ctx) : (takesUnit i c).iss = c.iss := by cases i <;> rfl

/-- The entries that operand a names, from the head of its queue. -/
theorem vcapture_aq_of_queue {v : VInfo} (c : Ctx) (hq : isQ v.f.a.toNat = true) (hn : v.na ≠ 0) :
    (vcapture v c).aq = (List.range v.na).map fun j => 512 * (c.q (v.f.a.toNat - 1536)).qb +
      512 * (((c.q (v.f.a.toNat - 1536)).rp + j) % (c.q (v.f.a.toNat - 1536)).depth) := by
  simp [vcapture, queueEntries, hq, hn, Queue.entry]

/-- An instruction that passes its checks and reads a queue reads it one die cycle later. -/
theorem vectorOp_of_queue {i : Instr} {s : State} {v : VInfo} (hi : vinfo i s.curCtx = some v) (hg : vGuard i v s = .go)
    (hq : isQ v.f.a.toNat = true) (hn : v.na ≠ 0) : vectorOp i s = .next (s.running fun x =>
      (takesUnit i x).later 1 phRead (.vlate i s.curCtx.iss (vcapture v s.curCtx))) := by
  have ha : (vcapture v s.curCtx).aq.isEmpty = false := by simp [vcapture_aq_of_queue s.curCtx hq hn, hn]
  simp only [vectorOp, hi, hg, State.guarded, vUpds_eq, ha]
  rfl

section
variable {s : State} {f : VF} (c : Ctx) (hq : isQ f.a.toNat = true)
include hq

theorem queueGuard_short {count : Nat} (hc : count ≠ 0) (hn : f.a.toNat - 1536 < (s.node c.rid).queues)
    (h : (c.q (f.a.toNat - 1536)).count < count) (fslot : Nat) : queueGuard s c fslot f.a.toNat count false =
      .wait (trapAt fslot .queueUnderrun 0 (f.a.toNat - 1536)) := by
  simp [queueGuard, hq, hc, Nat.not_le.mpr hn, Nat.not_le.mpr h]
theorem queueGuard_absent {count : Nat} (hc : count ≠ 0) (hn : (s.node c.rid).queues ≤ f.a.toNat - 1536) (fslot : Nat) (tail : Bool) :
    queueGuard s c fslot f.a.toNat count tail = .trap (trapAt fslot .permission 0 (f.a.toNat - 1536)) := by
  simp [queueGuard, hq, hc, hn]

end

section
variable {s : State} {t : Trap} (us : List Upd)

theorem guarded_trap : s.guarded (.trap t) us = .next (s.commit (takeTrap s s.curKey t)) := rfl
theorem guarded_wait_rigid (h : s.curCtx.iss.elastic = false) : s.guarded (.wait t) us = .next (s.commit (takeTrap s s.curKey t)) :=
  if_neg (Bool.eq_false_iff.mp h)
theorem guarded_wait_elastic (h : s.curCtx.iss.elastic = true) : s.guarded (.wait t) us = .next s := if_pos h

end

/-- The check of a one-operand instruction begins with its operand's queue. -/
theorem vGuard_of_operand {i : Instr} {s : State} {v : VInfo} (hown : vOwnGuard i v s = .go) (hd : isQ v.f.d.toNat = false) :
    ∃ l, vGuard i v s = Guard.seq (queueGuard s s.curCtx v.f.fslot v.f.a.toNat v.na false :: l) := by
  have hdq : (vcapture v s.curCtx).dq = [] := entries_of_inRegs s.curCtx (.inr hd) true
  rw [vGuard_eq, hown, hdq]
  exact ⟨_, rfl⟩

theorem oneOperand_spec {f : VF} {i : Instr} {s : State} {v : VInfo} (hi : i ∈ [Instr.vabs f, .vneg f, .vnot f, .vmov f])
    (h : vinfo i s.curCtx = some v) : v = ⟨f, 4, f.span, 0, 0, f.span⟩ ∧ vOwnGuard i v s = .go := by
  fin_cases hi <;> exact ⟨(Option.some.inj h).symm, rfl⟩

theorem span_ne_zero (f : VF) : f.span ≠ 0 := (Nat.two_pow_pos _).ne'

end Sys2Proof.Machine
end

section
open Sys2Proof Sys2Proof.Machine

/-- Settles O34: with register operands every V-slot instruction that computes has at most its own check. -/
theorem vectorResultsFollow : Obligations.VectorResultsFollow := by
  unfold Obligations.VectorResultsFollow
  intro f s
  refine ⟨fun x hx => ?_, fun x hx => ?_, fun ht hk hd => ?_, fun hr => ⟨?_, ?_⟩⟩
  · fin_cases hx <;> exact runs_of_vinfo rfl rfl rfl rfl rfl
  · fin_cases hx <;> exact runs_of_vinfo rfl rfl rfl rfl rfl
  · exact runs_of_vinfo rfl rfl rfl rfl (quantGuard_go ht hk hd)
  · exact runs_of_vinfo rfl rfl rfl rfl (intervalGuard_go hr _)
  · exact runs_of_vinfo rfl rfl rfl rfl (intervalGuard_go hr _)

/-- Settles O35: the check of the queue comes first, and the entries that it has found are read one die cycle later. -/
theorem queueOperands : Obligations.QueueOperands := by
  unfold Obligations.QueueOperands
  intro f s i v hi c q hq hn
  refine ⟨fun hg _ => ?_, fun hm hf hd => ?_⟩
  · refine ⟨_, (exec_of_vinfo hi).trans (vectorOp_of_queue hi hg hq hn), takesUnit_registers i c, ?_, takesUnit_queues i c,
      vcapture_aq_of_queue c hq hn⟩
    simp only [Ctx.later, Ctx.push_land, takesUnit_land, takesUnit_nextSeq, takesUnit_iss]
    rfl
  · obtain ⟨rfl, hown⟩ := oneOperand_spec hm hi
    obtain ⟨l, hl⟩ := vGuard_of_operand hown hd
    have he : exec i s = s.guarded (vGuard i ⟨f, 4, f.span, 0, 0, f.span⟩ s) (vUpds i ⟨f, 4, f.span, 0, 0, f.span⟩ s) :=
      (exec_of_vinfo hi).trans (by simp only [vectorOp, hi])
    rw [he, hl]
    refine ⟨fun hqs hc hel => ?_, fun hqs hc hel => ?_, fun hqs => ?_⟩
    · rw [queueGuard_short s.curCtx hq (span_ne_zero f) hqs hc]
      exact guarded_wait_rigid _ hel
    · rw [queueGuard_short s.curCtx hq (span_ne_zero f) hqs hc]
      exact guarded_wait_elastic _ hel
    · rw [queueGuard_absent s.curCtx hq (span_ne_zero f) hqs]
      exact guarded_trap _

end

section
/-! SUPPORT. Elements of vector registers (R96, R108): what a result computed element by element reads as. -/

namespace Sys2Proof.Machine

/-! ## Reading elements back -/

theorem elem_lt {n : Nat} (x : BitVec n) (w e : Nat) : elem x w e < 2 ^ w := Nat.mod_lt _ (Nat.two_pow_pos w)

theorem elemsOf_lt {w : Nat} {l : List VReg} {x : Nat} (h : x ∈ elemsOf w l) : x < 2 ^ w := by
  simp only [elemsOf, List.mem_flatMap, List.mem_map] at h
  obtain ⟨v, -, e, -, rfl⟩ := h
  exact elem_lt v w e

theorem elemsOf_length (w : Nat) : ∀ l : List VReg, (elemsOf w l).length = l.length * (4096 / w)
  | [] => by simp [elemsOf]
  | v :: l => by
    have ih := elemsOf_length w l
    simp only [elemsOf, List.flatMap_cons, List.length_append, List.length_map, List.length_range, List.length_cons] at ih ⊢
    rw [ih, Nat.succ_mul, Nat.add_comm]

theorem elemsOf_append (w : Nat) (l m : List VReg) : elemsOf w (l ++ m) = elemsOf w l ++ elemsOf w m := List.flatMap_append

/-- The elements past those that a value was built from are 0. -/
theorem elem_ofElems_getD {n w : Nat} {l : List Nat} (h : w * l.length ≤ n) (e : Nat) :
    elem (ofElems n w l) w e = l.getD e 0 % 2 ^ w := by
  rcases Nat.lt_or_ge e l.length with he | he
  · exact elem_ofElems h he
  · rw [elem, ofElems, BitVec.toNat_ofNat, Nat.mod_eq_of_lt (lt_of_lt_of_le (foldr_lt w l) (Nat.pow_le_pow_right (by omega) h)),
      Nat.shiftRight_eq_div_pow, Nat.div_eq_of_lt (lt_of_lt_of_le (foldr_lt w l)
        (Nat.pow_le_pow_right (by omega) (Nat.mul_le_mul_left w he))), List.getD_eq_default _ _ he]

/-- Registers built from a list of any length: zeros follow it, and what exceeds them is left out. -/
theorem elemsOf_regsOf_getD {w : Nat} (hw : w ∣ 4096) : ∀ (n : Nat) (l : List Nat),
    elemsOf w (regsOf w n l) = (List.range (n * (4096 / w))).map fun e => l.getD e 0 % 2 ^ w
  | 0, l => by simp [elemsOf, regsOf]
  | n + 1, l => by
    have ih := elemsOf_regsOf_getD hw n (l.drop (4096 / w))
    have ht : w * (l.take (4096 / w)).length ≤ 4096 :=
      (Nat.mul_le_mul_left w (List.length_take_le _ _)).trans (Nat.mul_div_cancel' hw).le
    have step : elemsOf w (regsOf w (n + 1) l) = (List.range (4096 / w)).map (elem (ofElems 4096 w (l.take (4096 / w))) w) ++
        elemsOf w (regsOf w n (l.drop (4096 / w))) := by simp [elemsOf, regsOf]
    rw [step, ih, Nat.succ_mul, Nat.add_comm (n * _), List.range_add, List.map_append, List.map_map]
    refine congrArg₂ (· ++ ·) (List.map_congr_left fun e he => ?_) (List.map_congr_left fun e _ => ?_)
    · rw [elem_ofElems_getD ht, List.getD_eq_getElem?_getD, List.getElem?_take_of_lt (List.mem_range.mp he),
        ← List.getD_eq_getElem?_getD]
    · simp [List.getD_eq_getElem?_getD]

theorem regsOf_length (w : Nat) : ∀ (n : Nat) (l : List Nat), (regsOf w n l).length = n
  | 0, _ => rfl
  | n + 1, _ => congrArg (· + 1) (regsOf_length w n _)

/-- Bit t of element e of a value built from elements. -/
theorem getLsbD_ofElems {n w : Nat} {l : List Nat} (h : w * l.length ≤ n) {e t : Nat} (ht : t < w) :
    (ofElems n w l).getLsbD (w * e + t) = (l.getD e 0).testBit t := by
  have he := congrArg (Nat.testBit · t) (elem_ofElems_getD h e)
  simpa [elem, Nat.testBit_mod_two_pow, ht, Nat.testBit_shiftRight, BitVec.testBit_toNat] using he

/-- The elements that a mask enables are written whole (R96). -/
theorem getLsbD_enables {w : Nat} (hw : w ∣ 4096) (m : Mask) (i : Nat) {e t : Nat} (he : e < 4096 / w) (ht : t < w) :
    (enables w m i).getLsbD (w * e + t) = m.getLsbD ((i * (4096 / w) + e) % 1024) := by
  rw [enables, getLsbD_ofElems (by simp [Nat.mul_div_cancel' hw]) ht, List.getD_eq_getElem?_getD,
    List.getElem?_map, List.getElem?_range he]
  simp only [Option.map_some, Option.getD_some]
  split <;> simp_all [Nat.testBit_two_pow_sub_one]

theorem getLsbD_maskOf (l : List Bool) (h : l.length ≤ 1024) (e : Nat) : (maskOf l).getLsbD e = l.getD e false := by
  have hb := getLsbD_ofElems (n := 1024) (w := 1) (l := l.map fun b => if b then 1 else 0) (by simpa using h) (e := e)
    (t := 0) (by omega)
  rw [Nat.one_mul, Nat.add_zero] at hb
  refine hb.trans ?_
  simp only [List.getD_eq_getElem?_getD, List.getElem?_map]
  cases l[e]? with
  | none => rfl
  | some b => cases b <;> rfl

theorem width_dvd {ty : Nat} (h : ty ≤ 14) : width ty ∣ 4096 := by
  interval_cases ty <;> decide
theorem isIntTy_iff {ty : Nat} : isIntTy ty = true ↔ 5 ≤ ty ∧ ty ≤ 14 := by simp [isIntTy]

theorem wrap_lt (w : Nat) (z : Int) : wrap w z < 2 ^ w := by
  have h0 : (0 : Int) < 2 ^ w := Int.pow_pos (by omega)
  have h := Int.emod_lt_of_pos z h0
  have h1 := Int.emod_nonneg z h0.ne'
  unfold wrap
  rw [Int.toNat_lt h1]
  exact_mod_cast h

/-! ## Results element by element -/

/-- What a list of element results leaves in registers. -/
theorem elems_masked {w n : Nat} (hw : w ∣ 4096) (km : Mask) {rs : List (Nat × Nat)} (h : rs.length = n * (4096 / w))
    (hr : ∀ r ∈ rs, r.1 < 2 ^ w) : elemsOf w (masked w n km rs).vals = rs.map (·.1) := by
  refine (elemsOf_regsOf hw n _ (by simpa using h)).trans ?_
  rw [List.map_map]
  exact List.map_congr_left fun r hm => Nat.mod_eq_of_lt (hr r hm)

section
variable {f : VF} {o : VOps}

theorem bElems_of_regs (hfm : f.fm = 0) (hl : f.long = none) (raw : Bool) : bElems f o raw = elemsOf (wOf f) o.b := by
  simp [bElems, hfm, hl]

variable (ha : o.a.length = f.span)
include ha

theorem aElems_length : (aElems f o).length = nOf f := (elemsOf_length _ _).trans (by rw [ha, nOf])

variable (hw : wOf f ∣ 4096)
include hw

theorem elems_lift1 {op : Nat → Nat × Nat} (hop : ∀ x < 2 ^ wOf f, (op x).1 < 2 ^ wOf f) :
    elemsOf (wOf f) (lift1 f o op).vals = (elemsOf (wOf f) o.a).map fun x => (op x).1 := by
  refine (elems_masked hw o.km ((List.length_map _).trans (aElems_length ha)) fun r hr => ?_).trans (List.map_map ..)
  obtain ⟨x, hx, rfl⟩ := List.mem_map.mp hr
  exact hop x (elemsOf_lt hx)

theorem elems_lift2 {raw : Bool} {op : Nat → Nat → Nat × Nat} (hfm : f.fm = 0) (hl : f.long = none) (hb : o.b.length = f.span)
    (hop : ∀ x < 2 ^ wOf f, ∀ y < 2 ^ wOf f, (op x y).1 < 2 ^ wOf f) : elemsOf (wOf f) (lift2 f o raw op).vals =
      List.zipWith (fun x y => (op x y).1) (elemsOf (wOf f) o.a) (elemsOf (wOf f) o.b) := by
  have hbl : (bElems f o raw).length = nOf f := by rw [bElems_of_regs hfm hl, elemsOf_length, hb, nOf]
  refine (elems_masked hw o.km (by rw [List.length_zipWith, aElems_length ha, hbl, Nat.min_self, nOf]) fun r hr => ?_).trans ?_
  · rw [← List.map_uncurry_zip_eq_zipWith, List.mem_map] at hr
    obtain ⟨⟨x, y⟩, hxy, rfl⟩ := hr
    obtain ⟨hx, hy⟩ := List.of_mem_zip hxy
    rw [bElems_of_regs hfm hl] at hy
    exact hop x (elemsOf_lt hx) y (elemsOf_lt hy)
  · rw [bElems_of_regs hfm hl, List.map_zipWith]
    rfl

end

/-! ## Integer elements (R120) -/

theorem tyMin_le_tyMax (ty : Nat) : tyMin ty ≤ tyMax ty := by
  have h (n : Nat) : (0 : Int) < 2 ^ n := Int.pow_pos (by omega)
  unfold tyMin tyMax
  split
  · have := h (width ty - 1)
    omega
  · have := h (width ty)
    omega

theorem intRes_fst (ty : Nat) (sat : Bool) (z : Int) :
    (intRes ty sat z).1 = wrap (width ty) (if sat then max (tyMin ty) (min (tyMax ty) z) else z) := by
  cases sat with
  | false => rfl
  | true => exact congrArg (wrap (width ty)) (clampInt_eq (tyMin_le_tyMax ty) z)

theorem intRes_lt (ty : Nat) (sat : Bool) (z : Int) : (intRes ty sat z).1 < 2 ^ width ty := by
  rw [intRes_fst]
  exact wrap_lt _ _

/-- An integer operation on the elements of two spans. -/
theorem elems_int2 {f : VF} {o : VOps} {raw sat : Bool} {op : Int → Int → Int} {g : Nat → Nat → Nat × Nat}
    (ha : o.a.length = f.span) (hb : o.b.length = f.span) (hfm : f.fm = 0) (hl : f.long = none)
    (hint : isIntTy (tyOf f) = true) :
    elemsOf (wOf f) (lift2 f o raw (if isIntTy (tyOf f) then int2 (tyOf f) sat op else g)).vals =
      List.zipWith (fun x y => wrap (wOf f) (if sat then max (tyMin (tyOf f)) (min (tyMax (tyOf f))
        (op (intVal (tyOf f) x) (intVal (tyOf f) y))) else op (intVal (tyOf f) x) (intVal (tyOf f) y)))
        (elemsOf (wOf f) o.a) (elemsOf (wOf f) o.b) := by
  rw [if_pos hint]
  refine (elems_lift2 (op := int2 (tyOf f) sat op) ha (width_dvd (isIntTy_iff.mp hint).2) hfm hl hb
    fun x _ y _ => intRes_lt _ _ _).trans ?_
  refine congrArg (fun h => List.zipWith h _ _) (funext fun x => funext fun y => ?_)
  exact intRes_fst _ _ _

/-- An integer operation on the elements of one span. -/
theorem elems_int1 {f : VF} {o : VOps} {sat : Bool} {op : Nat → Int} {g : Nat → Nat × Nat} (ha : o.a.length = f.span)
    (hint : isIntTy (tyOf f) = true) :
    elemsOf (wOf f) (lift1 f o (if isIntTy (tyOf f) then fun x => intRes (tyOf f) sat (op x) else g)).vals =
      (elemsOf (wOf f) o.a).map fun x => wrap (wOf f) (if sat then max (tyMin (tyOf f)) (min (tyMax (tyOf f)) (op x)) else op x) := by
  rw [if_pos hint]
  refine (elems_lift1 (op := fun x => intRes (tyOf f) sat (op x)) ha (width_dvd (isIntTy_iff.mp hint).2)
    fun x _ => intRes_lt _ _ _).trans ?_
  exact List.map_congr_left fun x _ => intRes_fst _ _ _

/-! ## Elements by their number -/

theorem getD_elemsOf_lt (w : Nat) (l : List VReg) (e : Nat) : (elemsOf w l).getD e 0 < 2 ^ w := by
  rw [List.getD_eq_getElem?_getD]
  cases h : (elemsOf w l)[e]? with
  | none => exact Nat.two_pow_pos w
  | some x => exact elemsOf_lt (List.mem_of_getElem? h)

/-- Elements with their numbers. -/
theorem zipIdx_eq_range {l : List Nat} {n : Nat} (h : l.length = n) :
    l.zipIdx = (List.range n).map fun e => (l.getD e 0, e) := by
  subst h
  refine List.ext_getElem (by simp) fun e h1 h2 => ?_
  have he : e < l.length := by simpa using h1
  simp [he]

/-- Registers whose elements are known by their numbers. -/
theorem elemsOf_regsOf_eq {w n : Nat} (hw : w ∣ 4096) {l : List Nat} {g : Nat → Nat}
    (h : ∀ e < n * (4096 / w), l.getD e 0 = g e) (hg : ∀ e < n * (4096 / w), g e < 2 ^ w) :
    elemsOf w (regsOf w n l) = (List.range (n * (4096 / w))).map g := by
  refine (elemsOf_regsOf_getD hw n l).trans (List.map_congr_left fun e he => ?_)
  have he := List.mem_range.mp he
  rw [h e he, Nat.mod_eq_of_lt (hg e he)]

section
variable {f : VF} {o : VOps} (hw : wOf f ∣ 4096) (ha : o.a.length = f.span) (hb : o.b.length = f.span)
include hw

theorem elems_viota (hint : isIntTy (tyOf f) = true) : elemsOf (wOf f) (viotaRes f o).vals =
    (List.range (nOf f)).map fun e : Nat => wrap (wOf f) (f.c.toInt + e) := by
  refine elemsOf_regsOf_eq hw (fun e he => ?_) fun e _ => wrap_lt _ _
  simp [nOf, he, hint]

include ha

theorem elems_vcompact : elemsOf (wOf f) (vcompactRes f o).vals =
    (fun l => l ++ List.replicate (nOf f - l.length) 0) (((List.range (nOf f)).filter fun e => o.km.getLsbD (e % 1024)).map
      fun e => (elemsOf (wOf f) o.a).getD e 0) := by
  have hk : ((aElems f o).zipIdx.filter fun x => maskBit o.km x.2).map (·.1) =
      ((List.range (nOf f)).filter fun e => o.km.getLsbD (e % 1024)).map fun e => (elemsOf (wOf f) o.a).getD e 0 := by
    rw [zipIdx_eq_range (aElems_length ha), List.filter_map, List.map_map]
    rfl
  have hlen : (((List.range (nOf f)).filter fun e => o.km.getLsbD (e % 1024)).map
      fun e => (elemsOf (wOf f) o.a).getD e 0).length ≤ nOf f := by
    rw [List.length_map]
    exact (List.length_filter_le _ _).trans (List.length_range).le
  show elemsOf (wOf f) (regsOf (wOf f) f.span (_ ++ List.replicate (nOf f - List.length _) 0)) = _
  rw [hk]
  refine (elemsOf_regsOf hw _ _ ?_).trans ((List.map_congr_left fun x hx => ?_).trans (List.map_id _))
  · rw [List.length_append, List.length_replicate]
    exact (Nat.add_sub_cancel' hlen).trans rfl
  · refine Nat.mod_eq_of_lt ?_
    rcases List.mem_append.mp hx with hx | hx
    · obtain ⟨e, -, rfl⟩ := List.mem_map.mp hx
      exact getD_elemsOf_lt _ _ _
    · rw [List.eq_of_mem_replicate hx]
      exact Nat.two_pow_pos _

include hb

theorem elems_vsel (hfm : f.fm = 0) (hl : f.long = none) : elemsOf (wOf f) (vselRes f o).vals = (List.range (nOf f)).map fun e =>
    if o.km.getLsbD (e % 1024) then (elemsOf (wOf f) o.a).getD e 0 else (elemsOf (wOf f) o.b).getD e 0 := by
  refine elemsOf_regsOf_eq hw (fun e he => ?_) fun e _ => ?_
  · have hae : e < (aElems f o).length := by rw [aElems_length ha]; exact he
    have hbe : e < (bElems f o).length := by rw [bElems_of_regs hfm hl, elemsOf_length, hb]; exact he
    have h : ((((aElems f o).zip (bElems f o)).zipIdx.map fun x => if maskBit o.km x.2 then x.1.1 else x.1.2)).getD e 0 =
        if maskBit o.km e then (aElems f o).getD e 0 else (bElems f o).getD e 0 := by
      simp [hae, hbe]
    rw [h, bElems_of_regs hfm hl]
    rfl
  · split <;> exact getD_elemsOf_lt _ _ _

omit ha hb in
theorem elems_vext : elemsOf (wOf f) (vextRes f o).vals = (List.range (nOf f)).map fun e =>
    (elemsOf (wOf f) o.a ++ elemsOf (wOf f) o.b).getD (e + f.c.toNat) 0 := by
  refine elemsOf_regsOf_eq hw (fun e he => ?_) fun e _ => ?_
  · have he : e < nOf f := he
    simp [List.getD_eq_getElem?_getD, he, aElems, Nat.add_comm, Function.comp_def]
  · rw [← elemsOf_append]
    exact getD_elemsOf_lt _ _ _

end

/-! ## Lines of a route -/

theorem machineGuard_of_good {s : State} {c : Ctx} {fslot : Nat} {lines : List (Nat × Nat)} {reads : Bool}
    (h : ∀ l ∈ lines, (s.die c.die).lineBad (c.lineNo l.1 l.2) reads = false) : machineGuard s c fslot lines reads = .go := by
  have hn : linesGood s c lines reads = none := List.find?_eq_none.mpr fun l hl => by simp [h l hl]
  simp only [machineGuard, hn]

/-- The checks of VLD and VST pass when the lines of their route are inside BROWS and good. -/
theorem lineGuards_of_good {s : State} {c : Ctx} {fslot : Nat} {lines : List (Nat × Nat)} {reads : Bool}
    (h : ∀ l ∈ lines, l.1 < (s.node c.rid).brows ∧ (s.die c.die).lineBad (c.lineNo l.1 l.2) reads = false) :
    Guard.seq [rowsGuard s c fslot lines, machineGuard s c fslot lines reads] = .go := by
  rw [rowsGuard_of_below fun l hl => (h l hl).1, machineGuard_of_good fun l hl => (h l hl).2]
  rfl

theorem rowsGuard_of_beyond {s : State} {c : Ctx} {fslot : Nat} {l : Nat × Nat} {rest : List (Nat × Nat)}
    (h : (s.node c.rid).brows ≤ l.1) :
    rowsGuard s c fslot (l :: rest) = .trap (trapAt fslot .permission (l.1 * 2 ^ 17 + l.2 * 64)) := by
  simp [rowsGuard, h]

theorem exec_vst {f : VF} {s : State} (h : vstGuard f s = .go) : exec (.vst f) s = .next (s.running fun c =>
    (c.later 3 phPort (.wLines ((c.vspan c.iss.rrb f.a.toNat f.span).zipIdx.flatMap fun x =>
      (List.range 8).map fun k => (512 * f.vslot + 8 * x.2 + k, lineOf x.1 k)) (some c.iss.wrt) c.iss.wrow)).progressed
      c.iss.tick) := by
  show s.guarded (vstGuard f s) _ = _
  rw [h]
  rfl

/-- Line k of register i of a span stands at its port. -/
theorem mem_vstPorts (c : Ctx) (f : VF) {i k : Nat} (hi : i < f.span) (hk : k < 8) :
    (512 * f.vslot + 8 * i + k, lineOf (c.v (spanPhys c.iss.rrb f.a.toNat i)) k) ∈
      (c.vspan c.iss.rrb f.a.toNat f.span).zipIdx.flatMap fun x =>
        (List.range 8).map fun k => (512 * f.vslot + 8 * x.2 + k, lineOf x.1 k) := by
  refine List.mem_flatMap.mpr ⟨(c.v (spanPhys c.iss.rrb f.a.toNat i), i), ?_, List.mem_map.mpr ⟨k, List.mem_range.mpr hk, rfl⟩⟩
  simp [List.mk_mem_zipIdx_iff_getElem?, Ctx.vspan, hi]

/-! ## RSOLVE (R371) -/

/-- What a solve delivers. -/
def solveLandings (f : VF) (c : Ctx) : List (Nat × Nat × Effect) :=
  let r := solve (elemsOf 32 (c.vspan c.iss.rrb f.a.toNat f.span))
  [(c.iss.pos + 40, phSys, .solver (if f.c.getLsbD 4 then 1 else 0) (f.c.toNat % 16) r.1),
    (c.iss.pos + 40, phReg, .scalar (f.d.toNat % 64) (word r.2.length)),
    (c.iss.pos + 40, phReg, .mask f.km.toNat (loserMask r.2 0) (BitVec.allOnes 1024))] ++
  (if f.sp == 4 then [(c.iss.pos + 40, phReg, .mask (f.km.toNat + 1) (loserMask r.2 1024) (BitVec.allOnes 1024))] else [])

theorem solveGuard_go {s : State}
    (h : (s.die s.curCtx.die).solveAt = 0 ∨ (s.die s.curCtx.die).solveAt + 8 ≤ (s.die s.curCtx.die).cyc + 1) (fslot : Nat) :
    solveGuard s fslot = .go := by
  simpa [solveGuard] using h

theorem exec_rsolve {f : VF} {s : State} (h : rsolveGuard f s = .go) :
    exec (.rsolve f) s = .next ((s.withDie s.curCtx.die
      { s.die s.curCtx.die with solveAt := (s.die s.curCtx.die).cyc + 1 }).withCtx s.curKey
        (s.curCtx.pushAll (solveLandings f s.curCtx))) := by
  show s.guarded (rsolveGuard f s) _ = _
  rw [h]
  rfl

end Sys2Proof.Machine
end

section
open Sys2Proof Sys2Proof.Machine

/-- Settles O36: each instruction by its own operation on the elements. -/
theorem vectorElements : Obligations.VectorElements := by
  unfold Obligations.VectorElements
  intro f o c hfm hlong hint ha hb w ty a b n els lim sat
  have hw : wOf f ∣ 4096 := width_dvd (isIntTy_iff.mp hint).2
  have hsat : (f.fm == 0 && f.c.getLsbD 0) = sat := by rw [hfm]; rfl
  refine ⟨⟨?_, ?_, ?_, ?_, ?_⟩, ⟨?_, ?_, ?_, ?_, ?_, ?_, ?_⟩, ⟨?_, ?_, ?_, ?_⟩, ⟨rfl, ?_⟩, rfl, rfl, rfl, rfl⟩
  · exact elems_lift2 ha hw hfm hlong hb fun x hx y _ => lt_of_le_of_lt Nat.and_le_left hx
  · exact elems_lift2 ha hw hfm hlong hb fun x hx y hy => Nat.or_lt_two_pow hx hy
  · exact elems_lift2 ha hw hfm hlong hb fun x hx y hy => Nat.xor_lt_two_pow hx hy
  · exact elems_lift1 ha hw fun x hx => by show 2 ^ wOf f - 1 - x < _; omega
  · exact (elems_lift1 ha hw (op := fun x => (x, 0)) fun x hx => hx).trans (List.map_id' _)
  · rw [← hsat]; exact elems_int2 ha hb hfm hlong hint
  · rw [← hsat]; exact elems_int2 ha hb hfm hlong hint
  · rw [← hsat]; exact elems_int2 ha hb hfm hlong hint
  · exact elems_int2 (sat := false) ha hb hfm hlong hint
  · exact elems_int2 (sat := false) ha hb hfm hlong hint
  · exact elems_int1 ha hint
  · simp only [Int.abs_eq_natAbs]
    exact elems_int1 ha hint
  · exact elems_vsel hw ha hb hfm hlong
  · exact elems_viota hw hint
  · exact elems_vext hw
  · exact elems_vcompact hw ha
  · intro i _ e he t ht
    exact getLsbD_enables hw o.km i he ht

/-- Settles O37: the lines of the route are the checks of VLD and VST, and the die's last solve is that of RSOLVE. -/
theorem vectorMemory : Obligations.VectorMemory := by
  unfold Obligations.VectorMemory
  intro f s c brows rl wl
  refine ⟨fun h => ?_, fun l rest hl hb => ?_, fun h => ?_, fun h => ?_⟩
  · have hg : vldGuard f s = .go := lineGuards_of_good h
    show s.guarded (vldGuard f s) _ = _
    rw [hg]
    rfl
  · have hg : vldGuard f s = .trap (trapAt f.fslot .permission (l.1 * 2 ^ 17 + l.2 * 64)) := by
      show Guard.seq [rowsGuard s c f.fslot rl, machineGuard s c f.fslot rl true] = _
      rw [hl, rowsGuard_of_beyond hb]
      rfl
    show s.guarded (vldGuard f s) _ = _
    rw [hg]
    rfl
  · exact ⟨_, exec_vst (lineGuards_of_good h), fun i hi k hk => mem_vstPorts c f hi hk⟩
  · have hland := pushAll_land (solveLandings f c) c
    refine ⟨_, exec_rsolve (solveGuard_go h _), pushAll_registers _ _, ?_, ?_, ?_, fun hsp => ?_⟩ <;>
      refine (congrArg (_ ∈ ·) hland).mpr (List.mem_append_right _ ?_)
    · exact List.mem_cons_self
    · exact List.mem_cons_of_mem _ List.mem_cons_self
    · exact List.mem_cons_of_mem _ (List.mem_cons_of_mem _ List.mem_cons_self)
    · simp [pushedList, solveLandings, hsp]

end

section
/-! SUPPORT. Numbers that a format holds exactly (R109, R110): their codes, and that rounding gives them back. -/

namespace Sys2Proof.Machine

/-! ## Formats -/

/-- What the formats of T6.2 share: an exponent field, and 8 bits without infinities. -/
structure FFmt.Sound (t : FFmt) : Prop where
  fw : t.f + 2 ≤ t.w
  f8 : t.ieee = false → t.w = 8

theorem ffmt_sound : ∀ n, (ffmt n).Sound
  | 0 | 1 | 2 | 3 => ⟨by decide, by decide⟩
  | _ + 4 => ⟨show 2 + 2 ≤ 8 by omega, fun _ => rfl⟩

/-- A magnitude M × 2^(low + k) of a format: subnormal for k = 0 and M below 2^f, else normal. -/
structure FFmt.Holds (t : FFmt) (M k : Nat) : Prop where
  small : M < 2 ^ (t.f + 1)
  norm  : k = 0 ∨ 2 ^ t.f ≤ M
  fits  : M + k * 2 ^ t.f ≤ t.maxCode

/-- The code of a magnitude, without its sign. -/
def FFmt.code (t : FFmt) (M k : Nat) : Nat := M + k * 2 ^ t.f

theorem maxCode_lt (t : FFmt) : t.maxCode < 2 ^ (t.w - 1) := by
  have h := Nat.two_pow_pos (t.w - 1)
  unfold FFmt.maxCode
  rw [Nat.sub_sub]
  split
  · exact Nat.sub_lt h (Nat.succ_pos _)
  · exact Nat.sub_lt h Nat.one_pos

section
variable {t : FFmt} (ht : t.Sound)
include ht

theorem two_pow_f : 2 * 2 ^ t.f ≤ 2 ^ (t.w - 1) := by
  have := ht.fw
  rw [← Nat.pow_succ']
  exact Nat.pow_le_pow_right (by omega) (by omega)

/-- The sign and the magnitude of a code. -/
theorem signed_split {neg : Bool} {c : Nat} (hc : c ≤ t.maxCode) (h0 : neg = true → t.ieee = true ∨ c ≠ 0) :
    bit (t.signed neg c) (t.w - 1) = neg ∧ t.signed neg c % 2 ^ (t.w - 1) = c ∧ (t.ieee = false → t.signed neg c ≠ 0x80) := by
  have hlt := lt_of_le_of_lt hc (maxCode_lt t)
  have hp := Nat.two_pow_pos (t.w - 1)
  cases neg with
  | false =>
    refine ⟨?_, ?_, fun h => ?_⟩
    · simp [FFmt.signed, bit, Nat.div_eq_of_lt hlt]
    · simp [FFmt.signed, Nat.mod_eq_of_lt hlt]
    · rw [ht.f8 h] at hlt
      simp [FFmt.signed]
      omega
  | true =>
    have hs : t.signed true c = 2 ^ (t.w - 1) + c := by
      refine if_pos ?_
      rcases h0 rfl with h | h <;> simp [h]
    refine ⟨?_, ?_, fun h => ?_⟩
    · simp [hs, bit, Nat.add_div_left _ hp, Nat.div_eq_of_lt hlt]
    · rw [hs, Nat.add_mod_left, Nat.mod_eq_of_lt hlt]
    · have hc0 : c ≠ 0 := (h0 rfl).resolve_left (by simp [h])
      rw [hs, ht.f8 h]
      omega

/-- The value of a code. -/
theorem val_signed {neg : Bool} {M k : Nat} (h : t.Holds M k) (h0 : neg = true → t.ieee = true ∨ t.code M k ≠ 0) :
    t.val (t.signed neg (t.code M k)) = .fin neg M (t.low + k) := by
  obtain ⟨hb, hm, h80⟩ := signed_split ht h.fits h0
  have hf := Nat.two_pow_pos t.f
  have hsm : M < 2 * 2 ^ t.f := by have := h.small; rw [Nat.pow_succ'] at this; exact this
  have hn : ¬((!t.ieee && t.signed neg (t.code M k) == 0x80) = true) := by
    cases hi : t.ieee <;> simp
    exact h80 hi
  have hx : ¬((t.ieee && decide (t.maxCode < t.code M k)) = true) := by
    have hc : ¬t.maxCode < t.code M k := Nat.not_lt.mpr h.fits
    simp [hc]
  simp only [FFmt.val, show t.signed neg (t.code M k) % 2 ^ (t.w - 1) = t.code M k from hm, if_neg hn, if_neg hx,
    show bit (t.signed neg (t.code M k)) (t.w - 1) = neg from hb]
  rcases Nat.lt_or_ge M (2 ^ t.f) with hlt | hge
  · have hk : k = 0 := h.norm.resolve_right (by omega)
    simp [FFmt.code, hk, Nat.div_eq_of_lt hlt, Nat.mod_eq_of_lt hlt]
  · obtain ⟨r, rfl⟩ := Nat.exists_eq_add_of_le hge
    have hr : r < 2 ^ t.f := by omega
    have hcode : t.code (2 ^ t.f + r) k = r + 2 ^ t.f * (k + 1) := by simp only [FFmt.code]; ring
    rw [hcode, Nat.add_mul_div_left _ _ hf, Nat.add_mul_mod_self_left, Nat.div_eq_of_lt hr, Nat.mod_eq_of_lt hr]
    simp

end

/-! ## Rounding of what a format holds -/

/-- m × 2^e is M × 2^q. -/
def SameMag (m : Nat) (e : Int) (M : Nat) (q : Int) : Prop :=
  (q ≤ e ∧ M = m * 2 ^ (e - q).toNat) ∨ (e ≤ q ∧ m = M * 2 ^ (q - e).toNat)

theorem roundShift_exact {m M : Nat} {e q : Int} (h : SameMag m e M q) (mode : Nat) (neg : Bool) :
    roundShift mode neg m (e - q) = (M, false) := by
  unfold roundShift
  rcases h with ⟨hle, rfl⟩ | ⟨hle, rfl⟩
  · rw [if_pos (by omega)]
  · split
    · have he : e = q := by omega
      simp [he]
    · dsimp only
      have hd := Nat.two_pow_pos (q - e).toNat
      have hq : -(e - q) = q - e := by omega
      rw [hq, Nat.mul_mod_left, Nat.mul_div_cancel _ hd]
      have : roundQ mode neg M 0 (2 ^ (q - e).toNat) = M := by
        unfold roundQ
        have h0 : (2 ^ (q - e).toNat) ≠ 0 := hd.ne'
        match mode with
        | 0 =>
          simp only [Nat.mul_zero, Nat.not_lt_zero, decide_false, Bool.false_or, beq_eq_false_iff_ne.mpr h0.symm, Bool.false_and]
          rfl
        | 1 => simp
        | 2 => simp
        | 3 => simp
        | _ + 4 => simp
      simp [this]

theorem log2_mul_pow {m : Nat} (h : m ≠ 0) (n : Nat) : Nat.log2 (m * 2 ^ n) = Nat.log2 m + n := by
  rw [Nat.log2_eq_iff (by positivity)]
  obtain ⟨h1, h2⟩ := (Nat.log2_eq_iff h).mp rfl
  rw [Nat.pow_add, Nat.add_right_comm, Nat.pow_add]
  exact ⟨Nat.mul_le_mul_right _ h1, Nat.mul_lt_mul_of_pos_right h2 (Nat.two_pow_pos n)⟩

theorem sameMag_top {m M : Nat} {e q : Int} (h : SameMag m e M q) (hM : M ≠ 0) :
    m ≠ 0 ∧ (Nat.log2 m : Int) + e = Nat.log2 M + q := by
  rcases h with ⟨hle, rfl⟩ | ⟨hle, rfl⟩
  · have hm : m ≠ 0 := fun h => hM (by simp [h])
    rw [log2_mul_pow hm]
    exact ⟨hm, by omega⟩
  · rw [log2_mul_pow hM]
    exact ⟨by positivity, by omega⟩

/-- A value that a format holds rounds to its code, in every mode and without a flag. -/
theorem roundFin_exact {t : FFmt} {m M k : Nat} {e : Int} (h : t.Holds M k) (hM : M ≠ 0) (hs : SameMag m e M (t.low + k))
    (mode : Nat) (neg : Bool) : t.roundFin mode false neg m e = (t.signed neg (t.code M k), 0) := by
  obtain ⟨hm, htop⟩ := sameMag_top hs hM
  have hlog : Nat.log2 M ≤ t.f := by
    have := (Nat.log2_lt hM).mpr h.small
    omega
  have hq : max ((Nat.log2 m : Int) + e - t.f) t.low = t.low + k := by
    rw [htop]
    rcases h.norm with rfl | hn
    · simp
      omega
    · have : t.f ≤ Nat.log2 M := (Nat.le_log2 hM).mpr hn
      omega
  have hc : ¬t.maxCode < M + k * 2 ^ t.f := Nat.not_lt.mpr h.fits
  have hkt : (t.low + (k : Int) - t.low).toNat = k := by omega
  simp only [FFmt.roundFin, beq_iff_eq, if_neg hm, hq, roundShift_exact hs, hkt]
  rw [if_neg hc]
  simp [FFmt.code]

/-! ## Integers that an F32 holds -/

theorem scaled_natAbs (neg : Bool) (m : Nat) (e k : Int) : (scaled neg m e k).natAbs = m * 2 ^ (e - k).toNat := by
  cases neg <;> simp [scaled, Int.natAbs_mul, Int.natAbs_pow]

theorem ofIntVal_scaled (z k : Int) : scaled (decide (z < 0)) z.natAbs 0 k = z * 2 ^ (-k).toNat := by
  unfold scaled
  simp only [Int.zero_sub, decide_eq_true_eq]
  split
  · rw [Int.ofNat_natAbs_of_nonpos (by omega)]
    ring
  · rw [Int.natAbs_of_nonneg (by omega)]

/-- F32 holds the integers up to 2^24. -/
theorem f32_holds {z : Nat} (h0 : z ≠ 0) (h : z ≤ 2 ^ 24) :
    ∃ M k, M ≠ 0 ∧ (ffmt 0).Holds M k ∧ SameMag z 0 M ((ffmt 0).low + k) := by
  rcases Nat.lt_or_ge z (2 ^ 24) with hz | hz
  · have hl : Nat.log2 z < 24 := (Nat.log2_lt h0).mpr hz
    obtain ⟨h1, h2⟩ := (Nat.log2_eq_iff h0).mp rfl
    have hp : 2 ^ Nat.log2 z * 2 ^ (23 - Nat.log2 z) = 2 ^ 23 := by rw [← Nat.pow_add]; congr 1; omega
    have hlo : 2 ^ 23 ≤ z * 2 ^ (23 - Nat.log2 z) := by rw [← hp]; exact Nat.mul_le_mul_right _ h1
    have hhi : z * 2 ^ (23 - Nat.log2 z) < 2 ^ 24 := by
      have : 2 ^ (Nat.log2 z + 1) * 2 ^ (23 - Nat.log2 z) = 2 ^ 24 := by rw [← Nat.pow_add]; congr 1; omega
      rw [← this]
      exact Nat.mul_lt_mul_of_pos_right h2 (Nat.two_pow_pos _)
    refine ⟨z * 2 ^ (23 - Nat.log2 z), 126 + Nat.log2 z, by omega, ⟨hhi, .inr hlo, ?_⟩, .inl ⟨?_, ?_⟩⟩
    · show z * 2 ^ (23 - Nat.log2 z) + (126 + Nat.log2 z) * 2 ^ 23 ≤ 2 ^ 31 - 2 ^ 23 - 1
      omega
    · show (1 - 127 - 23 : Int) + ((126 + Nat.log2 z : Nat) : Int) ≤ 0
      omega
    · have : ((0 : Int) - ((1 - 127 - 23 : Int) + ((126 + Nat.log2 z : Nat) : Int))).toNat = 23 - Nat.log2 z := by omega
      exact (congrArg (fun n => z * 2 ^ n) this).symm
  · have hz : z = 2 ^ 24 := Nat.le_antisymm h hz
    subst hz
    exact ⟨2 ^ 23, 150, by decide, ⟨by decide, by decide, by decide⟩, .inr (by decide)⟩

/-- The same magnitude scales to the same integer. -/
theorem scaled_of_sameMag {m M : Nat} {e q k : Int} (h : SameMag m e M q) (neg : Bool) (he : k ≤ e) (hq : k ≤ q) :
    scaled neg m e k = scaled neg M q k := by
  have hm : m * 2 ^ (e - k).toNat = M * 2 ^ (q - k).toNat := by
    rcases h with ⟨hle, rfl⟩ | ⟨hle, rfl⟩
    · rw [Nat.mul_assoc, ← Nat.pow_add]
      congr 2
      omega
    · rw [Nat.mul_assoc, ← Nat.pow_add]
      congr 2
      omega
  have hz : (m : Int) * 2 ^ (e - k).toNat = M * 2 ^ (q - k).toNat := by exact_mod_cast hm
  simp only [scaled, hz]

theorem cmp_of_sameMag {m M : Nat} {e q : Int} (h : SameMag m e M q) (neg : Bool) :
    (FVal.fin neg M q).cmp (.fin neg m e) = 0 := by
  have hs := scaled_of_sameMag h neg (Int.min_le_right q e) (Int.min_le_left q e)
  simp [FVal.cmp, hs]

theorem scaled_neg_iff {neg : Bool} {M : Nat} (hM : M ≠ 0) (e k : Int) :
    scaled neg M e k ≠ 0 ∧ (decide (scaled neg M e k < 0) = neg) := by
  have hp : (0 : Int) < (M : Int) * 2 ^ (e - k).toNat := by positivity
  cases neg with
  | false => exact ⟨hp.ne', decide_eq_false (not_lt.mpr hp.le)⟩
  | true => exact ⟨neg_ne_zero.mpr hp.ne', decide_eq_true (neg_neg_of_pos hp)⟩

/-- Zero and a value that an F32 holds add up to that value (R124). -/
theorem zero_add_holds {t : FFmt} {M k : Nat} (h : t.Holds M k) (hM : M ≠ 0) (neg : Bool) :
    (t.round 0 false ((FVal.fin false 0 t.low).add (.fin neg M (t.low + k))).1).1 = t.signed neg (t.code M k) := by
  have hmin : min t.low (t.low + (k : Int)) = t.low := by omega
  obtain ⟨h0, hneg⟩ := scaled_neg_iff (neg := neg) hM (t.low + k) t.low
  have hz : scaled false 0 t.low t.low + scaled neg M (t.low + k) t.low = scaled neg M (t.low + k) t.low := by
    simp [scaled]
  simp only [FVal.add, hmin, hz, beq_iff_eq, if_neg h0, hneg, FFmt.round]
  rw [roundFin_exact h hM (.inr ⟨by omega, scaled_natAbs _ _ _ _⟩)]

/-- An integer that an F32 holds, added to zero, is that integer (R124). -/
theorem accAdd_zero_int {z : Int} (h : z.natAbs ≤ 2 ^ 24) : ((ffmt 0).val (accAdd 0 (ofIntVal z))).cmp (ofIntVal z) = 0 := by
  rcases eq_or_ne z 0 with rfl | h0
  · decide
  · obtain ⟨M, k, hM, hh, hs⟩ := f32_holds (Int.natAbs_ne_zero.mpr h0) h
    have hv : ∀ neg, (ffmt 0).val ((ffmt 0).signed neg ((ffmt 0).code M k)) = .fin neg M ((ffmt 0).low + k) :=
      fun neg => val_signed (ffmt_sound 0) hh fun _ => .inl rfl
    have hr : (ffmt 0).round 0 false (ofIntVal z) = ((ffmt 0).signed (decide (z < 0)) ((ffmt 0).code M k), 0) :=
      roundFin_exact hh hM hs 0 _
    have h00 : (ffmt 0).val 0 = .fin false 0 (ffmt 0).low := by decide
    rw [accAdd, hr, hv, h00, zero_add_holds hh hM, hv]
    exact cmp_of_sameMag hs _

end Sys2Proof.Machine
end

section
/-! SUPPORT. The matrix engine: configuration, batches, steps and what they write. -/

namespace Sys2Proof.Machine

/-! ## Instructions under their checks -/

section
variable {s : State}

theorem guarded_go {g : Guard} (h : g = .go) (us : List Upd) : s.guarded g us = .next (s.commit us) := by rw [h]; rfl
theorem guarded_go_slot {g : Guard} (h : g = .go) {f : Ctx → Ctx} {c : Ctx} (hc : f s.curCtx = c) :
    s.guarded g [.slot s.curKey f] = .next (s.withCtx s.curKey c) := by
  subst hc
  exact guarded_go h _
theorem guarded_of_trap {g : Guard} {t : Trap} (h : g = .trap t) (us : List Upd) :
    s.guarded g us = .next (s.commit (takeTrap s s.curKey t)) := by rw [h]; rfl

end

/-! ## Accumulators in use -/

theorem foldl_accs_getLsbD (p : Nat × Batch → Bool) (i : Nat) : ∀ (l : List (Nat × Batch)) (x : BitVec 64),
    (l.foldl (fun x e => if p e then x else x ||| e.2.accs) x).getLsbD i =
      (x.getLsbD i || l.any fun e => !p e && e.2.accs.getLsbD i)
  | [], x => by simp
  | e :: l, x => by
    rw [List.foldl_cons, foldl_accs_getLsbD p i l, List.any_cons]
    cases p e <;> simp [Bool.or_assoc]

/-- Without an accumulator in use none is in use by the batches but one. -/
theorem busy_eq_zero {m : Matrix} (h : m.busy none = 0) (except : Option Nat) : m.busy except = 0 := by
  have h : m.busy none = 0#64 := h
  refine BitVec.eq_of_getLsbD_eq (y := 0#64) fun i hi => ?_
  have hn := congrArg (BitVec.getLsbD · i) h
  simp only [Matrix.busy, foldl_accs_getLsbD, BitVec.ofNat_eq_ofNat, BitVec.getLsbD_zero, Bool.false_or, List.any_eq_false] at hn ⊢
  intro e he
  have := hn e he
  simp_all

theorem mcfgHeadGuard_go {f : MF} {s : State} (h1 : bits (cfgWord f s.curCtx).toNat 63 49 = 0)
    (h2 : (headOf f (cfgWord f s.curCtx)).row0 + (headOf f (cfgWord f s.curCtx)).m ≤ 128)
    (ha : (headOf f (cfgWord f s.curCtx)).ta < (s.node s.curCtx.rid).tids)
    (hb : (headOf f (cfgWord f s.curCtx)).tb < (s.node s.curCtx.rid).tids)
    (hc : (headOf f (cfgWord f s.curCtx)).tc < (s.node s.curCtx.rid).tids) (h : s.curCtx.matrix.busy none = 0) :
    mcfgHeadGuard f s = .go := by
  simp [mcfgHeadGuard, h1, h2, ha, hb, hc, busy_eq_zero h]

theorem mcfgHeadGuard_permission {f : MF} {s : State} (h1 : bits (cfgWord f s.curCtx).toNat 63 49 = 0)
    (h2 : (headOf f (cfgWord f s.curCtx)).row0 + (headOf f (cfgWord f s.curCtx)).m ≤ 128)
    (ht : (s.node s.curCtx.rid).tids ≤ (headOf f (cfgWord f s.curCtx)).ta ∨ (s.node s.curCtx.rid).tids ≤ (headOf f (cfgWord f s.curCtx)).tb ∨
      (s.node s.curCtx.rid).tids ≤ (headOf f (cfgWord f s.curCtx)).tc) : mcfgHeadGuard f s = .trap (trapAt 3 .permission 0) := by
  have hf : (decide ((headOf f (cfgWord f s.curCtx)).ta < (s.node s.curCtx.rid).tids) &&
      decide ((headOf f (cfgWord f s.curCtx)).tb < (s.node s.curCtx.rid).tids) &&
      decide ((headOf f (cfgWord f s.curCtx)).tc < (s.node s.curCtx.rid).tids)) = false := by
    rcases ht with h | h | h <;> simp [Nat.not_lt.mpr h]
  simp only [mcfgHeadGuard, h1, h2, hf]
  rfl

/-- MZERO's run meets an accumulator in use. -/
theorem mzeroGuard_trap {f : MF} {s : State} {i : Nat} (hi : i < f.imm.toNat % 64 + 1)
    (h : (s.curCtx.matrix.busy none).getLsbD (f.ac.toNat + i) = true) : mzeroGuard f s = .trap (trapAt 3 .accumulatorBusy 0) := by
  have hf : ((List.range (f.imm.toNat % 64 + 1)).all fun i => !(s.curCtx.matrix.busy none).getLsbD (f.ac.toNat + i)) = false := by
    rw [List.all_eq_false]
    exact ⟨i, List.mem_range.mpr hi, by simp [h]⟩
  simp only [mzeroGuard, hf]
  rfl

theorem mdrainGuard_go {f : MF} {s : State} (hd : s.curCtx.drainEnd ≤ s.curCtx.iss.pos + 4)
    (ht : f.tc.toNat < (s.node s.curCtx.rid).tids) (hb : (s.curCtx.matrix.busy none).getLsbD f.ac.toNat = false)
    (ho : tidOfmt (s.curCtx.tid f.tc.toNat) ≤ 4) (hr : tidRnd (s.curCtx.tid f.tc.toNat) ≤ 4) : mdrainGuard f s = .go := by
  simp [mdrainGuard, hd, ht, hb, ho, hr]

/-- What MGATH's solve delivers. -/
def gatherLandings (f : MF) (c : Ctx) : List (Nat × Nat × Effect) :=
  let r := solve (elemsOf 32 (c.vspan c.iss.rrb (f.imm.toNat % 2048) 16))
  let m := f.tc.toNat % 16
  [(c.iss.pos + 40, phSys, .solver 2 (bits f.imm.toNat 14 11) r.1),
    (c.iss.pos + 40, phReg, .scalar f.lv.toNat (word r.2.length)),
    (c.iss.pos + 40, phReg, .mask m (loserMask r.2 0) (BitVec.allOnes 1024)),
    (c.iss.pos + 40, phReg, .mask (m + 1) (loserMask r.2 1024) (BitVec.allOnes 1024))]

theorem exec_mgath {f : MF} {s : State} (h : mgathGuard s = .go) : exec (.mgath f) s =
    .next ((s.withDie s.curCtx.die { s.die s.curCtx.die with solveAt := (s.die s.curCtx.die).cyc + 1 }).withCtx s.curKey
      (s.curCtx.pushAll (gatherLandings f s.curCtx))) :=
  (guarded_go h _).trans rfl

theorem pushAll_matrix : ∀ (l : List (Nat × Nat × Effect)) (c : Ctx), (c.pushAll l).matrix = c.matrix
  | [], _ => rfl
  | e :: l, c => pushAll_matrix l (c.push e.1 e.2.1 e.2.2)

/-! ## Batches (R132, R136, R139) -/

/-- The table as it enters the schedule. -/
def Matrix.entered (m : Matrix) (t : MTable) (pos : Nat) : MTable :=
  { t with start := max (pos + 2) (m.lastS + m.lastP), idx := List.replicate 6 0, dead := (m.batch t.head.bt).killed }

theorem enter_spec (m : Matrix) (t : MTable) (uses : BitVec 64) (pos : Nat) :
    ((m.enter t uses pos).batch t.head.bt).st = .opened ∧ (m.enter t uses pos).shadow = m.shadow ∧
      (if m.active = none then (m.enter t uses pos).active else (m.enter t uses pos).pending) = some (m.entered t pos) := by
  unfold Matrix.enter
  cases h : m.active <;> simp [h, Matrix.batch, Matrix.modBatch, Matrix.entered]

section
variable {f : MF} {s : State}

theorem mgoGuard_go (hbt : s.curCtx.matrix.shadow.head.bt = f.bt.toNat) (hst : (s.curCtx.matrix.batch f.bt.toNat).st ≠ .committed)
    (hp : s.curCtx.matrix.pending = none)
    (hf : tidFmt (s.curCtx.tid s.curCtx.matrix.shadow.head.ta) = tidFmt (s.curCtx.tid s.curCtx.matrix.shadow.head.tb))
    (hk : (matShape (tidFmt (s.curCtx.tid s.curCtx.matrix.shadow.head.ta)) s.curCtx.matrix.shadow.head.k).map (fun x => x.2.1) = some true)
    (hc : s.curCtx.matrix.shadow.head.op = 2 → tidFmt (s.curCtx.tid s.curCtx.matrix.shadow.head.tc) = 0)
    (hd : s.curCtx.matrix.shadow.head.dual = true ∨ ∀ l ∈ s.curCtx.matrix.shadow.levels, l.cstr = 0)
    (ha : tidSpace (s.curCtx.tid s.curCtx.matrix.shadow.head.ta) = 0) (hb : tidSpace (s.curCtx.tid s.curCtx.matrix.shadow.head.tb) = 0)
    (hcs : s.curCtx.matrix.shadow.head.op = 2 → tidSpace (s.curCtx.tid s.curCtx.matrix.shadow.head.tc) = 0)
    (hpa : planesAligned (s.curCtx.tid s.curCtx.matrix.shadow.head.ta) = true)
    (hpb : planesAligned (s.curCtx.tid s.curCtx.matrix.shadow.head.tb) = true) : mgoGuard f s = .go := by
  have hop : ∀ {p : Nat}, (s.curCtx.matrix.shadow.head.op = 2 → p = 0) →
      (s.curCtx.matrix.shadow.head.op != 2 || p == 0) = true := by
    intro p h
    by_cases h2 : s.curCtx.matrix.shadow.head.op = 2 <;> simp [h2]
    exact h h2
  have hlv : (s.curCtx.matrix.shadow.head.dual || s.curCtx.matrix.shadow.levels.all fun l => l.cstr == 0) = true := by
    rcases hd with h | h <;> simp [h]
    exact .inr h
  simp only [mgoGuard, hp, ← hf, hk, hop hc, hop hcs, hlv, ha, hb, hpa, hpb]
  simp [hbt, hst]

theorem mldaGuard_go (hst : (s.curCtx.matrix.batch f.bt.toNat).st ≠ .committed) (hp : s.curCtx.matrix.pending = none)
    (hr : (s.curCtx.route (s.node s.curCtx.rid).routes 2 (f.imm.toNat % 2048)).isSome = true)
    (ht : f.tc.toNat < (s.node s.curCtx.rid).tids) (hb : (s.curCtx.matrix.busy none).getLsbD f.ac.toNat = false)
    (hf : tidFmt (s.curCtx.tid f.tc.toNat) ≤ 2) (hs : tidSpace (s.curCtx.tid f.tc.toNat) = 0) : mldaGuard f s = .go := by
  simp [mldaGuard, routeGuard, hst, hp, hr, ht, hb, hf, hs]

theorem mwaitbGuard_go (he : s.curCtx.iss.elastic = true) (hb : (s.curCtx.matrix.batch f.bt.toNat).st = .idle) :
    mwaitbGuard f s = .go := by
  simp [mwaitbGuard, needElastic_of he, hb]
theorem mwaitbGuard_wait (he : s.curCtx.iss.elastic = true) (hb : (s.curCtx.matrix.batch f.bt.toNat).st = .committed) :
    mwaitbGuard f s = .wait (trapAt mSlot .illegalBundle 0) := by
  simp [mwaitbGuard, needElastic_of he, hb]

/-- The fault that MWAITB reports. -/
def Ctx.reportBatch (b : Nat) (x : EngFault) (c : Ctx) : Ctx :=
  { c.progressed c.iss.tick with
    matrix := c.matrix.modBatch b fun b => { b with err := false }
    pending := c.firmTrap <|> some (trapEngine mSlot b x) }

theorem exec_mwaitb_fine (h : mwaitbGuard f s = .go) (he : (s.curCtx.matrix.batch f.bt.toNat).err = false) :
    exec (.mwaitb f) s = .next (s.running fun c => c.progressed c.iss.tick) := by
  refine guarded_go_slot h ?_
  exact if_neg (Bool.eq_false_iff.mp he)
theorem exec_mwaitb_fault {x : EngFault} (h : mwaitbGuard f s = .go) (he : (s.curCtx.matrix.batch f.bt.toNat).err = true)
    (hx : mfind (64 + f.bt.toNat) s.curCtx.engine = some x) :
    exec (.mwaitb f) s = .next (s.running (Ctx.reportBatch f.bt.toNat x)) := by
  refine guarded_go_slot h ((if_pos he).trans ?_)
  have hg : mget s.curCtx.engine (64 + f.bt.toNat) { cause := .machine, ptr := 0, detail := 0 } = x := by simp [mget, hx]
  dsimp only [Ctx.progressed]
  rw [hg]
  rfl

/-- MSTOP in an elastic bundle stops the engine, and waits or completes. -/
theorem exec_mstop (he : s.curCtx.iss.elastic = true) : exec (.mstop f) s = .next (s.running Ctx.stopEngine) := by
  show (if s.curCtx.iss.elastic then _ else _) = _
  rw [if_pos he]
  have hc : (s.running Ctx.stopEngine).curCtx = s.curCtx.stopEngine := running_curCtx s _
  have he' : (s.running Ctx.stopEngine).curCtx.iss.elastic = true := by rw [hc]; exact he
  have hg : mstopGuard (s.running Ctx.stopEngine) = await_ (s.running Ctx.stopEngine).curCtx.matrix.steps.isEmpty
      (trapAt mSlot .illegalBundle 0) := by
    simp only [mstopGuard, needElastic_of he', Guard.seq_go]
    cases (s.running Ctx.stopEngine).curCtx.matrix.steps.isEmpty <;> rfl
  show (s.running Ctx.stopEngine).guarded (mstopGuard (s.running Ctx.stopEngine)) [] = _
  rw [hg]
  cases (s.running Ctx.stopEngine).curCtx.matrix.steps.isEmpty with
  | true => rfl
  | false => exact guarded_wait_elastic _ he'

end

theorem batch_modBatch (m : Matrix) (b : Nat) (g : Batch → Batch) : (m.modBatch b g).batch b = g (m.batch b) := mget_mmod_same _ _ _ _

theorem commit_st {b : Batch} (h : b.st = .opened) : b.commit.st = if b.left = 0 then .idle else .committed := by
  by_cases hl : b.left = 0 <;> simp [Batch.commit, Batch.settle, h, hl]
theorem settle_left (b : Batch) : b.settle.left = b.left := by
  unfold Batch.settle
  split <;> rfl

/-! ## The engine's events (R125, R133, R347) -/

theorem onSlot_of_eq {s : State} {f : Ctx → Ctx} {c : Ctx} (h : f s.curCtx = c) : s.onSlot f = .next (s.withCtx s.curKey c) := by
  subst h
  rfl

/-- The table after the step that it has started. -/
def MTable.stepped (t : MTable) : MTable :=
  { t with idx := if t.isLoad then [] else nextIdx t.levels t.idx, start := t.start + stepPeriod t.head t.tidA t.isLoad }

/-- A step that is due starts, with its reads. -/
theorem startStep_eq {c : Ctx} {t : MTable} (ha : c.matrix.active = some t) (hs : t.start = c.pos) (hi : t.idx ≠ [])
    (hd : t.dead = false) : ∃ a fr, c.startStep =
      ({ c with matrix := { c.matrix with active := a, freeAt := fr, steps := c.matrix.steps ++ [stepOf t] } } : Ctx).pushAll
        ((List.range (stepOf t).reads).map fun i => (c.pos + i, phRead, .matRead c.pos i)) := by
  have hcond : (t.start == c.pos && !t.idx.isEmpty) = true := by simp [hs, hi]
  have hst : (stepOf t).start = c.pos := hs
  refine ⟨some t.stepped, if t.stepped.idx.isEmpty then (stepOf t).start + (stepOf t).reads else c.matrix.freeAt, ?_⟩
  unfold Ctx.startStep
  rw [ha]
  dsimp only
  rw [if_pos hcond, if_neg (Bool.eq_false_iff.mp hd), hst]
  rfl

/-- The oldest step completes before the others: it writes its elements and leaves its batch. -/
theorem completeSteps_eq {c : Ctx} {st : MStep} {rest : List MStep} (hs : c.matrix.steps = st :: rest) (hd : st.done ≤ c.pos)
    (ha : st.applied = false) (hr : ∀ x ∈ rest, st.start < x.start) : ∃ m : Matrix, m.steps = rest ∧
      m.batches = c.matrix.batches ∧ c.completeSteps = { c with
        accs := (stepWrites c st).foldl (fun a w => mput w.1 w.2 a) c.accs
        matrix := m.modBatch st.batch fun b => { b with left := b.left - 1 }.settle } := by
  have hf : c.matrix.steps.find? (fun st => st.done ≤ c.pos) = some st := by simp [hs, hd]
  have he : c.matrix.steps.filter (fun y => y.start ≤ st.start && !y.applied) = [st] := by
    have hn : rest.filter (fun y => y.start ≤ st.start && !y.applied) = [] := by
      refine List.filter_eq_nil_iff.mpr fun x hx => ?_
      simp [Nat.not_le.mpr (hr x hx)]
    simp [hs, ha, hn]
  have hm : (c.applyStep st).matrix.steps.filter (fun y => y.start != st.start) = rest := by
    have hmap : (rest.map fun y => if y.start == st.start then { y with applied := true } else y) = rest := by
      refine (List.map_congr_left fun x hx => ?_).trans (List.map_id _)
      exact if_neg (by simpa using (hr x hx).ne')
    have hsteps : (c.applyStep st).matrix.steps = { st with applied := true } :: rest := by
      show (c.matrix.steps.map fun y => if y.start == st.start then { y with applied := true } else y) = _
      rw [hs, List.map_cons, hmap, if_pos (by simp)]
    rw [hsteps, List.filter_cons_of_neg (by simp), List.filter_eq_self]
    intro x hx
    simpa using (hr x hx).ne'
  refine ⟨{ (c.applyStep st).matrix with steps := rest }, rfl, rfl, ?_⟩
  unfold Ctx.completeSteps
  rw [hf]
  dsimp only
  rw [he, List.foldl_cons, List.foldl_nil, hm]
  rfl

theorem moveTable_eq {c : Ctx} {t : MTable} (ha : c.matrix.active = some t) (hi : t.idx = []) (hf : c.matrix.freeAt ≤ c.pos) :
    c.moveTable = { c with matrix := { c.matrix with active := c.matrix.pending, pending := none } } := by
  simp [Ctx.moveTable, ha, hi, hf]

/-! ## What a step writes (R124, R125) -/

theorem mem_stepWrites {c : Ctx} {st : MStep} (hl : st.isLoad = false) (x : Nat) (v : F32) : (x, v) ∈ stepWrites c st ↔
    ∃ u < 32, ∃ i < st.head.m, ∃ j < st.head.n, st.head.umask.getLsbD u = true ∧
      x = accIdx (u + 32 * st.half) (st.head.row0 + i) j ∧ v = BitVec.ofNat 32 (stepElem c st u i j) := by
  simp only [stepWrites, hl, Bool.false_eq_true, if_false, List.mem_flatMap, List.mem_filter, List.mem_range, List.mem_map,
    Prod.mk.injEq]
  constructor
  · rintro ⟨u, ⟨hu, hm⟩, e, he, rfl, rfl⟩
    have hn : 0 < st.head.n := by
      rcases Nat.eq_zero_or_pos st.head.n with h | h
      · simp [h] at he
      · exact h
    exact ⟨u, hu, e / st.head.n, (Nat.div_lt_iff_lt_mul hn).mpr he, e % st.head.n, Nat.mod_lt _ hn, hm, rfl, rfl⟩
  · rintro ⟨u, hu, i, hi, j, hj, hm, rfl, rfl⟩
    have hd : (i * st.head.n + j) / st.head.n = i := by
      rw [Nat.mul_comm, Nat.mul_add_div (by omega), Nat.div_eq_of_lt hj, Nat.add_zero]
    have hr : (i * st.head.n + j) % st.head.n = j := by rw [Nat.mul_comm, Nat.mul_add_mod, Nat.mod_eq_of_lt hj]
    refine ⟨u, ⟨hu, hm⟩, i * st.head.n + j, ?_, by rw [hd, hr], by rw [hd, hr]⟩
    calc i * st.head.n + j < (i + 1) * st.head.n := by rw [Nat.succ_mul]; omega
      _ ≤ _ := Nat.mul_le_mul_right _ hi

theorem foldl_sum {α : Type} (g : α → Int) : ∀ (l : List α) (z : Int), l.foldl (fun z p => z + g p) z = z + (l.map g).sum
  | [], z => by simp
  | x :: l, z => by rw [List.foldl_cons, foldl_sum g l, List.map_cons, List.sum_cons]; omega

/-- At most 32 integer products that start from 0 are one exact sum. -/
theorem chunks_int_of_le {k : Nat} (hk : k ≤ 32) (a b : Nat → Int) :
    (chunks k a b).foldl accStepInt 0 = accAdd 0 (ofIntVal ((List.range k).map fun i => a i * b i).sum) := by
  rcases Nat.eq_zero_or_pos k with rfl | h0
  · show 0 = accAdd 0 (ofIntVal 0)
    decide
  · have h1 : (k + 31) / 32 = 1 := by omega
    have hm : min 32 (k - 0) = k := by omega
    simp only [chunks, h1, List.range_one, List.map_cons, List.map_nil, List.foldl_cons, List.foldl_nil, accStepInt, Nat.mul_zero,
      hm, foldl_sum, Nat.zero_add, Int.zero_add, List.map_map]
    rfl

end Sys2Proof.Machine
end

section
open Sys2Proof Sys2Proof.Machine

/-- Settles O38: each instruction by its checks. -/
theorem matrixConfiguration : Obligations.MatrixConfiguration := by
  unfold Obligations.MatrixConfiguration
  intro f s c w h tids busy n
  refine ⟨fun h1 h2 ha hb hc h => ?_, fun h1 => ?_, fun h1 h2 ht => ?_, fun h1 => ?_, fun hr => ?_, fun hd => ?_, fun hz => ?_,
    fun hz => ?_, fun hd ht hb ho hr => ?_⟩
  · exact guarded_go_slot (mcfgHeadGuard_go h1 h2 ha hb hc h) rfl
  · have hg : mcfgHeadGuard f s = .trap (trapAt 3 .reservedField 0) := by
      have h1 : bits (cfgWord f s.curCtx).toNat 63 49 ≠ 0 := h1
      simp [mcfgHeadGuard, h1, mSlot]
    exact guarded_of_trap hg _
  · have hg : mcfgHeadGuard f s = .trap (trapAt 3 .permission 0) := by
      exact mcfgHeadGuard_permission h1 h2 ht
    exact guarded_of_trap hg _
  · exact guarded_go_slot (need_eq_go_iff.mpr (beq_iff_eq.mpr h1)) rfl
  · exact guarded_go_slot (need_eq_go_iff.mpr hr) rfl
  · have hland := pushAll_land (gatherLandings f c) c
    refine ⟨_, exec_mgath (solveGuard_go hd _), pushAll_registers _ _, pushAll_matrix _ _, ?_, ?_⟩ <;>
      refine (congrArg (_ ∈ ·) hland).mpr (List.mem_append_right _ ?_)
    · exact List.mem_cons_self
    · exact List.mem_cons_of_mem _ List.mem_cons_self
  · refine guarded_go_slot (need_eq_go_iff.mpr (List.all_eq_true.mpr fun i hi => ?_)) rfl
    rw [Bool.not_eq_true']
    exact hz i (List.mem_range.mp hi)
  · obtain ⟨i, hi, hb⟩ := hz
    exact guarded_of_trap (mzeroGuard_trap hi hb) _
  · exact guarded_go_slot (mdrainGuard_go hd ht hb ho hr) rfl

/-- Settles O39: the instructions by their checks, the engine's events by the step that they concern. -/
theorem matrixBatches : Obligations.MatrixBatches := by
  unfold Obligations.MatrixBatches
  refine ⟨fun f s => ?_, fun s => ?_⟩
  · intro c m b does
    refine ⟨?_, ?_, ?_, ?_, ?_, ?_, ?_⟩
    · intro h ta hbt hst hp hf hk hc hd ha hb hcs hpa hpb
      have hg : mgoGuard f s = .go := mgoGuard_go hbt hst hp hf hk hc hd ha hb hcs hpa hpb
      let t : MTable := { m.shadow with tidA := ta, tidB := c.tid h.tb, tidC := c.tid h.tc, isLoad := false }
      obtain ⟨h1, h2, h3⟩ := enter_spec m t h.uses c.iss.pos
      have h1 : ((m.enter t h.uses c.iss.pos).batch h.bt).st = .opened := h1
      rw [hbt] at h1
      exact ⟨_, guarded_go_slot hg rfl, ⟨rfl, rfl, rfl, rfl, rfl⟩, rfl, h1, h2, _, h3, rfl, rfl, rfl, rfl, rfl⟩
    · intro e hst hp hr ht hb hf hs
      have hg : mldaGuard f s = .go := mldaGuard_go hst hp hr ht hb hf hs
      obtain ⟨h1, -, h3⟩ := enter_spec m _ (1#64 <<< f.ac.toNat) c.iss.pos
      exact ⟨_, guarded_go_slot hg rfl, ⟨rfl, rfl, rfl, rfl, rfl⟩, rfl, h1, _, h3, rfl, rfl, rfl⟩
    · intro hst
      have hg : mcommitGuard f s = .go := need_eq_go_iff.mpr (beq_iff_eq.mpr hst)
      refine ⟨_, guarded_go_slot hg rfl, ⟨rfl, rfl, rfl, rfl, rfl⟩, rfl, ?_⟩
      exact (congrArg Batch.st (batch_modBatch m b Batch.commit)).trans (commit_st hst)
    · intro hst
      have hg : mcommitGuard f s = .trap (trapAt 3 .illegalBundle 0) := congrArg (need · _) (beq_eq_false_iff_ne.mpr hst)
      exact guarded_of_trap hg _
    · intro he hst
      have hg := mwaitbGuard_go he hst
      exact ⟨fun h => exec_mwaitb_fine hg h, fun x h hx => ⟨_, exec_mwaitb_fault hg h hx, ⟨rfl, rfl, rfl, rfl, rfl⟩, rfl,
        congrArg Batch.err (batch_modBatch m b _), rfl⟩⟩
    · intro he hst
      show s.guarded _ _ = _
      rw [mwaitbGuard_wait he hst]
      exact guarded_wait_elastic _ he
    · intro he
      refine ⟨_, exec_mstop he, ⟨rfl, rfl, rfl, rfl, rfl⟩, rfl, rfl, rfl, rfl, rfl, fun st hst => ?_⟩
      exact of_decide_eq_true (List.mem_filter.mp hst).2
  · intro c m
    refine ⟨fun t ha hs hi hd => ?_, fun st rest hst hd ha hr => ?_, fun t ha hi hf => ?_,
      fun st hl => ⟨mem_stepWrites hl, fun u i j hint hop hk => ?_⟩⟩
    · obtain ⟨a, fr, he⟩ := startStep_eq ha hs hi hd
      have hland := pushAll_land ((List.range (stepOf t).reads).map fun i => (c.pos + i, phRead, Effect.matRead c.pos i))
        { c with matrix := { c.matrix with active := a, freeAt := fr, steps := c.matrix.steps ++ [stepOf t] } }
      refine ⟨_, onSlot_of_eq he, pushAll_registers _ _, congrArg Matrix.steps (pushAll_matrix _ _), (congrArg Matrix.batches (pushAll_matrix _ _)).trans rfl,
        ?_, fun i hi => ?_⟩
      · rw [hland]
        simp [pushedList]
      · refine (congrArg (_ ∈ ·) hland).mpr (List.mem_append_right _ ?_)
        exact List.mem_map.mpr ⟨((c.pos + i, phRead, .matRead c.pos i), i), by simp [List.mk_mem_zipIdx_iff_getElem?, hi], rfl⟩
    · obtain ⟨m', hsteps, hb, he⟩ := completeSteps_eq hst hd ha hr
      refine ⟨_, onSlot_of_eq he, hsteps, rfl, rfl, rfl, rfl, ?_⟩
      have hbatch : m'.batch st.batch = m.batch st.batch := congrArg (fun b => mget b st.batch Batch.blank) hb
      exact (congrArg Batch.left (batch_modBatch m' st.batch _)).trans
        ((settle_left _).trans (congrArg (fun b => b.left - 1) hbatch))
    · exact onSlot_of_eq (moveTable_eq ha hi hf)
    · intro sum hsum
      have he : stepElem c st u i j = accAdd 0 (ofIntVal sum) := by
        simp only [stepElem, hint, hop, if_pos]
        exact chunks_int_of_le hk _ _
      rw [he]
      exact accAdd_zero_int hsum

end

section
/-! SUPPORT. A CSCAT of a queue whose entry lies on a line that holds an error: its snapshot logs it (R74, R175, R256). -/

namespace Sys2Proof.Machine

/-- CSCAT of one index, by tensor identifier 1 from queue 1, to the address in s2. -/
def scatInstr : CF := { c1 := false, tag := 5, te := 1, sd := 2, ss := 3, sn := 4, tid := 1, qh := 1, mod := 0, imm8 := 0, long := none }
/-- A slot with one entry in queue 1, on the first line of its banks, and one index. -/
def scatCtx : Ctx :=
  { Ctx.blank with
    rid := 2, rows := [0], sregs := [(2, 0x2000000000001000), (4, 1)], queues := [(1, ⟨0, 4, 0, 1⟩)], aq := [7]
    tids := [(1, BitVec.ofNat 512 (11 * 2 ^ 256 + 16 * 2 ^ 160))] }
/-- That slot on a die whose first line holds a correctable error. -/
def scatState : State :=
  { State.reset with
    nodes := [(2, { Node.blank with slots := 1, tids := 2, queues := 2 })], slots := [(0, scatCtx)]
    dies := [(0, { Die.blank with run := some 0, badLines := [(0, false)] })] }

/-- The free values that have been used when an instruction has issued. -/
def freshAfter : Host.Outcome State Fault Refusal → Nat
  | .next t => t.fresh
  | _ => 0

/-- The error's syndrome is a free value, and no operation that only joins its channel takes one. -/
theorem freshAfter_cscat : freshAfter (exec (.cscat scatInstr) scatState) = 1 := by decide +kernel

end Sys2Proof.Machine
end

section
open Sys2Proof Sys2Proof.Machine

/-- Refutes O40: CSCAT reads its rows at issue, and where a line of them holds a correctable error the die's log changes
too. -/
theorem not_copiesJoinTheirChannel : ¬ Obligations.CopiesJoinTheirChannel := by
  unfold Obligations.CopiesJoinTheirChannel
  intro h
  obtain ⟨-, -, -, -, -, hscat, -⟩ := h scatInstr scatState (by decide)
  obtain ⟨o, he, -⟩ := hscat (by decide) (.inr (by decide)) (by decide) (by decide +kernel) (by decide) (by decide)
  have hf : freshAfter (exec (.cscat scatInstr) scatState) = 0 := by rw [he]; rfl
  rw [freshAfter_cscat] at hf
  exact absurd hf (by decide)

end

section
/-! SUPPORT. The encoder: commands that join its queue, what they do at its head, and the pieces of a coded frame. -/

namespace Sys2Proof.Machine

/-! ## Tags (R102) -/

/-- An error's completion records its fault, unless one of the tag stands (R248). -/
theorem tagDone_error (tag : Nat) (x : EngFault) (c : Ctx) : c.tagDone true tag (some x) = { c with
    engine := if c.xstat.getLsbD tag then c.engine else mput tag x c.engine
    xstat := c.xstat ||| (1#64 <<< tag), tags := c.tags ||| (1#64 <<< tag) } := by
  unfold Ctx.tagDone Ctx.tagError Ctx.recordEngine
  cases h : c.xstat.getLsbD tag <;> rfl
theorem tagDone_tags (te : Bool) (tag : Nat) (f : Option EngFault) (c : Ctx) :
    (c.tagDone te tag f).tags = if te then c.tags ||| (1#64 <<< tag) else c.tags := by
  cases te with
  | false => rfl
  | true =>
    cases f with
    | none => rfl
    | some x => rw [tagDone_error]; rfl
theorem tagDone_xstat (te : Bool) (tag : Nat) (f : Option EngFault) (c : Ctx) :
    (c.tagDone te tag f).xstat = if te && f.isSome then c.xstat ||| (1#64 <<< tag) else c.xstat := by
  cases te with
  | false => rfl
  | true =>
    cases f with
    | none => rfl
    | some x => rw [tagDone_error]; rfl
theorem tagDone_registers (te : Bool) (tag : Nat) (f : Option EngFault) (c : Ctx) : SameRegisters c (c.tagDone te tag f) := by
  cases te with
  | false => exact ⟨rfl, rfl, rfl, rfl, rfl⟩
  | true =>
    cases f with
    | none => exact ⟨rfl, rfl, rfl, rfl, rfl⟩
    | some x =>
      rw [tagDone_error]
      exact ⟨rfl, rfl, rfl, rfl, rfl⟩
theorem tagDone_engine {tag : Nat} {x : EngFault} {c : Ctx} (h : c.xstat.getLsbD tag = false) :
    mfind tag (c.tagDone true tag (some x)).engine = some x := by
  rw [tagDone_error]
  simp [h]

/-! ## A change of a die and of a slot -/

theorem commit_die_slot (s : State) (d : DieId) (g : Die → Die) (k : SlotKey) (h : Ctx → Ctx) :
    (s.commit [.die d g, .slot k h]).die d = g (s.die d) ∧ (s.commit [.die d g, .slot k h]).slot k = h (s.slot k) := by
  simp only [State.commit_cons, State.commit_nil]
  exact ⟨(State.die_apply_die s d d g).trans (if_pos rfl), (State.slot_apply_slot (s.apply (.die d g)) k k h).trans (if_pos rfl)⟩

theorem cIssued_registers (f : CF) (c : Ctx) : SameRegisters c (c.cIssued f) := by
  unfold Ctx.cIssued
  split <;> exact ⟨rfl, rfl, rfl, rfl, rfl⟩

/-! ## Commands that join the queue (R310–R312) -/

/-- The command of a CENC. -/
def encCmdOf (f : CF) (kind : EncKind) (lines : Nat) (bad : Option EngFault) (s : State) : EncCmd :=
  { id := (s.die s.curCtx.die).nextSeq, kind := kind, key := s.curKey, tag := f.tag.toNat, te := f.te == 1
    stream := f.imm8.toNat, ptr := cSrc f s.curCtx, out := cDst f s.curCtx, cap := cNum f s.curCtx
    issued := (s.die s.curCtx.die).cyc, tick := (s.die s.curCtx.die).tick, lines := lines, readAt := 0, frame := []
    coded := none, outAt := 0, bad := bad }

/-- What it changes of the die. -/
def encJoinDie (f : CF) (kind : EncKind) (lines : Nat) (bad : Option EngFault) (s : State) (k : Die) : Die :=
  let reads := if kind == .frame then ceilDiv lines 128 else 0
  { k with
    encQ := k.encQ ++ [{ encCmdOf f kind lines bad s with id := k.nextSeq, issued := k.cyc, tick := k.tick }]
    spine := k.spine ++ (List.range reads).map fun i =>
      { due := k.cyc + 2 + i, ph := phRead, seq := k.nextSeq + 1 + i, eff := .encRead k.nextSeq i }
    nextSeq := k.nextSeq + 1 + reads }

theorem commit_encJoin (f : CF) (kind : EncKind) (lines : Nat) (bad : Option EngFault) (s : State) :
    ((s.commit (encJoin f kind lines bad s)).die s.curCtx.die).encQ = (s.die s.curCtx.die).encQ ++ [encCmdOf f kind lines bad s] ∧
      (s.commit (encJoin f kind lines bad s)).slot s.curKey = s.curCtx.cIssued f := by
  obtain ⟨hd, hs⟩ := commit_die_slot s s.curCtx.die (encJoinDie f kind lines bad s) s.curKey (Ctx.cIssued f)
  exact ⟨congrArg Die.encQ hd, hs⟩

section
variable {f : CF} {s : State}

theorem spaceGuard_go {p : Word} {ok : Bool} (h : ok = true) (hp : ptrOk (s.node s.curCtx.rid).slots p = true) :
    spaceGuard f s p ok = .go := by
  simp [spaceGuard, h, hp]
theorem alignGuard_go {p : Word} {n : Nat} (h : p.toNat % n = 0) : alignGuard f p n = .go := by simp [alignGuard, h]
theorem encGuard_go (h : (s.die s.curCtx.die).encQ.length < 32) : encGuard f s = .go := by simp [encGuard, h]

theorem cencOpenGuard_go (hq : (s.die s.curCtx.die).encQ.length < 32) (hp : ptrOk (s.node s.curCtx.rid).slots (cSrc f s.curCtx) = true)
    (h0 : spaceOf (cSrc f s.curCtx) = 0) (h64 : (cSrc f s.curCtx).toNat % 64 = 0) : cencOpenGuard f s = .go := by
  rw [cencOpenGuard, spaceGuard_go (beq_iff_eq.mpr h0) hp, alignGuard_go h64, encGuard_go hq]
  rfl

theorem frameLines_of_stream {y : EncStream} (h : s.stream? s.curCtx.die f.imm8.toNat = some y) : frameLines f s = encLines y.params := by
  rw [frameLines, h]

theorem cencFrameGuard_go {y : EncStream} (hq : (s.die s.curCtx.die).encQ.length < 32) (ha : s.curCtx.iss.anchored = true)
    (hd : ptrOk (s.node s.curCtx.rid).slots (cDst f s.curCtx) = true)
    (hp : ptrOk (s.node s.curCtx.rid).slots (cSrc f s.curCtx) = true) (h0 : spaceOf (cSrc f s.curCtx) = 0)
    (h64 : (cSrc f s.curCtx).toNat % 64 = 0) (hy : s.stream? s.curCtx.die f.imm8.toNat = some y)
    (hb : offsetBits (cSrc f s.curCtx) + 64 * encLines y.params ≤ (s.node s.curCtx.rid).brows * 2 ^ 17) :
    cencFrameGuard f s = .go := by
  simp only [cencFrameGuard, frameLines_of_stream hy, ha, spaceGuard_go rfl hd, spaceGuard_go (beq_iff_eq.mpr h0) hp,
    alignGuard_go h64, encGuard_go hq, cPermit, decide_eq_true hb, Bool.or_true]
  rfl

end

/-! ## Commands at the head of the queue (R311–R313) -/

/-- The head of the queue leaves, with its tag. -/
theorem commit_encEnd (s : State) (d : DieId) (e : EncCmd) (f : Option EngFault) :
    ((s.commit (encEnd d e f)).die d).encQ = (s.die d).encQ.drop 1 ∧
      ((s.commit (encEnd d e f)).die d).streams = (s.die d).streams ∧
      (s.commit (encEnd d e f)).slot e.key = (s.slot e.key).tagDone e.te e.tag f ∧ (s.commit (encEnd d e f)).mem = s.mem := by
  obtain ⟨hd, hs⟩ := commit_die_slot s d (fun k => dropWaiters d 2 e.id { k with encQ := k.encQ.drop 1 }) e.key
    (Ctx.tagDone e.te e.tag f)
  exact ⟨congrArg Die.encQ hd, (congrArg Die.streams hd).trans rfl, hs, rfl⟩

theorem exec_encode {s : State} {e : EncCmd} {rest : List EncCmd} (h : (s.die s.cur).encQ = e :: rest) :
    exec .encodeComplete s = match e.kind with
      | .opened => s.by_ (encOpen s s.cur e)
      | .frame => if e.issued + 2 + ceilDiv e.lines 128 <= (s.die s.cur).cyc then s.by_ (encFrame s s.cur e) else s.same
      | .close =>
        if (s.stream? s.cur e.stream).isSome then
          s.by_ (.die s.cur (fun k => { k with streams := mdel e.stream k.streams }) :: encEnd s.cur e none)
        else s.by_ (encEnd s.cur e (some (encFault e))) := by
  show execEncodeComplete s = _
  unfold execEncodeComplete
  simp only [h] <;> rfl

section
variable {s : State} {e : EncCmd} {rest : List EncCmd} (hk : (s.die s.cur).encQ = e :: rest)
include hk

/-- A command that is carried out leaves with its tag. -/
theorem leaves_well (s0 : State) (hq : (s0.die s.cur).encQ = (s.die s.cur).encQ) (hs : s0.slots = s.slots) (hm : s0.mem = s.mem)
    (he : exec .encodeComplete s = .next (s0.commit (encEnd s.cur e none))) :
    ∃ t, exec .encodeComplete s = .next t ∧ (t.die s.cur).encQ = rest ∧
      (t.slot e.key).tags = (if e.te then (s.slot e.key).tags ||| (1#64 <<< e.tag) else (s.slot e.key).tags) ∧ t.mem = s.mem ∧
      (t.slot e.key).xstat = (s.slot e.key).xstat ∧ (t.die s.cur).streams = (s0.die s.cur).streams := by
  obtain ⟨h1, h2, h3, h4⟩ := commit_encEnd s0 s.cur e none
  have hs : s0.slot e.key = s.slot e.key := congrArg (fun m => mget m e.key Ctx.blank) hs
  rw [hs] at h3
  refine ⟨_, he, ?_, ?_, h4.trans hm, ?_, h2⟩
  · rw [h1, hq, hk]
    rfl
  · rw [h3, tagDone_tags]
  · rw [h3, tagDone_xstat]
    simp

/-- A command that cannot be carried out leaves with its tag and its fault. -/
theorem leaves_fails (x : EngFault) (he : exec .encodeComplete s = .next (s.commit (encEnd s.cur e (some x)))) :
    ∃ t, exec .encodeComplete s = .next t ∧ (t.die s.cur).encQ = rest ∧
      (t.slot e.key).tags = (if e.te then (s.slot e.key).tags ||| (1#64 <<< e.tag) else (s.slot e.key).tags) ∧ t.mem = s.mem ∧
      t.stream? s.cur = s.stream? s.cur ∧
      (t.slot e.key).xstat = (if e.te then (s.slot e.key).xstat ||| (1#64 <<< e.tag) else (s.slot e.key).xstat) ∧
      (e.te = true → (s.slot e.key).xstat.getLsbD e.tag = false → mfind e.tag (t.slot e.key).engine = some x) := by
  obtain ⟨h1, h2, h3, h4⟩ := commit_encEnd s s.cur e (some x)
  refine ⟨_, he, ?_, ?_, h4, ?_, ?_, fun hte hb => ?_⟩
  · rw [h1, hk]
    rfl
  · rw [h3, tagDone_tags]
  · funext n
    exact congrArg (mfind n) h2
  · rw [h3, tagDone_xstat]
    simp
  · rw [h3, hte]
    exact tagDone_engine hb

end

theorem encStarts_ne_nil {s : State} {d : DieId} {e : EncCmd} {rest : List EncCmd} (hk : (s.die d).encQ = e :: rest)
    (ho : e.kind = .opened) : encStarts s d ≠ [] ↔ e.readAt = 0 := by
  have hh : s.encHead? d = some e := by rw [State.encHead?, hk]; rfl
  by_cases h : e.readAt = 0 <;> simp [encStarts, hh, ho, h]

/-! ### What the head does, by its kind -/

section
variable {s : State} {e : EncCmd} {rest : List EncCmd} (hk : (s.die s.cur).encQ = e :: rest)
include hk

theorem exec_encode_opened (h : e.kind = .opened) : exec .encodeComplete s = s.by_ (encOpen s s.cur e) := by
  rw [exec_encode hk, h]
theorem exec_encode_frame (h : e.kind = .frame) (ht : e.issued + 2 + ceilDiv e.lines 128 ≤ (s.die s.cur).cyc) :
    exec .encodeComplete s = s.by_ (encFrame s s.cur e) := by
  rw [exec_encode hk, h]
  exact if_pos ht
theorem exec_encode_close (h : e.kind = .close) (ho : (s.stream? s.cur e.stream).isSome = true) : exec .encodeComplete s =
    .next ((s.apply (.die s.cur fun k => { k with streams := mdel e.stream k.streams })).commit (encEnd s.cur e none)) := by
  rw [exec_encode hk, h]
  exact if_pos ho
theorem exec_encode_close_unknown (h : e.kind = .close) (ho : s.stream? s.cur e.stream = none) : exec .encodeComplete s =
    .next (s.commit (encEnd s.cur e (some (encFault e)))) := by
  rw [exec_encode hk, h, ho]
  rfl

end

/-- None of the command's lines is on the spine. -/
theorem notWriting {s : State} {d : DieId} {e : EncCmd} (h : ∀ l ∈ (s.die d).spine, ∀ j, l.eff ≠ .encWrite e.id j) :
    ((s.die d).spine.any fun l => match l.eff with
      | .encWrite cmd _ => cmd == e.id
      | _ => false) = false := by
  refine List.any_eq_false.mpr fun l hl => ?_
  have hj := h l hl
  split
  · next cmd j he =>
    intro hc
    exact hj j (by rw [he, beq_iff_eq.mp hc])
  · exact Bool.false_ne_true

section
variable {s : State} {d : DieId} {e : EncCmd}

theorem encOpen_bad {x : EngFault} (h : e.bad = some x) : encOpen s d e = encEnd d e (some x) := by
  unfold encOpen
  rw [h]
/-- The block opens the stream, or the command completes with an error. -/
theorem encOpen_block {p : BitVec 512} {l : List (BitVec 512)} (hb : e.bad = none) (hf : e.frame = p :: l) : encOpen s d e =
    if encBlockOk p && (s.stream? d e.stream).isNone && encFits (p :: (s.die d).streams.map fun x => x.2.params) then
      .die d (fun k => { k with streams := mput e.stream { params := p, key := e.key, frames := 0, keyDue := true } k.streams })
        :: encEnd d e none
    else encEnd d e (some (encFault e)) := by
  unfold encOpen
  rw [hb, hf]

theorem encFrame_bad {x : EngFault} (h : e.bad = some x) (hst : ∀ l ∈ (s.die d).spine, ∀ j, l.eff ≠ .encWrite e.id j) :
    encFrame s d e = encEnd d e (some x) := by
  unfold encFrame
  rw [h]
  refine if_neg (Bool.not_eq_true _ |>.mpr (notWriting hst))
theorem encFrame_coded {bs : List Byte} (hb : e.bad = none) (hc : e.coded = some bs) (ho : e.outs ≤ e.outAt)
    (hst : ∀ l ∈ (s.die d).spine, ∀ j, l.eff ≠ .encWrite e.id j) : encFrame s d e = encEnd d e none := by
  unfold encFrame
  rw [hb, hc]
  refine if_pos ?_
  rw [Bool.and_eq_true, decide_eq_true_eq]
  exact ⟨ho, congrArg not (notWriting hst)⟩
theorem encFrame_code {y : EncStream} (hb : e.bad = none) (hc : e.coded = none) (hy : s.stream? d e.stream = some y) :
    encFrame s d e = encCode s d e y := by
  unfold encFrame
  rw [hb, hc, hy]

end

theorem commit_die_drawn_die (s : State) (d : DieId) (g h : Die → Die) (n : Nat) :
    (s.commit [.die d g, .drawn n, .die d h]).die d = h (g (s.die d)) := by
  simp only [State.commit_cons, State.commit_nil]
  have hg : ((s.apply (.die d g)).apply (.drawn n)).die d = g (s.die d) := (State.die_apply_die s d d g).trans (if_pos rfl)
  exact ((State.die_apply_die _ d d h).trans (if_pos rfl)).trans (congrArg h hg)

/-- The count and the coded bytes, or the count with bit 63 alone where they do not fit. -/
def codedBytes (s : State) (e : EncCmd) : List Byte :=
  if Config.codedSize s.fresh + 8 ≤ e.cap then toBytes 8 (Config.codedSize s.fresh) ++ s.freeBytes (Config.codedSize s.fresh)
  else toBytes 8 (2 ^ 63 + Config.codedSize s.fresh)

/-- A frame is coded once: the other commands stay. -/
theorem commit_encCode {s : State} {d : DieId} {e : EncCmd} {rest : List EncCmd} (x : EncStream) (hq : (s.die d).encQ = e :: rest)
    (hr : ∀ z ∈ rest, z.id ≠ e.id) : ∃ dies, s.commit (encCode s d e x) =
      { s with dies := dies, fresh := s.fresh + (Config.codedSize s.fresh + 1) } ∧
      ((s.commit (encCode s d e x)).die d).encQ = { e with coded := some (codedBytes s e) } :: rest ∧
      (s.commit (encCode s d e x)).stream? d e.stream =
        some { x with frames := x.frames + 1, keyDue := decide (e.cap < Config.codedSize s.fresh + 8) } := by
  refine ⟨_, rfl, ?_, ?_⟩
  · refine (congrArg Die.encQ (commit_die_drawn_die s d _ _ _)).trans ?_
    show ((s.die d).encQ.map fun y => if y.id == e.id then { y with coded := some (codedBytes s e) } else y) = _
    have hm : (rest.map fun y => if y.id == e.id then { y with coded := some (codedBytes s e) } else y) = rest :=
      (List.map_congr_left fun z hz => if_neg (by simpa using hr z hz)).trans (List.map_id _)
    rw [hq, List.map_cons, hm, if_pos (beq_self_eq_true _)]
  · refine (congrArg (fun k => mfind e.stream k.streams) (commit_die_drawn_die s d _ _ _)).trans ?_
    refine (mfind_mput_same _ _ _).trans ?_
    have hk : (!decide (Config.codedSize s.fresh + 8 ≤ e.cap)) = decide (e.cap < Config.codedSize s.fresh + 8) := by
      rw [← decide_not]
      exact decide_eq_decide.mpr Nat.not_le
    rw [← hk]

/-! ## Pieces of the output (R312) -/

section
variable {s : State} {pt : Party} {ptr : Word} {need : Need} {whole : Bool} {ref a : Nat} {m : Option Nat} {fail : Cause → List Upd}
  {done : Nat → Option Nat → List Upd}

/-- A piece that reaches its home, whose answer has a way back. -/
theorem pieceAt_done (hb : s.pieceBehind (s.sendAs pt ptr) ptr = false) (hr : s.reach (s.sendAs pt ptr) ptr need whole = .ready a m)
    (hp : s.answerPath (s.sendAs pt ptr) a = .carried) : s.pieceAt pt ptr need whole ref fail done = done a m := by
  simp only [State.pieceAt, hb, hr, hp, Bool.false_eq_true, if_false]

theorem pieceSound_zero (payload : List Byte) : pieceSound pt ptr payload 0 = true := by simp [pieceSound, codePasses]

end

/-- A line of a coded frame that its home neither holds back nor refuses is written. -/
theorem encPut_done {s : State} {d : DieId} {e : EncCmd} {k a : Nat} (hbad : e.bad = none)
    (hh : (s.hidden.any fun h => h.ref == (Ref.item d 2 e.id k).code) = false)
    (hb : s.pieceBehind (s.sendAs (e.party s d) (e.outPiece k).1) (e.outPiece k).1 = false)
    (hr : s.reach (s.sendAs (e.party s d) (e.outPiece k).1) (e.outPiece k).1 .write ((e.outPiece k).2.length == 64) = .ready a none)
    (hp : s.answerPath (s.sendAs (e.party s d) (e.outPiece k).1) a = .carried)
    (hi : s.isHidden a (e.outPiece k).2.length = false)
    (hl : s.planeHit (e.party s d).part (e.outPiece k).1 (e.outPiece k).2.length = .none) :
    encPut s d e k 0 true = writeBytes a (e.outPiece k).2 := by
  have hheld : s.planeHeld (e.party s d).part (e.outPiece k).1 (e.outPiece k).2.length = false := by
    rw [State.planeHeld, hl]
  have hst : s.storeAt (e.party s d) (e.outPiece k).1 (a, none) (e.outPiece k).2 = .ok (writeHome (a, none) (e.outPiece k).2) := by
    rw [State.storeAt, hl]
  simp only [encPut, hbad, hh, Option.isSome_none, Bool.or_self, Bool.false_eq_true, if_false]
  rw [pieceAt_done hb hr hp]
  simp only [pieceSound_zero, hi, hheld, hst, writeHome]
  simp

/-- The landing of a line of the spine, when no result of the slot is due. -/
theorem exec_resultLanding_spine {s : State} {l : Landing} (hl : s.spineLanding s.cur = some l) (hs : s.slotLanding s.cur = none) :
    exec .resultLanding s = .next (s.commit (spineLandUpds s s.cur l)) := by
  show s.by_ (landNext s s.curKey s.cur (s.slotLanding s.cur) (s.spineLanding s.cur)) = _
  rw [hl, hs]
  rfl

/-- What a line that leaves the spine writes changes memory there alone. -/
theorem commit_spineLand_writeBytes {s : State} {d : DieId} {l : Landing} {a : Nat} {bs : List Byte}
    (h : spineUpds s d l = writeBytes a bs) :
    (s.commit (spineLandUpds s d l)).mem = memWrite a bs s.mem ∧ (s.commit (spineLandUpds s d l)).slots = s.slots := by
  rw [spineLandUpds, h, State.commit_cons]
  obtain ⟨dies, hd⟩ := commit_writeBytes (s.apply (.die d fun x => { x with spine := x.spine.filter fun y => y.seq != l.seq })) a bs
  rw [hd]
  exact ⟨rfl, rfl⟩

end Sys2Proof.Machine
end

section
open Sys2Proof Sys2Proof.Machine

/-- Settles O41: what joins, what the head does by its kind, and how a piece of the output is written. -/
theorem encoderCommands : Obligations.EncoderCommands := by
  unfold Obligations.EncoderCommands
  intro f s c x own joins k
  refine ⟨fun hq => ⟨fun ⟨h1, h2, h3⟩ => ?_, fun y ha hd ⟨h1, h2, h3⟩ hy hb => ?_, ?_⟩, fun e rest hk => ?_, fun e i hi => ?_, ?_⟩
  · obtain ⟨he, hs⟩ := commit_encJoin f .opened 1 none s
    exact ⟨_, _, guarded_go (cencOpenGuard_go hq h1 h2 h3) _, rfl, he, rfl, rfl, rfl, rfl, rfl, rfl, rfl, rfl, rfl,
      hs ▸ cIssued_registers f s.curCtx⟩
  · have hbad : (if (s.stream? c.die f.imm8.toNat).isSome then none
        else some { cause := Cause.reservedField, ptr := cSrc f c, detail := 0 } : Option EngFault) = none := by rw [hy]; rfl
    obtain ⟨he, hs⟩ := commit_encJoin f .frame (frameLines f s) _ s
    exact ⟨_, _, guarded_go (cencFrameGuard_go hq ha hd h1 h2 h3 hy hb) _, rfl, he, rfl, rfl, rfl, rfl, rfl, rfl, rfl,
      frameLines_of_stream hy, hbad, hs ▸ cIssued_registers f s.curCtx⟩
  · obtain ⟨he, hs⟩ := commit_encJoin f .close 0 none s
    exact ⟨_, _, guarded_go (encGuard_go hq) _, rfl, he, rfl, rfl, rfl, rfl, rfl, rfl, rfl, rfl, rfl,
      hs ▸ cIssued_registers f s.curCtx⟩
  · intro old bit leaves well fails reserved
    have hfails : ∀ x, exec .encodeComplete s = .next (s.commit (encEnd s.cur e (some x))) → fails x := fun x he =>
      leaves_fails hk x he
    have hwell : ∀ (s0 : State) (p : State → Prop), exec .encodeComplete s = .next (s0.commit (encEnd s.cur e none)) →
        (s0.die s.cur).encQ = (s.die s.cur).encQ → s0.slots = s.slots → s0.mem = s.mem →
        (∀ t : State, (t.die s.cur).streams = (s0.die s.cur).streams → p t) → well p := by
      intro s0 p he hq hs hm hp
      obtain ⟨t, h1, h2, h3, h4, h5, h6⟩ := leaves_well hk s0 hq hs hm he
      exact ⟨t, h1, h2, h3, h4, h5, hp t h6⟩
    have hstream : ∀ g : SMap EncStream → SMap EncStream,
        ((s.apply (.die s.cur fun k => { k with streams := g k.streams })).die s.cur) =
          { s.die s.cur with streams := g (s.die s.cur).streams } := fun g => (State.die_apply_die s _ _ _).trans (if_pos rfl)
    refine ⟨fun ho => ⟨encStarts_ne_nil hk ho, fun x hb => ?_, fun p l hb hf => ⟨fun h => ?_, fun h => ?_⟩⟩,
      fun hc => ⟨fun h => ?_, fun h => ?_⟩, fun hf ht => ?_⟩
    · exact hfails x ((exec_encode_opened hk ho).trans (by rw [encOpen_bad hb]; rfl))
    · obtain ⟨h1, h2, h3⟩ := h
      have hx := (exec_encode_opened hk ho).trans (congrArg s.by_ (encOpen_block hb hf))
      rw [h1, h2, h3] at hx
      have hd := hstream (mput e.stream { params := p, key := e.key, frames := 0, keyDue := true })
      refine hwell _ _ hx ((congrArg Die.encQ hd).trans rfl) rfl rfl fun t ht => ?_
      exact (congrArg (mfind e.stream) (ht.trans (congrArg Die.streams hd))).trans (mfind_mput_same _ _ _)
    · have hx := (exec_encode_opened hk ho).trans (congrArg s.by_ (encOpen_block hb hf))
      rw [if_neg (by simpa [and_assoc] using h)] at hx
      exact hfails reserved hx
    · have hd := hstream (mdel e.stream)
      refine hwell _ _ (exec_encode_close hk hc h) ((congrArg Die.encQ hd).trans rfl) rfl rfl fun t ht => ?_
      exact (congrArg (mfind e.stream) (ht.trans (congrArg Die.streams hd))).trans (mfind_mdel_same _ _)
    · exact hfails reserved (exec_encode_close_unknown hk hc h)
    · have hx := exec_encode_frame hk hf ht
      refine ⟨fun x hb hst => ?_, fun y hb hc hr hy => ?_, fun bs hb hc ho hst => ?_⟩
      · rw [encFrame_bad hb hst] at hx
        exact hfails x hx
      · rw [encFrame_code hb hc hy] at hx
        obtain ⟨dies, he, hq, hs⟩ := commit_encCode y hk hr
        exact ⟨_, hx, (congrArg State.slots he).trans rfl, (congrArg State.mem he).trans rfl, congrArg State.fresh he, hq, hs⟩
      · rw [encFrame_coded hb hc ho hst] at hx
        refine hwell s _ hx rfl rfl rfl fun t ht => ?_
        funext n
        exact congrArg (mfind n) ht
  · refine ⟨rfl, rfl, rfl, ?_⟩
    by_cases h : i < e.data.count
    · simp only [EncCmd.outPiece, if_pos h]
      rfl
    · simp only [EncCmd.outPiece, if_neg h]
      rfl
  · intro e l i a hf hbad hl hs he hh x pt hb hr hp hi hpl
    refine ⟨_, exec_resultLanding_spine hl hs, commit_spineLand_writeBytes ?_⟩
    have hu : spineUpds s s.cur l = encWriteUpds s s.cur e.id i := by rw [spineUpds, he]
    rw [hu, encWriteUpds, hf]
    exact encPut_done hbad hh hb hr hp hi hpl

end

section
/-! SUPPORT. A page walk on which a request waits whose number lies beyond those of requests in `Ref` (R165, R168). -/

namespace Sys2Proof.Machine

/-- A walk of a page without a table, on which request 2^160 waits. -/
def farWalk : Walk := { part := 0, space := 0, page := 0, waiters := [2 * 2 ^ 160] }
def farReq : Req :=
  { id := 2 ^ 160, key := 0, die := 0, part := 0, kind := .load 8 false, ptr := 0, pc := 0, lq := none, src := 0, seq := 0, sent := 0
    issued := 0, resends := 0, owner := none, way := none, stamp := false, st := .flying }
def farState : State := { State.reset with dies := [(0, { Die.blank with walks := [farWalk] })], reqs := [farReq] }

/-- What has become of a request when an instruction has been carried out. -/
def reqStateAfter (i : Nat) : Host.Outcome State Fault Refusal → Option ReqState
  | .next t => (t.req? i).map fun q => q.st
  | _ => none

/-- Its reference reads as that of an answer, so that the fault reaches nothing. -/
theorem reqStateAfter_pageWalk : reqStateAfter (2 ^ 160) (exec (.pageWalk 0 0 0 0) farState) = some .flying := by decide +kernel

end Sys2Proof.Machine
end

section
open Sys2Proof Sys2Proof.Machine

/-- Refutes O42: a walk without a table does not fail the one request that waits for it, where that request's number is
2^160. -/
theorem not_copyProgress : ¬ Obligations.CopyProgress := by
  unfold Obligations.CopyProgress
  intro h
  obtain ⟨-, -, -, -, -, hwalk⟩ := h farState 0 0 (by decide)
  obtain ⟨-, hnone⟩ := hwalk farWalk (by decide) (by decide) (by decide +kernel) (by decide +kernel)
  obtain ⟨t, he, -, ht⟩ := hnone (2 ^ 160) farReq (by decide +kernel) rfl (by decide +kernel) rfl
  have hf : reqStateAfter (2 ^ 160) (exec (.pageWalk 0 0 0 0) farState) =
      some (.failed { cause := .translation, ptr := 0, detail := 0 }) := by rw [show exec (.pageWalk 0 0 0 0) farState = _ from he]; exact ht
  rw [reqStateAfter_pageWalk] at hf
  exact absurd hf (by decide)

end

section
/-! SUPPORT. Requests that arrive at their homes (R182, R183). -/

namespace Sys2Proof.Machine

/-! ## Reads that are logged (R74, R256) -/

/-- What a log of errors changes: the dies' logs, and free values. -/
def Notes (us : List Upd) : Prop := ∀ u : State, ∃ dies n, u.commit us = { u with dies := dies, fresh := n }

theorem notes_nil : Notes [] := fun u => ⟨u.dies, u.fresh, rfl⟩
theorem Notes.append {us vs : List Upd} (h : Notes us) (h' : Notes vs) : Notes (us ++ vs) := fun u => by
  obtain ⟨d, n, he⟩ := h u
  obtain ⟨d', n', he'⟩ := h' (u.commit us)
  refine ⟨d', n', ?_⟩
  rw [State.commit_append, he', he]
theorem notes_flatMap {α : Type} {f : α → List Upd} : ∀ {l : List α}, (∀ x ∈ l, Notes (f x)) → Notes (l.flatMap f)
  | [], _ => notes_nil
  | x :: _, h => (h x List.mem_cons_self).append (notes_flatMap fun y hy => h y (List.mem_cons_of_mem x hy))
theorem notes_eccLog (s : State) (c : Ctx) (d : DieId) (arr line : Nat) : Notes (eccLog s c d arr line) := by
  unfold eccLog
  split
  · exact fun u => ⟨_, _, rfl⟩
  · exact notes_nil
theorem notes_homeNote (s : State) (c : Ctx) (a n : Nat) : Notes (homeNote s c a n) := by
  unfold homeNote
  split
  · exact notes_eccLog _ _ _ _ _
  · split
    · exact notes_flatMap fun _ _ => notes_eccLog _ _ _ _ _
    · exact notes_nil
theorem notes_readNote (s : State) (pt : Party) (p : Word) (n : Nat) (need : Need) : Notes (s.readNote pt p n need) := by
  unfold State.readNote
  split
  · exact notes_nil
  · exact notes_homeNote _ _ _ _
  · exact notes_nil

/-! ## What becomes of a request -/

theorem req?_apply_req (u : State) (i : Nat) {g : Req → Req} (hg : ∀ q, (g q).id = q.id) :
    (u.apply (.req i g)).req? i = (u.req? i).map g := by
  show (u.reqs.map fun r => if r.id == i then g r else r).find? (fun r => r.id == i) = (u.reqs.find? fun r => r.id == i).map g
  induction u.reqs with
  | nil => rfl
  | cons q l ih =>
    rw [List.map_cons, List.find?_cons, List.find?_cons]
    by_cases h : (q.id == i) = true
    · simp only [h, if_true, hg]
      rfl
    · simp only [Bool.not_eq_true] at h
      simp only [h, Bool.false_eq_true, if_false, ih]

theorem setReq_st {u : State} {i : Nat} (h : (u.req? i).isSome = true) (st : ReqState) :
    ((u.apply (setReq i st)).req? i).map (fun q => q.st) = some st := by
  obtain ⟨q, hq⟩ := Option.isSome_iff_exists.mp h
  rw [setReq, req?_apply_req, hq]
  · rfl
  · exact fun _ => rfl

section
variable {s : State} {r : Req} (hr : s.req? r.id = some r)
include hr

/-- A request takes the path that is fixed as it is injected (R223). -/
def wayUpds (s : State) (r : Req) : List Upd :=
  if r.way == (s.inject r).way then [] else [.req r.id fun q => { q with way := (s.inject r).way, stamp := (s.inject r).stamp }]

theorem commit_wayUpds : ∃ reqs, s.commit (wayUpds s r) = { s with reqs := reqs } ∧ ((s.commit (wayUpds s r)).req? r.id).isSome = true := by
  unfold wayUpds
  split
  · exact ⟨s.reqs, rfl, by rw [State.commit_nil, hr]; rfl⟩
  · refine ⟨_, rfl, ?_⟩
    rw [State.commit_cons, State.commit_nil, req?_apply_req, hr]
    · rfl
    · exact fun _ => rfl

end

theorem inject_eq (s : State) (r : Req) : ∃ w v, s.inject r = { r with way := w, stamp := v } := by
  unfold State.inject
  split
  · exact ⟨r.way, r.stamp, rfl⟩
  · exact ⟨_, _, rfl⟩

/-! ## Arrival (R182) -/

section
variable {s : State} {r : Req} {die : Nat} (hid : r.id < 2 ^ 32) (hr : s.req? r.id = some r)
  (hsend : s.sendable r = true) (hblk : s.blocked r = false) (hfold : s.folded r = false) (hrt : s.routed r = false)
include hid hr hsend hblk hfold hrt

theorem exec_homeAccess (hto : r.kind.toHome = true) (hsp : spaceOf r.ptr ≠ 1) (hbeh : s.behind (s.inject r) = false) :
    exec (.homeAccess die 2 r.id) s = .next (s.commit (wayUpds s r ++ s.perform (s.inject r) 0)) := by
  have hd : r.id / 2 ^ 32 % 2 ^ 32 = 0 := by rw [Nat.div_eq_of_lt hid, Nat.zero_mod]
  have hm : r.id % 2 ^ 32 = r.id := Nat.mod_eq_of_lt hid
  show execHomeAccess die 2 r.id s = _
  simp only [execHomeAccess, hd, hm, hr]
  have hreq : homeReq s r 0 = wayUpds s r ++ s.perform (s.inject r) 0 := by
    simp only [homeReq, hto, hsend, hblk, hfold, hrt, State.arrive, hbeh]
    simp [hsp, wayUpds]
  rw [← hreq]
  rfl

end

/-! ## Performing (R183) -/

/-- An access of sound bytes that nothing holds back. -/
theorem perform_ready {s : State} {x : Req} {a : Nat} (hx : x.st = .flying)
    (hreach : s.reach x.party x.ptr x.kind.need = .ready a none) (hh : s.isHidden a x.kind.size = false)
    (hp : s.planeHit x.part x.ptr x.kind.size = .none) (hu : x.kind.need ≠ .write → s.unsound a x.kind.size = false) :
    s.perform x 0 = s.readNote x.party x.ptr x.kind.size x.kind.need ++ s.performReq x (a, none) := by
  have hheld : s.planeHeld x.part x.ptr x.kind.size = false := by rw [State.planeHeld, hp]
  have hun : ¬((x.kind.need != .write && s.unsound a x.kind.size) = true) := by
    by_cases h : x.kind.need = .write <;> simp [h]
    exact hu h
  simp only [State.perform, hreach, hh, hheld, hx, if_neg hun]
  simp [codePasses]

section
variable {s : State} {x : Req} {a : Nat} (hp : s.planeHit x.part x.ptr x.kind.size = .none)
include hp

theorem performReq_load {z : Nat} {g : Bool} (hk : x.kind = .load z g) :
    s.performReq x (a, none) = [setReq x.id (.performed (extendVal z g (s.num a z)))] := by
  have h : s.applyReq x (a, none) = .ok ([], extendVal z g (s.num a z)) := by
    simp only [State.applyReq, hp]
    simp only [hk]
    rfl
  simp only [State.performReq, h, hk]
  rfl
theorem performReq_store {z : Nat} {v : Word} (hk : x.kind = .store z v) :
    s.performReq x (a, none) = writeBytes a (toBytes z v.toNat) ++ [setReq x.id (.performed 0)] := by
  have h : s.applyReq x (a, none) = .ok (writeHome (a, none) (toBytes z v.toNat), 0) := by
    simp only [State.applyReq, hp]
    simp only [hk]
  simp only [State.performReq, h, hk, writeHome, ReqKind.numbered]
  simp
theorem performReq_atom {op z : Nat} {b c : Word} (hk : x.kind = .atom op z b c) : ∃ g,
    s.performReq x (a, none) = writeBytes a (toBytes z (atomNew op z (s.num a z) b.toNat c.toNat)) ++
      [setReq x.id (.performed (word (s.num a z))), .pkg (homePkg a) g] := by
  have h : s.applyReq x (a, none) = .ok (writeHome (a, none) (toBytes z (atomNew op z (s.num a z) b.toNat c.toNat)), word (s.num a z)) := by
    simp only [State.applyReq, hp]
    simp only [hk]
    rfl
  refine ⟨Pkg.remember (s.keepsCache (homePkg a)) x.src x.seq (word (s.num a z)), ?_⟩
  simp only [State.performReq, h, hk, writeHome, ReqKind.numbered]
  simp

end

theorem perform_fault {s : State} {x : Req} {c : Cause} (hx : x.st = .flying)
    (hreach : s.reach x.party x.ptr x.kind.need = .fault c)
    (hq : c = .machine → s.readNote x.party x.ptr x.kind.size x.kind.need = []) :
    s.perform x 0 = [setReq x.id (.failed { cause := c, ptr := x.ptr, detail := 0 })] := by
  have hn : (if c == .machine then s.readNote x.party x.ptr x.kind.size x.kind.need else []) = [] := by
    split
    · next h => exact hq (beq_iff_eq.mp h)
    · rfl
  simp only [State.perform, hreach, hn, Req.open_, hx]
  rfl

/-- A request's fate, after its path has been fixed. -/
theorem commit_way_setReq {s : State} {r : Req} (hr : s.req? r.id = some r) (st : ReqState) :
    ∃ t, s.commit (wayUpds s r ++ [setReq r.id st]) = t ∧ t = { s with reqs := t.reqs } ∧ (t.req? r.id).map (fun q => q.st) = some st := by
  obtain ⟨reqs, hc, hs⟩ := commit_wayUpds hr
  refine ⟨_, rfl, ?_, ?_⟩
  · rw [State.commit_append, hc]
    rfl
  · rw [State.commit_append]
    exact setReq_st hs st

/-- A write at the home, after the log of its read. -/
theorem commit_way_write {s : State} {r : Req} (hr : s.req? r.id = some r) {ns : List Upd} (hn : Notes ns) (a : Nat)
    (bs : List Byte) (v : Word) {us : List Upd} (hus : us = [] ∨ ∃ p g, us = [.pkg p g]) :
    ∃ t, s.commit (wayUpds s r ++ (ns ++ (writeBytes a bs ++ setReq r.id (.performed v) :: us))) = t ∧
      t.mem = memWrite a bs s.mem ∧ t.slots = s.slots ∧ (t.req? r.id).map (fun q => q.st) = some (.performed v) := by
  obtain ⟨reqs, hc, hs⟩ := commit_wayUpds hr
  rw [hc] at hs
  obtain ⟨dies, n, hc'⟩ := hn { s with reqs := reqs }
  obtain ⟨dies', hw⟩ := commit_writeBytes { s with reqs := reqs, dies := dies, fresh := n } a bs
  have hst := setReq_st (u := { s with reqs := reqs, dies := dies', fresh := n, mem := memWrite a bs s.mem }) hs (.performed v)
  refine ⟨_, rfl, ?_⟩
  rw [State.commit_append, hc, State.commit_append, hc', State.commit_append, hw, State.commit_cons]
  obtain rfl | ⟨p, g, rfl⟩ := hus
  · exact ⟨rfl, rfl, hst⟩
  · exact ⟨rfl, rfl, hst⟩

end Sys2Proof.Machine
end
section
open Sys2Proof Sys2Proof.Machine

/-- Settles O43: the request takes its path and then performs at its home, by what the home answers. -/
theorem homesPerform : Obligations.HomesPerform := by
  unfold Obligations.HomesPerform
  intro s r die hid hr hfly hsend hblk hfold hrt n x quiet done
  obtain ⟨w, v, hx⟩ : ∃ w v, x = { r with way := w, stamp := v } := inject_eq s r
  have hxi : x.id = r.id := by rw [hx]
  have hxk : x.kind = r.kind := by rw [hx]
  have hxp : x.ptr = r.ptr := by rw [hx]
  have hxs : x.st = .flying := by rw [hx]; exact hfly
  have hxpart : x.part = r.part := by rw [hx]
  have run := fun hto hsp hb => exec_homeAccess (die := die) hid hr hsend hblk hfold hrt hto hsp hb
  refine ⟨fun a hb hreach hsp hh hp _ => ⟨?_, ?_, ?_⟩, fun c hto hb hreach hsp hq => ?_, ?_⟩
  · intro z g hk hquiet hu
    have hperf : s.perform x 0 = [setReq r.id (.performed (extendVal z g (s.num a z)))] := by
      rw [perform_ready hxs (by rw [hxk, hxp]; exact hreach) (by rw [hxk]; exact hh) (by rw [hxk, hxp, hxpart]; exact hp)
        (fun _ => by rw [hxk]; exact hu), performReq_load (by rw [hxk, hxp, hxpart]; exact hp) (hxk.trans hk), hxk, hxp, hquiet, hxi]
      rfl
    obtain ⟨t, ht, hpost⟩ := commit_way_setReq hr (.performed (extendVal z g (s.num a z)))
    exact ⟨t, (run (by rw [hk]; rfl) hsp hb).trans (by rw [← ht, ← hperf]), hpost⟩
  · intro z g hk
    have hperf : s.perform x 0 = s.readNote x.party x.ptr x.kind.size x.kind.need ++
        (writeBytes a (toBytes z g.toNat) ++ [setReq r.id (.performed 0)]) := by
      rw [perform_ready hxs (by rw [hxk, hxp]; exact hreach) (by rw [hxk]; exact hh) (by rw [hxk, hxp, hxpart]; exact hp)
        (fun h => absurd (by rw [hxk, hk]; rfl) h), performReq_store (by rw [hxk, hxp, hxpart]; exact hp) (hxk.trans hk), hxi]
    obtain ⟨t, ht, hpost⟩ := commit_way_write hr (notes_readNote s x.party x.ptr x.kind.size x.kind.need) a (toBytes z g.toNat) 0 (.inl rfl)
    exact ⟨t, (run (by rw [hk]; rfl) hsp hb).trans (by rw [← ht, ← hperf]), hpost⟩
  · intro op z b c hk hu
    obtain ⟨g, hg⟩ := performReq_atom (s := s) (x := x) (a := a) (by rw [hxk, hxp, hxpart]; exact hp) (hxk.trans hk)
    have hperf : s.perform x 0 = s.readNote x.party x.ptr x.kind.size x.kind.need ++
        (writeBytes a (toBytes z (atomNew op z (s.num a z) b.toNat c.toNat)) ++
          [setReq r.id (.performed (word (s.num a z))), .pkg (homePkg a) g]) := by
      rw [perform_ready hxs (by rw [hxk, hxp]; exact hreach) (by rw [hxk]; exact hh) (by rw [hxk, hxp, hxpart]; exact hp)
        (fun _ => by rw [hxk]; exact hu), hg, hxi]
    obtain ⟨t, ht, hpost⟩ := commit_way_write hr (notes_readNote s x.party x.ptr x.kind.size x.kind.need) a
      (toBytes z (atomNew op z (s.num a z) b.toNat c.toNat)) (word (s.num a z)) (.inr ⟨_, g, rfl⟩)
    exact ⟨t, (run (by rw [hk]; rfl) hsp hb).trans (by rw [← ht, ← hperf]), hpost⟩
  · have hperf : s.perform x 0 = [setReq r.id (.failed { cause := c, ptr := r.ptr, detail := 0 })] := by
      rw [perform_fault hxs (by rw [hxk, hxp]; exact hreach) (fun h => by rw [hxk, hxp]; exact hq h), hxi, hxp]
    obtain ⟨t, ht, hpost⟩ := commit_way_setReq hr (.failed { cause := c, ptr := r.ptr, detail := 0 })
    exact ⟨t, (run hto hsp hb).trans (by rw [← ht, ← hperf]), hpost⟩
  · intro d hto hsp hsame hnew
    have hreq : homeReq s r 0 = [.die d fun k => { k with peers := k.peers ++ [2 * r.id] }] := by
      have hopen : r.open_ = true := by simp [Req.open_, hfly]
      have hnew' : (s.die d).peers.contains (2 * r.id) = false := by simpa using hnew
      simp only [homeReq, hto, hsend, hblk, hfold, hrt, hsp, hopen]
      show peerAsk s r.party r.ptr (2 * r.id) = _
      have hneg : ¬(((s.die d).spine.any fun l => l.eff == .peer (2 * r.id)) || (s.die d).peers.contains (2 * r.id)) = true := by
        rw [hsame, hnew']
        decide
      exact if_neg hneg
    have h0 : r.id / 2 ^ 63 = 0 := Nat.div_eq_of_lt (by omega)
    show execPeerBankAccess die r.id s = _
    simp only [execPeerBankAccess, h0, hr, hsp, hreq]
    rfl

end

section
/-! SUPPORT. Timed circuits: bindings, checks, and units on their way (R238–R242). -/

namespace Sys2Proof.Machine

theorem circuit_apply_circuit {u : State} {k : Nat} {f : Option Circuit → Option Circuit} {y : Circuit}
    (h : f (mfind k u.circuits) = some y) : (u.apply (.circuit k f)).circuit k = y := by
  rw [State.circuit, State.apply_circuit_circuits, mfind_mupd_some k h]
  rfl

theorem circuit_apply_circuit_ne {u : State} {k j : Nat} (hj : j ≠ k) {f : Option Circuit → Option Circuit} {y : Circuit}
    (h : f (mfind k u.circuits) = some y) : (u.apply (.circuit k f)).circuit j = u.circuit j := by
  have hput : mupd u.circuits k f = mput k y u.circuits := by rw [mupd, h]
  rw [State.circuit, State.apply_circuit_circuits, hput, mfind_mput_ne (h := hj)]
  rfl

/-- A circuit that is bound, or holds anything, is listed. -/
theorem mfind_of_bound {s : State} {k : Nat} {b : SlotKey} (h : (s.circuit k).bound = some b) :
    mfind k s.circuits = some (s.circuit k) := by
  unfold State.circuit at h ⊢
  cases hf : mfind k s.circuits with
  | none => rw [hf] at h; cases h
  | some x => rfl

/-- Binding a circuit changes the circuit, and which circuits a slot has bound. -/
theorem commit_bindUpds (s u : State) (c : Ctx) (n : Nat) (g : Circuit → Circuit) :
    (u.commit (bindUpds s c n g)).mem = u.mem ∧ (u.commit (bindUpds s c n g)).cur = u.cur ∧
      (u.commit (bindUpds s c n g)).circuit (circKey (s.node c.rid).part c.pkg c.slot n) = g (s.boundCirc c n) ∧
      ∀ j, ∃ b, (u.commit (bindUpds s c n g)).slot j = { u.slot j with bound := b } := by
  refine ⟨rfl, rfl, ?_, fun j => ?_⟩
  · exact circuit_apply_circuit (u := u) (f := fun _ => some (g (s.boundCirc c n))) rfl
  show ∃ b, ((u.apply (.circuit _ _)).apply (.slot c.key _)).slot j = _
  rw [State.slot_apply_slot]
  split
  · next h => exact h ▸ ⟨_, rfl⟩
  · exact ⟨(u.slot j).bound, rfl⟩

theorem sameRegisters_of_eq {c d e : Ctx} (h : d = e) (he : SameRegisters c e) : SameRegisters c d := h ▸ he

/-- A change of the running slot beside its bindings. -/
theorem slot_bindUpds_slot (s : State) (c : Ctx) (n : Nat) (g : Circuit → Circuit) (f : Ctx → Ctx) :
    ∃ b, (s.commit (bindUpds s c n g ++ [.slot s.curKey f])).slot s.curKey = f { s.curCtx with bound := b } := by
  obtain ⟨-, -, -, hslot⟩ := commit_bindUpds s s c n g
  obtain ⟨b, hb⟩ := hslot s.curKey
  refine ⟨b, ?_⟩
  rw [State.commit_append, State.commit_cons, State.commit_nil, State.slot_apply_slot, if_pos rfl, hb]
  rfl

/-! ## The checks of XSEND and XRECV (R239, R240) -/

section
variable {s : State} {f : XF}

/-- The conditions of a circuit that an X-slot instruction uses. -/
def CircReady (s : State) (f : XF) (dir : Nat) : Prop :=
  let c := s.curCtx
  let x := s.circuit (xCirc f s c)
  circValid x.desc = true ∧ circDir x.desc = dir ∧ (∀ y, x.bound = some y → keyRid y = c.rid) ∧
    circLen x.desc ≤ (s.node c.rid).cwmax ∧ s.circUp c x.desc = true ∧ (circWindow x.desc c.tbase (xAt f c)).isSome = true

theorem circReady_iff (s : State) (f : XF) (dir : Nat) : CircReady s f dir ↔
    (circValid (s.circuit (xCirc f s s.curCtx)).desc && circDir (s.circuit (xCirc f s s.curCtx)).desc == dir &&
      ((s.circuit (xCirc f s s.curCtx)).bound.all fun k => keyRid k == s.curCtx.rid) &&
      decide (circLen (s.circuit (xCirc f s s.curCtx)).desc ≤ (s.node s.curCtx.rid).cwmax) &&
      s.circUp s.curCtx (s.circuit (xCirc f s s.curCtx)).desc &&
      (circWindow (s.circuit (xCirc f s s.curCtx)).desc s.curCtx.tbase (xAt f s.curCtx)).isSome) = true := by
  simp only [CircReady, Bool.and_eq_true, beq_iff_eq, decide_eq_true_eq, Option.all_eq_true, and_assoc]

variable (ha : s.curCtx.iss.anchored = true)
include ha

theorem xCheck_go {dir : Nat} (h : CircReady s f dir) : xCheck f dir s = .go := by
  rw [xCheck, Guard.seq_eq_go_iff]
  simp only [List.mem_cons, List.not_mem_nil, or_false, forall_eq_or_imp, forall_eq, need_eq_go_iff]
  exact ⟨ha, (circReady_iff s f dir).mp h⟩

theorem xCheck_trap {dir : Nat} (h : ¬ CircReady s f dir) :
    xCheck f dir s = .trap (trapAt xSlot .circuitDown (xAt f s.curCtx) f.oc.toNat) := by
  rw [circReady_iff, Bool.not_eq_true] at h
  simp only [xCheck, ha, h]
  rfl

end

/-! ## What is taken from a circuit (R242) -/

theorem refuses_none {x : Circuit} {y : XUnit} {rest : List XUnit} {n t : Nat} (hb : x.buf = y :: rest) (ht : y.arrival ≤ t)
    (hg : x.badUnit = false) (ho : x.overflow = false) : x.refuses n t = none := by
  simp only [Circuit.refuses, hb, hg, ho]
  simp [ht]
theorem oldest_eq {x : Circuit} {y : XUnit} {rest : List XUnit} (hb : x.buf = y :: rest) : x.oldest = y.data := by
  rw [Circuit.oldest, hb]
theorem took_buf {x : Circuit} {y : XUnit} {rest : List XUnit} (hb : x.buf = y :: rest) : x.took.buf = rest := by
  rw [Circuit.took, hb]
  rfl

/-- A circuit that is handed the register's unit, to be launched at T. -/
def sent (f : XF) (c : Ctx) (x : Circuit) : Circuit :=
  { x with
    launch := some (xAt f c)
    out := x.out ++ [(xAt f c, { data := c.v (physV c.iss.rrb f.v.toNat), good := true, arrival := 0, ends := 0 })] }

section
variable {s : State} {f : XF} (ha : s.curCtx.iss.anchored = true)
include ha

theorem exec_xsend (h : CircReady s f 0) (hl : ∀ l, (s.circuit (xCirc f s s.curCtx)).launch = some l → l + 4 ≤ xAt f s.curCtx) :
    exec (.xsend f) s = .next (s.commit (bindUpds s s.curCtx f.oc.toNat (sent f s.curCtx) ++ [.slot s.curKey fun d => d.progressed d.iss.tick])) := by
  have hg : xsendGuard f s = .go := by
    rw [xsendGuard, Guard.seq_eq_go_iff]
    simp only [List.mem_cons, List.not_mem_nil, or_false, forall_eq_or_imp, forall_eq, need_eq_go_iff, Option.all_eq_true, decide_eq_true_eq]
    exact ⟨xCheck_go ha h, hl⟩
  exact guarded_go hg _

theorem exec_xsend_trap (h : ¬ CircReady s f 0 ∨ CircReady s f 0 ∧ ∃ l, (s.circuit (xCirc f s s.curCtx)).launch = some l ∧ xAt f s.curCtx < l + 4) :
    exec (.xsend f) s = .next (s.commit (takeTrap s s.curKey (trapAt 6 .circuitDown (xAt f s.curCtx) f.oc.toNat))) := by
  have hg : xsendGuard f s = .trap (trapAt xSlot .circuitDown (xAt f s.curCtx) f.oc.toNat) := by
    obtain h | ⟨h, l, hl, hlt⟩ := h
    · simp only [xsendGuard, xCheck_trap ha h]
      rfl
    · have hn : ¬ l + 4 ≤ xAt f s.curCtx := by omega
      simp only [xsendGuard, xCheck_go ha h, hl]
      simp [hn, Guard.seq]
  exact guarded_of_trap hg _

theorem exec_xrecv_take (h : CircReady s f 1) (ht : xAt f s.curCtx = s.curCtx.iss.tick)
    (hr : (s.boundCirc s.curCtx f.oc.toNat).refuses f.oc.toNat (xAt f s.curCtx) = none) :
    exec (.xrecv f) s = .next (s.commit (bindUpds s s.curCtx f.oc.toNat Circuit.took ++
      [.slot s.curKey fun y => y.setV (physV s.curCtx.iss.rrb f.v.toNat) (s.boundCirc s.curCtx f.oc.toNat).oldest])) := by
  have hg : xrecvGuard f s = .go := by
    simp only [xrecvGuard, xCheck_go ha h, hr]
    simp [Guard.seq]
  show execXrecv f s = _
  simp only [execXrecv, hg, xrecvUpds, ht, beq_self_eq_true, if_true]
  rfl

theorem exec_xrecv_wait (h : CircReady s f 1) (ht : xAt f s.curCtx ≠ s.curCtx.iss.tick) :
    exec (.xrecv f) s = .next (s.commit (bindUpds s s.curCtx f.oc.toNat id ++
      [.slot s.curKey fun y => { y with
        xrecvs := y.xrecvs ++ [(f.oc.toNat, physV s.curCtx.iss.rrb f.v.toNat, xAt f s.curCtx, y.nextSeq)], nextSeq := y.nextSeq + 1 }])) := by
  have hne : (xAt f s.curCtx == s.curCtx.iss.tick) = false := beq_false_of_ne ht
  have hg : xrecvGuard f s = .go := by
    simp only [xrecvGuard, xCheck_go ha h, hne]
    simp [Guard.seq]
  show execXrecv f s = _
  simp only [execXrecv, hg, xrecvUpds, hne, Bool.false_eq_true, if_false]
  rfl

end

/-! ## Units on their way (R239, R241) -/

section
variable {s : State} {k : Nat} {t : Nat} {u : XUnit} {rest : List (Nat × XUnit)} (ht : t ≤ s.gtc (circKeyPkg k))
include ht

theorem exec_xsendLaunch (hout : (s.circuit k).out = (t, u) :: rest) :
    exec (.xsendLaunch k) s = .next (s.apply (.circuit k fun _ => some { s.circuit k with
      out := rest, flying := (s.circuit k).flying ++ [(t + circFlight (s.circuit k).desc, u)] })) := by
  show execXsendLaunch k s = _
  simp only [execXsendLaunch, hout, ht, if_true]
  rfl

theorem exec_unitLanding (hk : k < 2 ^ 56) (hfly : (s.circuit k).flying = (t, u) :: rest) :
    exec (.unitLanding k) s = .next ((s.apply (.circuit k fun _ => some { s.circuit k with flying := rest })).apply
      (.circuit (circKey (circKeyPart k) (circPeerPkg (s.circuit k).desc) (circPeerSlot (s.circuit k).desc) (circPeerOc (s.circuit k).desc))
        fun y => y.map (Circuit.receive s (s.gtc (circPeerPkg (s.circuit k).desc)) u))) := by
  show execUnitLanding k s = _
  simp only [execUnitLanding, Nat.mod_eq_of_lt hk, Nat.div_eq_of_lt hk, hfly, ht, if_true]
  rfl

end

theorem receive_unbound {s : State} {q : Nat} {u : XUnit} {y : Circuit} (hu : u.good = true) (hv : circValid y.desc = true)
    (hd : circDir y.desc = 1) (hb : y.bound = none) (hl : y.buf.length < 16) :
    Circuit.receive s q u y = { y with buf := y.buf ++ [{ u with arrival := q }] } := by
  simp [Circuit.receive, hu, hv, hd, hb, hl]

end Sys2Proof.Machine
end
section
open Sys2Proof Sys2Proof.Machine

/-- Settles O44: the checks of an X-slot instruction, its binding, and each event of a unit on its way. -/
theorem timedCircuits : Obligations.TimedCircuits := by
  unfold Obligations.TimedCircuits
  refine ⟨?_, ?_⟩
  · intro f s c k x t ready held r ha
    refine ⟨fun hr hl => ?_, fun hr hl => exec_xsend_trap ha (.inr ⟨hr, hl⟩), fun hr => exec_xsend_trap ha (.inl hr), ?_, ?_⟩
    · refine ⟨_, exec_xsend ha hr hl, ?_⟩
      obtain ⟨hmem, -, hcirc, -⟩ := commit_bindUpds s s s.curCtx f.oc.toNat (sent f s.curCtx)
      obtain ⟨b, hslot⟩ := slot_bindUpds_slot s s.curCtx f.oc.toNat (sent f s.curCtx) fun d => d.progressed d.iss.tick
      exact ⟨congrArg Circuit.out hcirc, congrArg Circuit.launch hcirc, congrArg Ctx.progress hslot,
        sameRegisters_of_eq hslot ⟨rfl, rfl, rfl, rfl, rfl⟩, hmem⟩
    · intro y rest hr ht hbuf hy hbad hover
      refine ⟨_, exec_xrecv_take ha hr ht (refuses_none hbuf hy hbad hover), ?_⟩
      obtain ⟨hmem, -, hcirc, -⟩ := commit_bindUpds s s s.curCtx f.oc.toNat Circuit.took
      obtain ⟨b, hslot⟩ := slot_bindUpds_slot s s.curCtx f.oc.toNat Circuit.took
        fun d => d.setV (physV s.curCtx.iss.rrb f.v.toNat) (s.boundCirc s.curCtx f.oc.toNat).oldest
      have hold : (s.boundCirc s.curCtx f.oc.toNat).oldest = y.data := oldest_eq hbuf
      refine ⟨(congrArg Circuit.buf hcirc).trans (took_buf hbuf), ?_, (congrArg Ctx.sregs hslot).trans rfl, hmem⟩
      exact (congrArg Ctx.vregs hslot).trans (congrArg (fun v => mput r v c.vregs) hold)
    · intro hr ht
      refine ⟨_, s.curCtx.nextSeq, exec_xrecv_wait ha hr ht, ?_⟩
      obtain ⟨hmem, -, -, -⟩ := commit_bindUpds s s s.curCtx f.oc.toNat id
      obtain ⟨b, hslot⟩ := slot_bindUpds_slot s s.curCtx f.oc.toNat id
        fun y => { y with
          xrecvs := y.xrecvs ++ [(f.oc.toNat, physV s.curCtx.iss.rrb f.v.toNat, xAt f s.curCtx, y.nextSeq)], nextSeq := y.nextSeq + 1 }
      exact ⟨congrArg Ctx.xrecvs hslot, sameRegisters_of_eq hslot ⟨rfl, rfl, rfl, rfl, rfl⟩, hmem⟩
  · intro s k hk x
    refine ⟨?_, ?_, ?_, ?_, ?_⟩
    · intro t u rest hout ht
      exact exec_xsendLaunch ht hout
    · intro t u rest y hfly ht hgood q peer hne hy hv hd hb hl
      refine ⟨_, exec_unitLanding ht hk hfly, rfl, ?_⟩
      have hput : ∀ w, mfind peer (s.apply (.circuit k fun _ => some w)).circuits = some y := fun w => by
        rw [State.apply_circuit_circuits, mupd, mfind_mput_ne (h := hne), hy]
      have hrec := receive_unbound (s := s) (q := s.gtc q) hgood hv hd hb hl
      have hsome : ((mfind peer (s.apply (.circuit k fun _ => some { s.circuit k with flying := rest })).circuits).map
          (Circuit.receive s (s.gtc q) u)) = some { y with buf := y.buf ++ [{ u with arrival := s.gtc q }] } := by
        rw [hput, Option.map_some, hrec]
      have hpeer := circuit_apply_circuit (u := s.apply (.circuit k fun _ => some { s.circuit k with flying := rest }))
        (f := fun y => y.map (Circuit.receive s (s.gtc q) u)) hsome
      have hown := (circuit_apply_circuit_ne (u := s.apply (.circuit k fun _ => some { s.circuit k with flying := rest }))
        (f := fun y => y.map (Circuit.receive s (s.gtc q) u)) (Ne.symm hne) hsome).trans (circuit_apply_circuit rfl)
      exact ⟨congrArg Circuit.flying hown, congrArg Circuit.buf hpeer, (congrArg Circuit.overflow hpeer).trans rfl⟩
    · intro b hb
      have hb' : (s.circuit k).bound = some b := hb
      refine ⟨s.apply (.circuit k fun y => y.map (Circuit.purge (s.slot b).tbase (s.gtc (circKeyPkg k)))), ?_, rfl, ?_⟩
      · show execWindowEnd k s = _
        simp only [execWindowEnd, hb']
        rfl
      · exact congrArg Circuit.buf (circuit_apply_circuit (u := s)
          (congrArg (Option.map (Circuit.purge (s.slot b).tbase (s.gtc (circKeyPkg k)))) (mfind_of_bound hb')))
    · intro hf hb
      have hb' : (s.circuit k).bound = none := hb
      refine ⟨s.apply (.circuit k fun y => y.map (Circuit.expire (s.gtc (circKeyPkg k)))), ?_, rfl, ?_⟩
      · show execWindowEnd k s = _
        simp only [execWindowEnd, hb']
        rfl
      · exact congrArg Circuit.buf (circuit_apply_circuit (u := s)
          (congrArg (Option.map (Circuit.expire (s.gtc (circKeyPkg k)))) hf))
    · intro n r t q y rest hdue hbuf hy hbad hover
      have hold : (s.boundCirc s.curCtx n).oldest = y.data := oldest_eq hbuf
      let take : Ctx → Ctx := fun y => { y with xrecvs := y.xrecvs.filter fun z => z.2.2.2 != q }
      refine ⟨(s.apply (.slot s.curKey fun z => (take z).setV r (s.boundCirc s.curCtx n).oldest)).commit
        (bindUpds s s.curCtx n Circuit.took), ?_, rfl, ?_⟩
      · show execXrecvTake s = _
        simp only [execXrecvTake, hdue, refuses_none (n := n) hbuf hy hbad hover]
        rfl
      · obtain ⟨-, -, -, hslot⟩ := commit_bindUpds s
          (s.apply (.slot s.curKey fun z => (take z).setV r (s.boundCirc s.curCtx n).oldest)) s.curCtx n Circuit.took
        obtain ⟨b, hb⟩ := hslot s.curKey
        rw [State.slot_apply_slot, if_pos rfl] at hb
        exact ⟨(congrArg Ctx.vregs hb).trans (congrArg (fun v => mput r v s.curCtx.vregs) hold), congrArg Ctx.xrecvs hb⟩

end

section
/-! SUPPORT. The issue stage (R29, R62, R155–R158, R249): the look of a bundle, its issue, and the trap that it takes. -/

namespace Sys2Proof.Machine

/-! ## One look -/

/-- A slot that stands at the issue stage holds its bundle as the one being issued. -/
def arriveCtx (s : State) (b : Line) (c : Ctx) : Ctx :=
  { c with
    iss := s.issueOf c b, tried := c.pos + 1
    wait := if c.wait.active then c.wait else { Wait.blank with active := true, pos := c.pos, tick := s.dieTick s.curCtx.die } }
def State.arrived (s : State) (b : Line) : State := s.apply (.slot s.curKey (arriveCtx s b))

@[simp] theorem arrived_curKey (s : State) (b : Line) : (s.arrived b).curKey = s.curKey := rfl
@[simp] theorem arrived_curCtx (s : State) (b : Line) : (s.arrived b).curCtx = arriveCtx s b s.curCtx := running_curCtx s _

/-- The slot stands at its bundle, with no trap before it and nothing that keeps it from the look. -/
structure Looks (s : State) : Prop where
  stage   : s.atStage = true
  pending : s.curCtx.pending = none
  early   : s.curCtx.early s.stageBundle = false
  acq     : s.curCtx.acqUntil = []
  inside  : s.curCtx.looping = none → s.curCtx.pc + 64 ≤ (s.node (keyRid s.curKey)).bmem * 4096

/-- What the instructions of a bundle do as it arrives. -/
def actsOf (s : State) (b : Line) : List Upd :=
  if !hdrElastic b || !(s.lookGuards b).prompt.isEmpty then [] else arrivals s b

/-- What comes of the look, after what the instructions have done on arrival. -/
def lookWith (s : State) (b : Line) (acts : List Upd) : List Upd :=
  let s2 := (s.arrived b).commit acts
  match (s2.lookGuards b).choose (hdrElastic b) with
  | .go => .slot s.curKey (arriveCtx s b) :: acts ++ issueUpds s2 b
  | .wait _ => .slot s.curKey (arriveCtx s b) :: acts
  | .trap t =>
    .slot s.curKey (arriveCtx s b) :: acts ++ [.slot s.curKey fun x => { x with iss := s.curCtx.iss }] ++
      trapUpds (s2.apply (.slot s.curKey fun x => { x with iss := s.curCtx.iss })) t

section
variable {s : State} (h : Looks s)
include h

theorem Looks.haltTrap : s.curCtx.haltTrap = none := by
  have hm : s.curCtx.mode = .run := by
    have h := h.stage
    simp only [State.atStage, Bool.and_eq_true, beq_iff_eq] at h
    exact h.1.1.2
  simp [Ctx.haltTrap, hm]
theorem Looks.micro : s.micro = [] := by
  have h := h.stage
  simp only [State.atStage, Bool.and_eq_true, List.isEmpty_iff] at h
  exact h.2

theorem Looks.after : afterTrap s.curCtx = none := h.pending

theorem exec_bundleIssue (ha : hdrAnchored s.stageBundle = false) : exec .bundleIssue s = .next (s.commit (lookUpds s)) := by
  show execBundleIssue s = _
  simp only [execBundleIssue, h.haltTrap, h.stage, h.after, ha]
  rfl
theorem exec_anchoredBundleIssue (ha : hdrAnchored s.stageBundle = true) :
    exec .anchoredBundleIssue s = .next (s.commit (lookUpds s)) := by
  show execAnchoredBundleIssue s = _
  simp only [execAnchoredBundleIssue, h.stage, h.after, ha]
  rfl
theorem Looks.waits (hw : s.curCtx.wait.active = true) : s.waitsAtStage = true := by
  simp [State.waitsAtStage, h.stage, hw, h.after]
theorem exec_lateTickExpiry (hw : s.curCtx.wait.active = true) (ha : hdrAnchored s.stageBundle = true)
    (ht : s.curCtx.anchorTarget s.stageBundle + s.curCtx.tguard < s.dieTick s.curCtx.die) :
    exec .lateTickExpiry s = .next (s.commit (lookUpds s)) := by
  show execLateTickExpiry s = _
  simp only [execLateTickExpiry, h.waits hw, ha, ht]
  rfl
theorem exec_waitLimit (hw : s.curCtx.wait.active = true) (hl : s.curCtx.waitlim ≠ 0)
    (ht : s.curCtx.progress + s.curCtx.waitlim < s.dieTick s.curCtx.die) : exec .waitLimit s = .next (s.commit (lookUpds s)) := by
  have hout : s.curCtx.waitedOut (s.dieTick s.curCtx.die) = true := by simp [Ctx.waitedOut, hl, ht]
  show execWaitLimit s = _
  simp only [execWaitLimit, h.waits hw, hout]
  rfl
theorem exec_cuffOverrun (hw : s.curCtx.wait.active = true)
    (hc : (s.curCtx.cuffLate (s.dieTick s.curCtx.die)).isSome = true) : exec .cuffOverrun s = .next (s.commit (lookUpds s)) := by
  show execCuffOverrun s = _
  simp only [execCuffOverrun, h.waits hw, hc]
  rfl

theorem lookUpds_eq : lookUpds s = lookWith s s.stageBundle (actsOf (s.arrived s.stageBundle) s.stageBundle) := by
  have hin : (s.curCtx.looping.isNone && decide (s.bmemBytes s.curKey < s.curCtx.pc + 64)) = false := by
    cases hl : s.curCtx.looping with
    | some l => rfl
    | none =>
      have hle : s.curCtx.pc + 64 ≤ s.bmemBytes s.curKey := h.inside hl
      simp [hle]
  have hearly : s.curCtx.early (s.bundle s.curCtx) = false := h.early
  simp only [lookUpds, h.acq, List.isEmpty_nil, Bool.true_or, if_true, stageUpds, h.after, hearly, List.all_nil, hin, Bool.not_true,
    Bool.false_eq_true, if_false]
  rfl

variable (hacts : actsOf (s.arrived s.stageBundle) s.stageBundle = [])
include hacts

/-- The bundle issues. -/
theorem commit_look_go (hg : ((s.arrived s.stageBundle).lookGuards s.stageBundle).choose (hdrElastic s.stageBundle) = .go) :
    s.commit (lookUpds s) = (s.arrived s.stageBundle).commit (issueUpds (s.arrived s.stageBundle) s.stageBundle) := by
  simp only [lookUpds_eq h, hacts, lookWith, State.commit_nil, hg]
  rfl

/-- The bundle takes a trap: it is then not the bundle being issued. -/
theorem commit_look_trap {t : Trap}
    (hg : ((s.arrived s.stageBundle).lookGuards s.stageBundle).choose (hdrElastic s.stageBundle) = .trap t) :
    s.commit (lookUpds s) = (s.running fun c => { arriveCtx s s.stageBundle c with iss := s.curCtx.iss }).commit
      (trapUpds (s.running fun c => { arriveCtx s s.stageBundle c with iss := s.curCtx.iss }) t) := by
  have happly : (s.arrived s.stageBundle).apply (.slot s.curKey fun x => { x with iss := s.curCtx.iss }) =
      s.running fun c => { arriveCtx s s.stageBundle c with iss := s.curCtx.iss } := apply_slot_slot s s.curKey _ _
  simp only [lookUpds_eq h, hacts, lookWith, State.commit_nil, hg]
  rw [← happly]
  rfl

end

/-! ## What issues (R29, R97, R157) -/

theorem pushAll_eq : ∀ (l : List (Nat × Nat × Effect)) (c : Ctx),
    c.pushAll l = { c with land := c.land ++ pushedList c.nextSeq l, nextSeq := c.nextSeq + l.length }
  | [], c => by
    show c = { c with land := c.land ++ [], nextSeq := c.nextSeq }
    rw [List.append_nil]
  | e :: l, c => by
    refine (pushAll_eq l (c.push e.1 e.2.1 e.2.2)).trans ?_
    rw [pushedList_cons, List.length_cons]
    show ({ c with land := (c.land ++ [_]) ++ _, nextSeq := c.nextSeq + 1 + l.length } : Ctx) = _
    rw [List.append_assoc, Nat.add_assoc, Nat.add_comm 1]
    rfl

theorem exists_mem_pushedList {e : Nat × Nat × Effect} : ∀ {l : List (Nat × Nat × Effect)}, e ∈ l → ∀ n,
    ∃ y ∈ pushedList n l, y.due = e.1 ∧ y.ph = e.2.1 ∧ y.eff = e.2.2
  | x :: l, h, n => by
    rw [pushedList_cons]
    obtain rfl | h := List.mem_cons.mp h
    · exact ⟨_, List.mem_cons_self, rfl, rfl, rfl⟩
    · obtain ⟨y, hy, he⟩ := exists_mem_pushedList h (n + 1)
      exact ⟨y, List.mem_cons_of_mem _ hy, he⟩

/-- A record that differs in the results in flight and the cuffs' buffers alone. -/
def SameButLand (c d : Ctx) : Prop := ∃ land seq cuffs, d = { c with land := land, nextSeq := seq, cuffs := cuffs }

theorem sameButLand_refl (c : Ctx) : SameButLand c c := ⟨c.land, c.nextSeq, c.cuffs, rfl⟩
theorem sameButLand_later (c : Ctx) (lat ph : Nat) (e : Effect) : SameButLand c (c.later lat ph e) := ⟨_, _, _, rfl⟩
theorem SameButLand.trans {c d e : Ctx} (h : SameButLand c d) (h' : SameButLand d e) : SameButLand c e := by
  obtain ⟨_, _, _, rfl⟩ := h
  obtain ⟨_, _, _, rfl⟩ := h'
  exact ⟨_, _, _, rfl⟩
theorem sameButLand_consume (n : Nat) (c : Ctx) : SameButLand c (c.consume n) := by
  unfold Ctx.consume
  split
  · exact ⟨_, _, _, rfl⟩
  · exact sameButLand_refl c
theorem sameButLand_consumes : ∀ (ns : List Nat) (c : Ctx), SameButLand c (ns.foldl (fun c n => c.consume n) c)
  | [], c => sameButLand_refl c
  | n :: ns, c => (sameButLand_consume n c).trans (sameButLand_consumes ns (c.consume n))

/-- The bundle's own sends and receives start (R87, R88). -/
def startCuffs (s : State) (b : Line) (c : Ctx) : Ctx :=
  let i := s.curCtx.iss
  let c := if i.rrt == 0 then c else c.later 1 phRead (.cuffSend i.rrt i.rrow (servedBy c b))
  (s.consumes c i).foldl (fun c n => c.consume n) c

theorem sameButLand_startCuffs (s : State) (b : Line) (c : Ctx) : SameButLand c (startCuffs s b c) := by
  refine SameButLand.trans ?_ (sameButLand_consumes _ _)
  split
  · exact sameButLand_refl c
  · exact sameButLand_later _ _ _ _

theorem commit_issueUpds (s : State) (b : Line) :
    (s.commit (issueUpds s b)).slot s.curKey = (startCuffs s b s.curCtx).issued b ∧ (s.commit (issueUpds s b)).mem = s.mem ∧
      (s.commit (issueUpds s b)).micro = ((State.active s.curCtx b).map fun x => x.2) ++ s.micro :=
  ⟨running_slot s fun c => (startCuffs s b c).issued b, rfl, rfl⟩

/-- What a pass begins with: the moved level's deltas, and its stage predicate. -/
def Ctx.passed (l : Loop) (c : Ctx) : Ctx :=
  (c.pushAll ((if l.pass + 1 < l.total then loopAdvance l.levels l.idx else (l.idx, [])).2.map fun d =>
    (c.iss.pos + c.iss.idle + 1, phDelta, .loopDelta d))).setG (physG c.grb 32) (l.pass + 1 < l.total)

section
variable {l : Loop} (c : Ctx)

theorem passed_g : (c.passed l).g (physG (c.passed l).grb 32) = decide (l.pass + 1 < l.total) := by
  rw [Ctx.passed, pushAll_eq]
  exact mget_mput_same _ _ _ _
theorem passed_deltas (h : l.pass + 1 < l.total) : ∀ x ∈ (loopAdvance l.levels l.idx).2, ∃ y ∈ (c.passed l).land,
    y.due = c.iss.pos + c.iss.idle + 1 ∧ y.ph = phDelta ∧ y.eff = .loopDelta x := by
  intro x hx
  obtain ⟨y, hy, he⟩ := exists_mem_pushedList (List.mem_map_of_mem (f := fun d => (c.iss.pos + c.iss.idle + 1, phDelta, Effect.loopDelta d)) hx) c.nextSeq
  refine ⟨y, ?_, he⟩
  rw [Ctx.passed, if_pos h, pushAll_eq]
  exact List.mem_append_right _ hy

theorem loopNext_within (h : l.at_ + 1 < l.body.length) :
    c.loopNext l = { c with loop := some { l with at_ := l.at_ + 1 }, pc := c.pc + 64 } := if_pos h

variable (h : l.body.length ≤ l.at_ + 1)
include h

theorem loopNext_pass (hp : l.pass + 1 < l.total + l.stages - 1) : c.loopNext l = { c.passed l with
    loop := some { l with at_ := 0, pass := l.pass + 1, idx := (if l.pass + 1 < l.total then loopAdvance l.levels l.idx else (l.idx, [])).1 }
    pc := l.pc
    origin := (c.passed l).origin + l.len
    spanAt := (c.passed l).spanAt + l.len
    stamp := hdrStamp (l.body.headD 0) - 1 } :=
  (if_neg (Nat.not_lt.mpr h)).trans (if_pos hp)
theorem loopNext_exit (hp : l.total + l.stages - 1 ≤ l.pass + 1) :
    c.loopNext l = { c.passed l with loop := none, pc := l.pc + 64 * l.body.length } :=
  (if_neg (Nat.not_lt.mpr h)).trans (if_neg (Nat.not_lt.mpr hp))

end

theorem loopNext_keeps (l : Loop) (c : Ctx) : ∃ loop pc land seq stage origin spanAt stamp, c.loopNext l = { c with
    loop := loop, pc := pc, land := land, nextSeq := seq, stage := stage, origin := origin, spanAt := spanAt, stamp := stamp } := by
  by_cases h : l.at_ + 1 < l.body.length
  · exact ⟨_, _, _, _, _, _, _, _, loopNext_within c h⟩
  · by_cases hp : l.pass + 1 < l.total + l.stages - 1
    · rw [loopNext_pass c (Nat.not_lt.mp h) hp, Ctx.passed, pushAll_eq]
      exact ⟨_, _, _, _, _, _, _, _, rfl⟩
    · rw [loopNext_exit c (Nat.not_lt.mp h) (Nat.not_lt.mp hp), Ctx.passed, pushAll_eq]
      exact ⟨_, _, _, _, _, _, _, _, rfl⟩

/-- The record of a slot whose bundle has issued, before its names rotate and what follows it. -/
def Ctx.counted (b : Line) (c : Ctx) : Ctx :=
  let stamp := if c.iss.elastic || c.nhist.isEmpty then 0 else hdrStamp b
  { c with
    nhist := c.iss :: c.nhist.take 7
    earliest := c.iss.pos + c.iss.idle + 1
    origin := if !c.continues b then (c.iss.pos : Int) - stamp else c.origin
    spanAt := if !c.continues b then c.iss.pos else c.spanAt
    anchorOk := if !c.continues b then c.iss.anchored else c.anchorOk
    stamp := stamp
    fresh := false
    alast := if c.iss.anchored then (c.iss.target : Int) else c.alast
    wait := { c.wait with active := false }
    acqUntil := []
    progress := if c.iss.wrt != 0 then c.iss.tick else c.progress }
/-- The same with its names rotated (R97). -/
def Ctx.placed_ (b : Line) (c : Ctx) : Ctx := if hdrRot b then (c.counted b).rotate else c.counted b

theorem SameRegisters.of_same {c d e : Ctx} (h : SameRegisters d e) (h' : SameRegisters c d) : SameRegisters c e := by
  obtain ⟨hs, hp, hv, hm, ha⟩ := h
  obtain ⟨hs', hp', hv', hm', ha'⟩ := h'
  exact ⟨hs.trans hs', hp.trans hp', hv.trans hv', hm.trans hm', ha.trans ha'⟩
theorem SameButLand.sameRegisters {c d : Ctx} (h : SameButLand c d) : SameRegisters c d := by
  obtain ⟨_, _, _, rfl⟩ := h
  exact ⟨rfl, rfl, rfl, rfl, rfl⟩

section
variable (b : Line) (c : Ctx)

theorem issued_of_none (h : c.looping = none) : c.issued b = { c.placed_ b with pc := c.iss.pc + 64 } := by
  simp only [Ctx.issued, h]
  rfl
theorem issued_of_loop {l : Loop} (h : c.looping = some l) : c.issued b = (c.placed_ b).loopNext l := by
  simp only [Ctx.issued, h]
  rfl

theorem counted_fields : SameRegisters c (c.counted b) ∧ (c.counted b).earliest = c.iss.pos + c.iss.idle + 1 ∧
    (c.counted b).fresh = false ∧ (c.counted b).iss = c.iss ∧
    (c.counted b).alast = (if c.iss.anchored then (c.iss.target : Int) else c.alast) ∧
    (c.counted b).rrb = c.rrb ∧ (c.counted b).pc = c.pc ∧ (c.counted b).loop = c.loop ∧
    (c.continues b = true → (c.counted b).origin = c.origin) := by
  unfold Ctx.counted
  simp only [SameRegisters, and_self, true_and]
  exact fun h => if_neg (by simp [h])
theorem rotate_fields : SameRegisters c c.rotate ∧ c.rotate.earliest = c.earliest ∧ c.rotate.fresh = c.fresh ∧ c.rotate.iss = c.iss ∧
    c.rotate.alast = c.alast ∧ c.rotate.rrb = (c.rrb + 511) % 512 ∧ c.rotate.pc = c.pc ∧ c.rotate.loop = c.loop ∧
    c.rotate.origin = c.origin := by
  unfold Ctx.rotate
  simp only [SameRegisters, and_self]

/-- What an issue leaves of the slot's record, whatever follows. -/
theorem placed_fields : SameRegisters c (c.placed_ b) ∧ (c.placed_ b).earliest = c.iss.pos + c.iss.idle + 1 ∧
    (c.placed_ b).fresh = false ∧ (c.placed_ b).iss = c.iss ∧
    (c.placed_ b).alast = (if c.iss.anchored then (c.iss.target : Int) else c.alast) ∧
    (c.placed_ b).rrb = (if hdrRot b then (c.rrb + 511) % 512 else c.rrb) ∧ (c.placed_ b).pc = c.pc ∧ (c.placed_ b).loop = c.loop ∧
    (c.continues b = true → (c.placed_ b).origin = c.origin) := by
  have hc := counted_fields b c
  unfold Ctx.placed_
  split
  · obtain ⟨h1, h2, h3, h4, h5, h6, h7, h8, h9⟩ := hc
    obtain ⟨r1, r2, r3, r4, r5, r6, r7, r8, r9⟩ := rotate_fields (c.counted b)
    exact ⟨r1.of_same h1, r2.trans h2, r3.trans h3, r4.trans h4, r5.trans h5, r6.trans (by rw [h6]), r7.trans h7, r8.trans h8,
      fun h => r9.trans (h9 h)⟩
  · exact hc

theorem issued_fields : SameRegisters c (c.issued b) ∧ (c.issued b).earliest = c.iss.pos + c.iss.idle + 1 ∧
    (c.issued b).fresh = false ∧ (c.issued b).iss = c.iss ∧
    (c.issued b).alast = (if c.iss.anchored then (c.iss.target : Int) else c.alast) ∧
    (c.issued b).rrb = if hdrRot b then (c.rrb + 511) % 512 else c.rrb := by
  obtain ⟨⟨hs, hp, hv, hm, ha⟩, he, hf, hi, hl, hr, -⟩ := placed_fields b c
  cases hloop : c.looping with
  | none =>
    rw [issued_of_none b c hloop]
    exact ⟨⟨hs, hp, hv, hm, ha⟩, he, hf, hi, hl, hr⟩
  | some l =>
    obtain ⟨_, _, _, _, _, _, _, _, hn⟩ := loopNext_keeps l (c.placed_ b)
    rw [issued_of_loop b c hloop, hn]
    exact ⟨⟨hs, hp, hv, hm, ha⟩, he, hf, hi, hl, hr⟩

theorem issued_next (h : c.looping = none) : (c.issued b).pc = c.iss.pc + 64 ∧ (c.issued b).loop = c.loop := by
  obtain ⟨-, -, -, -, -, -, -, hl, -⟩ := placed_fields b c
  rw [issued_of_none b c h]
  exact ⟨rfl, hl⟩

variable {c} {l : Loop} (hl : c.looping = some l)
include hl

theorem issued_within (h : l.at_ + 1 < l.body.length) :
    (c.issued b).pc = c.pc + 64 ∧ (c.issued b).loop = some { l with at_ := l.at_ + 1 } := by
  obtain ⟨-, -, -, -, -, -, hpc, -, -⟩ := placed_fields b c
  rw [issued_of_loop b c hl, loopNext_within (c.placed_ b) h]
  exact ⟨congrArg (· + 64) hpc, rfl⟩

variable (h : l.body.length ≤ l.at_ + 1)
include h

theorem issued_last : (c.issued b).g (physG (c.issued b).grb 32) = decide (l.pass + 1 < l.total) ∧
    (l.pass + 1 < l.total → ∀ x ∈ (loopAdvance l.levels l.idx).2, ∃ y ∈ (c.issued b).land,
      y.due = c.iss.pos + c.iss.idle + 1 ∧ y.ph = phDelta ∧ y.eff = .loopDelta x) := by
  have hpos : (c.placed_ b).iss = c.iss := (placed_fields b c).2.2.2.1
  have hg := passed_g (l := l) (c.placed_ b)
  have hd := passed_deltas (l := l) (c.placed_ b)
  rw [hpos] at hd
  rw [issued_of_loop b c hl]
  by_cases hp : l.pass + 1 < l.total + l.stages - 1
  · rw [loopNext_pass _ h hp]
    exact ⟨hg, hd⟩
  · rw [loopNext_exit _ h (Nat.not_lt.mp hp)]
    exact ⟨hg, hd⟩

theorem issued_pass (hp : l.pass + 1 < l.total + l.stages - 1) : (c.issued b).pc = l.pc ∧
    (c.issued b).loop = some { l with
      at_ := 0, pass := l.pass + 1, idx := if l.pass + 1 < l.total then (loopAdvance l.levels l.idx).1 else l.idx } ∧
    (c.continues b = true → (c.issued b).origin = c.origin + l.len) := by
  obtain ⟨-, -, -, -, -, -, -, -, ho⟩ := placed_fields b c
  rw [issued_of_loop b c hl, loopNext_pass _ h hp]
  refine ⟨rfl, ?_, fun hc => ?_⟩
  · split
    · rfl
    · rfl
  · have hp : ((c.placed_ b).passed l).origin = (c.placed_ b).origin := by rw [Ctx.passed, pushAll_eq]; rfl
    exact congrArg (· + (l.len : Int)) (hp.trans (ho hc))
theorem issued_exit (hp : l.total + l.stages - 1 ≤ l.pass + 1) :
    (c.issued b).pc = l.pc + 64 * l.body.length ∧ (c.issued b).loop = none := by
  rw [issued_of_loop b c hl, loopNext_exit _ h hp]
  exact ⟨rfl, rfl⟩

end

/-- An instruction of a loop's bundle that is not squashed has its stage predicate (R157). -/
theorem active_stage {c : Ctx} {b : Line} {x : Nat × Instr} (hx : x ∈ State.active c b) {l : Loop} (hl : c.looping = some l)
    (hc : bits (at0 l.codes l.at_ 0).toNat (4 * x.1 + 3) (4 * x.1) < 15) :
    c.g (physG c.grb (32 + bits (at0 l.codes l.at_ 0).toNat (4 * x.1 + 3) (4 * x.1))) = true := by
  obtain ⟨n, -, hn⟩ := List.mem_filterMap.mp hx
  by_cases hsq : c.squashed n = true
  · rw [if_pos hsq] at hn
    cases hn
  · rw [if_neg hsq] at hn
    have hxn : x.1 = n := by
      split at hn
      · cases hn
      · cases hn; rfl
      · cases hn
    subst hxn
    simp only [Ctx.squashed, hl, hc, decide_true, Bool.true_and, Bool.not_eq_true'] at hsq
    simpa using hsq

/-- What an issue reads of the slot's record stays when results in flight join. -/
theorem SameButLand.fields {c d : Ctx} (h : SameButLand c d) : d.iss = c.iss ∧ d.looping = c.looping ∧
    (∀ b, d.continues b = c.continues b) ∧ d.alast = c.alast ∧ d.rrb = c.rrb ∧ d.pc = c.pc ∧ d.loop = c.loop ∧ d.origin = c.origin := by
  obtain ⟨_, _, _, rfl⟩ := h
  exact ⟨rfl, rfl, fun _ => rfl, rfl, rfl, rfl, rfl, rfl⟩
theorem arriveCtx_fields (s : State) (b : Line) (c : Ctx) : SameRegisters c (arriveCtx s b c) ∧ (arriveCtx s b c).iss = s.issueOf c b ∧
    (arriveCtx s b c).looping = c.looping ∧ (∀ b', (arriveCtx s b c).continues b' = c.continues b') ∧
    (arriveCtx s b c).alast = c.alast ∧ (arriveCtx s b c).rrb = c.rrb ∧ (arriveCtx s b c).pc = c.pc ∧
    (arriveCtx s b c).loop = c.loop ∧ (arriveCtx s b c).origin = c.origin :=
  ⟨⟨rfl, rfl, rfl, rfl, rfl⟩, rfl, rfl, fun _ => rfl, rfl, rfl, rfl, rfl, rfl⟩

/-- What the issue of a slot's bundle leaves of its record. -/
def IssuedRecord (s : State) (b : Line) (c d : Ctx) : Prop :=
  SameRegisters c d ∧ d.earliest = c.pos + hdrIdle b + 1 ∧ d.fresh = false ∧
  d.iss = s.issueOf c b ∧ d.alast = (if hdrAnchored b then ((c.anchorTarget b).toNat : Int) else c.alast) ∧
  d.rrb = (if hdrRot b then (c.rrb + 511) % 512 else c.rrb) ∧
  (c.looping = none → d.pc = c.pc + 64 ∧ d.loop = c.loop) ∧
  (∀ l, c.looping = some l →
    (∀ x ∈ State.active (arriveCtx s b c) b, let code := bits (at0 l.codes l.at_ 0).toNat (4 * x.1 + 3) (4 * x.1)
      code < 15 → c.g (physG c.grb (32 + code)) = true) ∧
    (l.at_ + 1 < l.body.length → d.pc = c.pc + 64 ∧ d.loop = some { l with at_ := l.at_ + 1 }) ∧
    (l.body.length ≤ l.at_ + 1 →
      let more := l.pass + 1 < l.total
      let next := loopAdvance l.levels l.idx
      d.g (physG d.grb 32) = decide more ∧
      (more → ∀ x ∈ next.2, ∃ y ∈ d.land, y.due = c.pos + hdrIdle b + 1 ∧ y.ph = phDelta ∧ y.eff = .loopDelta x) ∧
      (l.pass + 1 < l.total + l.stages - 1 → d.pc = l.pc ∧
        d.loop = some { l with at_ := 0, pass := l.pass + 1, idx := if more then next.1 else l.idx } ∧
        (c.continues b = true → d.origin = c.origin + l.len)) ∧
      (l.total + l.stages - 1 ≤ l.pass + 1 → d.pc = l.pc + 64 * l.body.length ∧ d.loop = none)))

theorem issuedRecord_of (s : State) (b : Line) (c : Ctx) {d : Ctx} (hd : SameButLand (arriveCtx s b c) d) :
    IssuedRecord s b c (d.issued b) := by
  obtain ⟨ha, hai, haloop, hacont, hal, har, hapc, halo, hao⟩ := arriveCtx_fields s b c
  obtain ⟨hi, hloop, hcont, hl, hr, hpc, hlo, ho⟩ := hd.fields
  have hiss : d.iss = s.issueOf c b := hi.trans hai
  have hloop : d.looping = c.looping := hloop.trans haloop
  have hcont : d.continues b = c.continues b := (hcont b).trans (hacont b)
  have hpc : d.pc = c.pc := hpc.trans hapc
  obtain ⟨fr, fe, ff, fi, fa, fb⟩ := issued_fields b d
  rw [hiss] at fe fi fa
  refine ⟨fr.of_same (hd.sameRegisters.of_same ha), fe, ff, fi, fa.trans ?_, fb.trans (by rw [hr.trans har]), fun hn => ?_, fun l hsome => ⟨?_, fun h => ?_, fun h => ?_⟩⟩
  · rw [hl.trans hal]
    show (if hdrAnchored b = true then (((if hdrAnchored b then (c.anchorTarget b).toNat else c.iss.target : Nat)) : Int) else c.alast) = _
    split
    · rfl
    · rfl
  · obtain ⟨h1, h2⟩ := issued_next b d (hloop.trans hn)
    rw [hiss] at h1
    exact ⟨h1, h2.trans (hlo.trans halo)⟩
  · intro x hx code hc
    exact active_stage hx (haloop.trans hsome) hc
  · obtain ⟨h1, h2⟩ := issued_within b (hloop.trans hsome) h
    exact ⟨h1.trans (by rw [hpc]), h2⟩
  · obtain ⟨hg, hdelta⟩ := issued_last b (hloop.trans hsome) h
    rw [hiss] at hdelta
    refine ⟨hg, hdelta, fun hp => ?_, fun hp => issued_exit b (hloop.trans hsome) h hp⟩
    obtain ⟨h1, h2, h3⟩ := issued_pass b (hloop.trans hsome) h hp
    exact ⟨h1, h2, fun hc => (h3 (hcont.trans hc)).trans (by rw [ho.trans hao])⟩

theorem arrivals_nil {s : State} {b : Line} (h : ∀ x ∈ State.active s.curCtx b, ∀ u : State, slotArrive x.2 u = []) :
    arrivals s b = [] := by
  unfold arrivals
  generalize State.active s.curCtx b = l at h
  induction l with
  | nil => rfl
  | cons x l ih =>
    have hx : (match x.2 with
        | .yield _ => if (s.commit []).comesToYield b then slotArrive x.2 (s.commit []) else []
        | i => slotArrive i (s.commit [])) = [] := by
      split
      · rw [h x List.mem_cons_self, ite_self]
      · exact h x List.mem_cons_self _
    rw [List.foldl_cons]
    refine (congrArg (fun u => List.foldl _ u l) ?_).trans (ih fun y hy => h y (List.mem_cons_of_mem x hy))
    exact hx

end Sys2Proof.Machine
end
section
open Sys2Proof Sys2Proof.Machine

/-- Settles O45: nothing acts on arrival, so the look is the bundle's issue, whose record is taken apart by what follows it. -/
theorem bundleIssues : Obligations.BundleIssues := by
  unfold Obligations.BundleIssues
  intro s c b s1 i hstage hpend hearly hacq hin hgo harr
  have hlooks : Looks s := ⟨hstage, hpend, hearly, hacq, hin⟩
  have hcur : s1.curCtx = arriveCtx s b c := arrived_curCtx s b
  have hacts : actsOf (s.arrived b) b = [] := by
    unfold actsOf
    split
    · rfl
    · next h =>
      have he : hdrElastic b = true := by
        simp only [Bool.or_eq_true, Bool.not_eq_true', not_or, Bool.not_eq_false] at h
        exact h.1
      exact arrivals_nil (harr he)
  have hexec : exec i s = .next ((s.arrived b).commit (issueUpds (s.arrived b) b)) := by
    rw [← commit_look_go hlooks hacts hgo]
    by_cases ha : hdrAnchored b = true
    · exact (congrArg (fun i => exec i s) (if_pos ha)).trans (exec_anchoredBundleIssue hlooks ha)
    · exact (congrArg (fun i => exec i s) (if_neg ha)).trans (exec_bundleIssue hlooks (Bool.eq_false_iff.mpr ha))
  obtain ⟨hslot, hmem, hmicro⟩ := commit_issueUpds (s.arrived b) b
  refine ⟨_, hexec, ?_, hmem, ?_⟩
  · rw [hmicro]
    show _ ++ s.micro = _
    rw [hlooks.micro, List.append_nil]
    rfl
  · have hd : SameButLand (arriveCtx s b c) (startCuffs (s.arrived b) b (s.arrived b).curCtx) := by
      rw [arrived_curCtx]
      exact sameButLand_startCuffs _ _ _
    have hrec := issuedRecord_of s b c hd
    rw [← hslot] at hrec
    rw [hcur]
    exact hrec

end

section
/-! SUPPORT. Traps at the issue stage (R245, R249), and what happens beside it (R55, R87–R89, R254, R425). -/

namespace Sys2Proof.Machine

/-! ## A trap of the bundle in a region with a handler -/

/-- Changes that leave memory, what a bundle has left to do, and of every slot all but what it has bound. -/
def KeepsSlots (us : List Upd) : Prop := ∀ u : State, (u.commit us).mem = u.mem ∧ (u.commit us).micro = u.micro ∧
  ∀ j, ∃ b, (u.commit us).slot j = { u.slot j with bound := b }

theorem keepsSlots_nil : KeepsSlots [] := fun u => ⟨rfl, rfl, fun j => ⟨(u.slot j).bound, rfl⟩⟩
theorem KeepsSlots.append {us vs : List Upd} (h : KeepsSlots us) (h' : KeepsSlots vs) : KeepsSlots (us ++ vs) := fun u => by
  obtain ⟨hm, hi, hs⟩ := h u
  obtain ⟨hm', hi', hs'⟩ := h' (u.commit us)
  rw [State.commit_append]
  refine ⟨hm'.trans hm, hi'.trans hi, fun j => ?_⟩
  obtain ⟨b, hb⟩ := hs j
  obtain ⟨b', hb'⟩ := hs' j
  exact ⟨b', by rw [hb', hb]⟩
theorem keepsSlots_bindUpds (s : State) (c : Ctx) (n : Nat) (g : Circuit → Circuit) : KeepsSlots (bindUpds s c n g) := fun u => by
  obtain ⟨hm, -, -, hs⟩ := commit_bindUpds s u c n g
  exact ⟨hm, rfl, hs⟩
theorem Notes.keepsSlots {us : List Upd} (h : Notes us) : KeepsSlots us := fun u => by
  obtain ⟨d, n, he⟩ := h u
  rw [he]
  exact ⟨rfl, rfl, fun j => ⟨(u.slot j).bound, rfl⟩⟩
theorem keepsSlots_dropReqs : ∀ rs : List Req, KeepsSlots (rs.map fun r => .dropReq r.id)
  | [] => keepsSlots_nil
  | r :: rs => KeepsSlots.append (us := [.dropReq r.id]) (fun u => ⟨rfl, rfl, fun j => ⟨(u.slot j).bound, rfl⟩⟩) (keepsSlots_dropReqs rs)

theorem notes_machineNote (s : State) (c : Ctx) (t : Trap) : Notes (machineNote s c t) := by
  unfold machineNote
  split
  · dsimp only
    split
    · exact notes_flatMap fun _ _ => notes_eccLog _ _ _ _ _
    · exact notes_eccLog _ _ _ _ _
  · exact notes_nil

/-- What a trap is preceded by, beside the slot's own record (R239, R256, R425). -/
def beforeTrap (s : State) (t : Trap) : List Upd :=
  (if s.curCtx.late.contains t then [] else xTrapUpds s t) ++ machineNote s s.curCtx t ++ dropAsked s s.curKey

theorem keepsSlots_beforeTrap (s : State) (t : Trap) : KeepsSlots (beforeTrap s t) := by
  refine KeepsSlots.append (KeepsSlots.append ?_ (notes_machineNote _ _ _).keepsSlots) (keepsSlots_dropReqs _)
  split
  · exact keepsSlots_nil
  · unfold xTrapUpds
    split
    · exact keepsSlots_bindUpds _ _ _ _
    · exact keepsSlots_nil

/-- The trap leaves what waits in the slot's record. -/
def clearTrap (s : State) (t : Trap) (c : Ctx) : Ctx :=
  let c := { c with deferred := if t.kind == .deferred then [] else c.deferred
                    pending := if c.pending == some t then none else c.pending
                    late := c.late.erase t }
  if t.cause == .cuffOverrun then c.cuffTold t (s.dieTick c.die) else c

theorem clearTrap_eq (s : State) (t : Trap) (c : Ctx) : ∃ deferred pending late lost cuffs, clearTrap s t c = { c with
    deferred := deferred, pending := pending, late := late, lost := lost, cuffs := cuffs } := by
  unfold clearTrap
  dsimp only
  split
  · exact ⟨_, _, _, _, _, rfl⟩
  · exact ⟨_, _, _, c.lost, c.cuffs, rfl⟩

theorem Trap.fsr_code (t : Trap) (rpc : Nat) : bits (t.fsr rpc true).toNat 7 0 = t.cause.code ∧ (t.fsr rpc true).getLsbD 11 = true := by
  have h1 := t.cause.code_lt
  have h2 := t.cause.class_lt
  have h3 := t.kind.code_lt
  simp only [BitVec.getLsbD, Nat.testBit_eq_decide_div_mod_eq, decide_eq_true_eq, Trap.fsr_toNat, bits]
  exact ⟨by omega, by omega⟩

theorem enterHandler_fields (h : Nat) (t : Trap) (c : Ctx) : SameRegisters c (c.enterHandler h t) ∧ (c.enterHandler h t).pc = h ∧
    (c.enterHandler h t).far = word t.addr ∧ bits (c.enterHandler h t).fsr.toNat 7 0 = t.cause.code ∧
    (c.enterHandler h t).fsr.getLsbD 11 = true := by
  obtain ⟨hc, hin⟩ := t.fsr_code (c.pc / 64)
  exact ⟨⟨rfl, rfl, rfl, rfl, rfl⟩, rfl, rfl, hc, hin⟩

theorem commit_nodes_slots (u : State) (r r' : Rid) (k k' : SlotKey) (f f' : Node → Node) (g g' : Ctx → Ctx) :
    (u.commit ([.node r f, .node r' f'] ++ [.slot k g, .slot k' g'])).mem = u.mem ∧
      (u.commit ([.node r f, .node r' f'] ++ [.slot k g, .slot k' g'])).micro = u.micro := ⟨rfl, rfl⟩

section
variable {s : State} {t : Trap} {h : Nat} (hh : (s.node (keyRid s.curKey)).handler = some h) (hin : s.curCtx.fsr.getLsbD 11 = false)
include hh hin

/-- A trap that a bundle raises enters the handler, whose record differs as T13.2 says. -/
theorem commit_trapUpds : ∃ c', SameRegisters s.curCtx c' ∧ (s.commit (trapUpds s t)).slot s.curKey = c'.enterHandler h t ∧
    (s.commit (trapUpds s t)).mem = s.mem ∧ (s.commit (trapUpds s t)).micro = s.micro := by
  have hclear : SameRegisters s.curCtx (clearTrap s t s.curCtx) ∧ (clearTrap s t s.curCtx).fsr = s.curCtx.fsr := by
    obtain ⟨_, _, _, _, _, he⟩ := clearTrap_eq s t s.curCtx
    rw [he]
    exact ⟨⟨rfl, rfl, rfl, rfl, rfl⟩, rfl⟩
  have htake : takeTrap (s.commit [.slot s.curKey (clearTrap s t)]) s.curKey t = [.slot s.curKey (Ctx.enterHandler h t)] := by
    have hslot : (s.commit [.slot s.curKey (clearTrap s t)]).slot s.curKey = clearTrap s t s.curCtx := running_slot s _
    have hn : ((s.commit [.slot s.curKey (clearTrap s t)]).node (keyRid s.curKey)).handler = some h := hh
    have hi : ((s.commit [.slot s.curKey (clearTrap s t)]).slot s.curKey).inHandler = false := by
      rw [hslot, Ctx.inHandler, hclear.2]
      exact hin
    simp only [takeTrap, hn, hi]
  have hupds : trapUpds s t = beforeTrap s t ++ ([s.curCtx.unyield, .node s.curCtx.rid (fun n => { n with newAct := false })] ++
      [.slot s.curKey (clearTrap s t), .slot s.curKey (Ctx.enterHandler h t)]) := by
    show beforeTrap s t ++ [s.curCtx.unyield, .node s.curCtx.rid (fun n => { n with newAct := false }), .slot s.curKey (clearTrap s t)] ++
      takeTrap (s.commit [.slot s.curKey (clearTrap s t)]) s.curKey t = _
    rw [htake, List.append_assoc]
    rfl
  obtain ⟨hm, hi, hs⟩ := keepsSlots_beforeTrap s t s
  obtain ⟨b, hb⟩ := hs s.curKey
  refine ⟨clearTrap s t { s.curCtx with bound := b }, ?_, ?_, ?_, ?_⟩
  · obtain ⟨_, _, _, _, _, he⟩ := clearTrap_eq s t { s.curCtx with bound := b }
    rw [he]
    exact ⟨rfl, rfl, rfl, rfl, rfl⟩
  · rw [hupds, State.commit_append, State.commit_append]
    simp only [State.commit_cons, State.commit_nil, apply_slot_slot]
    rw [State.slot_apply_slot, if_pos rfl]
    show (clearTrap s t ((s.commit (beforeTrap s t)).slot s.curKey)).enterHandler h t = _
    rw [hb]
    rfl
  · rw [hupds, State.commit_append]
    exact (commit_nodes_slots _ _ _ _ _ _ _ _ _).1.trans hm
  · rw [hupds, State.commit_append]
    exact (commit_nodes_slots _ _ _ _ _ _ _ _ _).2.trans hi

end

/-! ## Contexts of a die (R55) -/

theorem mfind_of_mem {β : Type} {k : Nat} {v : β} : ∀ {lo : Nat} {m : SMap β}, keysFrom lo m = true → (k, v) ∈ m → mfind k m = some v
  | lo, (j, w) :: m, hn, h => by
    simp only [keysFrom, Bool.and_eq_true, decide_eq_true_eq] at hn
    rcases List.mem_cons.mp h with he | h
    · cases he
      simp [mfind]
    · have hlt : j < k := (keysFrom_nodup hn.2).2 _ h
      simp only [mfind]
      rw [if_neg (by simpa using Nat.ne_of_lt hlt), if_pos hlt]
      exact mfind_of_mem hn.2 h

/-- One change of several slots, where making it twice changes nothing. -/
theorem mfind_commit_slots {f : Ctx → Ctx} (hf : ∀ c, f (f c) = f c) {k : SlotKey} : ∀ (l : List (SlotKey × Ctx)) {s : State} {c : Ctx},
    mfind k s.slots = some c →
    mfind k (s.commit (l.map fun e => .slot e.1 f)).slots = some (if k ∈ l.map (fun e => e.1) then f c else c)
  | [], _, _, h => by simpa using h
  | e :: l, s, c, h => by
    rw [List.map_cons, State.commit_cons]
    by_cases he : k = e.1
    · have h1 : mfind k (s.apply (.slot e.1 f)).slots = some (f c) := by
        subst he
        show mfind e.1 (mput e.1 (f (mget s.slots e.1 .blank)) s.slots) = _
        rw [mfind_mput_same, mget, h]
        rfl
      rw [mfind_commit_slots hf l h1, hf, ite_self, if_pos (by simp [he])]
    · have h1 : mfind k (s.apply (.slot e.1 f)).slots = some c := by
        show mfind k (mput e.1 (f (mget s.slots e.1 .blank)) s.slots) = _
        rw [mfind_mput_ne he, h]
      rw [mfind_commit_slots hf l h1]
      simp only [List.map_cons, List.mem_cons, he, false_or]

/-- A context that has recorded the broken bound of R55. -/
def slipMarked (c : Ctx) : Ctx := { c with slipSeen := true }

theorem mem_contextsOf {s : State} {d : DieId} (hs : s.Canon) {k : SlotKey} {c : Ctx} (h : mfind k s.slots = some c) :
    k ∈ (s.contextsOf d).map (fun e => e.1) ↔ (c.mode != .idle && c.die == d) = true := by
  have hn := hs.slots
  constructor
  · intro hk
    obtain ⟨⟨k', c'⟩, he, hkk⟩ := List.mem_map.mp hk
    obtain ⟨hmem, hp⟩ := List.mem_filter.mp he
    cases hkk
    have := mfind_of_mem hn hmem
    rw [h] at this
    cases this
    exact hp
  · exact fun hp => List.mem_map.mpr ⟨(k, c), List.mem_filter.mpr ⟨mem_of_mfind h, hp⟩, rfl⟩

theorem commit_slots_only : ∀ (l : List (SlotKey × Ctx)) (f : Ctx → Ctx) (s : State),
    s.commit (l.map fun e => .slot e.1 f) = { s with slots := (s.commit (l.map fun e => .slot e.1 f)).slots }
  | [], _, _ => rfl
  | e :: l, f, s => by
    rw [List.map_cons, State.commit_cons]
    exact commit_slots_only l f (s.apply (.slot e.1 f))

/-- The slot of a change that is made of one record, as a record that is put. -/
theorem apply_slot_eq (s : State) (k : SlotKey) (f : Ctx → Ctx) : s.apply (.slot k f) = s.withCtx k (f (s.slot k)) := rfl
theorem commit_die_slot_eq (s : State) (d : DieId) (k : SlotKey) (f : Die → Die) (g : Ctx → Ctx) :
    s.commit [.die d f, .slot k g] = (s.withDie d (f (s.die d))).withCtx k (g (s.slot k)) := rfl

end Sys2Proof.Machine
end
section
open Sys2Proof Sys2Proof.Machine

/-- Settles O46: a look that nothing precedes takes the trap chosen, and the handler is entered. -/
theorem stageTraps : Obligations.StageTraps := by
  unfold Obligations.StageTraps
  intro s t h c b tick s1 hstage hpend hearly hacq hin hch hprompt hkind hh hfsr enters
  have hlooks : Looks s := ⟨hstage, hpend, hearly, hacq, hin⟩
  have hacts : actsOf (s.arrived b) b = [] := by
    refine if_pos ?_
    cases he : hdrElastic b with
    | false => rfl
    | true =>
      have hp : ((s.arrived b).lookGuards b).prompt ≠ [] := hprompt he
      simpa using hp
  have hrun : ∀ i, exec i s = .next (s.commit (lookUpds s)) → enters i := by
    intro i hi
    have hcur : (s.running fun c => { arriveCtx s b c with iss := s.curCtx.iss }).curCtx = { arriveCtx s b c with iss := s.curCtx.iss } :=
      running_curCtx s _
    obtain ⟨c', hsame, hslot, hmem, hmicro⟩ := commit_trapUpds (s := s.running fun c => { arriveCtx s b c with iss := s.curCtx.iss }) (t := t) hh
      (by rw [hcur]; exact hfsr)
    rw [hcur] at hsame
    obtain ⟨hregs, hpc, hfar, hcode, hbit⟩ := enterHandler_fields h t c'
    refine ⟨_, hi, ?_⟩
    rw [commit_look_trap hlooks hacts hch]
    refine ⟨?_, hmem, ?_⟩
    · exact sameRegisters_of_eq hslot (hregs.of_same hsame)
    · rw [show ((s.running fun c => { arriveCtx s b c with iss := s.curCtx.iss }).commit
        (trapUpds (s.running fun c => { arriveCtx s b c with iss := s.curCtx.iss }) t)).slot s.curKey = c'.enterHandler h t from hslot]
      exact ⟨hpc, hfar, hcode, hbit, hmicro⟩
  exact ⟨fun ha => hrun _ (exec_bundleIssue hlooks ha), fun ha => hrun _ (exec_anchoredBundleIssue hlooks ha),
    fun hw ha ht => hrun _ (exec_lateTickExpiry hlooks hw ha ht), fun hw hl ht => hrun _ (exec_waitLimit hlooks hw hl ht),
    fun hw hc => hrun _ (exec_cuffOverrun hlooks hw hc)⟩

/-- Settles O47: each event beside the stage by its own equation. -/
theorem besideTheStage : Obligations.BesideTheStage := by
  unfold Obligations.BesideTheStage
  intro s die
  refine ⟨?_, ?_, ?_, ?_⟩
  · intro x cuff hcuff hx k c
    have hmod : cuff % 4 = cuff := Nat.mod_eq_of_lt (by omega)
    have hexec : exec (.cuffLanding die cuff) s = .next ((s.withDie die { s.die die with cuffIn := (s.die die).cuffIn.erase x }).withCtx k
        (if (c.cuff cuff).length < 136 then { c with cuffs := mmod c.cuffs cuff [] fun l => l ++ [x.2] }
          else if c.lost.contains cuff then c else { c with lost := c.lost ++ [cuff] })) := by
      show execCuffLanding die cuff s = _
      simp only [execCuffLanding, hmod, hx]
      rfl
    refine ⟨_, fun hl => ?_, fun hl => ?_, rfl⟩
    · rw [hexec, if_pos hl]
      rfl
    · rw [hexec, if_neg (Nat.not_lt.mpr hl)]
      congr 2
      split
      · rfl
      · rfl
  · intro hcanon hdue
    have hexec : exec .slipExceeded s = .next (s.commit ((s.contextsOf s.cur).map fun e => .slot e.1 slipMarked)) := if_pos hdue
    refine ⟨_, hexec, commit_slots_only _ _ _, ?_⟩
    intro k c hk
    rw [mfind_commit_slots (f := slipMarked) (fun _ => rfl) _ hk]
    by_cases hp : (c.mode != .idle && c.die == s.cur) = true
    · rw [if_pos ((mem_contextsOf hcanon hk).mpr hp), if_pos hp]
      rfl
    · rw [if_neg (fun hm => hp ((mem_contextsOf hcanon hk).mp hm)), if_neg hp]
  · intro f hact hsent hmode hdec hon hreq hword hfault
    have hread : exec .waitwReread s = .next (s.commit (s.newReq s.curKey 0 (.load 8 false) (f.av s.curCtx) s.curCtx.iss.pc none none ++
        [.slot s.curKey fun c => { c with wait := { c.wait with sent := true, lastRead := s.dieTick c.die } }])) := by
      show execWaitwReread s = _
      simp only [execWaitwReread, hact, hsent, hmode, hdec, hon, waitwRead, hreq, hword, hfault]
      rfl
    refine ⟨_, _, hread, rfl, rfl, rfl, rfl, rfl, ?_⟩
    have hslot := running_slot s fun c => { c with wait := { c.wait with sent := true, lastRead := s.dieTick c.die } }
    exact ⟨congrArg (fun c => c.wait.lastRead) hslot, sameRegisters_of_eq hslot ⟨rfl, rfl, rfl, rfl, rfl⟩⟩
  · intro k hlen hfind
    show execContextEvict s = _
    simp only [execContextEvict, hfind, Nat.not_lt.mpr hlen, if_false]
    rfl

end

section
/-! SUPPORT. Answers, resends, mirrors, router merges and the result cache (R206, R222, R227–R230). -/

namespace Sys2Proof.Machine

/-! ## The list of requests -/

theorem req?_dropReq (u : State) (i : Nat) : (u.apply (.dropReq i)).req? i = none := by
  show (u.reqs.filter fun r => r.id != i).find? (fun r => r.id == i) = none
  refine List.find?_eq_none.mpr fun q hq => ?_
  simpa using (List.mem_filter.mp hq).2

theorem req?_setReq_none {u : State} {i j : Nat} {g : Req → Req} (hg : ∀ q, (g q).id = q.id) (h : u.req? i = none) :
    (u.apply (.req j g)).req? i = none := by
  show (u.reqs.map fun r => if r.id == j then g r else r).find? (fun r => r.id == i) = none
  refine List.find?_eq_none.mpr fun q hq => ?_
  obtain ⟨z, hz, rfl⟩ := List.mem_map.mp hq
  have hid : (if z.id == j then g z else z).id = z.id := by
    split
    · exact hg z
    · rfl
  rw [hid]
  exact List.find?_eq_none.mp h z hz

/-- An answered request leaves; at most another one is sent now (R228). -/
theorem commit_answerReq (s u : State) (r : Req) : ∃ reqs, u.commit (s.answerReq r) = { u with reqs := reqs } ∧
    ({ u with reqs := reqs } : State).req? r.id = none ∧ (∀ z ∈ reqs, z.id ≠ r.id) ∧
    ∀ q ∈ u.reqs, q.id ≠ r.id → ∃ z ∈ reqs, z.id = q.id ∧ z.st = q.st := by
  have hgone : ∀ q ∈ (u.apply (.dropReq r.id)).reqs, q.id ≠ r.id := fun q hq => by simpa using (List.mem_filter.mp hq).2
  have hstay : ∀ q ∈ u.reqs, q.id ≠ r.id → q ∈ (u.apply (.dropReq r.id)).reqs := fun q hq hne =>
    List.mem_filter.mpr ⟨hq, by simpa using hne⟩
  have alone : ∃ reqs, u.commit [.dropReq r.id] = { u with reqs := reqs } ∧
      ({ u with reqs := reqs } : State).req? r.id = none ∧ (∀ z ∈ reqs, z.id ≠ r.id) ∧
      ∀ q ∈ u.reqs, q.id ≠ r.id → ∃ z ∈ reqs, z.id = q.id ∧ z.st = q.st :=
    ⟨_, rfl, req?_dropReq u r.id, hgone, fun q hq hne => ⟨q, hstay q hq hne, rfl, rfl⟩⟩
  unfold State.answerReq
  split
  · split
    · next q _ =>
      have hid : ∀ y : Req, (if y.id == q.id then { y with sent := s.gtc (diePkg y.die), issued := s.gtc (diePkg y.die) } else y).id = y.id ∧
          (if y.id == q.id then { y with sent := s.gtc (diePkg y.die), issued := s.gtc (diePkg y.die) } else y).st = y.st := fun y => by
        split
        · exact ⟨rfl, rfl⟩
        · exact ⟨rfl, rfl⟩
      refine ⟨_, rfl, req?_setReq_none (u := u.apply (.dropReq r.id)) (j := q.id)
        (g := fun x => { x with sent := s.gtc (diePkg x.die), issued := s.gtc (diePkg x.die) }) (fun _ => rfl) (req?_dropReq u r.id),
        fun z hz => ?_, fun y hy hne => ⟨_, List.mem_map_of_mem (hstay y hy hne), hid y⟩⟩
      obtain ⟨y, hy, rfl⟩ := List.mem_map.mp hz
      rw [(hid y).1]
      exact hgone y hy
    · exact alone
  · exact alone

/-- An answer that fills an entry, and leaves. -/
theorem commit_slot_answerReq (s : State) (r : Req) (f : Ctx → Ctx) :
    (s.commit ([.slot r.key f] ++ s.answerReq r)).slot r.key = f (s.slot r.key) ∧
      (s.commit ([.slot r.key f] ++ s.answerReq r)).req? r.id = none ∧ (s.commit ([.slot r.key f] ++ s.answerReq r)).mem = s.mem := by
  obtain ⟨reqs, hc, hnone, -⟩ := commit_answerReq s (s.apply (.slot r.key f)) r
  rw [State.commit_append, State.commit_cons, State.commit_nil, hc]
  exact ⟨(State.slot_apply_slot s r.key r.key f).trans (if_pos rfl), hnone, rfl⟩

theorem answerReq_plain {s : State} {r : Req} (h : r.kind.numbered = false) : s.answerReq r = [.dropReq r.id] := by
  simp [State.answerReq, h]

/-! ## Answers that reach the slot (R103, R162, R222, R226, R227) -/

section
variable {s : State} {r : Req} (hid : r.id < 2 ^ 32) (hr : s.req? r.id = some r)

theorem answerOn_carried (h : s.path (s.answerer r) (diePkg r.die) = .carried) : s.answerOn r = some r.st := by
  simp [State.answerOn, h]
theorem answerOn_cut {v : Word} (h : s.path (s.answerer r) (diePkg r.die) = .cut) (hst : r.st = .performed v) :
    s.answerOn r = some (.failed { cause := .circuitDown, ptr := r.ptr, detail := 0 }) := by
  simp [State.answerOn, h, hst]

/-- A code that arrives damaged fails its test (R227). -/
theorem codePasses_zero (c : BitVec 32) : codePasses c 0 = true := by simp [codePasses]
theorem codePasses_damaged (c : BitVec 32) {d : Nat} (h0 : 0 < d) (hd : d < 2 ^ 32) : codePasses c d = false := by
  have hne : BitVec.ofNat 32 d ≠ 0#32 := fun h => by
    have := congrArg BitVec.toNat h
    rw [BitVec.toNat_ofNat, Nat.mod_eq_of_lt hd] at this
    simp only [BitVec.toNat_ofNat, Nat.zero_mod] at this
    omega
  simpa [codePasses] using hne

variable (hown : r.owner = none)
include hid hr hown

theorem exec_loadReturn {v : Word} {st : ReqState} (hret : r.kind.returns = true) (hst : r.st = .performed v)
    (hon : s.answerOn r = some st) {damage : Nat} (hd : damage < 2 ^ 32) : exec (.loadReturn (r.id + 2 ^ 32 * damage)) s =
      .next (s.commit (returnReq s r (if damage = 0 then st else mismatch r))) := by
  have h1 : (r.id + 2 ^ 32 * damage) % 2 ^ 32 = r.id := by omega
  have h2 : (r.id + 2 ^ 32 * damage) / 2 ^ 32 = damage := by omega
  have hans : r.answered = true := by simp [Req.answered, hst]
  have hcode : ∀ bs, codePasses (checkCode r.ptr r.src r.seq bs) damage = decide (damage = 0) := fun bs => by
    by_cases hz : damage = 0
    · simpa [hz] using codePasses_zero _
    · simpa [hz] using codePasses_damaged _ (Nat.pos_of_ne_zero hz) hd
  show execLoadReturn _ s = _
  simp only [execLoadReturn, h1, h2, hr, hans, hret, hown, Option.all_none, Bool.and_self, if_true, hon, hcode, decide_eq_true_eq]
  rfl

theorem exec_storeAck {st : ReqState} (hret : r.kind.returns = false) (hto : r.kind.toHome = true) (hans : r.answered = true)
    (hon : s.answerOn r = some st) : exec (.storeAck r.id) s = .next (s.commit (returnReq s r st)) := by
  show execStoreAck _ s = _
  simp only [execStoreAck, Nat.mod_eq_of_lt hid, hr, hans, hret, hto, hown, Option.all_none, hon]
  rfl

omit hid hr

/-- A load's answer fills its entry (R103). -/
theorem returnReq_load {n e : Nat} {g : Bool} (hk : r.kind = .load n g) (hlq : r.lq = some e) (st : ReqState) :
    returnReq s r st = fillEntry r e st ++ [.dropReq r.id] := by
  simp only [returnReq, hown, hk, hlq]
  rw [answerReq_plain (by rw [hk]; rfl)]
theorem returnReq_atom {op n e : Nat} {g x : Word} (hk : r.kind = .atom op n g x) (hlq : r.lq = some e) (st : ReqState) :
    returnReq s r st = fillEntry r e st ++ s.answerReq r := by
  simp only [returnReq, hown, hk, hlq]
theorem returnReq_store {n : Nat} {v : Word} (hk : r.kind = .store n v) (st : ReqState) :
    returnReq s r st = [.slot r.key (leaveSq r st), .dropReq r.id] := by
  simp only [returnReq, hown, hk]
  rw [answerReq_plain (by rw [hk]; rfl)]
  rfl

end

/-- What an answer does to the load queue. -/
def filled (c : Ctx) (e : Nat) (st : LqState) : List LqEntry := c.lq.map fun x => if x.id == e then { x with st := st } else x

theorem commit_slot_dropReq (s : State) (k : SlotKey) (f : Ctx → Ctx) (i : Nat) :
    (s.commit [.slot k f, .dropReq i]).slot k = f (s.slot k) ∧ (s.commit [.slot k f, .dropReq i]).reqs = s.reqs.filter (fun q => q.id != i) ∧
      (s.commit [.slot k f, .dropReq i]).mem = s.mem :=
  ⟨(State.slot_apply_slot s k k f).trans (if_pos rfl), rfl, rfl⟩

/-! ## Mirrors (R206) -/

section
variable {s : State} {r : Req} (hr : s.req? r.id = some r)
include hr

theorem exec_mirrorAck {i n a m : Nat} {v : Word} {h : Hidden} (hid : r.id < 2 ^ 32) (hk : r.kind = .store n v)
    (hh : s.hidden[i]? = some h) (href : h.ref = 2 * r.id) (hreach : s.reach r.party r.ptr .write = .ready a (some m)) :
    exec (.mirrorAck i) s = ackOn s (s.mirrorPath a (some m)) (2 * r.id) (.unhide (2 * r.id) :: failReq r .circuitDown)
      (.unhide (2 * r.id) :: (s.apply (.unhide (2 * r.id))).performReq r (a, some m)) := by
  have hcode : Ref.ofCode (2 * r.id) = .req r.id := by
    have h1 : 2 * r.id % 2 = 0 := by omega
    have h2 : 2 * r.id / 2 = r.id := by omega
    have h3 : r.id < 2 ^ 160 := by omega
    simp only [Ref.ofCode, h1, h2, if_pos h3]
    rfl
  have hneed : r.kind.need = .write := by rw [hk]; rfl
  show execMirrorAck i s = _
  simp only [execMirrorAck, hh, href, hcode, hr, hneed, hreach]

omit hr in
theorem mirrored_store {n a m : Nat} {v : Word} (hk : r.kind = .store n v) (hp : s.planeHit r.part r.ptr n = .none) :
    (s.apply (.unhide (2 * r.id))).performReq r (a, some m) =
      (writeBytes a (toBytes n v.toNat) ++ writeBytes m (toBytes n v.toNat)) ++ [setReq r.id (.performed 0)] := by
  have hp' : (s.apply (.unhide (2 * r.id))).planeHit r.part r.ptr r.kind.size = .none := by
    rw [hk]
    exact hp
  have happly : (s.apply (.unhide (2 * r.id))).applyReq r (a, some m) = .ok (writeHome (a, some m) (toBytes n v.toNat), 0) := by
    simp only [State.applyReq, hp']
    simp only [hk]
  simp only [State.performReq, happly, hk, writeHome, ReqKind.numbered]
  simp

theorem commit_mirrored {n a m : Nat} {v : Word} : ∃ t, t = s.commit (.unhide (2 * r.id) ::
      ((writeBytes a (toBytes n v.toNat) ++ writeBytes m (toBytes n v.toNat)) ++ [setReq r.id (.performed 0)])) ∧
    t.mem = memWrite m (toBytes n v.toNat) (memWrite a (toBytes n v.toNat) s.mem) ∧ t.slots = s.slots ∧
    t.hidden = s.hidden.filter (fun x => x.ref != 2 * r.id) ∧ (t.req? r.id).map (fun q => q.st) = some (.performed 0) := by
  obtain ⟨d, h⟩ := commit_writeBytes (s.apply (.unhide (2 * r.id))) a (toBytes n v.toNat)
  obtain ⟨d', h'⟩ := commit_writeBytes { s.apply (.unhide (2 * r.id)) with mem := memWrite a (toBytes n v.toNat) s.mem, dies := d } m (toBytes n v.toNat)
  have hc : s.commit (.unhide (2 * r.id) :: ((writeBytes a (toBytes n v.toNat) ++ writeBytes m (toBytes n v.toNat)) ++ [setReq r.id (.performed 0)])) =
      ({ s.apply (.unhide (2 * r.id)) with
        mem := memWrite m (toBytes n v.toNat) (memWrite a (toBytes n v.toNat) s.mem), dies := d' } : State).apply (setReq r.id (.performed 0)) := by
    rw [State.commit_cons, State.commit_append, State.commit_append, h]
    exact congrArg (fun u : State => u.apply (setReq r.id (.performed 0))) h'
  refine ⟨_, rfl, ?_⟩
  rw [hc]
  refine ⟨rfl, rfl, rfl, ?_⟩
  exact setReq_st (u := { s.apply (.unhide (2 * r.id)) with
    mem := memWrite m (toBytes n v.toNat) (memWrite a (toBytes n v.toNat) s.mem), dies := d' })
    (show (s.req? r.id).isSome = true by rw [hr]; rfl) _

end

/-! ## Router merges (R230) -/

/-- A request's own entry in a merge. -/
def Req.foldedAs (r : Req) : Nat × Nat × DieId × Nat × Nat := (r.src, r.seq, r.die, (r.owner.getD (0, 0)).1, (r.owner.getD (0, 0)).2)

/-- A merge takes the requests of an operation, an address and a partition, until it is sent. -/
def Merge.takes (m : Merge) (r : Req) (op ty : Nat) : Bool :=
  !m.sent && ptrPlain m.addr == ptrPlain r.ptr && m.part == r.part && m.op == op && m.ty == ty

/-- A router opens a merge, or folds a value into the one it holds. -/
def Pkg.foldIn (r : Req) (op ty : Nat) (v : Word) (k : Pkg) : Pkg :=
  if k.merges.any fun m => m.takes r op ty then
    { k with merges := k.merges.map fun m =>
      if m.takes r op ty then { m with value := word (credNew op ty m.value.toNat v.toNat), folded := m.folded ++ [r.foldedAs] } else m }
  else
    { k with
      merges := k.merges ++ [⟨k.nextMerge, r.ptr, r.part, op, ty, v, k.gtc, false, none, [r.foldedAs]⟩]
      nextMerge := k.nextMerge + 1 }

theorem exec_routerCredReceive {s : State} {r : Req} {pkg op ty : Nat} {v : Word} {o : Bool} (hr : s.req? r.id = some r)
    (hk : r.kind = .cred op ty v o) (hm : s.mergeable r = true) (hop : r.open_ = true) (hf : s.folded r = false)
    (hs : s.sendable r = true) (hown : r.ofMerge = none) (hway : (s.inject r).way.any (s.along · == .carried) = true)
    (hp : pkg ∈ (s.inject r).routers) : exec (.routerCredReceive pkg r.id) s = .next (s.commit
      [.req r.id (fun x => { x with way := (s.inject r).way, stamp := (s.inject r).stamp }), .pkg pkg (Pkg.foldIn r op ty v)]) := by
  have hp' : (s.inject r).routers.contains pkg = true := by simpa using hp
  obtain ⟨w, st, hx⟩ := inject_eq s r
  have hcond : (s.mergeable (s.inject r) && (s.inject r).open_ && !s.folded (s.inject r) && s.sendable (s.inject r) &&
      !((s.inject r).ofMerge.isSome && diePkg (s.inject r).die == pkg) && (s.inject r).way.any (s.along · == .carried) &&
      (s.inject r).routers.contains pkg) = true := by
    rw [hway, hp', hx]
    have h1 : s.mergeable { r with way := w, stamp := st } = true := hm
    have h2 : Req.open_ { r with way := w, stamp := st } = true := hop
    have h3 : s.folded { r with way := w, stamp := st } = false := hf
    have h4 : s.sendable { r with way := w, stamp := st } = true := hs
    have h5 : Req.ofMerge { r with way := w, stamp := st } = none := hown
    rw [h1, h2, h3, h4, h5]
    rfl
  have hk' : (s.inject r).kind = .cred op ty v o := by rw [hx]; exact hk
  show execRouterCredReceive pkg r.id s = _
  simp only [execRouterCredReceive, hr, hcond, if_true, hk']
  rw [hx]
  rfl

/-- The one CRED of a router's own in which a merge is forwarded. -/
def State.mergeReq (s : State) (pkg : Nat) (m : Merge) (i : Nat) : Req :=
  let d := dieId pkg (s.pkg pkg).router
  { id := i, key := 0, die := d, part := m.part, kind := .cred m.op m.ty m.value false, ptr := m.addr, pc := 0,
    lq := none, src := sourceId d 3, seq := mget s.seqs (sourceId d 3) 0, sent := s.gtc pkg, issued := s.gtc pkg, resends := 0,
    owner := some (3, m.id), way := s.wayFor (sourceId d 3) pkg (s.destPkg m.part pkg m.addr) m.addr i, stamp := (s.pkg pkg).version,
    st := .flying }

theorem exec_mergeForward {s : State} {pkg : Nat} {m : Merge}
    (hfind : (s.pkg pkg).merges.find? (fun x => x.id == m.id && !x.sent) = some m) :
    exec (.mergeForward pkg m.id) s = .next (s.commit [.addReq (s.mergeReq pkg m), .seqNo (sourceId (dieId pkg (s.pkg pkg).router) 3)
      ((mget s.seqs (sourceId (dieId pkg (s.pkg pkg).router) 3) 0 + 1) % 65536),
      .pkg pkg (Pkg.modMerge m.id fun m => { m with sent := true })]) := by
  show execMergeForward pkg m.id s = _
  simp only [execMergeForward, hfind]
  rfl

theorem commit_reqs_setReqs (st : ReqState) : ∀ (l : List Req) (s : State), ∃ reqs,
    s.commit (l.map fun q => setReq q.id st) = { s with reqs := reqs } ∧ (∀ q ∈ s.reqs, (∃ x ∈ l, x.id = q.id) ∨ q.st = st →
      ∃ z ∈ reqs, z.id = q.id ∧ z.st = st)
  | [], s => ⟨s.reqs, rfl, fun q hq h => ⟨q, hq, rfl, h.resolve_left fun ⟨_, hx, _⟩ => absurd hx List.not_mem_nil⟩⟩
  | x :: l, s => by
    obtain ⟨reqs, hc, h⟩ := commit_reqs_setReqs st l (s.apply (setReq x.id st))
    refine ⟨reqs, ?_, fun q hq hx => ?_⟩
    · rw [List.map_cons, State.commit_cons, hc]
      rfl
    · by_cases he : q.id = x.id
      · have hmem : { q with st := st } ∈ (s.apply (setReq x.id st)).reqs :=
          List.mem_map.mpr ⟨q, hq, if_pos (by simpa using he)⟩
        obtain ⟨z, hz, hzi, hzs⟩ := h { q with st := st } hmem (.inr rfl)
        exact ⟨z, hz, hzi, hzs⟩
      · have hmem : q ∈ (s.apply (setReq x.id st)).reqs := List.mem_map.mpr ⟨q, hq, if_neg (by simpa using he)⟩
        refine h q hmem (hx.imp_left fun ⟨y, hy, hyq⟩ => ?_)
        rcases List.mem_cons.mp hy with rfl | hy
        · exact absurd hyq.symm he
        · exact ⟨y, hy, hyq⟩

end Sys2Proof.Machine
end
section
open Sys2Proof Sys2Proof.Machine

/-- Settles O48: each answer by its effect on the source, and each event of a merge by its equation. -/
theorem answersAndMerges : Obligations.AnswersAndMerges := by
  unfold Obligations.AnswersAndMerges
  refine ⟨?_, ?_⟩
  · intro s r hid hr hown c out fills gone back
    have fillSame : ∀ e st, SameRegisters c (c.fillLq e st) := fun e st => ⟨rfl, rfl, rfl, rfl, rfl⟩
    have leaveSame : ∀ st, SameRegisters c (leaveSq r st c) := fun st => by
      unfold leaveSq
      split
      · exact ⟨rfl, rfl, rfl, rfl, rfl⟩
      · exact ⟨rfl, rfl, rfl, rfl, rfl⟩
    have load : ∀ (n : Nat) (g : Bool) (e : Nat) (v : Word) (st : ReqState) (l : LqState) (damage : Nat),
        r.kind = .load n g → r.lq = some e → r.st = .performed v → s.answerOn r = some st → damage < 2 ^ 32 →
        fillEntry r e (if damage = 0 then st else mismatch r) = [.slot r.key fun c => c.fillLq e l] →
        out (.loadReturn (r.id + 2 ^ 32 * damage)) fun t => (t.slot r.key).lq = fills e l ∧ t.reqs = gone ∧ t.mem = s.mem := by
      intro n g e v st l damage hk hlq hst hon hd hfill
      have hexec := exec_loadReturn hid hr hown (by rw [hk]; rfl) hst hon hd
      rw [returnReq_load hown hk hlq, hfill] at hexec
      obtain ⟨hslot, hreqs, hmem⟩ := commit_slot_dropReq s r.key (fun c => c.fillLq e l) r.id
      exact ⟨_, hexec, sameRegisters_of_eq hslot (fillSame e l), congrArg Ctx.lq hslot, hreqs, hmem⟩
    refine ⟨?_, ?_, ?_, ?_, ?_, ?_, ?_, ?_⟩
    · intro n g e v hk hlq hst hback
      have hon := (answerOn_carried (s := s) hback).trans (by rw [hst])
      refine ⟨?_, fun damage h0 hd => ?_⟩
      · exact load n g e v _ (.value v) 0 hk hlq hst hon (by decide) rfl
      · obtain ⟨t, ht, hs, hl, hg, -⟩ := load n g e v _ (.fault { cause := .checkMismatch, ptr := r.ptr, detail := 0 }) damage hk hlq hst hon hd
          (by rw [if_neg (Nat.ne_of_gt h0)]; rfl)
        exact ⟨t, ht, hs, hl, hg⟩
    · intro n g e v hk hlq hst hback
      exact load n g e v _ (.fault { cause := .circuitDown, ptr := r.ptr, detail := 0 }) 0 hk hlq hst (answerOn_cut hback hst) (by decide) rfl
    · intro n v w hk hst hback
      have hexec := exec_storeAck hid hr hown (by rw [hk]; rfl) (by rw [hk]; rfl) (by simp [Req.answered, hst])
        (answerOn_carried (s := s) hback)
      rw [returnReq_store hown hk, hst] at hexec
      obtain ⟨hslot, hreqs, hmem⟩ := commit_slot_dropReq s r.key (leaveSq r (.performed w)) r.id
      exact ⟨_, hexec, sameRegisters_of_eq hslot (leaveSame _), congrArg Ctx.sq hslot, (congrArg Ctx.deferred hslot).trans rfl, hreqs, hmem⟩
    · intro n v x hk hst hcut hheld
      have hback : back = .carried := by
        cases h : back with
        | carried => rfl
        | held p q m => exact absurd h (hheld p q m)
        | cut => exact absurd h hcut
      have hexec := exec_storeAck hid hr hown (by rw [hk]; rfl) (by rw [hk]; rfl) (by simp [Req.answered, hst])
        (answerOn_carried (s := s) hback)
      rw [returnReq_store hown hk, hst] at hexec
      obtain ⟨hslot, hreqs, hmem⟩ := commit_slot_dropReq s r.key (leaveSq r (.failed x)) r.id
      exact ⟨_, hexec, sameRegisters_of_eq hslot (leaveSame _), congrArg Ctx.deferred hslot, hreqs, hmem⟩
    · intro hdue
      show execAtomicResend r.id s = _
      simp only [execAtomicResend, hr, hdue, if_true]
      rfl
    · intro op n b x e hk hlq hdue
      have hexec : exec (.atomicTimeout r.id) s = .next (s.commit ([.slot r.key fun c =>
          c.fillLq e (.fault { cause := .circuitDown, ptr := r.ptr, detail := 0 })] ++ s.answerReq r)) := by
        show execAtomicTimeout r.id s = _
        simp only [execAtomicTimeout, hr, hdue, if_true, returnReq_atom hown hk hlq]
        rfl
      obtain ⟨hslot, hnone, hmem⟩ := commit_slot_answerReq s r fun c =>
        c.fillLq e (.fault { cause := .circuitDown, ptr := r.ptr, detail := 0 })
      exact ⟨_, hexec, sameRegisters_of_eq hslot (fillSame _ _), congrArg Ctx.lq hslot, hnone, hmem⟩
    · intro hlate
      have h0 : r.id / 2 ^ 63 = 0 := Nat.div_eq_of_lt (by omega)
      show execCircuitWaitTimeout r.id s = _
      simp only [execCircuitWaitTimeout, h0, hr, hlate, if_true]
      rfl
    · intro n v a m i h hk hh href hreach hp _ _ shown
      have hexec := exec_mirrorAck hr hid hk hh href hreach
      refine ⟨fun hpath => ?_, fun hpath => ?_⟩
      · obtain ⟨t, ht, hmem, hslots, hhid, hst⟩ := commit_mirrored (n := n) (a := a) (m := m) (v := v) hr
        rw [hpath, mirrored_store hk hp] at hexec
        refine ⟨t, hexec.trans (by rw [ht]; rfl), ?_, hmem, hhid, hst⟩
        have hslot : t.slot r.key = c := congrArg (fun x => mget x r.key Ctx.blank) hslots
        exact sameRegisters_of_eq hslot ⟨rfl, rfl, rfl, rfl, rfl⟩
      · rw [hpath] at hexec
        refine ⟨_, hexec, ⟨rfl, rfl, rfl, rfl, rfl⟩, rfl, rfl, ?_⟩
        exact setReq_st (u := s.apply (.unhide (2 * r.id))) (show (s.req? r.id).isSome = true by rw [hr]; rfl) _
  · intro s pkg k
    refine ⟨?_, ?_, ?_, ?_⟩
    · intro r op ty v o hr hk hm hop hf hs hown x hway hp s' me
      have hexec := exec_routerCredReceive hr hk hm hop hf hs hown hway hp
      have hfold : ∀ k', Pkg.foldIn r op ty v k = k' →
          exec (.routerCredReceive pkg r.id) s = .next (s'.withPkg pkg k') := fun k' hk' => hexec.trans (by
        rw [State.commit_cons, State.commit_cons, State.commit_nil, ← hk']
        rfl)
      refine ⟨fun hnone => hfold _ ?_, fun m hone hsent haddr hpart hopm hty => hfold _ ?_⟩
      · simp only [Pkg.foldIn, hnone, List.any_nil]
        rfl
      · have htakes : m.takes r op ty = true := by simp [Merge.takes, hsent, haddr, hpart, hopm, hty]
        simp only [Pkg.foldIn, hone, List.any_cons, htakes, Bool.true_or, if_true, List.map_cons, List.map_nil]
        rfl
    · intro m rest hmerges hsent
      have hfind : (s.pkg pkg).merges.find? (fun x => x.id == m.id && !x.sent) = some m := by
        rw [show (s.pkg pkg).merges = m :: rest from hmerges, List.find?_cons]
        simp [hsent]
      refine ⟨_, s.mergeReq pkg m s.nextReq, exec_mergeForward hfind, rfl, rfl, rfl, rfl, rfl, ?_, rfl, rfl⟩
      show ((((s.apply (.addReq (s.mergeReq pkg m))).apply (.seqNo _ _)).apply (.pkg pkg _)).pkg pkg).merges.head? = _
      rw [State.pkg_apply_pkg, if_pos rfl]
      show ((s.pkg pkg).merges.map _).head? = _
      rw [show (s.pkg pkg).merges = m :: rest from hmerges]
      simp
    · intro m r q v hm hr hon hq hopen hne hany
      have hexec : exec (.mergeAnswer pkg m.id) s = .next (s.commit (((s.reqs.filter fun q =>
          q.open_ && m.folded.any fun x => x.1 == q.src && x.2.1 == q.seq).map fun q => setReq q.id (.performed v)) ++
          .pkg pkg (fun k => k.modMerge m.id fun m => { m with answered := some k.gtc }) :: s.answerReq r)) := by
        show execMergeAnswer pkg m.id s = _
        simp only [execMergeAnswer, show (s.pkg pkg).merges.find? (fun x => x.id == m.id) = some m from hm, hr, hon]
        rfl
      obtain ⟨reqs, hc, hset⟩ := commit_reqs_setReqs (.performed v)
        (s.reqs.filter fun q => q.open_ && m.folded.any fun x => x.1 == q.src && x.2.1 == q.seq) s
      obtain ⟨reqs', hc', -, hgone, hstay⟩ := commit_answerReq s
        (({ s with reqs := reqs } : State).apply (.pkg pkg (fun k => k.modMerge m.id fun m => { m with answered := some k.gtc }))) r
      refine ⟨_, hexec, ?_⟩
      rw [State.commit_append, hc, State.commit_cons, hc']
      refine ⟨?_, fun z hz => ?_, rfl, rfl⟩
      · obtain ⟨z, hz, hzi, hzs⟩ := hset q hq (.inl ⟨q, List.mem_filter.mpr ⟨hq, by simp [hopen, hany]⟩, rfl⟩)
        obtain ⟨y, hy, hyi, hys⟩ := hstay z hz (hzi ▸ hne)
        exact ⟨y, hy, hyi.trans hzi, hys.trans hzs⟩
      · exact hgone z hz
    · intro src seq
      rfl

end

section
/-! SUPPORT. Links, routing tables, photonic circuits and service commands (R223–R226, R237, R260, R445). -/

namespace Sys2Proof.Machine

/-! ## Packages -/

theorem apply_pkg_pkg (s : State) (p : PkgId) (f g : Pkg → Pkg) :
    (s.apply (.pkg p f)).apply (.pkg p g) = s.apply (.pkg p fun k => g (f k)) := by
  simp [State.apply, mmod, mput_mput]
theorem apply_pkg_eq (s : State) (p : PkgId) (f : Pkg → Pkg) : s.apply (.pkg p f) = s.withPkg p (f (s.pkg p)) := rfl

/-- One change of several packages. -/
theorem pkg_commit_pkgs (g : Pkg → Pkg) : ∀ (l : List PkgId) (s : State), l.Nodup → ∀ q,
    (s.commit (l.map fun p => .pkg p g)).pkg q = if q ∈ l then g (s.pkg q) else s.pkg q
  | [], _, _, _ => rfl
  | p :: l, s, hn, q => by
    rw [List.nodup_cons] at hn
    rw [List.map_cons, State.commit_cons, pkg_commit_pkgs g l _ hn.2, State.pkg_apply_pkg]
    by_cases hq : q = p
    · subst hq
      simp [hn.1]
    · simp [hq]
theorem commit_pkgs_only (g : Pkg → Pkg) : ∀ (l : List PkgId) (s : State),
    s.commit (l.map fun p => .pkg p g) = { s with pkgs := (s.commit (l.map fun p => .pkg p g)).pkgs }
  | [], _ => rfl
  | p :: l, s => by
    rw [List.map_cons, State.commit_cons]
    exact commit_pkgs_only g l (s.apply (.pkg p g))

/-! ## Links (R225) -/

theorem linkNo_modLink (s : State) (p n q m : Nat) (f : Link → Link) :
    (s.apply (modLink p n f)).linkNo q m = if q = p ∧ m = n then f (s.linkNo p n) else s.linkNo q m := by
  unfold State.linkNo modLink
  rw [State.pkg_apply_pkg]
  by_cases hq : q = p
  · subst hq
    rw [if_pos rfl]
    show mget (mmod (s.pkg q).links n .blank f) m .blank = _
    rw [mget_mmod]
    simp
  · rw [if_neg hq, if_neg fun h => hq h.1]

/-- The requests whose path is given up. -/
theorem commit_unways : ∀ (rs : List Req) (u : State), ∃ reqs,
    u.commit (rs.map fun r => .req r.id fun q => { q with way := none }) = { u with reqs := reqs } ∧
      ∀ z ∈ reqs, (z ∈ u.reqs ∧ ∀ r ∈ rs, r.id ≠ z.id) ∨ z.way = none
  | [], u => ⟨u.reqs, rfl, fun z hz => .inl ⟨hz, fun _ h => absurd h List.not_mem_nil⟩⟩
  | x :: rs, u => by
    obtain ⟨reqs, hc, h⟩ := commit_unways rs (u.apply (.req x.id fun q => { q with way := none }))
    refine ⟨reqs, ?_, fun z hz => ?_⟩
    · rw [List.map_cons, State.commit_cons, hc]
      rfl
    · obtain ⟨hm, hne⟩ | hw := h z hz
      · obtain ⟨y, hy, hyz⟩ := List.mem_map.mp hm
        by_cases he : y.id = x.id
        · rw [if_pos (by simpa using he)] at hyz
          exact .inr (hyz ▸ rfl)
        · rw [if_neg (by simpa using he)] at hyz
          subst hyz
          exact .inl ⟨hy, fun r hr => (List.mem_cons.mp hr).elim (fun e => e ▸ Ne.symm he) (hne r)⟩
      · exact .inr hw

theorem commit_rehide : ∀ (hs : List Hidden) (u : State), ∃ hidden,
    u.commit (hs.flatMap fun h => [.unhide h.ref, .hide { h with way := none }]) = { u with hidden := hidden }
  | [], u => ⟨u.hidden, rfl⟩
  | h :: hs, u => by
    obtain ⟨hidden, hc⟩ := commit_rehide hs ((u.apply (.unhide h.ref)).apply (.hide { h with way := none }))
    exact ⟨hidden, by rw [List.flatMap_cons, State.commit_append, State.commit_cons, State.commit_cons, State.commit_nil, hc]; rfl⟩

/-- The end of a link that goes down, with the link interrupt. -/
def Pkg.endDown (n : Nat) (f : Link → Link) (k : Pkg) : Pkg :=
  { k with links := mmod k.links n .blank fun l => { f l with state := 0, held := [] }, intstat := k.intstat ||| 4 }

theorem linkNo_endDown (u : State) (p n x m : Nat) (f : Link → Link) : (u.apply (.pkg p (Pkg.endDown n f))).linkNo x m =
    if x = p ∧ m = n then { f (u.linkNo p n) with state := 0, held := [] } else u.linkNo x m := by
  unfold State.linkNo
  rw [State.pkg_apply_pkg]
  by_cases hx : x = p
  · subst hx
    rw [if_pos rfl]
    unfold Pkg.endDown
    dsimp only
    rw [mget_mmod]
    simp
  · rw [if_neg hx, if_neg fun h => hx h.1]

/-- One end of a link goes down: what has been sent over it loses its path. -/
theorem commit_endDown (s u : State) (p n : Nat) (f : Link → Link) : ∃ reqs hidden,
    u.commit (s.endDown p n f) = { u.apply (.pkg p (Pkg.endDown n f)) with reqs := reqs, hidden := hidden } ∧
    (∀ z ∈ reqs, z ∈ u.reqs ∨ z.way = none) ∧
    (u.reqs = s.reqs → ∀ z ∈ reqs, (z.way.any fun w => w.any (Hop.on p n)) = false) := by
  obtain ⟨reqs, hc, h⟩ := commit_unways (s.reqs.filter fun r => r.way.any fun w => w.any (Hop.on p n)) (u.apply (.pkg p (Pkg.endDown n f)))
  obtain ⟨hidden, hh⟩ := commit_rehide (s.hidden.filter fun h => h.way.any fun w => w.any (Hop.on p n))
    { u.apply (.pkg p (Pkg.endDown n f)) with reqs := reqs }
  have h1 : u.commit [modLink p n (fun l => { f l with state := 0, held := [] }), interrupt p 2] = u.apply (.pkg p (Pkg.endDown n f)) := by
    rw [State.commit_cons, State.commit_cons, State.commit_nil, modLink, interrupt, apply_pkg_pkg]
    rfl
  refine ⟨reqs, hidden, ?_, fun z hz => (h z hz).imp_left fun h => h.1, fun he z hz => ?_⟩
  · unfold State.endDown
    rw [State.commit_append, State.commit_append, h1, hc, hh]
  · obtain ⟨hm, hne⟩ | hw := h z hz
    · rw [← Bool.not_eq_true]
      intro hon
      have hzs : z ∈ s.reqs := he ▸ hm
      exact hne z (List.mem_filter.mpr ⟨hzs, hon⟩) rfl
    · rw [hw]
      rfl

/-- A link is not its own other end. -/
theorem linkPeer_ne {s : State} {p n : Nat} (h : s.isLink p n = true) : ¬(p = (linkPeer p n).1 ∧ n = (linkPeer p n).2) := by
  simp only [State.isLink, Bool.and_eq_true, bne_iff_ne, decide_eq_true_eq] at h
  obtain ⟨⟨-, hne⟩, -⟩ := h
  rintro ⟨-, h2⟩
  unfold linkPeer at h2
  split at h2
  · next hlt => rw [if_pos hlt] at hne; exact hne h2
  · next hlt => rw [if_neg hlt] at hne; exact hne h2

/-- A link goes down at both of its ends (R225). -/
theorem commit_linkDown {s : State} {p n : Nat} (hl : s.isLink p n = true) (f : Link → Link) :
    (s.commit (s.linkDown p n f)).linkNo p n = { f (s.linkNo p n) with state := 0, held := [] } ∧
    ((s.commit (s.linkDown p n f)).pkg p).intstat = (s.pkg p).intstat ||| 4 ∧
    ((s.linkNo (linkPeer p n).1 (linkPeer p n).2).state ≠ 4 →
      ((s.commit (s.linkDown p n f)).linkNo (linkPeer p n).1 (linkPeer p n).2).state = 0) ∧
    (∀ r ∈ (s.commit (s.linkDown p n f)).reqs, r.open_ = true → ∀ w, r.way = some w → w.any (Hop.on p n) = false) ∧
    (s.commit (s.linkDown p n f)).mem = s.mem ∧ (s.commit (s.linkDown p n f)).slots = s.slots := by
  have hne := linkPeer_ne hl
  unfold State.linkDown
  generalize linkPeer p n = q at hne ⊢
  obtain ⟨reqs, hidden, hc, -, hoff⟩ := commit_endDown s s p n f
  have hway : ∀ z : Req, (z.way.any fun w => w.any (Hop.on p n)) = false → ∀ w, z.way = some w → w.any (Hop.on p n) = false :=
    fun z hz w hw => by rw [hw] at hz; exact hz
  have hirq : ((s.apply (.pkg p (Pkg.endDown n f))).pkg p).intstat = (s.pkg p).intstat ||| 4 := by
    rw [State.pkg_apply_pkg, if_pos rfl]
    rfl
  rw [State.commit_append, hc]
  split
  · next h0 =>
    refine ⟨(linkNo_endDown s p n p n f).trans (if_pos ⟨rfl, rfl⟩), hirq, fun h4 => ?_,
      fun z hz _ => hway z (hoff rfl z hz), rfl, rfl⟩
    have hpeer : (s.apply (.pkg p (Pkg.endDown n f))).linkNo q.1 q.2 = s.linkNo q.1 q.2 :=
      (linkNo_endDown s p n q.1 q.2 f).trans (if_neg fun h => hne ⟨h.1.symm, h.2.symm⟩)
    refine (congrArg Link.state hpeer).trans ?_
    simp only [Bool.or_eq_true, beq_iff_eq] at h0
    exact h0.resolve_right h4
  · obtain ⟨reqs', hidden', hc', hkeep, -⟩ := commit_endDown s { s.apply (.pkg p (Pkg.endDown n f)) with reqs := reqs, hidden := hidden } q.1 q.2 id
    rw [hc']
    refine ⟨?_, ?_, fun _ => ?_, fun z hz _ => ?_, rfl, rfl⟩
    · exact (linkNo_endDown (s.apply (.pkg p (Pkg.endDown n f))) q.1 q.2 p n id).trans
        ((if_neg hne).trans ((linkNo_endDown s p n p n f).trans (if_pos ⟨rfl, rfl⟩)))
    · show (((s.apply (.pkg p (Pkg.endDown n f))).apply (.pkg q.1 (Pkg.endDown q.2 id))).pkg p).intstat = _
      rw [State.pkg_apply_pkg]
      split
      · next he =>
        show ((s.apply (.pkg p (Pkg.endDown n f))).pkg q.1).intstat ||| 4 = _
        rw [← he, hirq, BitVec.or_assoc, BitVec.or_self]
      · exact hirq
    · exact congrArg Link.state ((linkNo_endDown (s.apply (.pkg p (Pkg.endDown n f))) q.1 q.2 q.1 q.2 id).trans (if_pos ⟨rfl, rfl⟩))
    · obtain hm | hn := hkeep z hz
      · exact hway z (hoff rfl z hm)
      · exact fun w hw => absurd (hn.symm.trans hw) (by simp)

/-! ## Service commands (R260, R445) -/

section
variable {s : State} {p : PkgId} (hfree : s.serviceBusy p = false ∧ (s.pkg p).queue = [])
include hfree

theorem cmdTurn_of_free {i : Instr} (hw : s.cmdWaits i = false) : s.cmdTurn i p = true := by
  simp [State.cmdTurn, hfree.1, hw, hfree.2]

theorem apply_takeCmd : s.apply (takeCmd p) = s.withPkg p (s.pkg p) := by
  have h : (s.pkg p).queue.drop 1 = (s.pkg p).queue := by rw [hfree.2]; rfl
  show s.withPkg p { s.pkg p with queue := (s.pkg p).queue.drop 1 } = _
  rw [h]

end

theorem withPkg_apply_pkg (s : State) (p : PkgId) (k : Pkg) (f : Pkg → Pkg) : (s.withPkg p k).apply (.pkg p f) = s.withPkg p (f k) := by
  show ({ s with pkgs := mput p (f (mget (mput p k s.pkgs) p .blank)) (mput p k s.pkgs) } : State) = _
  rw [mget_mput_same, mput_mput]
  rfl
theorem pkg_withPkg (s : State) (p q : PkgId) (k : Pkg) : (s.withPkg p k).pkg q = if q = p then k else s.pkg q := mget_mput _ _ _ _ _
/-- What a flip changes of a package, and what it must keep (R224). -/
def Pkg.ver (k : Pkg) := (k.version, k.draining, k.table0, k.table1)
theorem withPkg_pkg (s : State) (p : PkgId) (k : Pkg) : (s.withPkg p k).pkg p = k := mget_mput_same _ _ _ _

/-- A command's status stands in its entry, with the service interrupt. -/
theorem commit_serviceDone (u : State) (p code index : Nat) :
    u.commit (serviceDone p code index) = u.withPkg p (Pkg.replied code index (u.pkg p)) := by
  unfold serviceDone interrupt
  rw [State.commit_cons, State.commit_cons, State.commit_nil, apply_pkg_pkg]
  rfl
theorem withPkg_commit_serviceDone (s : State) (p code index : Nat) (k : Pkg) :
    (s.withPkg p k).commit (serviceDone p code index) = s.withPkg p (Pkg.replied code index k) := by
  rw [commit_serviceDone, withPkg_pkg]
  show ({ s with pkgs := mput p _ (mput p k s.pkgs) } : State) = _
  rw [mput_mput]
  rfl

section
variable {s : State} {p : PkgId} (hfree : s.serviceBusy p = false ∧ (s.pkg p).queue = [])
include hfree

theorem service_refused {i : Instr} (hw : s.cmdWaits i = false) (index : Nat) {codes : List (Bool × Nat)} {b : Bool} {c : Nat}
    (hc : codes.find? (·.1) = some (b, c)) (us : List Upd) :
    s.service i p index codes us = .next (s.withPkg p (Pkg.replied c index (s.pkg p))) := by
  unfold State.service
  rw [cmdTurn_of_free hfree hw, hc]
  show Host.Outcome.next (s.commit (takeCmd p :: serviceDone p c index)) = _
  rw [State.commit_cons, apply_takeCmd hfree, withPkg_commit_serviceDone]

theorem service_done {i : Instr} (hw : s.cmdWaits i = false) (index : Nat) {codes : List (Bool × Nat)}
    (hc : codes.find? (·.1) = none) (us : List Upd) :
    s.service i p index codes us = .next (((s.withPkg p (s.pkg p)).commit us).commit (serviceDone p 0 index)) := by
  unfold State.service
  rw [cmdTurn_of_free hfree hw, hc]
  show Host.Outcome.next (s.commit (takeCmd p :: us ++ serviceDone p 0 index)) = _
  rw [State.commit_append, State.commit_cons, apply_takeCmd hfree]

/-- A command that changes its package alone. -/
theorem service_pkg {i : Instr} (hw : s.cmdWaits i = false) (index : Nat) {codes : List (Bool × Nat)}
    (hc : codes.find? (·.1) = none) (g : Pkg → Pkg) :
    s.service i p index codes [.pkg p g] = .next (s.withPkg p (Pkg.replied 0 index (g (s.pkg p)))) := by
  rw [service_done hfree hw index hc, State.commit_cons, State.commit_nil, withPkg_apply_pkg, withPkg_commit_serviceDone]

end

/-! ## Routing and photonic circuits (R224, R237) -/

theorem ver_replied (c i : Nat) (k : Pkg) : (Pkg.replied c i k).ver = k.ver := rfl

section
variable {s : State} {p : PkgId}

theorem exec_routingFlip (hfree : s.serviceBusy p = false ∧ (s.pkg p).queue = []) (hflip : s.flipping = false) :
    exec (.routingFlip p) s = .next (((s.withPkg p (s.pkg p)).commit s.flipAll).commit (serviceDone p 0 0)) := by
  show execRoutingFlip p s = _
  simp only [execRoutingFlip, hflip, Bool.false_and, Bool.false_eq_true, if_false]
  exact service_done hfree rfl 0 rfl _

/-- A flip changes the version of every package at once, and sets its markers on their way. -/
theorem flipped_fields (hcanon : s.Canon) : ∀ q ∈ s.packages,
    let t := ((s.withPkg p (s.pkg p)).commit s.flipAll).commit (serviceDone p 0 0)
    (t.pkg q).version = !(s.pkg q).version ∧ (t.pkg q).draining = s.packages ∧ (t.pkg q).table0 = (s.pkg q).table0 ∧
      (t.pkg q).table1 = (s.pkg q).table1 := by
  intro q hq t
  have hsame : (s.withPkg p (s.pkg p)).pkg q = s.pkg q := by
    rw [pkg_withPkg]
    split
    · next h => rw [h]
    · rfl
  have hflipped := pkg_commit_pkgs (fun k => { k with version := !k.version, draining := s.packages }) s.packages (s.withPkg p (s.pkg p))
    (packages_nodup hcanon) q
  rw [if_pos hq, hsame] at hflipped
  have hdone : (t.pkg q).ver = (((s.withPkg p (s.pkg p)).commit s.flipAll).pkg q).ver := by
    show ((((s.withPkg p (s.pkg p)).commit s.flipAll).commit (serviceDone p 0 0)).pkg q).ver = _
    rw [commit_serviceDone, pkg_withPkg]
    split
    · next h => rw [h, ver_replied]
    · rfl
  have hver := hdone.trans (congrArg Pkg.ver hflipped)
  simp only [Pkg.ver, Prod.mk.injEq] at hver
  exact hver

theorem exec_drainMarker {src : PkgId} (hsrc : src ∈ (s.pkg p).draining) (hold : s.oldPackets src = false)
    (hwait : ∀ e ∈ s.pkgs, e.2.flipWait = false) (hp : mfind p s.pkgs = some (s.pkg p)) :
    exec (.drainMarker p src) s = .next (s.withPkg p { s.pkg p with draining := (s.pkg p).draining.erase src }) := by
  have hc : (s.pkg p).draining.contains src = true := by simpa using hsrc
  have hown : (s.pkg p).flipWait = false := hwait _ (mem_of_mfind hp)
  let u : Upd := .pkg p fun k => { k with draining := k.draining.erase src }
  have hnext : (s.apply u).flipNext = [] := by
    have hnone : (s.apply u).pkgs.find? (fun e => e.2.flipWait) = none := by
      refine List.find?_eq_none.mpr fun e he => ?_
      rw [Bool.not_eq_true]
      rcases mem_mput he with he | he
      · exact (congrArg (fun x : Nat × Pkg => x.2.flipWait) he).trans hown
      · exact hwait e he
    simp only [State.flipNext, hnone]
  have hex : exec (.drainMarker p src) s = s.by_ (u :: if (s.apply u).flipping then [] else (s.apply u).flipNext) := by
    show execDrainMarker p src s = _
    simp only [execDrainMarker, hc, hold]
    rfl
  rw [hex, hnext, ite_self]
  rfl

theorem exec_connectionSetup (hfree : s.serviceBusy p = false ∧ (s.pkg p).queue = []) {src dst n : Nat} (hs : src < 8) (hd : dst < 8)
    (hne : src ≠ dst) (h0 : 0 < n) (h16 : n ≤ 16) (hst : (s.conn p (8 * src + dst)).state = 0) :
    exec (.connectionTableEntry p src dst n) s = .next
      { s.withPkg p (Pkg.replied 0 (8 * src + dst) { s.pkg p with conns := mput (8 * src + dst) ⟨n, 1, s.gtc p⟩ (s.pkg p).conns }) with
        timers := s.timers ++ [⟨p, s.gtc p + 2000, .circuitUp p src dst⟩] } := by
  have hcount : (n == lookAgain) = false := by
    have : n ≠ 65536 := by omega
    simpa [lookAgain] using this
  have hrange : (decide (8 ≤ src) || decide (8 ≤ dst) || src == dst || decide (16 < n)) = false := by
    simp [Nat.not_le.mpr hs, Nat.not_le.mpr hd, hne, Nat.not_lt.mpr h16]
  have hn0 : (n == 0) = false := by simpa using Nat.ne_of_gt h0
  have hex : exec (.connectionTableEntry p src dst n) s = s.service (.connectionTableEntry p src dst n) p (8 * src + dst) []
      [modConn p (8 * src + dst) { count := n, state := 1, since := s.gtc p },
        .addTimer { pkg := p, tick := s.gtc p + 2000, ev := .circuitUp p src dst }] := by
    show execConnectionTableEntry p src dst n s = _
    simp only [execConnectionTableEntry, hcount, Bool.false_and, Bool.false_eq_true, if_false, hrange, hn0, hst, beq_self_eq_true, if_true]
  have hput : ∀ (k k' : Pkg) (l : List Timer), ({ s.withPkg p k with timers := l } : State).withPkg p k' = { s.withPkg p k' with timers := l } :=
    fun k k' l => by
      show ({ s with pkgs := mput p k' (mput p k s.pkgs), timers := l } : State) = _
      rw [mput_mput]
      rfl
  rw [hex, service_done hfree rfl _ rfl, State.commit_cons, State.commit_cons, State.commit_nil, modConn, withPkg_apply_pkg, commit_serviceDone]
  refine congrArg Host.Outcome.next ((hput _ _ _).trans ?_)
  have hk : ∀ (k : Pkg) (l : List Timer), ({ s.withPkg p k with timers := l } : State).pkg p = k := fun k _ => withPkg_pkg s p k
  exact congrArg (fun k => ({ s.withPkg p (Pkg.replied 0 (8 * src + dst) k) with
    timers := s.timers ++ [(⟨p, s.gtc p + 2000, .circuitUp p src dst⟩ : Timer)] } : State)) (hk _ _)

end

end Sys2Proof.Machine
end
section
open Sys2Proof Sys2Proof.Machine

/-- Settles O49: a link's events by what they do to its two ends, a command by what it does on its turn. -/
theorem linksAndRouting : Obligations.LinksAndRouting := by
  unfold Obligations.LinksAndRouting
  refine ⟨?_, ?_⟩
  · intro s p n l k q set seen down
    have hmod : ∀ f : Link → Link, s.commit [modLink p n f] = set (f l) false := fun f => rfl
    have hquar : ∀ a, l.held = [] → s.commit (s.quarantine p n a) = set { l with state := 4, attempts := a, held := [] } true := by
      intro a hh
      have hh' : (s.linkNo p n).held = [] := hh
      simp only [State.quarantine, hh', List.flatMap_nil, List.nil_append]
      rw [State.commit_cons, State.commit_cons, State.commit_nil, modLink, interrupt, apply_pkg_pkg]
      rfl
    have hbad : ∀ no good, l.state = 3 → ¬ seen good → exec (.flitReceive p n no good) s = s.by_ (s.replay p n l) := by
      intro no good hst hseen
      have hst' : (s.linkNo p n).state = 3 := hst
      have hcond : (good % 2 == 0 || !(s.pkg p).lit n (good / 2 % 128) (good / 2 ^ 8 % 4)) = true := by
        by_cases h2 : good % 2 = 1
        · have hl : (s.pkg p).lit n (good / 2 % 128) (good / 2 ^ 8 % 4) = false :=
            Bool.eq_false_iff.mpr fun h => hseen ⟨h2, h⟩
          rw [hl, Bool.not_false, Bool.or_true]
        · have h0 : good % 2 = 0 := by omega
          simp [h0]
      show execFlitReceive p n no good s = _
      simp only [execFlitReceive, hst', hcond]
      rfl
    refine ⟨?_, ?_, ?_, ?_, ?_, ?_, ?_, ?_, ?_, ?_, ?_⟩
    · intro no good hst hlt hno hseen
      obtain ⟨h1, h2⟩ := hseen
      have hst' : (s.linkNo p n).state = 3 := hst
      have h2' : (s.pkg p).lit n (good / 2 % 128) (good / 2 ^ 8 % 4) = true := h2
      have hb : ((s.linkNo p n).expect + 65536 - no % 65536) % 65536 = 0 := by
        have hno' : no = (s.linkNo p n).expect := hno
        have hlt' : (s.linkNo p n).expect < 65536 := hlt
        omega
      show execFlitReceive p n no good s = _
      simp only [execFlitReceive, hst', h1, h2', hb]
      rfl
    · intro no good hst hag hseen
      have hn : ¬ 16 ≤ l.again + 1 := by omega
      rw [hbad no good hst hseen]
      show s.by_ (if 16 ≤ l.again + 1 then _ else _) = _
      rw [if_neg hn]
      rfl
    · intro no good hl hst hag hseen
      have hy : 16 ≤ l.again + 1 := by omega
      have hex : exec (.flitReceive p n no good) s = .next (s.commit (s.linkDown p n fun _ => { l with replays := min 65535 (l.replays + 1), again := 16 })) := by
        rw [hbad no good hst hseen]
        show s.by_ (if 16 ≤ l.again + 1 then s.linkDown p n (fun _ => { l with replays := min 65535 (l.replays + 1), again := l.again + 1 }) else _) = _
        rw [if_pos hy, hag]
        rfl
      exact ⟨_, hex, commit_linkDown hl _⟩
    · intro hl hst
      have hst' : ((s.linkNo p n).state == 0 || (s.linkNo p n).state == 4) = false := by
        have h : (s.linkNo p n).state = 1 ∨ (s.linkNo p n).state = 2 ∨ (s.linkNo p n).state = 3 := hst
        obtain h | h | h := h <;> rw [h] <;> rfl
      have hex : exec (.lossOfLight p n) s = .next (s.commit (s.linkDown p n)) := by
        show execLossOfLight p n s = _
        simp only [execLossOfLight, hst']
        rfl
      exact ⟨_, hex, commit_linkDown hl id⟩
    · intro hl hst
      have hst' : (s.linkNo p n).state = 0 := hst
      show execLightPresent p n s = _
      simp only [execLightPresent, hl, hst']
      rfl
    · intro th hl hst
      have hn : n < 64 := by
        simp only [State.isLink, Bool.and_eq_true, decide_eq_true_eq] at hl
        exact hl.1.1
      have h1 : (n + 256 * th) % 256 = n := by omega
      have h2 : (n + 256 * th) / 256 = th := by omega
      have hst' : ((s.linkNo p n).state == 0 || (s.linkNo p n).state == 4) = true := by
        have h : (s.linkNo p n).state = 0 ∨ (s.linkNo p n).state = 4 := hst
        obtain h | h := h <;> rw [h] <;> rfl
      show execLinkEnable p (n + 256 * th) s = _
      simp only [execLinkEnable, h1, h2, hl, hst', if_true]
      rfl
    · intro hst
      have hst' : ((s.linkNo p n).state != 1) = false := by
        have h : (s.linkNo p n).state = 1 := hst
        rw [h]
        rfl
      have hex : exec (.opticalLock p n) s = .next (s.commit [modLink p n (fun l => { l with state := 2, attempts := 0, since := s.gtc p }),
          .dropTimer (.authTimeout p n), .addTimer { pkg := p, tick := s.gtc p + 2000000, ev := .authTimeout p n }]) := by
        show execOpticalLock p n s = _
        simp only [execOpticalLock, hst']
        rfl
      exact ⟨_, hex, rfl, List.mem_append_right _ List.mem_cons_self⟩
    · intro good hst hg
      have hst' : ((s.linkNo p n).state != 2) = false := by
        have h : (s.linkNo p n).state = 2 := hst
        rw [h]
        rfl
      have hg' : (good != 0) = true := by simpa using Nat.ne_of_gt hg
      show execAuthAttempt p n good s = _
      simp only [execAuthAttempt, hst', hg']
      rfl
    · intro hst hat
      have hst' : ((s.linkNo p n).state != 2) = false := by
        have h : (s.linkNo p n).state = 2 := hst
        rw [h]
        rfl
      have hn : ¬ 3 ≤ (s.linkNo p n).attempts + 1 := by
        have h : (s.linkNo p n).attempts < 2 := hat
        omega
      show execAuthAttempt p n 0 s = _
      simp only [execAuthAttempt, hst', if_neg hn]
      rfl
    · intro hst hat hh
      have hst' : ((s.linkNo p n).state != 2) = false := by
        have h : (s.linkNo p n).state = 2 := hst
        rw [h]
        rfl
      have hat' : (s.linkNo p n).attempts = 2 := hat
      have hq := hquar 3 hh
      show execAuthAttempt p n 0 s = _
      simp only [execAuthAttempt, hst', hat']
      exact congrArg Host.Outcome.next hq
    · intro hst hlate hh
      have hst' : (s.linkNo p n).state = 2 := hst
      have hlate' : s.authLate p n = true := by
        have h : (s.linkNo p n).since + 2000000 ≤ s.gtc p := hlate
        simp [State.authLate, hst', h]
      show execAuthTimeout p n s = _
      simp only [execAuthTimeout, hlate', if_true]
      exact congrArg Host.Outcome.next (hquar (s.linkNo p n).attempts hh)
  · intro s p k free
    refine ⟨?_, ?_, ?_, ?_, ?_, ?_⟩
    · intro q e hflip hfree
      have hw : s.cmdWaits (.routingUpdate p q e) = false := hflip
      refine ⟨fun hq he => ?_, fun h => ?_⟩
      · have hcode : [(decide (2048 ≤ q) || decide (2 ^ 44 ≤ e), 2)].find? (fun x : Bool × Nat => x.1) = none := by
          rw [decide_eq_false (Nat.not_le.mpr hq), decide_eq_false (Nat.not_le.mpr he)]
          rfl
        exact service_pkg hfree hw q hcode _
      · have hcode : [(decide (2048 ≤ q) || decide (2 ^ 44 ≤ e), 2)].find? (fun x : Bool × Nat => x.1) = some (true, 2) := by
          have hb : (decide (2048 ≤ q) || decide (2 ^ 44 ≤ e)) = true := by simpa using h
          rw [hb]
          rfl
        exact service_refused hfree hw q hcode _
    · intro hcanon hflip hfree
      refine ⟨_, exec_routingFlip hfree hflip, ?_, flipped_fields hcanon⟩
      rw [commit_serviceDone, State.flipAll, commit_pkgs_only]
      rfl
    · intro hflip hfree
      have hturn : s.cmdTurn (.routingFlip p) p = true := cmdTurn_of_free hfree rfl
      show execRoutingFlip p s = _
      simp only [execRoutingFlip, hflip, hturn, Bool.and_self, if_true]
      show Host.Outcome.next (s.commit [takeCmd p, _]) = _
      rw [State.commit_cons, State.commit_cons, State.commit_nil, apply_takeCmd hfree, withPkg_apply_pkg]
    · exact fun src hsrc hold hwait hp => exec_drainMarker hsrc hold hwait hp
    · exact fun src dst n hs hd hne h0 h16 hfree hst => exec_connectionSetup hfree hs hd hne h0 h16 hst
    · intro src dst hst hsince
      have hcond : ((s.conn p (8 * src + dst)).state == 1 && decide ((s.conn p (8 * src + dst)).since + 2000 ≤ s.gtc p)) = true := by
        have h : (s.conn p (8 * src + dst)).since + 2000 ≤ s.gtc p := hsince
        simp [hst, h]
      exact if_pos hcond

end

section
/-! SUPPORT. Modulators, heaters and rings (R232, R233, R236, R266). -/

namespace Sys2Proof.Machine

theorem ringKey_eq (pl n : Nat) : ringKey pl n = 17 * pl + n := by rw [ringKey, Nat.mul_comm]
theorem mzmKey_eq (pl n : Nat) : mzmKey pl n = 4 * pl + n := by rw [mzmKey, Nat.mul_comm]
theorem planeNo_eq {port : Nat} (h : port < 2) (plane : Nat) : planeNo port plane = 72 * port + plane := by
  rw [planeNo, Nat.mod_eq_of_lt h]

/-! ## A pass over the rings of a plane -/

/-- A pass over positions that changes each by what stands there: `f` answers `none` to leave it. -/
def ringPass (pl : Nat) (f : Nat → Ring → Option Ring) (l : List Nat) (m : SMap Ring) : SMap Ring :=
  l.foldl (fun m i => match f i (mget m (ringKey pl i) .blank) with
    | some r => mput (ringKey pl i) r m
    | none => m) m

theorem ringPass_other {pl : Nat} {f : Nat → Ring → Option Ring} : ∀ {l : List Nat} {m : SMap Ring} {k : Nat},
    (∀ i ∈ l, k ≠ ringKey pl i) → mget (ringPass pl f l m) k .blank = mget m k .blank
  | [], _, _, _ => rfl
  | i :: l, m, k, h => by
    refine (ringPass_other (l := l) fun j hj => h j (List.mem_cons_of_mem i hj)).trans ?_
    dsimp only
    split
    · rw [mget_mput_ne (h i List.mem_cons_self)]
    · rfl

theorem ringPass_at {pl : Nat} {f : Nat → Ring → Option Ring} : ∀ {l : List Nat} {m : SMap Ring} {i : Nat}, l.Nodup → i ∈ l →
    mget (ringPass pl f l m) (ringKey pl i) .blank = (f i (mget m (ringKey pl i) .blank)).getD (mget m (ringKey pl i) .blank)
  | j :: l, m, i, hn, h => by
    rw [List.nodup_cons] at hn
    have hkey : ∀ {a b : Nat}, a ≠ b → ringKey pl a ≠ ringKey pl b := fun hab => by
      rw [ringKey_eq, ringKey_eq]
      omega
    by_cases hij : i = j
    · subst hij
      refine (ringPass_other (l := l) fun x hx => hkey (Ne.symm (ne_of_mem_of_not_mem hx hn.1))).trans ?_
      dsimp only
      cases f i (mget m (ringKey pl i) .blank) with
      | none => rfl
      | some r => exact mget_mput_same _ _ _ _
    · refine (ringPass_at hn.2 ((List.mem_cons.mp h).resolve_left hij)).trans ?_
      have hsame : mget (match f j (mget m (ringKey pl j) .blank) with
          | some r => mput (ringKey pl j) r m
          | none => m) (ringKey pl i) .blank = mget m (ringKey pl i) .blank := by
        split
        · rw [mget_mput_ne (hkey hij)]
        · rfl
      rw [hsame]

/-! ## A colour that is taken over (R236) -/

/-- What a takeover makes of a ring. -/
def takeRing (ring c i : Nat) (r : Ring) : Option Ring :=
  if i == ring then some { r with drops := true }
  else if r.drops && (r.colour == c || !r.cv) then some { r with drops := false }
  else none

theorem takeColour_eq (pl ring : Nat) (k : Pkg) : Pkg.takeColour pl ring k =
    { k with rings := ringPass pl (takeRing ring (k.ring (ringKey pl ring)).colour) (List.range 17) k.rings } := by
  unfold Pkg.takeColour ringPass takeRing
  dsimp only
  congr 1
  refine List.foldl_ext _ _ _ fun m i _ => ?_
  split
  · rfl
  · split
    · rfl
    · rfl

theorem takeColour_ring {pl ring : Nat} (k : Pkg) {i : Nat} (hi : i < 17) : (k.takeColour pl ring).ring (ringKey pl i) =
    (takeRing ring (k.ring (ringKey pl ring)).colour i (k.ring (ringKey pl i))).getD (k.ring (ringKey pl i)) := by
  rw [takeColour_eq]
  exact ringPass_at List.nodup_range (List.mem_range.mpr hi)

theorem takeRing_own (c i : Nat) (r : Ring) : ((takeRing i c i r).getD r).drops = true := by simp [takeRing]
theorem takeRing_other {ring c i : Nat} (hi : i ≠ ring) {r : Ring} (hr : r.colour = c) : ((takeRing ring c i r).getD r).drops = false := by
  unfold takeRing
  rw [if_neg (by simpa using hi)]
  split
  · rfl
  · next h =>
    rw [hr, beq_self_eq_true, Bool.true_or, Bool.and_true, Bool.not_eq_true] at h
    exact h

/-! ## A ring that fails (R266) -/

/-- What the write of a ring with a colour does to the others (R236). -/
def dropRing (n : Nat) (cv : Bool) (colour i : Nat) (r : Ring) : Option Ring :=
  if i != n && cv && r.cv && r.colour == colour then some { r with cv := false, drops := false } else none

theorem writeRing_eq (pl n v : Nat) (k : Pkg) : k.writeRing pl n v = { k with
    rings := mmod (ringPass pl (dropRing n (bit v 39) (bits v 38 32)) (List.range 17) k.rings) (ringKey pl n) .blank fun r =>
      { r with cv := bit v 39, colour := bits v 38 32, heat := v % 4096
               drops := r.drops && bit v 39 && r.colour == bits v 38 32 } } := by
  have hpass : (List.range 17).foldl (fun (m : SMap Ring) i =>
      if i != n && bit v 39 && (mget m (ringKey pl i) .blank).cv && (mget m (ringKey pl i) .blank).colour == bits v 38 32 then
        mput (ringKey pl i) { mget m (ringKey pl i) .blank with cv := false, drops := false } m
      else m) k.rings = ringPass pl (dropRing n (bit v 39) (bits v 38 32)) (List.range 17) k.rings := by
    unfold ringPass dropRing
    refine List.foldl_ext _ _ _ fun m i _ => ?_
    split
    · rfl
    · rfl
  rw [← hpass]
  rfl

theorem writeRing_own {pl n : Nat} (v : Nat) (k : Pkg) : ((k.writeRing pl n v).ring (ringKey pl n)).cv = bit v 39 ∧
    ((k.writeRing pl n v).ring (ringKey pl n)).colour = bits v 38 32 := by
  rw [writeRing_eq]
  unfold Pkg.ring
  dsimp only
  rw [mget_mmod_same]
  exact ⟨rfl, rfl⟩
theorem writeRing_other {pl n i : Nat} (v : Nat) (k : Pkg) (hi : i < 17) (hn : i ≠ n) : (k.writeRing pl n v).ring (ringKey pl i) =
    (dropRing n (bit v 39) (bits v 38 32) i (k.ring (ringKey pl i))).getD (k.ring (ringKey pl i)) := by
  have hkey : ringKey pl i ≠ ringKey pl n := by
    rw [ringKey_eq, ringKey_eq]
    omega
  rw [writeRing_eq]
  unfold Pkg.ring
  dsimp only
  rw [mget_mmod_ne hkey]
  exact ringPass_at List.nodup_range (List.mem_range.mpr hi)

theorem setHealth_rings (k : Pkg) (f : Word → Word) : (k.setHealth f).rings = k.rings ∧ (k.setHealth f).health = f k.health := by
  unfold Pkg.setHealth
  split
  · next h => exact ⟨rfl, (beq_iff_eq.mp h).symm⟩
  · exact ⟨rfl, rfl⟩

theorem bits_setBits_low (v : Nat) (w : Word) (hv : v < 65536) : bits (setBits 15 0 v w).toNat 15 0 = v := by
  have hw := w.isLt
  have hm : w.toNat % 65536 ≤ w.toNat := Nat.mod_le _ _
  simp only [setBits, bits, word, BitVec.toNat_ofNat]
  omega

section
variable {s : State} {p port plane : Nat} (hport : port < 2) (hplane : plane < 72)
include hport hplane

theorem exec_ringFailure {r : Nat} (hr : r < 17) (hf : ((s.pkg p).ring (17 * (72 * port + plane) + r)).failed = false) :
    exec (.ringFailure p port plane r) s = .next (s.withPkg p (Pkg.ringFails s.now (72 * port + plane) r (s.pkg p))) := by
  show execRingFailure p port plane r s = _
  simp only [execRingFailure, planeNo_eq hport, ringKey_eq, hplane, hr, hf]
  rfl

end

section
variable {k : Pkg} {now pl r : Nat} (hopen : k.ringsOpen now = false)
include hopen

theorem ringsBefore_of_quiet : k.ringsBefore now = k := if_neg (by simp [hopen])

/-- A ring that fails without a colour is only marked. -/
theorem ringFails_blank (hcv : (k.ring (ringKey pl r)).cv = false) : Pkg.ringFails now pl r k =
    { k with rings := mput (ringKey pl r) { k.ring (ringKey pl r) with failed := true } k.rings } := by
  unfold Pkg.ringFails
  rw [ringsBefore_of_quiet hopen]
  exact if_pos (by rw [hcv]; rfl)

/-- Its colour goes to the free spare of its plane. -/
theorem ringFails_spare (hcv : (k.ring (ringKey pl r)).cv = true) (hc : (k.ring (ringKey pl r)).colour < 128) (hr : r < 16)
    (hf : (k.ring (ringKey pl 16)).failed = false) (hs : (k.ring (ringKey pl 16)).cv = false) :
    let k' := Pkg.ringFails now pl r k
    (k'.ring (ringKey pl r)).failed = true ∧ (k'.ring (ringKey pl r)).cv = false ∧ (k'.ring (ringKey pl 16)).cv = true ∧
      (k'.ring (ringKey pl 16)).colour = (k.ring (ringKey pl r)).colour ∧
      bits k'.health.toNat 15 0 = min 65535 (bits k.health.toNat 15 0 + 1) := by
  let k1 : Pkg := { k with rings := mmod k.rings (ringKey pl r) .blank fun x => { x with failed := true } }
  let v := 2 ^ 39 + (k.ring (ringKey pl r)).colour % 128 * 2 ^ 32 + (k.ring (ringKey pl 16)).heat % 4096
  have hv39 : bit v 39 = true := by
    simp only [bit, beq_iff_eq, v]
    omega
  have hvc : bits v 38 32 = (k.ring (ringKey pl r)).colour := by
    simp only [bits, v]
    omega
  have hr16 : (r == 16) = false := by simpa using Nat.ne_of_lt hr
  have hfails : Pkg.ringFails now pl r k = (k1.writeRing pl 16 v).setHealth fun h => setBits 15 0 (min 65535 (bits h.toNat 15 0 + 1)) h := by
    simp only [Pkg.ringFails, ringsBefore_of_quiet hopen, hcv, hr16, hf, hs, hopen]
    rfl
  have hring : ∀ i, (Pkg.ringFails now pl r k).ring i = (k1.writeRing pl 16 v).ring i := fun i => by
    rw [hfails]
    exact congrArg (fun m => mget m i Ring.blank) (setHealth_rings _ _).1
  have hown : k1.ring (ringKey pl r) = { k.ring (ringKey pl r) with failed := true } :=
    mget_mmod_same k.rings (ringKey pl r) .blank fun x => { x with failed := true }
  have hother := writeRing_other v k1 (pl := pl) (n := 16) (i := r) (by omega) (by omega)
  rw [hown, hv39, hvc] at hother
  have hdrop : dropRing 16 true (k.ring (ringKey pl r)).colour r { k.ring (ringKey pl r) with failed := true } =
      some { k.ring (ringKey pl r) with failed := true, cv := false, drops := false } := by
    have hne : (r != 16) = true := by simpa using Nat.ne_of_lt hr
    simp [dropRing, hne, hcv]
  rw [hdrop] at hother
  obtain ⟨hcv16, hcol16⟩ := writeRing_own v k1 (pl := pl) (n := 16)
  intro k'
  refine ⟨?_, ?_, ?_, ?_, ?_⟩
  · exact congrArg Ring.failed ((hring _).trans hother)
  · exact congrArg Ring.cv ((hring _).trans hother)
  · exact (congrArg Ring.cv (hring _)).trans (hcv16.trans hv39)
  · exact (congrArg Ring.colour (hring _)).trans (hcol16.trans hvc)
  · have hh : k'.health = setBits 15 0 (min 65535 (bits k.health.toNat 15 0 + 1)) k.health := by
      show (Pkg.ringFails now pl r k).health = _
      rw [hfails, (setHealth_rings _ _).2]
      rfl
    rw [hh]
    exact bits_setBits_low _ _ (by omega)

end

end Sys2Proof.Machine
end
section
open Sys2Proof Sys2Proof.Machine

/-- Settles O50: each optical event by the package that it leaves. -/
theorem optics : Obligations.Optics := by
  unfold Obligations.Optics
  intro s p port plane hport hplane k pl
  have hpl : planeNo port plane = pl := planeNo_eq hport plane
  refine ⟨fun m hm hauto => ?_, ?_⟩
  · have hauto' : ((s.pkg p).mzm (4 * pl + m)).auto = true := hauto
    have bias : ∀ high, exec (.biasLimit p port plane m high) s = .next (s.withPkg p { k with
        mzms := mput (4 * pl + m) { k.mzm (4 * pl + m) with bias := if high == 0 then 0 else 4095, qalarm := true } k.mzms,
        intstat := k.intstat ||| 4 }) := fun high => by
      have hex : exec (.biasLimit p port plane m high) s = .next (s.commit [.pkg p (fun k => { k with mzms := mmod k.mzms (4 * pl + m) .blank fun x =>
          { x with bias := if high == 0 then 0 else 4095, qalarm := true } }), interrupt p 2]) := by
        show execBiasLimit p port plane m high s = _
        simp only [execBiasLimit, hpl, mzmKey_eq, hplane, hm, hauto']
        rfl
      rw [hex, State.commit_cons, State.commit_cons, State.commit_nil, interrupt, apply_pkg_pkg]
      rfl
    exact ⟨bias 1, bias 0⟩
  intro r hr i x
  refine ⟨?_, fun v hv hg => ?_, fun hcv => ?_, fun hq hf hcv => ?_, fun hq hf hcv hc hlt hsf hscv => ?_⟩
  · show execHeaterApply p port plane r s = _
    rw [execHeaterApply, hpl, ringKey_eq]
    rfl
  · have hg' : (s.gtc p % 1000 == 0) = true := beq_iff_eq.mpr hg
    show execMonUpdate p port plane r v s = _
    simp only [execMonUpdate, hpl, ringKey_eq, hg', hplane, hr, Nat.mod_eq_of_lt hv]
    rfl
  · have hcv' : ((s.pkg p).ring (17 * pl + r)).cv = true := hcv
    refine ⟨Pkg.takeColour pl r k, ?_, ?_, fun j hj hne hcol => ?_, ?_, ?_⟩
    · show execColourTakeover p port plane r s = _
      simp only [execColourTakeover, hpl, ringKey_eq, hr, hcv']
      rfl
    · have h := takeColour_ring (pl := pl) (ring := r) k hr
      rw [ringKey_eq] at h
      rw [h]
      exact takeRing_own _ _ _
    · have h := takeColour_ring (pl := pl) (ring := r) k hj
      rw [ringKey_eq, ringKey_eq] at h
      rw [h]
      exact takeRing_other hne hcol
    · rw [takeColour_eq]
    · rw [takeColour_eq]
  · have h := ringFails_blank (pl := pl) (r := r) hq (by rw [ringKey_eq]; exact hcv)
    rw [exec_ringFailure hport hplane hr hf]
    rw [ringKey_eq] at h
    exact congrArg (fun k' => Host.Outcome.next (s.withPkg p k')) h
  · have h := ringFails_spare (pl := pl) (r := r) hq (by rw [ringKey_eq]; exact hcv) (by rw [ringKey_eq]; exact hc) hlt
      (by rw [ringKey_eq]; exact hsf) (by rw [ringKey_eq]; exact hscv)
    rw [ringKey_eq, ringKey_eq] at h
    exact ⟨_, exec_ringFailure hport hplane hr hf, h⟩

end

section
/-! SUPPORT. Installations by service commands (R164, R168, R209, R220, R229, R238). -/

namespace Sys2Proof.Machine

/-! ## A command that changes other parts of the state than its package -/

/-- Changes that neither read nor change the packages. -/
def OffPkgs (us : List Upd) : Prop := ∀ (s : State) (m : SMap Pkg), ({ s with pkgs := m } : State).commit us = { s.commit us with pkgs := m }

theorem OffPkgs.pkgs {us : List Upd} (h : OffPkgs us) (s : State) : (s.commit us).pkgs = s.pkgs := by
  have he := congrArg State.pkgs (h s s.pkgs)
  exact he

theorem service_busy {s : State} {p : PkgId} {i : Instr} (h : s.serviceBusy p = true) (index : Nat) (codes : List (Bool × Nat)) (us : List Upd) :
    s.service i p index codes us = .next (s.withPkg p ((s.pkg p).enqueue i)) := by
  have ht : s.cmdTurn i p = false := by simp [State.cmdTurn, h]
  unfold State.service
  rw [ht]
  rfl

section
variable {s : State} {p : PkgId} (hfree : s.serviceBusy p = false ∧ (s.pkg p).queue = [])
include hfree

theorem service_aside {i : Instr} (hw : s.cmdWaits i = false) (index : Nat) {codes : List (Bool × Nat)}
    (hc : codes.find? (·.1) = none) {us : List Upd} (hus : OffPkgs us) :
    s.service i p index codes us = .next ((s.commit us).withPkg p (Pkg.replied 0 index (s.pkg p))) := by
  have h : (s.withPkg p (s.pkg p)).commit us = { s.commit us with pkgs := mput p (s.pkg p) s.pkgs } := hus s _
  rw [service_done hfree hw index hc, h, commit_serviceDone]
  refine congrArg Host.Outcome.next ?_
  show ({ s.commit us with pkgs := mput p (Pkg.replied 0 index (mget (mput p (s.pkg p) s.pkgs) p .blank)) (mput p (s.pkg p) s.pkgs) } : State) = _
  rw [mget_mput_same, mput_mput, ← hus.pkgs s]
  rfl

end

/-! ## Ranges and translation caches (R164, R168) -/

theorem commit_dies_map {δ : Type} (g : Die → Die) (f : δ → DieId) : ∀ (l : List δ) (s : State), (l.map f).Nodup → ∀ d,
    (s.commit (l.map fun x => .die (f x) g)).die d = if d ∈ l.map f then g (s.die d) else s.die d
  | [], _, _, _ => rfl
  | x :: l, s, hn, d => by
    rw [List.map_cons, List.nodup_cons] at hn
    rw [List.map_cons, State.commit_cons, commit_dies_map g f l _ hn.2, State.die_apply_die]
    by_cases hd : d = f x
    · subst hd
      simp [hn.1]
    · simp [hd]
theorem offPkgs_dies {δ : Type} (g : δ → Die → Die) (f : δ → DieId) : ∀ l : List δ, OffPkgs (l.map fun x => .die (f x) (g x))
  | [], _, _ => rfl
  | x :: l, s, m => by
    rw [List.map_cons, State.commit_cons, State.commit_cons]
    exact offPkgs_dies g f l (s.apply (.die (f x) (g x))) m
theorem commit_dies_only {δ : Type} (g : δ → Die → Die) (f : δ → DieId) : ∀ (l : List δ) (s : State),
    s.commit (l.map fun x => .die (f x) (g x)) = { s with dies := (s.commit (l.map fun x => .die (f x) (g x))).dies }
  | [], _ => rfl
  | x :: l, s => by
    rw [List.map_cons, State.commit_cons]
    exact commit_dies_only g f l (s.apply (.die (f x) (g x)))
theorem dieIds_nodup (p n : Nat) : ((List.range n).map (dieId p)).Nodup :=
  List.Nodup.map (fun a b h => by simpa [dieId] using h) List.nodup_range

/-! ## Mark areas (R210) -/

/-- Changes of memory by zeros, and of dies. -/
def ZeroOrDie (us : List Upd) : Prop := ∀ u ∈ us, (∃ a n, u = .zero a n) ∨ ∃ d f, u = .die d f

theorem zeroOrDie_commit : ∀ {us : List Upd}, ZeroOrDie us → ∀ (s : State) (m : SMap Pkg) (pl : SMap Plane),
    ({ s with pkgs := m, planes := pl } : State).commit us =
      { s with pkgs := m, planes := pl, mem := (s.commit us).mem, dies := (s.commit us).dies }
  | [], _, _, _, _ => rfl
  | u :: us, h, s, m, pl => by
    have ih := zeroOrDie_commit (fun v hv => h v (List.mem_cons_of_mem u hv)) (s.apply u) m pl
    rw [State.commit_cons, State.commit_cons]
    obtain ⟨a, n, rfl⟩ | ⟨d, f, rfl⟩ := h u List.mem_cons_self
    · exact ih
    · exact ih

theorem zeroOrDie_clearMarks (s : State) (part : Nat) (p : Plane) : ZeroOrDie (s.clearMarks part p) := by
  intro u hu
  unfold State.clearMarks at hu
  split at hu
  · obtain ⟨e, -, hu⟩ := List.mem_flatMap.mp hu
    obtain ⟨x, -, hu⟩ := List.mem_flatMap.mp hu
    rcases List.mem_cons.mp hu with rfl | hu
    · exact .inl ⟨_, _, rfl⟩
    · cases List.mem_singleton.mp hu
      exact .inr ⟨_, _, rfl⟩
  · dsimp only at hu
    split at hu
    · split at hu
      · cases hu
      · obtain ⟨q, -, hu⟩ := List.mem_flatMap.mp hu
        rcases List.mem_cons.mp hu with rfl | hu
        · exact .inl ⟨_, _, rfl⟩
        · cases List.mem_singleton.mp hu
          exact .inr ⟨_, _, rfl⟩
    · cases hu

theorem eraseDups_of_nodup : ∀ {l : List Nat}, l.Nodup → l.eraseDups = l
  | [], _ => rfl
  | a :: l, h => by
    rw [List.nodup_cons] at h
    have hf : l.filter (fun b => !b == a) = l := List.filter_eq_self.mpr fun b hb => by
      simpa using ne_of_mem_of_not_mem hb h.1
    rw [List.eraseDups_cons, hf, eraseDups_of_nodup h.2]

/-- No refusal of a list of codes whose conditions fail (R445). -/
theorem codes_none {l : List (Bool × Nat)} (h : ∀ x ∈ l, x.1 = false) : l.find? (·.1) = none :=
  List.find?_eq_none.mpr fun x hx => by simp [h x hx]

/-- A circuit descriptor that R238 admits meets no refusal. -/
theorem circuit_codes {p slot i w0 w2 w3 : Nat} {d : BitVec 256} (hi : i < 256) (hslot : slot < 6) (hres : circReserved w0 w2 w3 = false)
    (hd : circValid d = true → 0 < circLen d ∧ circLen d ≤ 50000 ∧ circPeerSlot d < 6 ∧ circPeerPkg d ≠ p ∧
      (if circPort d = 0 then rowOf (circPeerPkg d) = rowOf p else colOf (circPeerPkg d) = colOf p)) :
    ∀ x ∈ [(circReserved w0 w2 w3, 1),
      (decide (256 ≤ i) || decide (6 ≤ slot) || (circValid d && (circLen d == 0 || decide (50000 < circLen d) || decide (6 ≤ circPeerSlot d))), 2),
      (circValid d && !(circPeerPkg d != p && (if circPort d == 0 then rowOf (circPeerPkg d) == rowOf p else colOf (circPeerPkg d) == colOf p)), 7)],
      x.1 = false := by
  have hrange : (decide (256 ≤ i) || decide (6 ≤ slot)) = false := by simp [Nat.not_le.mpr hi, Nat.not_le.mpr hslot]
  intro x hx
  simp only [List.mem_cons, List.not_mem_nil, or_false] at hx
  cases hv : circValid d with
  | false =>
    rw [hv] at hx
    rcases hx with rfl | rfl | rfl
    · exact hres
    · simpa using hrange
    · rfl
  | true =>
    obtain ⟨h0, h1, h2, h3, h4⟩ := hd hv
    rw [hv] at hx
    rcases hx with rfl | rfl | rfl
    · exact hres
    · rw [hrange, beq_false_of_ne (Nat.ne_of_gt h0), decide_eq_false (Nat.not_lt.mpr h1), decide_eq_false (Nat.not_le.mpr h2)]
      rfl
    · have hhop : (if circPort d == 0 then rowOf (circPeerPkg d) == rowOf p else colOf (circPeerPkg d) == colOf p) = true := by
        by_cases hp : circPort d = 0
        · rw [if_pos hp] at h4
          simp [hp, h4]
        · rw [if_neg hp] at h4
          simp [hp, h4]
      rw [hhop]
      simpa using h3

section
variable {s : State} {part i w0 w1 w2 w3 w4 : Nat} (hi : i < 64) (h3 : bits w3 63 24 = 0) (h4 : bits w4 63 16 = 0) (h5 : bits w4 9 5 = 0)
include hi h3 h4 h5

/-- A plane descriptor that R209 and R210 allow meets no refusal. -/
theorem plane_codes {x : Plane} (hin : x.inRange = true)
    (hmeets : x.meets ((s.planes.filter fun e => e.1 / 64 == part && e.1 != 64 * part + i).map fun e => e.2) = false)
    (hcrown : spaceOf x.base = 3 → ∀ a ∈ x.spans, s.crownArea part a = true)
    (hbank : spaceOf x.base = 1 → ∀ a ∈ x.spans, offsetBits a.1 + a.2 ≤ 2 ^ 28) (hrule : x.rule = 1 → 11 ≤ x.ty ∧ x.ty ≤ 14)
    (hrun : s.groupRuns part x.group = false)
    (hold : ∀ o, mfind (64 * part + i) s.planes = some o → s.groupRuns part o.group = false) :
    ∀ c ∈ [((bits w3 63 24 != 0 || bits w4 63 16 != 0 || bits w4 9 5 != 0 || bits 1 63 1 != 0 || (0 : Nat) != 0 || (0 : Nat) != 0), 1),
      (decide (64 ≤ i) || !x.inRange, 2),
      (x.meets ((s.planes.filter fun e => e.1 / 64 == part && e.1 != 64 * part + i).map fun e => e.2), 3),
      (spaceOf x.base == 3 && !x.spans.all (s.crownArea part), 4),
      (spaceOf x.base == 1 && !x.spans.all (fun a => decide (offsetBits a.1 + a.2 ≤ 2 ^ 28)), 5),
      (x.rule == 1 && !(decide (11 ≤ x.ty) && decide (x.ty ≤ 14)), 6),
      (s.groupRuns part x.group && bit 1 0 || (mfind (64 * part + i) s.planes).any fun o => s.groupRuns part o.group, 9)],
      c.1 = false := by
  intro c hc
  simp only [List.mem_cons, List.not_mem_nil, or_false] at hc
  rcases hc with rfl | rfl | rfl | rfl | rfl | rfl | rfl
  · rw [h3, h4, h5]
    rfl
  · rw [hin, decide_eq_false (Nat.not_le.mpr hi)]
    rfl
  · exact hmeets
  · by_cases h : spaceOf x.base = 3
    · have hall : x.spans.all (s.crownArea part) = true := List.all_eq_true.mpr (hcrown h)
      rw [hall, Bool.not_true, Bool.and_false]
    · rw [beq_false_of_ne h, Bool.false_and]
  · by_cases h : spaceOf x.base = 1
    · have hall : x.spans.all (fun a => decide (offsetBits a.1 + a.2 ≤ 2 ^ 28)) = true :=
        List.all_eq_true.mpr fun a ha => decide_eq_true (hbank h a ha)
      rw [hall, Bool.not_true, Bool.and_false]
    · rw [beq_false_of_ne h, Bool.false_and]
  · by_cases h : x.rule = 1
    · rw [decide_eq_true (hrule h).1, decide_eq_true (hrule h).2, Bool.and_self, Bool.not_true, Bool.and_false]
    · rw [beq_false_of_ne h, Bool.false_and]
  · rw [hrun, Bool.false_and, Bool.false_or]
    cases hf : mfind (64 * part + i) s.planes with
    | none => rfl
    | some o => exact hold o hf

/-- Nor does its removal. -/
theorem plane_removal_codes {x : Plane}
    (hold : ∀ o, mfind (64 * part + i) s.planes = some o → s.groupRuns part o.group = false) :
    ∀ c ∈ [((bits w3 63 24 != 0 || bits w4 63 16 != 0 || bits w4 9 5 != 0 || bits 0 63 1 != 0 || (0 : Nat) != 0 || (0 : Nat) != 0), 1),
      (decide (64 ≤ i), 2),
      (s.groupRuns part x.group && bit 0 0 || (mfind (64 * part + i) s.planes).any fun o => s.groupRuns part o.group, 9)],
      c.1 = false := by
  intro c hc
  simp only [List.mem_cons, List.not_mem_nil, or_false] at hc
  rcases hc with rfl | rfl | rfl
  · rw [h3, h4, h5]
    rfl
  · exact decide_eq_false (Nat.not_le.mpr hi)
  · rw [show bit 0 0 = false from rfl, Bool.and_false, Bool.false_or]
    cases hf : mfind (64 * part + i) s.planes with
    | none => rfl
    | some o => exact hold o hf

end

theorem offPkgs_plane {us : List Upd} (h : ZeroOrDie us) (i : Nat) (f : Option Plane → Option Plane) : OffPkgs (.plane i f :: us) :=
  fun s m => by
    have h1 := zeroOrDie_commit h (s.apply (.plane i f)) m (s.apply (.plane i f)).planes
    have h2 := zeroOrDie_commit h (s.apply (.plane i f)) s.pkgs (s.apply (.plane i f)).planes
    rw [State.commit_cons, State.commit_cons]
    refine h1.trans ?_
    have h3 : (s.apply (.plane i f)).commit us = { s.apply (.plane i f) with
      mem := ((s.apply (.plane i f)).commit us).mem, dies := ((s.apply (.plane i f)).commit us).dies } := h2
    rw [h3]

end Sys2Proof.Machine
end
section
open Sys2Proof Sys2Proof.Machine

/-- Settles O51: a command on its turn whose refusals do not hold does its change and is answered. -/
theorem serviceInstallations : Obligations.ServiceInstallations := by
  unfold Obligations.ServiceInstallations
  intro s p part i k
  have hunknown : ∀ c, exec (.unknownCommand p c) s = s.service (.unknownCommand p c) p 0 [(true, 0x0A)] [] := fun _ => rfl
  have hquantum : ∀ v, exec (.setBandQuantum p i v) s = s.service (.setBandQuantum p i v) p i [(decide (8 ≤ i), 2)]
    [.pkg p fun k => { k with quanta := mput i v k.quanta }] := fun _ => rfl
  refine ⟨fun hb c v => ⟨(hunknown c).trans (service_busy hb _ _ _), (hquantum v).trans (service_busy hb _ _ _)⟩, fun hb hq => ?_⟩
  have hfree : s.serviceBusy p = false ∧ (s.pkg p).queue = [] := ⟨hb, hq⟩
  intro done
  refine ⟨?_, ?_, ?_, ?_, ?_, ?_, ?_, ?_⟩
  · intro w0 w1 w2 w3 hi r
    have hex : exec (.installRangeEntry p part i w0 w1 w2 w3) s = s.service (.installRangeEntry p part i w0 w1 w2 w3) p i
        [(r.reserved, 1), (r.beyond, 2)] [.range ((1024 * part + p) * 256 + i) (some r)] := if_pos hi
    refine ⟨fun hres hbey => ?_, fun hres => ?_⟩
    · rw [hex, service_aside hfree rfl i (codes_none (by simp [hres, hbey])) (fun _ _ => rfl)]
      rfl
    · rw [hex, service_refused hfree rfl i (b := true) (c := 1) (by rw [hres]; rfl)]
  · intro space first last hspace hwalks
    have hw : s.cmdWaits (.invalidateTranslation p part space first last) = false := by
      show (((List.range 8).map (dieId p)).any fun d => (s.die d).walks.any fun w => w.part == part && w.space == space) = false
      simp only [List.any_eq_false, List.mem_map, List.mem_range]
      rintro d ⟨j, hj, rfl⟩ hany
      obtain ⟨w, hw, h1, h2⟩ : ∃ w ∈ (s.die (dieId p j)).walks, w.part = part ∧ w.space = space := by
        simpa [List.any_eq_true] using hany
      exact hwalks j hj w hw h1 h2
    let keep : Die → Die := fun k => { k with tcache := k.tcache.filter fun e =>
      !(e.part == part && e.space == space && e.vbase < (last + 1) * 4096 && first * 4096 < e.vbase + e.size) }
    have hex : exec (.invalidateTranslation p part space first last) s =
        .next ((s.commit ((List.range 8).map fun i => .die (dieId p i) keep)).withPkg p (Pkg.replied 0 0 k)) :=
      service_aside hfree hw 0 (codes_none (by simp [Nat.not_le.mpr hspace])) (offPkgs_dies (fun _ => keep) (dieId p) _)
    refine ⟨_, hex, ?_, fun d hd => ?_⟩
    · rw [commit_dies_only (fun _ => keep) (dieId p)]
      rfl
    · refine (commit_dies_map keep (dieId p) _ s (dieIds_nodup p 8) (dieId p d)).trans (if_pos ?_)
      exact List.mem_map_of_mem (List.mem_range.mpr hd)
  · intro w0 w1 w2 w3 w4 hi h3 h4 h5 x hin hmeets hcrown hbank hrule hrun hold
    have hxdef : x = { planeOf w0 w1 w2 w3 w4 with frozen := s.planeLost part (planeOf w0 w1 w2 w3 w4) } := rfl
    clear_value x
    refine ⟨?_, ?_⟩
    · intro t
      have hmarks := zeroOrDie_clearMarks s part x
      have hex : exec (.installPlaneDescriptor p part i w0 w1 w2 w3 w4 1 0 0) s = .next
          ((s.commit (.plane (64 * part + i) (fun _ => some x) :: s.clearMarks part x)).withPkg p (Pkg.replied 0 i k)) := by
        subst hxdef
        exact service_aside hfree rfl i (codes_none (plane_codes hi h3 h4 h5 hin hmeets hcrown hbank hrule hrun hold)) (offPkgs_plane hmarks _ _)
      have hcommit : s.commit (.plane (64 * part + i) (fun _ => some x) :: s.clearMarks part x) =
          { s with planes := mput (64 * part + i) x s.planes, mem := t.mem, dies := t.dies } :=
        zeroOrDie_commit hmarks s s.pkgs (mput (64 * part + i) x s.planes)
      rw [hex, hcommit]
    · subst hxdef
      exact service_aside hfree rfl i (codes_none (plane_removal_codes hi h3 h4 h5 hold)) (us := [.plane (64 * part + i) fun _ => none])
        (fun _ _ => rfl)
  · intro ms hi hne hlen hnd hms
    have hex : exec (.installBarrierEntry p part i ms) s = .next ((s.commit [.barrier (64 * part + i) fun b =>
        some { Barrier.blank with members := ms, phase := (b.map (·.phase)).getD 0 }]).withPkg p (Pkg.replied 0 i k)) := by
      refine service_aside hfree rfl i (codes_none ?_) (fun _ _ => rfl)
      have h1 : (ms.any fun m => decide (2 ^ 13 ≤ m)) = false :=
        List.any_eq_false.mpr fun m hm => by simpa using (hms m hm).1
      have h2 : (ms.any fun m => decide (6 ≤ m / 2 ^ 10 % 8)) = false :=
        List.any_eq_false.mpr fun m hm => by simpa using (hms m hm).2.1
      have h3 : (ms.any fun m => rowOf (m % 1024) != rowOf (ms.headD 0 % 1024)) = false :=
        List.any_eq_false.mpr fun m hm => by simpa using (hms m hm).2.2
      have h4 : ms.isEmpty = false := by simpa using hne
      have h5 : (ms.eraseDups.length != ms.length) = false := by rw [eraseDups_of_nodup hnd]; simp
      intro c hc
      simp only [List.mem_cons, List.not_mem_nil, or_false] at hc
      rcases hc with rfl | rfl | rfl
      · exact h1
      · show (decide (64 ≤ i) || ms.isEmpty || decide (64 < ms.length) || ms.eraseDups.length != ms.length ||
          ms.any fun m => decide (6 ≤ m / 2 ^ 10 % 8)) = false
        rw [h2, h4, h5, decide_eq_false (Nat.not_le.mpr hi), decide_eq_false (Nat.not_lt.mpr hlen)]
        rfl
      · exact h3
    exact hex
  · intro base size ty op hi h2 h4 hp hs hty hop
    refine service_aside (us := [.window (16 * part + i) (some { base := word base, size := size, ty := ty, op := op })]) hfree rfl i (codes_none ?_) (fun _ _ => rfl)
    intro c hc
    cases List.mem_singleton.mp hc
    have hty' : (decide (ty ≤ 1) || decide (11 ≤ ty) && decide (ty ≤ 14)) = true := by simpa using hty
    show (decide (16 ≤ i) || decide (spaceOf (word base) < 2) || decide (4 < spaceOf (word base)) || !ptrOk 0 (word base) ||
      size == 0 || !(decide (ty ≤ 1) || decide (11 ≤ ty) && decide (ty ≤ 14)) || decide (3 ≤ op)) = false
    rw [hp, hty', decide_eq_false (Nat.not_le.mpr hi), decide_eq_false (Nat.not_lt.mpr h2), decide_eq_false (Nat.not_lt.mpr h4),
      decide_eq_false (Nat.not_le.mpr hop), beq_false_of_ne (Nat.ne_of_gt hs)]
    rfl
  · intro slot w0 w1 w2 w3 hi hslot hres d hd c
    refine (service_aside (us := [.circuit c fun y => some { y.getD .blank with desc := d }]) hfree rfl i (codes_none ?_) (fun _ _ => rfl)).trans rfl
    exact circuit_codes hi hslot hres hd
  · intro v hi
    exact service_pkg hfree rfl i (codes_none (by simp [Nat.not_le.mpr hi])) _
  · intro code
    exact (hunknown code).trans (service_refused hfree rfl 0 (b := true) (c := 0x0A) rfl _)

end

section
/-! SUPPORT. The host's accesses to a package (R30, R258, R259). -/

namespace Sys2Proof.Machine

/-- A read of the host takes a value, under a free value that may have been drawn for it. -/
def State.hostTook (s : State) (p : PkgId) (v : Word) : State :=
  { s.withPkg p { s.pkg p with hostRead := v } with fresh := s.fresh + 1 }

section
variable {s : State} {p n : Nat} (h0 : 0 < n) (h8 : n ≤ 8) (d : Nat)
include h0 h8

theorem hostAccess_size : (n == 0 || decide (8 < n)) = false := by
  rw [beq_false_of_ne (Nat.ne_of_gt h0), decide_eq_false (Nat.not_lt.mpr h8)]
  rfl

theorem exec_hostRead_reg {off : Nat} (ho : off < 2 ^ 16) :
    exec (.hostAccess p 0 off n d) s = .next (s.hostTook p (s.hostReg p off n)) := by
  show execHostAccess p 0 off n d s = _
  simp only [execHostAccess, hostAccess_size h0 h8, ho, if_true]
  rfl
theorem exec_hostWrite_reg {off : Nat} (ho : off < 2 ^ 16) :
    exec (.hostAccess p 1 off n d) s = hostRegWrite p off n d s := by
  show execHostAccess p 1 off n d s = _
  simp only [execHostAccess, hostAccess_size h0 h8, ho, if_true]
  rfl

variable {ptr : Nat} (hp : 2 ^ 16 ≤ ptr)
include hp

theorem exec_hostRead_own (h5 : spaceOf (word ptr) = 5) :
    exec (.hostAccess p 0 ptr n d) s = .next (s.hostTook p (word (s.num (hostAddr p (offsetBits (word ptr))) n))) := by
  show execHostAccess p 0 ptr n d s = _
  simp only [execHostAccess, hostAccess_size h0 h8, Nat.not_lt.mpr hp, h5]
  rfl
theorem exec_hostWrite_own (h5 : spaceOf (word ptr) = 5) :
    exec (.hostAccess p 1 ptr n d) s = .next (s.commit (writeBytes (hostAddr p (offsetBits (word ptr))) (toBytes n d))) := by
  show execHostAccess p 1 ptr n d s = _
  simp only [execHostAccess, hostAccess_size h0 h8, Nat.not_lt.mpr hp, h5]
  rfl

end

theorem offsetBits_lt (w : Word) : offsetBits w < 2 ^ 64 := by
  unfold offsetBits
  split
  · omega
  · omega

/-- A write of the companion's own memory reaches no bank, stack or crown bank. -/
theorem writeBytes_hostAddr (p : Nat) (w : Word) (bs : List Byte) :
    writeBytes (hostAddr p (offsetBits w)) bs = [.mem (hostAddr p (offsetBits w)) bs] := by
  have hlt := offsetBits_lt w
  have hdiv : hostAddr p (offsetBits w) / 2 ^ 64 = (3 * 1024 + p) * 8 + 0 := by
    unfold hostAddr homeAddr
    rw [Nat.add_comm, Nat.add_mul_div_right _ _ (by decide), Nat.div_eq_of_lt hlt, Nat.zero_add]
  have h1 : ¬ hostAddr p (offsetBits w) / 2 ^ 64 < 8192 := by rw [hdiv]; omega
  have h2 : errPlace (hostAddr p (offsetBits w)) = none := by
    have ha : (decide (8192 ≤ hostAddr p (offsetBits w) / 2 ^ 64) && decide (hostAddr p (offsetBits w) / 2 ^ 64 < 16384)) = false := by
      rw [hdiv, decide_eq_false (show ¬ (3 * 1024 + p) * 8 + 0 < 16384 by omega), Bool.and_false]
    have hb : (decide (16384 ≤ hostAddr p (offsetBits w) / 2 ^ 64) && decide (hostAddr p (offsetBits w) / 2 ^ 64 < 24576)) = false := by
      rw [hdiv, decide_eq_false (show ¬ (3 * 1024 + p) * 8 + 0 < 24576 by omega), Bool.and_false]
    simp only [errPlace, ha, hb]
    rfl
  rw [writeBytes, if_neg h1, h2]

/-- An access that reaches the host's window is in space 0x2. -/
theorem hostBytes_space {s : State} {p n : Nat} {need : Need} {ptr : Word} {l : List Nat} (h0 : 0 < n)
    (hl : s.hostBytes p need ptr n = some l) : (spaceOf ptr == 5) = false := by
  obtain ⟨m, rfl⟩ : ∃ m, n = m + 1 := ⟨n - 1, by omega⟩
  have hne : s.hostByte p need (ptrAdd ptr 0) ≠ none := fun h => by
    rw [State.hostBytes, List.range_succ_eq_map, List.mapM_cons, h] at hl
    cases hl
  have h2 : spaceOf (ptrAdd ptr 0) = 2 := by
    by_contra hs
    refine hne ?_
    simp [State.hostByte, hs]
  have hadd : ptrAdd ptr 0 = ptr := BitVec.add_zero ptr
  rw [hadd] at h2
  rw [h2]
  rfl

/-- Bytes written one by one. -/
theorem commit_byteWrites (l : List (Nat × Byte)) (s : State) : ∃ dies, s.commit (l.flatMap fun x => writeBytes x.1 [x.2]) =
    { s with mem := l.foldl (fun m x => memSet x.1 x.2 m) s.mem, dies := dies } :=
  commit_writeBytes_list (fun x : Nat × Byte => x.1) (fun x => [x.2]) l s

theorem inQueue_of {off n : Nat} (h1 : 0x4000 ≤ off) (h2 : off + n ≤ 0x8000) : inQueue off n = true := by
  simp [inQueue, h1, h2]
theorem inQueue_below {off n : Nat} (h : off < 0x4000) : inQueue off n = false := by
  simp [inQueue, Nat.not_le.mpr h]

end Sys2Proof.Machine
end
section
open Sys2Proof Sys2Proof.Machine

/-- Settles O52: the access is read off its operand: the register block, the companion's memory, or the window. -/
theorem hostAccesses : Obligations.HostAccesses := by
  unfold Obligations.HostAccesses
  intro s p k read
  refine ⟨fun ptr hl => if_pos hl, fun v => rfl, fun n d h0 h8 => ?_, fun off n d h0 h8 h1 h2 => ?_, fun ptr n d hp h0 h8 h5 => ?_,
    fun ptr n d l hp h0 h8 hl => ?_, fun ptr n d hp h0 h8 h5 hl => ?_, fun ptr n d l hp h0 h8 hl => ?_⟩
  · have reg : ∀ off, off < 0x4000 → s.hostReg p off n =
        if off == 0 then k.bootstat else if off == 8 then k.health else if off == 16 then k.intstat else s.freeWord 0 := fun off h => by
      unfold State.hostReg
      rw [inQueue_below h]
      rfl
    refine ⟨?_, ?_, ?_, ?_, ?_⟩
    · rw [exec_hostRead_reg h0 h8 d (by decide), reg 0 (by decide)]
      rfl
    · rw [exec_hostRead_reg h0 h8 d (by decide), reg 8 (by decide)]
      rfl
    · rw [exec_hostRead_reg h0 h8 d (by decide), reg 16 (by decide)]
      rfl
    · rw [exec_hostWrite_reg h0 h8 d (by decide), hostRegWrite, inQueue_below (by decide)]
      rfl
    · rw [exec_hostWrite_reg h0 h8 d (by decide), hostRegWrite, inQueue_below (by decide)]
      rfl
  · have ho : off < 2 ^ 16 := by omega
    have hq := inQueue_of h1 h2
    refine ⟨?_, ?_⟩
    · rw [exec_hostRead_reg h0 h8 d ho, State.hostReg, hq]
      rfl
    · rw [exec_hostWrite_reg h0 h8 d ho, hostRegWrite, hq]
      rfl
  · intro a
    refine ⟨exec_hostRead_own h0 h8 d hp h5, _, exec_hostWrite_own h0 h8 d hp h5, ?_, ?_⟩
    · rw [writeBytes_hostAddr]
      rfl
    · rw [writeBytes_hostAddr]
      rfl
  · have h5 := hostBytes_space h0 hl
    show execHostAccess p 0 ptr n d s = _
    simp only [execHostAccess, hostAccess_size h0 h8, Nat.not_lt.mpr hp, h5, hl]
    rfl
  · show execHostAccess p 0 ptr n d s = _
    simp only [execHostAccess, hostAccess_size h0 h8, Nat.not_lt.mpr hp, beq_false_of_ne h5, hl]
    rfl
  · have h5 := hostBytes_space h0 hl
    have hex : exec (.hostAccess p 1 ptr n d) s = .next (s.commit ((l.zip (toBytes n d)).flatMap fun x => writeBytes x.1 [x.2])) := by
      show execHostAccess p 1 ptr n d s = _
      simp only [execHostAccess, hostAccess_size h0 h8, Nat.not_lt.mpr hp, h5, hl]
      rfl
    obtain ⟨dies, hc⟩ := commit_byteWrites (l.zip (toBytes n d)) s
    rw [hc] at hex
    exact ⟨_, hex, rfl, rfl, rfl, rfl⟩

end

section
/-! SUPPORT. Starts, resets and attestation (R261–R263). -/

namespace Sys2Proof.Machine

/-! ## One change of each of several dies -/

theorem die_commit_dies {δ : Type} (g : δ → Die → Die) (f : δ → DieId) : ∀ {l : List δ} {x : δ} (s : State), (l.map f).Nodup → x ∈ l →
    (s.commit (l.map fun x => .die (f x) (g x))).die (f x) = g x (s.die (f x))
  | y :: l, x, s, hn, hx => by
    rw [List.map_cons, List.nodup_cons] at hn
    rw [List.map_cons, State.commit_cons]
    by_cases hxl : x ∈ l
    · rw [die_commit_dies g f _ hn.2 hxl, State.die_apply_die, if_neg]
      exact ne_of_mem_of_not_mem (List.mem_map_of_mem hxl) hn.1
    · obtain rfl : x = y := (List.mem_cons.mp hx).resolve_right hxl
      have hout : ∀ {l : List δ} (s : State), f x ∉ l.map f → (s.commit (l.map fun x => .die (f x) (g x))).die (f x) = s.die (f x) := by
        intro l
        induction l with
        | nil => exact fun _ _ => rfl
        | cons z l ih =>
          intro s hz
          rw [List.map_cons, List.mem_cons, not_or] at hz
          rw [List.map_cons, State.commit_cons, ih _ hz.2, State.die_apply_die, if_neg hz.1]
      rw [hout _ hn.1, State.die_apply_die, if_pos rfl]

section
variable (s : State) (p : PkgId) (g : Nat → Die → Die)

/-- A change of the six compute dies of a package. -/
def sixDies : List Upd := (List.range 6).map fun i => .die (dieId p i) (g i)

theorem die_sixDies {i : Nat} (hi : i < 6) : (s.commit (sixDies p g)).die (dieId p i) = g i (s.die (dieId p i)) :=
  die_commit_dies g (dieId p) s (dieIds_nodup p 6) (List.mem_range.mpr hi)
theorem commit_sixDies : s.commit (sixDies p g) = { s with dies := (s.commit (sixDies p g)).dies } :=
  commit_dies_only g (dieId p) _ s

end

/-! ## What a start begins with (R261) -/

/-- The digests of a package's images, unless it has them. -/
def Pkg.digested (s : State) (k : Pkg) : List Word := if k.digests = [] then (List.range 16).map s.freeWord else k.digests
/-- The changes that make them so. -/
def digestUpds (s : State) (p : PkgId) : List Upd := if (s.pkg p).digests.isEmpty then s.digest p else []

theorem commit_digestUpds (s : State) (p : PkgId) : ∃ pkgs n, s.commit (digestUpds s p) = { s with pkgs := pkgs, fresh := n } ∧
    (s.commit (digestUpds s p)).pkg p = { s.pkg p with digests := (s.pkg p).digested s } := by
  unfold digestUpds Pkg.digested
  split
  · next h =>
    refine ⟨_, _, rfl, ?_⟩
    rw [if_pos (List.isEmpty_iff.mp h)]
    exact (State.pkg_apply_pkg s p p fun k => { k with digests := (List.range 16).map s.freeWord }).trans (if_pos rfl)
  · next h =>
    refine ⟨_, _, rfl, ?_⟩
    rw [if_neg fun he => h (List.isEmpty_iff.mpr he)]
    rfl

/-- What RESET sets at boot (T3.2, R263). -/
def bootUpds (p outcome : Nat) : List Upd :=
  .pkg p (fun k => { k with failing := BitVec.ofNat 6 (bits outcome 13 8) }) :: sixDies p fun _ d => { d with slipmax := bootSlipmax outcome }

theorem commit_bootUpds (s : State) (p outcome : Nat) : ∃ pkgs dies, s.commit (bootUpds p outcome) = { s with pkgs := pkgs, dies := dies } ∧
    (s.commit (bootUpds p outcome)).pkg p = { s.pkg p with failing := BitVec.ofNat 6 (bits outcome 13 8) } ∧
    ∀ i < 6, (s.commit (bootUpds p outcome)).die (dieId p i) = { s.die (dieId p i) with slipmax := bootSlipmax outcome } := by
  let f : Pkg → Pkg := fun k => { k with failing := BitVec.ofNat 6 (bits outcome 13 8) }
  have hc : s.commit (bootUpds p outcome) = (s.apply (.pkg p f)).commit (sixDies p fun _ d => { d with slipmax := bootSlipmax outcome }) := rfl
  have hd := commit_sixDies (s.apply (.pkg p f)) p fun _ d => { d with slipmax := bootSlipmax outcome }
  refine ⟨_, _, hc.trans hd, ?_, fun i hi => ?_⟩
  · rw [hc, hd]
    exact (State.pkg_apply_pkg s p p f).trans (if_pos rfl)
  · rw [hc]
    exact die_sixDies (s.apply (.pkg p f)) p _ hi

/-- A start that is under way goes on with RESET's operand. -/
theorem commit_started (s : State) (p outcome : Nat) : ∃ pkgs dies n,
    s.commit (digestUpds s p ++ bootUpds p outcome) = { s with pkgs := pkgs, dies := dies, fresh := n } ∧
    (s.commit (digestUpds s p ++ bootUpds p outcome)).pkg p =
      { s.pkg p with digests := (s.pkg p).digested s, failing := BitVec.ofNat 6 (bits outcome 13 8) } ∧
    ∀ i < 6, (s.commit (digestUpds s p ++ bootUpds p outcome)).die (dieId p i) = { s.die (dieId p i) with slipmax := bootSlipmax outcome } := by
  obtain ⟨pkgs, n, hc, hp⟩ := commit_digestUpds s p
  obtain ⟨pkgs', dies, hc', hp', hd⟩ := commit_bootUpds (s.commit (digestUpds s p)) p outcome
  rw [State.commit_append]
  refine ⟨pkgs', dies, n, ?_, by rw [hp', hp], fun i hi => ?_⟩
  · rw [hc', hc]
  · rw [hd i hi, hc]
    rfl

/-! ## Its end (R263) -/

/-- What a change of HEALTH leaves. -/
theorem setHealth_reads (k : Pkg) (f : Word → Word) : (k.setHealth f).ready = k.ready ∧ (k.setHealth f).starting = k.starting ∧
    (k.setHealth f).minimal = k.minimal ∧ (k.setHealth f).fails = k.fails ∧ (k.setHealth f).reason = k.reason ∧
    (k.setHealth f).starts = k.starts ∧ (k.setHealth f).digests = k.digests ∧ (k.setHealth f).links = k.links := by
  unfold Pkg.setHealth
  split <;> exact ⟨rfl, rfl, rfl, rfl, rfl, rfl, rfl, rfl⟩

/-- What a package's registers hold once a start has succeeded. -/
def Pkg.started (failing : Nat) (k : Pkg) : Pkg :=
  { k with
    starting := false, ready := true, minimal := false, fails := 0, reason := 0, starts := k.starts + 1
    hbmOut := BitVec.ofNat 12 (bits k.health.toNat 39 28) }.setHealth (setBits 25 20 failing)

theorem started_fields (failing : Nat) (k : Pkg) : (k.started failing).ready = true ∧ (k.started failing).starting = false ∧
    (k.started failing).minimal = false ∧ (k.started failing).fails = 0 ∧ (k.started failing).starts = k.starts + 1 ∧
    (k.started failing).digests = k.digests := by
  obtain ⟨hready, hstarting, hminimal, hfails, -, hstarts, hdigests, -⟩ := setHealth_reads { k with
    starting := false, ready := true, minimal := false, fails := 0, reason := 0, starts := k.starts + 1
    hbmOut := BitVec.ofNat 12 (bits k.health.toNat 39 28) } (setBits 25 20 failing)
  exact ⟨hready, hstarting, hminimal, hfails, hstarts, hdigests⟩

theorem commit_startDone (s : State) (p failing : Nat) : ∃ pkgs dies timers,
    s.commit (startDone p failing) = { s with pkgs := pkgs, dies := dies, timers := timers } ∧
    (s.commit (startDone p failing)).pkg p = (s.pkg p).started failing ∧
    ∀ i < 6, ((s.commit (startDone p failing)).die (dieId p i)).service = !bit failing i := by
  have hd := commit_sixDies s p fun i d => { d with service := !bit failing i }
  have hcommit : s.commit (startDone p failing) =
      (s.commit (sixDies p fun i d => { d with service := !bit failing i })).commit
        [.pkg p (Pkg.started failing), .dropTimer (.readyTimeout p)] := State.commit_append _ _ _
  have hdie : ∀ {i}, i < 6 → _ := fun hi => congrArg Die.service (die_sixDies s p (fun i d => { d with service := !bit failing i }) hi)
  generalize s.commit (sixDies p fun i d => { d with service := !bit failing i }) = u at *
  have hpkg : u.pkg p = s.pkg p := by rw [hd]; rfl
  refine ⟨(s.commit (startDone p failing)).pkgs, (s.commit (startDone p failing)).dies, (s.commit (startDone p failing)).timers, ?_, ?_, fun i hi => ?_⟩
  · rw [hcommit, hd]
    rfl
  · rw [hcommit, ← hpkg]
    exact (State.pkg_apply_pkg u p p _).trans (if_pos rfl)
  · rw [hcommit]
    exact hdie hi

/-- Changes that leave all but the links, the interrupts, and what has been sent. -/
def LinksOnly (us : List Upd) : Prop := ∀ u : State, (u.commit us).mem = u.mem ∧ (u.commit us).slots = u.slots ∧
  (u.commit us).dies = u.dies ∧ (u.commit us).nodes = u.nodes ∧
  ∀ q, ∃ links irq, (u.commit us).pkg q = { u.pkg q with links := links, intstat := (u.pkg q).intstat ||| irq }

theorem linksOnly_nil : LinksOnly [] := fun u => ⟨rfl, rfl, rfl, rfl, fun q => ⟨(u.pkg q).links, 0, by
  rw [BitVec.ofNat_eq_ofNat, BitVec.or_zero]
  rfl⟩⟩
theorem LinksOnly.append {us vs : List Upd} (h : LinksOnly us) (h' : LinksOnly vs) : LinksOnly (us ++ vs) := fun u => by
  obtain ⟨hm, hs, hd, hn, hp⟩ := h u
  obtain ⟨hm', hs', hd', hn', hp'⟩ := h' (u.commit us)
  rw [State.commit_append]
  refine ⟨hm'.trans hm, hs'.trans hs, hd'.trans hd, hn'.trans hn, fun q => ?_⟩
  obtain ⟨l, i, he⟩ := hp q
  obtain ⟨l', i', he'⟩ := hp' q
  exact ⟨l', i ||| i', by rw [he', he, BitVec.or_assoc]⟩
theorem linksOnly_flatMap {α : Type} {f : α → List Upd} (h : ∀ x, LinksOnly (f x)) : ∀ l : List α, LinksOnly (l.flatMap f)
  | [] => linksOnly_nil
  | x :: l => (h x).append (linksOnly_flatMap h l)
theorem linksOnly_endDown (s : State) (p n : Nat) (f : Link → Link) : LinksOnly (s.endDown p n f) := fun u => by
  obtain ⟨reqs, hidden, hc, -⟩ := commit_endDown s u p n f
  rw [hc]
  refine ⟨rfl, rfl, rfl, rfl, fun q => ?_⟩
  show ∃ links irq, (u.apply (.pkg p (Pkg.endDown n f))).pkg q = _
  rw [State.pkg_apply_pkg]
  split
  · next h => exact h ▸ ⟨_, 4, rfl⟩
  · refine ⟨(u.pkg q).links, 0, ?_⟩
    rw [BitVec.ofNat_eq_ofNat, BitVec.or_zero]
theorem linksOnly_linkDown (s : State) (p n : Nat) : LinksOnly (s.linkDown p n) := by
  refine (linksOnly_endDown _ _ _ _).append ?_
  split
  · exact linksOnly_nil
  · exact linksOnly_endDown _ _ _ _

/-- The link interrupt stands once it has been raised. -/
theorem LinksOnly.keeps_bit {us : List Upd} (h : LinksOnly us) {u : State} {p b : Nat} (hb : (u.pkg p).intstat.getLsbD b = true) :
    ((u.commit us).pkg p).intstat.getLsbD b = true := by
  obtain ⟨-, -, -, -, hp⟩ := h u
  obtain ⟨l, i, he⟩ := hp p
  rw [he]
  simp [hb]

theorem linkDown_raises (s u : State) (p n : Nat) : ((u.commit (s.linkDown p n)).pkg p).intstat.getLsbD 2 = true := by
  obtain ⟨reqs, hidden, hc, -⟩ := commit_endDown s u p n id
  have hbit : ((u.commit (s.endDown p n id)).pkg p).intstat.getLsbD 2 = true := by
    rw [hc]
    show ((u.apply (.pkg p (Pkg.endDown n id))).pkg p).intstat.getLsbD 2 = true
    rw [State.pkg_apply_pkg, if_pos rfl]
    show ((u.pkg p).intstat ||| 4#64).getLsbD 2 = true
    rw [BitVec.getLsbD_or, show (4#64).getLsbD 2 = true from rfl, Bool.or_true]
  rw [State.linkDown, State.commit_append]
  refine LinksOnly.keeps_bit ?_ hbit
  split
  · exact linksOnly_nil
  · exact linksOnly_endDown _ _ _ _


/-- The registers that a failed start writes; `min_` says whether the device is in minimal mode then. -/
def Pkg.lostStart (reason failing : Nat) (min_ : Bool) (k : Pkg) : Pkg :=
  { k with
    starting := false, ready := false, minimal := min_, fails := min 255 (k.fails + 1), reason := reason
    starts := k.starts + 1
    hbmOut := if min_ then
        match (passing failing).head? with
        | some i => ~~~(3#12 <<< (2 * i)) ||| BitVec.ofNat 12 (bits k.health.toNat 39 28)
        | none => BitVec.allOnes 12
      else k.hbmOut }
/-- The same with HEALTH. -/
def Pkg.startLost (reason failing : Nat) (min_ : Bool) (k : Pkg) : Pkg := (k.lostStart reason failing min_).setHealth (setBits 25 20 failing)

theorem startLost_fields (reason failing : Nat) (min_ : Bool) (k : Pkg) : (k.startLost reason failing min_).ready = false ∧
    (k.startLost reason failing min_).starting = false ∧ (k.startLost reason failing min_).minimal = min_ ∧
    (k.startLost reason failing min_).fails = min 255 (k.fails + 1) ∧ (k.startLost reason failing min_).reason = reason ∧
    (k.startLost reason failing min_).links = k.links := by
  obtain ⟨hready, hstarting, hminimal, hfails, hreason, -, -, hlinks⟩ := setHealth_reads (k.lostStart reason failing min_) (setBits 25 20 failing)
  exact ⟨hready, hstarting, hminimal, hfails, hreason, hlinks⟩

/-- A package without its links. -/
def Pkg.unlinked (k : Pkg) : Pkg := { k with links := [] }
/-- The same with its interrupts. -/
def Pkg.isolated (irq : Word) (k : Pkg) : Pkg := { k with links := [], intstat := irq }
theorem isolated_reads (irq : Word) (k : Pkg) : (k.isolated irq).minimal = k.minimal ∧ (k.isolated irq).ready = k.ready ∧
    (k.isolated irq).fails = k.fails ∧ (k.isolated irq).reason = k.reason ∧ (k.isolated irq).starting = k.starting ∧
    (k.isolated irq).links = [] ∧ (k.isolated irq).intstat = irq := ⟨rfl, rfl, rfl, rfl, rfl, rfl, rfl⟩
/-- The changes that take a package into minimal mode: its links go down, and one die serves. -/
def State.minimalUpds (s : State) (p : PkgId) (failing : Nat) : List Upd :=
  (((s.pkg p).links.filter fun e => e.2.state != 0).flatMap fun e => s.linkDown p e.1) ++
    [.pkg p fun k => { k with links := [] }] ++ sixDies p fun i d => { d with service := (passing failing).head? == some i }

theorem startFailed_eq (s : State) (p reason failing : Nat) (min_ : Bool) (hmin : ((s.pkg p).minimal || decide (3 ≤ (s.pkg p).fails + 1)) = min_) :
    s.startFailed p reason failing = .pkg p (Pkg.startLost reason failing min_) ::
      ((if min_ then s.minimalUpds p failing else []) ++ [.dropTimer (.readyTimeout p)]) := by
  subst hmin
  rfl

/-- What a package in minimal mode is left with. -/
theorem commit_minimalUpds (s u : State) (p failing : Nat) :
    (u.commit (s.minimalUpds p failing)).mem = u.mem ∧ (u.commit (s.minimalUpds p failing)).slots = u.slots ∧
    (∃ irq, (u.commit (s.minimalUpds p failing)).pkg p = (u.pkg p).isolated irq ∧
      ((∃ e ∈ (s.pkg p).links, e.2.state ≠ 0) → irq.getLsbD 2 = true)) ∧
    ∀ i < 6, ((u.commit (s.minimalUpds p failing)).die (dieId p i)).service = ((passing failing).head? == some i) := by
  let down := ((s.pkg p).links.filter fun e => e.2.state != 0).flatMap fun e => s.linkDown p e.1
  have hdown : LinksOnly down := linksOnly_flatMap (fun e : Nat × Link => linksOnly_linkDown s p e.1) _
  have hraise : (∃ e ∈ (s.pkg p).links, e.2.state ≠ 0) → ((u.commit down).pkg p).intstat.getLsbD 2 = true := by
    rintro ⟨e, he, hst⟩
    have hmem : e ∈ (s.pkg p).links.filter fun e => e.2.state != 0 := List.mem_filter.mpr ⟨he, bne_iff_ne.mpr hst⟩
    show ((u.commit (((s.pkg p).links.filter fun e => e.2.state != 0).flatMap fun e => s.linkDown p e.1)).pkg p).intstat.getLsbD 2 = true
    generalize (s.pkg p).links.filter (fun e => e.2.state != 0) = l at hmem
    obtain ⟨l₁, l₂, rfl⟩ := List.append_of_mem hmem
    rw [List.flatMap_append, List.flatMap_cons, State.commit_append, State.commit_append]
    exact (linksOnly_flatMap (fun e : Nat × Link => linksOnly_linkDown s p e.1) l₂).keeps_bit (linkDown_raises s _ p e.1)
  obtain ⟨hmem, hslots, -, -, hpkg⟩ := hdown u
  obtain ⟨links, irq, hp⟩ := hpkg p
  obtain ⟨w, hc, hwm, hws, hwp⟩ : ∃ w : State, u.commit (s.minimalUpds p failing) = w.commit (sixDies p fun i d =>
        { d with service := (passing failing).head? == some i }) ∧ w.mem = u.mem ∧ w.slots = u.slots ∧ w.pkg p = ((u.commit down).pkg p).unlinked := by
    refine ⟨(u.commit down).apply (.pkg p Pkg.unlinked), ?_, hmem, hslots, (State.pkg_apply_pkg _ p p _).trans (if_pos rfl)⟩
    rw [State.minimalUpds, State.commit_append, State.commit_append]
    rfl
  have hd := commit_sixDies w p fun i d => { d with service := (passing failing).head? == some i }
  rw [hp] at hraise hwp
  have hdie := fun {i} hi => congrArg Die.service (die_sixDies w p (fun i d => { d with service := (passing failing).head? == some i }) (i := i) hi)
  rw [hc]
  generalize w.commit (sixDies p fun i d => { d with service := (passing failing).head? == some i }) = w' at *
  refine ⟨?_, ?_, ⟨(u.pkg p).intstat ||| irq, ?_, hraise⟩, fun i hi => hdie hi⟩
  · rw [hd]
    exact hwm
  · rw [hd]
    exact hws
  · rw [hd]
    exact hwp

/-- What a failed start leaves in each mode. -/
theorem commit_startFailed (s u : State) (p reason failing : Nat) (min_ : Bool) (hmin : ((s.pkg p).minimal || decide (3 ≤ (s.pkg p).fails + 1)) = min_) :
    (u.commit (s.startFailed p reason failing)).mem = u.mem ∧ (u.commit (s.startFailed p reason failing)).slots = u.slots ∧
    (min_ = false → (u.commit (s.startFailed p reason failing)).dies = u.dies ∧
      (u.commit (s.startFailed p reason failing)).pkg p = (u.pkg p).startLost reason failing min_) ∧
    (min_ = true → (∃ irq, (u.commit (s.startFailed p reason failing)).pkg p =
        ((u.pkg p).startLost reason failing min_).isolated irq ∧
        ((∃ e ∈ (s.pkg p).links, e.2.state ≠ 0) → irq.getLsbD 2 = true)) ∧
      ∀ i < 6, ((u.commit (s.startFailed p reason failing)).die (dieId p i)).service = ((passing failing).head? == some i)) := by
  have hown : (u.apply (.pkg p (Pkg.startLost reason failing min_))).pkg p = (u.pkg p).startLost reason failing min_ :=
    (State.pkg_apply_pkg u p p _).trans (if_pos rfl)
  rw [startFailed_eq s p reason failing min_ hmin, State.commit_cons, State.commit_append]
  cases min_ with
  | false => exact ⟨rfl, rfl, fun _ => ⟨rfl, hown⟩, nofun⟩
  | true =>
    obtain ⟨hmem, hslots, ⟨irq, hp, hirq⟩, hdies⟩ := commit_minimalUpds s (u.apply (.pkg p (Pkg.startLost reason failing true))) p failing
    refine ⟨hmem, hslots, nofun, fun _ => ⟨⟨irq, ?_, hirq⟩, hdies⟩⟩
    rw [← hown]
    exact hp

/-- What it leaves in every mode. -/
theorem failed_start_reads (s u : State) (p reason failing : Nat) :
    let t := u.commit (s.startFailed p reason failing)
    (t.pkg p).starting = false ∧ (t.pkg p).ready = false ∧ (t.pkg p).fails = min 255 ((u.pkg p).fails + 1) ∧
    (t.pkg p).reason = reason ∧ t.mem = u.mem ∧ t.slots = u.slots := by
  intro t
  obtain ⟨min_, hmin⟩ : ∃ b, ((s.pkg p).minimal || decide (3 ≤ (s.pkg p).fails + 1)) = b := ⟨_, rfl⟩
  obtain ⟨hm, hs, hplain, hmini⟩ := commit_startFailed s u p reason failing min_ hmin
  obtain ⟨hready, hstarting, -, hfails, hreason, -⟩ := startLost_fields reason failing min_ (u.pkg p)
  cases min_ with
  | false =>
    rw [(hplain rfl).2]
    exact ⟨hstarting, hready, hfails, hreason, hm, hs⟩
  | true =>
    obtain ⟨⟨irq, hpkg, -⟩, -⟩ := hmini rfl
    obtain ⟨-, iready, ifails, ireason, istarting, -, -⟩ := isolated_reads irq ((u.pkg p).startLost reason failing true)
    rw [hpkg, iready, ifails, ireason, istarting]
    exact ⟨hstarting, hready, hfails, hreason, hm, hs⟩

/-- The registers that a failed start writes, short of minimal mode. -/
theorem lostStart_early (reason failing : Nat) {k : Pkg} (hmin : k.minimal = false) (hfails : k.fails < 2) :
    k.lostStart reason failing false = { k with
      starting := false, ready := false, fails := k.fails + 1, reason := reason, starts := k.starts + 1 } := by
  rw [Pkg.lostStart, ← hmin, Nat.min_eq_right (by omega), hmin]
  rfl

/-! ## What a reset clears (R261) -/

theorem slot_commit_blanks : ∀ (l : List (SlotKey × Ctx)) (s : State) (x : SlotKey),
    (s.commit (l.map fun e => .slot e.1 fun _ => .blank)).slot x = if x ∈ l.map (·.1) then .blank else s.slot x
  | [], s, x => (if_neg List.not_mem_nil).symm
  | e :: l, s, x => by
    rw [List.map_cons, State.commit_cons, slot_commit_blanks l, State.slot_apply_slot, List.map_cons]
    by_cases hl : x ∈ l.map (·.1)
    · rw [if_pos hl, if_pos (List.mem_cons_of_mem _ hl)]
    · rw [if_neg hl]
      exact if_congr (by simp only [List.mem_cons, hl, or_false]) rfl rfl

/-- A change that leaves memory, the slots, the packages and the free values. -/
def Upd.Beneath (u : Upd) : Prop := ∀ t : State, (t.apply u).mem = t.mem ∧ (t.apply u).slots = t.slots ∧ (t.apply u).pkgs = t.pkgs

theorem commit_beneath {us : List Upd} (h : ∀ u ∈ us, u.Beneath) (t : State) :
    (t.commit us).mem = t.mem ∧ (t.commit us).slots = t.slots ∧ (t.commit us).pkgs = t.pkgs :=
  State.commit_keeps (P := fun t' => t'.mem = t.mem ∧ t'.slots = t.slots ∧ t'.pkgs = t.pkgs)
    (fun u hu t' ⟨hm, hs, hp⟩ => by
      obtain ⟨hm', hs', hp'⟩ := h u hu t'
      exact ⟨hm'.trans hm, hs'.trans hs, hp'.trans hp⟩) ⟨rfl, rfl, rfl⟩

/-- The timers of a package that a reset stops. -/
def State.timerDrops (s : State) (p : PkgId) : List Upd := (s.timers.filter fun t => t.pkg == p).map fun t => .dropTimer t.ev
/-- The contexts that it clears. -/
def State.slotClears (s : State) (p : PkgId) : List (SlotKey × Ctx) := s.slots.filter fun e => keyPkg e.1 == p
/-- What else goes: nodes, requests, translations, descriptors and what the dies hold. -/
def State.otherClears (s : State) (p : PkgId) : List Upd :=
  let mine := fun (part : Nat) => part / 2 ^ 22 == p
  [(s.nodes.filter fun e => ridPkg e.1 == p).map fun e => Upd.node e.1 fun _ => .blank,
   (s.reqs.filter fun r => diePkg r.die == p).map fun r => Upd.dropReq r.id,
   (s.ranges.filter fun e => e.1 / 256 % 1024 == p).map fun e => Upd.range e.1 none,
   (s.roots.filter fun e => e.1 / 2 % 1024 == p).map fun e => Upd.root e.1 none,
   (s.planes.filter fun e => mine (e.1 / 64)).map fun e => Upd.plane e.1 fun _ => none,
   (s.barriers.filter fun e => mine (e.1 / 64)).map fun e => Upd.barrier e.1 fun _ => none,
   (s.windows.filter fun e => mine (e.1 / 16)).map fun e => Upd.window e.1 none,
   (s.circuits.filter fun e => circKeyPkg e.1 == p).map fun e => Upd.circuit e.1 fun _ => none,
   (List.range 6).map fun i => Upd.die (dieId p i) (Die.restart (!bit (maskedDies (s.pkg p).health) i &&
    (!(s.pkg p).minimal || (s.die (dieId p i)).service)))].flatten

theorem beginStart_eq (s : State) (p : PkgId) : s.beginStart p =
    s.timerDrops p ++ (((s.slotClears p).map fun e => .slot e.1 fun _ => .blank) ++ (s.otherClears p ++
      [.pkg p Pkg.restart, .addTimer { pkg := p, tick := s.gtc p + 2000000000, ev := .readyTimeout p },
       .pkg p (fun k => { k with digests := (List.range 16).map s.freeWord }), .drawn 16])) := by
  simp only [State.beginStart, State.timerDrops, State.slotClears, State.otherClears, State.digest, List.flatten_cons, List.flatten_nil,
    List.append_nil, List.append_assoc, List.cons_append, List.nil_append]

theorem beneath_of_map {α : Type} {l : List α} {f : α → Upd} (h : ∀ x, (f x).Beneath) : ∀ u ∈ l.map f, u.Beneath := by
  intro u hu
  obtain ⟨x, -, rfl⟩ := List.mem_map.mp hu
  exact h x

theorem timerDrops_beneath (s : State) (p : PkgId) : ∀ u ∈ s.timerDrops p, u.Beneath := beneath_of_map fun _ _ => ⟨rfl, rfl, rfl⟩
theorem otherClears_beneath (s : State) (p : PkgId) : ∀ u ∈ s.otherClears p, u.Beneath := by
  simp only [State.otherClears, List.flatten_cons, List.flatten_nil, List.append_nil, List.forall_mem_append]
  refine ⟨?_, ?_, ?_, ?_, ?_, ?_, ?_, ?_, ?_⟩
  all_goals exact beneath_of_map fun _ _ => ⟨rfl, rfl, rfl⟩

/-- Which slots a reset clears. -/
theorem mem_slotClears (s : State) (p : PkgId) (x : SlotKey) :
    (if x ∈ (s.slotClears p).map (·.1) then .blank else s.slot x) = if keyPkg x = p then Ctx.blank else s.slot x := by
  by_cases hx : x ∈ (s.slotClears p).map (·.1)
  · obtain ⟨e, he, rfl⟩ := List.mem_map.mp hx
    rw [if_pos hx, if_pos (beq_iff_eq.mp (List.mem_filter.mp he).2)]
  · rw [if_neg hx]
    by_cases hp : keyPkg x = p
    · rw [if_pos hp]
      exact congrArg (Option.getD · Ctx.blank) (Option.eq_none_iff_forall_ne_some.mpr fun c hc =>
        hx (List.mem_map.mpr ⟨(x, c), List.mem_filter.mpr ⟨mem_of_mfind hc, beq_iff_eq.mpr hp⟩, rfl⟩))
    · rw [if_neg hp]

/-- The last changes of a reset. -/
def State.restartUpds (s : State) (p : PkgId) : List Upd :=
  [.pkg p Pkg.restart, .addTimer { pkg := p, tick := s.gtc p + 2000000000, ev := .readyTimeout p },
   .pkg p (fun k => { k with digests := (List.range 16).map s.freeWord }), .drawn 16]
theorem commit_restartUpds (s w : State) (p : PkgId) : (w.commit (s.restartUpds p)).mem = w.mem ∧ (w.commit (s.restartUpds p)).slots = w.slots ∧
    (w.commit (s.restartUpds p)).pkg p = { (w.pkg p).restart with digests := (List.range 16).map s.freeWord } := by
  have h1 : (w.apply (.pkg p Pkg.restart)).pkg p = (w.pkg p).restart := (State.pkg_apply_pkg w p p _).trans (if_pos rfl)
  refine ⟨rfl, rfl, ?_⟩
  rw [← h1]
  exact (State.pkg_apply_pkg (w.apply (.pkg p Pkg.restart)) p p fun k => { k with digests := (List.range 16).map s.freeWord }).trans (if_pos rfl)

/-- The contexts of a package go; memory and the packages stay. -/
theorem commit_slotClears (s u : State) (p : PkgId) (hu : u.slots = s.slots) :
    let v := u.commit ((s.slotClears p).map fun e => .slot e.1 fun _ => .blank)
    v.mem = u.mem ∧ v.pkgs = u.pkgs ∧ ∀ x, v.slot x = if keyPkg x = p then .blank else s.slot x := by
  intro v
  obtain ⟨hm, hp⟩ : v.mem = u.mem ∧ v.pkgs = u.pkgs :=
    State.commit_keeps (P := fun t => t.mem = u.mem ∧ t.pkgs = u.pkgs) (fun c hc t h => by
      obtain ⟨e, -, rfl⟩ := List.mem_map.mp hc
      exact h) ⟨rfl, rfl⟩
  refine ⟨hm, hp, fun x => ?_⟩
  have hsu : u.slot x = s.slot x := congrArg (fun m => mget m x Ctx.blank) hu
  rw [slot_commit_blanks, hsu]
  exact mem_slotClears s p x

theorem commit_beginStart (s : State) (p : PkgId) : (s.commit (s.beginStart p)).mem = s.mem ∧
    (s.commit (s.beginStart p)).pkg p = { (s.pkg p).restart with digests := (List.range 16).map s.freeWord } ∧
    ∀ x, (s.commit (s.beginStart p)).slot x = if keyPkg x = p then .blank else s.slot x := by
  have hc : s.commit (s.beginStart p) = (((s.commit (s.timerDrops p)).commit ((s.slotClears p).map fun e => .slot e.1 fun _ => .blank)).commit
      (s.otherClears p)).commit (s.restartUpds p) := by
    rw [beginStart_eq, State.commit_append, State.commit_append, State.commit_append]
    rfl
  obtain ⟨hm, hs, hp⟩ := commit_beneath (timerDrops_beneath s p) s
  obtain ⟨hm1, hp1, hs1⟩ := commit_slotClears s _ p hs
  obtain ⟨hm2, hs2, hp2⟩ := commit_beneath (otherClears_beneath s p) ((s.commit (s.timerDrops p)).commit ((s.slotClears p).map fun e => .slot e.1 fun _ => .blank))
  obtain ⟨hm3, hs3, hp3⟩ := commit_restartUpds s (((s.commit (s.timerDrops p)).commit ((s.slotClears p).map fun e => .slot e.1 fun _ => .blank)).commit
      (s.otherClears p)) p
  rw [hc]
  refine ⟨hm3.trans (hm2.trans (hm1.trans hm)), hp3.trans ?_, fun x => ?_⟩
  · exact congrArg (fun m => { (mget m p Pkg.blank).restart with digests := (List.range 16).map s.freeWord }) (hp2.trans (hp1.trans hp))
  · exact (congrArg (fun m => mget m x Ctx.blank) (hs3.trans hs2)).trans (hs1 x)

/-! ## RESET and READY_TIMEOUT -/

/-- What RESET begins with. -/
def State.resetBegin (s : State) (p outcome : Nat) : List Upd :=
  (if !(s.pkg p).starting then s.beginStart p else digestUpds s p) ++ bootUpds p outcome
/-- The compute dies that do not come into service after a RESET. -/
def State.resetFailing (s : State) (p outcome : Nat) : Nat := bits outcome 13 8 ||| maskedDies ((s.commit (s.resetBegin p outcome)).pkg p).health

section
variable {s : State} {p outcome : Nat}


theorem exec_reset : exec (.reset p outcome) s =
    if bit outcome 14 then .next (s.commit (s.resetBegin p outcome))
    else if (if outcome % 256 == 0 && (passing (s.resetFailing p outcome)).isEmpty then 5 else outcome % 256) == 0 then
      .next ((s.commit (s.resetBegin p outcome)).commit (startDone p (s.resetFailing p outcome)))
    else .next ((s.commit (s.resetBegin p outcome)).commit ((s.commit (s.resetBegin p outcome)).startFailed p
      (if outcome % 256 == 0 && (passing (s.resetFailing p outcome)).isEmpty then 5 else outcome % 256) (s.resetFailing p outcome))) := rfl

theorem exec_reset_underway (h : bit outcome 14 = true) : exec (.reset p outcome) s = .next (s.commit (s.resetBegin p outcome)) :=
  exec_reset.trans (if_pos h)

theorem exec_reset_done (h : bit outcome 14 = false) (hr : outcome % 256 = 0) (hpass : passing (s.resetFailing p outcome) ≠ []) :
    exec (.reset p outcome) s = .next ((s.commit (s.resetBegin p outcome)).commit (startDone p (s.resetFailing p outcome))) := by
  rw [exec_reset, if_neg (by rw [h]; exact Bool.false_ne_true), List.isEmpty_eq_false_iff.mpr hpass, hr]
  rfl

theorem exec_reset_failed (h : bit outcome 14 = false) (hr : outcome % 256 ≠ 0) :
    exec (.reset p outcome) s = .next ((s.commit (s.resetBegin p outcome)).commit
      ((s.commit (s.resetBegin p outcome)).startFailed p (outcome % 256) (s.resetFailing p outcome))) := by
  have hne : (outcome % 256 == 0) = false := beq_false_of_ne hr
  rw [exec_reset, if_neg (by rw [h]; exact Bool.false_ne_true), hne, Bool.false_and, if_neg Bool.false_ne_true, if_neg (by rw [hne]; exact Bool.false_ne_true)]
end

/-! ## What the statement says of each -/

section
variable (s : State) (p : PkgId)

/-- What RESET begins with while a start is under way. -/
theorem resetBegin_of_starting (outcome : Nat) {s : State} {p : PkgId} (h : (s.pkg p).starting = true) :
    s.resetBegin p outcome = digestUpds s p ++ bootUpds p outcome := by
  rw [State.resetBegin, h]
  rfl

theorem resetFailing_of_starting (outcome : Nat) {s : State} {p : PkgId} (h : (s.pkg p).starting = true) :
    s.resetFailing p outcome = bits outcome 13 8 ||| maskedDies (s.pkg p).health := by
  obtain ⟨-, -, -, -, hp, -⟩ := commit_started s p outcome
  rw [State.resetFailing, resetBegin_of_starting outcome h, hp]

theorem start_succeeds (hst : (s.pkg p).starting = true) (hpass : passing (maskedDies (s.pkg p).health) ≠ []) :
    ∃ t, exec (.reset p 0) s = .next t ∧
    (t.pkg p).ready = true ∧ (t.pkg p).starting = false ∧ (t.pkg p).minimal = false ∧ (t.pkg p).fails = 0 ∧
    (t.pkg p).starts = (s.pkg p).starts + 1 ∧ (t.pkg p).digests = (s.pkg p).digested s ∧
    (∀ i < 6, (t.die (dieId p i)).service = !bit (maskedDies (s.pkg p).health) i) ∧
    t.mem = s.mem ∧ t.slots = s.slots ∧ t.nodes = s.nodes := by
  have hf : s.resetFailing p 0 = maskedDies (s.pkg p).health := by
    rw [resetFailing_of_starting 0 hst]
    exact Nat.zero_or _
  obtain ⟨pkgs, dies, n, hc, hp, -⟩ := commit_started s p 0
  obtain ⟨pkgs', dies', timers, hc', hp', hd'⟩ := commit_startDone (s.commit (s.resetBegin p 0)) p (s.resetFailing p 0)
  obtain ⟨hready, hstarting, hminimal, hfails, hstarts, hdigests⟩ := started_fields (s.resetFailing p 0) ((s.commit (s.resetBegin p 0)).pkg p)
  rw [resetBegin_of_starting 0 hst] at hc' hp' hd' hready hstarting hminimal hfails hstarts hdigests
  refine ⟨_, exec_reset_done rfl rfl (by rw [hf]; exact hpass), ?_⟩
  rw [resetBegin_of_starting 0 hst, hp', hready, hstarting, hminimal, hfails, hstarts, hdigests, hp]
  refine ⟨rfl, rfl, rfl, rfl, rfl, rfl, fun i hi => ?_, ?_, ?_, ?_⟩
  · rw [hd' i hi, hf]
  · rw [hc', hc]
  · rw [hc', hc]
  · rw [hc', hc]

theorem start_fails (r f : Nat) (hr0 : 0 < r) (hr : r < 256) (hf : f < 64) (hst : (s.pkg p).starting = true)
    (hmin : (s.pkg p).minimal = false) (hfails : (s.pkg p).fails < 2) : ∃ t, exec (.reset p (256 * f + r)) s = .next t ∧
    t.pkg p = Pkg.setHealth { s.pkg p with
      starting := false, ready := false, fails := (s.pkg p).fails + 1, reason := r, starts := (s.pkg p).starts + 1, failing := BitVec.ofNat 6 f
      digests := (s.pkg p).digested s }
      (setBits 25 20 (f ||| maskedDies (s.pkg p).health)) ∧
    (∀ i < 6, t.die (dieId p i) = { s.die (dieId p i) with slipmax := Config.slipmax }) ∧ t.mem = s.mem ∧ t.slots = s.slots := by
  have hr' : (256 * f + r) % 256 = r := by omega
  have h14 : bit (256 * f + r) 14 = false := by
    rw [bit, beq_eq_false_iff_ne]
    omega
  have hbits : bits (256 * f + r) 13 8 = f := by
    simp only [bits]
    omega
  have hfailing : s.resetFailing p (256 * f + r) = f ||| maskedDies (s.pkg p).health := by rw [resetFailing_of_starting _ hst, hbits]
  obtain ⟨pkgs, dies, n, hc, hp, hd⟩ := commit_started s p (256 * f + r)
  rw [← resetBegin_of_starting _ hst] at hc hp hd
  rw [hbits] at hp
  have hmode : (((s.commit (s.resetBegin p (256 * f + r))).pkg p).minimal || decide (3 ≤ ((s.commit (s.resetBegin p (256 * f + r))).pkg p).fails + 1)) = false := by
    rw [hp]
    show ((s.pkg p).minimal || decide (3 ≤ (s.pkg p).fails + 1)) = false
    rw [hmin, Bool.false_or, decide_eq_false_iff_not]
    omega
  obtain ⟨hm, hs, hplain, -⟩ := commit_startFailed (s.commit (s.resetBegin p (256 * f + r))) (s.commit (s.resetBegin p (256 * f + r))) p r (f ||| maskedDies (s.pkg p).health) false hmode
  obtain ⟨hdies, hpkg⟩ := hplain rfl
  refine ⟨_, exec_reset_failed h14 (by rw [hr']; omega), ?_⟩
  rw [hr', hfailing]
  refine ⟨hpkg.trans ?_, fun i hi => ?_, hm.trans ?_, hs.trans ?_⟩
  · have hmin' : ((s.commit (s.resetBegin p (256 * f + r))).pkg p).minimal = false := by rw [hp]; exact hmin
    have hfails' : ((s.commit (s.resetBegin p (256 * f + r))).pkg p).fails < 2 := by rw [hp]; exact hfails
    rw [Pkg.startLost, lostStart_early r _ hmin' hfails', hp]
  · rw [State.die, hdies]
    refine (hd i hi).trans ?_
    rw [bootSlipmax, if_neg]
    rw [Bool.not_eq_true, bit, beq_eq_false_iff_ne]
    omega
  · rw [hc]
  · rw [hc]

theorem boots_slipmax (v : Nat) (hv : v ≤ 2500) (hst : (s.pkg p).starting = true) :
    ∃ t, exec (.reset p (2 ^ 27 + v * 2 ^ 15 + 2 ^ 14)) s = .next t ∧
    t = { s with pkgs := t.pkgs, dies := t.dies, fresh := t.fresh } ∧ ∀ i < 6, (t.die (dieId p i)).slipmax = v := by
  have h14 : bit (2 ^ 27 + v * 2 ^ 15 + 2 ^ 14) 14 = true := by
    rw [bit, beq_iff_eq]
    omega
  have h27 : bit (2 ^ 27 + v * 2 ^ 15 + 2 ^ 14) 27 = true := by
    rw [bit, beq_iff_eq]
    omega
  have hboot : bootSlipmax (2 ^ 27 + v * 2 ^ 15 + 2 ^ 14) = v := by
    rw [bootSlipmax, if_pos h27]
    simp only [bits]
    omega
  obtain ⟨pkgs, dies, n, hc, -, hd⟩ := commit_started s p (2 ^ 27 + v * 2 ^ 15 + 2 ^ 14)
  rw [← resetBegin_of_starting _ hst] at hc hd
  refine ⟨_, exec_reset_underway h14, ?_, fun i hi => ?_⟩
  · rw [hc]
  · rw [hd i hi]
    exact hboot

theorem milliner_rests (hready : (s.pkg p).ready = false) (hmin : (s.pkg p).minimal = false) (i : Instr) (us : List Upd) :
    s.milliner p i us = .next s := by
  have hup : (s.pkg p).up = false := by rw [Pkg.up, hready, hmin]; rfl
  rw [State.milliner, hup]
  rfl

/-- A third failed start in a row, from the state that RESET has begun with. -/
theorem third_failure (u : State) (r failing : Nat) (hfails : (u.pkg p).fails = 2) :
    let t := u.commit (u.startFailed p r failing)
    (t.pkg p).minimal = true ∧ (t.pkg p).ready = false ∧ (t.pkg p).fails = 3 ∧ (t.pkg p).reason = r ∧ (t.pkg p).links = [] ∧
    ((∃ e ∈ (u.pkg p).links, e.2.state ≠ 0) → (t.pkg p).intstat.getLsbD 2 = true) ∧
    (∀ i < 6, (t.die (dieId p i)).service = true ↔ (passing failing).head? = some i) ∧ t.mem = u.mem := by
  intro t
  have hmode : ((u.pkg p).minimal || decide (3 ≤ (u.pkg p).fails + 1)) = true := by
    rw [hfails, decide_eq_true (by omega), Bool.or_true]
  obtain ⟨hm, -, -, hmini⟩ := commit_startFailed u u p r failing true hmode
  obtain ⟨⟨irq, hpkg, hirq⟩, hdies⟩ := hmini rfl
  obtain ⟨hready, -, hminimal, hfails', hreason, -⟩ := startLost_fields r failing true (u.pkg p)
  rw [hfails] at hfails'
  have hdie : ∀ i < 6, (t.die (dieId p i)).service = true ↔ (passing failing).head? = some i := fun i hi => by
    rw [hdies i hi, beq_iff_eq]
  obtain ⟨iminimal, iready, ifails, ireason, -, ilinks, iirq⟩ := isolated_reads irq ((u.pkg p).startLost r failing true)
  rw [hpkg, iminimal, iready, ifails, ireason, ilinks, iirq]
  exact ⟨hminimal, hready, hfails', hreason, rfl, hirq, hdie, hm⟩

theorem third_start_fails (r : Nat) (hr0 : 0 < r) (hr : r < 256) (hst : (s.pkg p).starting = true) (hfails : (s.pkg p).fails = 2) :
    ∃ t, exec (.reset p r) s = .next t ∧
    (t.pkg p).minimal = true ∧ (t.pkg p).ready = false ∧ (t.pkg p).fails = 3 ∧ (t.pkg p).reason = r ∧ (t.pkg p).links = [] ∧
    ((∃ e ∈ (s.pkg p).links, e.2.state ≠ 0) → (t.pkg p).intstat.getLsbD 2 = true) ∧
    (∀ i < 6, (t.die (dieId p i)).service = true ↔ (passing (maskedDies (s.pkg p).health)).head? = some i) ∧ t.mem = s.mem := by
  have hr' : r % 256 = r := Nat.mod_eq_of_lt hr
  have h14 : bit r 14 = false := by
    rw [bit, beq_eq_false_iff_ne]
    omega
  have hbits : bits r 13 8 = 0 := by
    simp only [bits]
    omega
  have hfailing : s.resetFailing p r = maskedDies (s.pkg p).health := by rw [resetFailing_of_starting _ hst, hbits, Nat.zero_or]
  obtain ⟨pkgs, dies, n, hc, hp, hd⟩ := commit_started s p r
  rw [← resetBegin_of_starting _ hst] at hc hp hd
  have hf' : ((s.commit (s.resetBegin p r)).pkg p).fails = 2 := by
    rw [hp]
    exact hfails
  have hl' : ((s.commit (s.resetBegin p r)).pkg p).links = (s.pkg p).links := by rw [hp]
  obtain ⟨hminimal, hready, hfails', hreason, hlinks, hirq, hdies, hm⟩ := third_failure p (s.commit (s.resetBegin p r)) r (maskedDies (s.pkg p).health) hf'
  refine ⟨_, exec_reset_failed h14 (by rw [hr']; omega), ?_⟩
  rw [hr', hfailing]
  rw [hl'] at hirq
  exact ⟨hminimal, hready, hfails', hreason, hlinks, hirq, hdies, hm.trans (by rw [hc])⟩

theorem reset_clears (hst : (s.pkg p).starting = false) : ∃ t, exec (.reset p (2 ^ 14)) s = .next t ∧ (t.pkg p).starting = true ∧ (t.pkg p).ready = false ∧
    (t.pkg p).resetAt = (s.pkg p).gtc ∧ (t.pkg p).gtc = (s.pkg p).gtc ∧ (t.pkg p).health = (s.pkg p).health ∧ (t.pkg p).launchQ = [] ∧
    (t.pkg p).digests = (List.range 16).map s.freeWord ∧
    (∀ x, keyPkg x = p → t.slot x = .blank) ∧ (∀ x, keyPkg x ≠ p → t.slot x = s.slot x) ∧ t.mem = s.mem := by
  have hbegin : s.resetBegin p (2 ^ 14) = s.beginStart p ++ bootUpds p (2 ^ 14) := by
    rw [State.resetBegin, hst]
    rfl
  obtain ⟨hm, hp, hs⟩ := commit_beginStart s p
  obtain ⟨pkgs, dies, hc, hp', -⟩ := commit_bootUpds (s.commit (s.beginStart p)) p (2 ^ 14)
  refine ⟨_, exec_reset_underway rfl, ?_⟩
  rw [hbegin, State.commit_append]
  generalize s.commit (s.beginStart p) = u at *
  rw [hp', hp, hc]
  exact ⟨rfl, rfl, rfl, rfl, rfl, rfl, rfl, fun x hx => (hs x).trans (if_pos hx), fun x hx => (hs x).trans (if_neg hx), hm⟩

theorem start_times_out (hst : (s.pkg p).starting = true) (hlate : (s.pkg p).resetAt + 2000000000 ≤ (s.pkg p).gtc) :
    ∃ t, exec (.readyTimeout p) s = .next t ∧
    (t.pkg p).starting = false ∧ (t.pkg p).ready = false ∧ (t.pkg p).fails = min 255 ((s.pkg p).fails + 1) ∧ (t.pkg p).reason = 6 ∧
    t.mem = s.mem ∧ t.slots = s.slots := by
  obtain ⟨pkgs, n, hc, hp⟩ := commit_digestUpds s p
  have hlateB : s.readyLate p = true := by
    rw [State.readyLate, hst, Bool.true_and]
    exact decide_eq_true hlate
  let failing := (s.pkg p).failing.toNat ||| maskedDies (s.pkg p).health
  have hexec : exec (.readyTimeout p) s = .next ((s.commit (digestUpds s p)).commit (s.startFailed p 6 failing)) := by
    rw [← State.commit_append]
    exact if_pos hlateB
  obtain ⟨hstarting, hready, hfails, hreason, hm, hs⟩ := failed_start_reads s (s.commit (digestUpds s p)) p 6 failing
  refine ⟨_, hexec, hstarting, hready, hfails.trans ?_, hreason, hm.trans ?_, hs.trans ?_⟩
  · rw [hp]
  · rw [hc]
  · rw [hc]
end

end Sys2Proof.Machine
end

section
open Sys2Proof Sys2Proof.Machine

/-- Settles O53: a start sets the package's own registers, and the service of its dies; a failed one too, and the third
takes the links down; a reset clears contexts by their keys alone. -/
theorem startsAndAttestation : Obligations.StartsAndAttestation := by
  unfold Obligations.StartsAndAttestation
  intro s p k
  refine ⟨fun _ => rfl, start_succeeds s p, start_fails s p, boots_slipmax s p, fun hready hmin r c hrid => ⟨?_, ?_, ?_, ?_⟩,
    third_start_fails s p, reset_clears s p, start_times_out s p⟩
  · show execLaunchValidate p s = _
    unfold execLaunchValidate
    split
    · rfl
    · exact milliner_rests s p hready hmin _ _
  · exact milliner_rests s p hready hmin _ _
  · exact milliner_rests s (ridPkg r) (by rw [hrid]; exact hready) (by rw [hrid]; exact hmin) _ _
  · exact milliner_rests s (ridPkg r) (by rw [hrid]; exact hready) (by rw [hrid]; exact hmin) _ _

end

section
/-! SUPPORT. Power and parts that fail (R52, R69, R207, R264, R266). -/

namespace Sys2Proof.Machine

/-! ## Grants (R264) -/

theorem powerGrants_length (l : List Consumer) : (powerGrants l).length = l.length := List.length_map _

/-- What a consumer is granted: nothing when it is idle, else its own part at least. -/
theorem powerGrants_getD {l : List Consumer} {i : Nat} (hi : i < l.length) :
    (l[i].busy = false → (powerGrants l).getD i 0 = 0) ∧ (l[i].busy = true → l[i].own / 600 ≤ (powerGrants l).getD i 0) := by
  rw [powerGrants, List.getD_eq_getElem _ _ (by rwa [List.length_map]), List.getElem_map]
  refine ⟨fun h => if_neg (by rw [h]; exact Bool.false_ne_true), fun h => ?_⟩
  rw [if_pos h]
  exact Nat.div_le_div_right (Nat.le_add_right _ _)

/-- The compute die of a package as a consumer. -/
def State.dieConsumer (s : State) (p : PkgId) (demands : List Nat) (i : Nat) : Consumer :=
  { own := powerPart (s.pkg p).pmax (s.issuer (dieId p i)) 0, demand := at0 demands (6 * 0 + i) 0, busy := (s.issuer (dieId p i)).isSome }

theorem grantsOf_die (s : State) (p : PkgId) (demands : List Nat) {i : Nat} (hi : i < 6) :
    at0 (s.grantsOf p demands) i 0 = (powerGrants ((List.range 6).map (s.dieConsumer p demands))).getD i 0 := by
  rw [at0, State.grantsOf, List.append_assoc]
  refine List.getD_append _ _ _ _ ?_
  rw [powerGrants_length, List.length_map, List.length_range]
  exact hi

theorem grant_of_die (s : State) (p : PkgId) (demands : List Nat) {i : Nat} (hi : i < 6) :
    (s.issuer (dieId p i) = none → at0 (s.grantsOf p demands) i 0 = 0) ∧
    (∀ n, s.issuer (dieId p i) = some n → (s.pkg p).pmax * (if n.pclass = 1 then 58 else 78) / 600 ≤ at0 (s.grantsOf p demands) i 0) := by
  rw [grantsOf_die s p demands hi]
  obtain ⟨hidle, hbusy⟩ := powerGrants_getD (l := (List.range 6).map (s.dieConsumer p demands)) (i := i)
    (by rw [List.length_map, List.length_range]; exact hi)
  rw [List.getElem_map, List.getElem_range] at hidle hbusy
  refine ⟨fun h => hidle (by rw [State.dieConsumer, h]; rfl), fun n h => (le_of_eq ?_).trans (hbusy (by rw [State.dieConsumer, h]; rfl))⟩
  rw [State.dieConsumer, h]
  by_cases hc : n.pclass = 1
  · simp [powerPart, hc, at0]
  · simp [powerPart, hc, at0]

/-- A die with its grant. -/
def Die.granted (demand g : Nat) (d : Die) : Die := { d with grant := g, demand := demand, short := decide (g < demand) }

theorem exec_powerGrant {s : State} {p : Nat} (demands : List Nat) (h : (s.pkg p).gtc % 1000 = 0) : ∃ t, exec (.powerGrant p demands) s = .next t ∧
    t = { s with dies := t.dies, pkgs := t.pkgs, fresh := s.fresh + 13 } ∧
    t.pkg p = { s.pkg p with grantAt := (s.pkg p).gtc, powDemand := (List.range 7).map (fun i => at0 demands (6 + i) 0)
                             powGrant := (s.grantsOf p demands).drop 6 } ∧
    ∀ i < 6, t.die (dieId p i) = (s.die (dieId p i)).granted (at0 demands i 0) (at0 (s.grantsOf p demands) i 0) := by
  let f : Pkg → Pkg := fun k =>
    { k with grantAt := k.gtc, powDemand := (List.range 7).map (fun i => at0 demands (6 + i) 0), powGrant := (s.grantsOf p demands).drop 6 }
  let u := (s.apply (.pkg p f)).apply (.drawn 13)
  let g : Nat → Die → Die := fun i => Die.granted (at0 demands i 0) (at0 (s.grantsOf p demands) i 0)
  have hexec : exec (.powerGrant p demands) s = .next (u.commit (sixDies p g)) := by
    refine (if_neg ?_).trans rfl
    rw [show s.gtc p = (s.pkg p).gtc from rfl, h]
    exact Bool.false_ne_true
  have hd := commit_sixDies u p g
  refine ⟨_, hexec, ?_, ?_, fun i hi => die_sixDies u p g hi⟩
  · rw [hd]
    rfl
  · rw [hd]
    exact (State.pkg_apply_pkg s p p f).trans (if_pos rfl)

/-! ## Changes of HEALTH -/

/-- What a change of HEALTH and of another register leaves. -/
theorem setHealth_more (k : Pkg) (f : Word → Word) : (k.setHealth f).health = f k.health ∧ (k.setHealth f).hbmOut = k.hbmOut ∧
    (k.setHealth f).fdFailed = k.fdFailed ∧ (k.setHealth f).failover = k.failover := by
  unfold Pkg.setHealth
  split
  · next h => exact ⟨(beq_iff_eq.mp h).symm, rfl, rfl, rfl⟩
  · exact ⟨rfl, rfl, rfl, rfl⟩

theorem getLsbD_or_bit (w : Word) {b : Nat} (hb : b < 64) : (w ||| (1#64 <<< b)).getLsbD b = true := by
  simp [hb]

/-! ## A bank that is retired (R69) -/

theorem bank_retires (s : State) (d b : Nat) (hb : b < 2048) (hrun : (s.die d).run = none) (hdead : b ∉ (s.die d).dead) :
    ∃ t, exec (.bankRetire d b) s = .next t ∧ t = { s with dies := t.dies, pkgs := t.pkgs } ∧
    ((s.die d).spares < 32 → (t.die d).spares = (s.die d).spares + 1 ∧ (t.die d).retired = (s.die d).retired ++ [b]) ∧
    (32 ≤ (s.die d).spares → (t.die d).dead = (s.die d).dead ++ [b] ∧ (t.pkg (diePkg d)).health.getLsbD 63 = true) := by
  have hgo : (2048 ≤ b || (s.die d).run.isSome || (s.die d).dead.contains b) = false := by
    rw [hrun]
    simp [hb, hdead]
  have hstart : exec (.bankRetire d b) s = if (s.die d).spares < 32 then _ else _ := if_neg (by rw [hgo]; exact Bool.false_ne_true)
  by_cases hs : (s.die d).spares < 32
  · refine ⟨_, hstart.trans (if_pos hs), rfl, fun _ => ?_, fun h => absurd hs (by omega)⟩
    have hd := (State.die_apply_die s d d fun d =>
        { d with
          spares := d.spares + 1, retired := d.retired ++ [b]
          badLines := d.badLines.filter fun e => e.2 || e.1 % 2048 != b || 2 ^ 40 <= e.1 }).trans (if_pos rfl)
    exact ⟨congrArg Die.spares hd, congrArg Die.retired hd⟩
  · refine ⟨_, hstart.trans (if_neg hs), rfl, fun h => absurd h hs, fun _ => ⟨?_, ?_⟩⟩
    · exact congrArg Die.dead ((State.die_apply_die s d d fun d => { d with dead := d.dead ++ [b] }).trans (if_pos rfl))
    · have hp := (State.pkg_apply_pkg (s.apply (.die d fun d => { d with dead := d.dead ++ [b] })) (diePkg d) (diePkg d) fun k =>
        k.setHealth fun h => h ||| (1#64 <<< 63)).trans (if_pos rfl)
      refine (congrArg (fun k => k.health.getLsbD 63) hp).trans ?_
      exact (congrArg (BitVec.getLsbD · 63) (setHealth_more _ _).1).trans (getLsbD_or_bit _ (by omega))

/-! ## A compute die that fails (R266) -/

theorem compute_die_fails (s : State) (hi : diePhys s.cur < 6) (hs : (s.die s.cur).service = true) :
    ∃ t, exec .computeDieFailure s = .next t ∧
    (t.die s.cur).service = false ∧ (t.die s.cur).run = none ∧ (t.pkg (diePkg s.cur)).health.getLsbD (20 + diePhys s.cur) = true ∧
    ((s.die s.cur).run = none → t.mem = s.mem ∧ t.slots = s.slots) := by
  let stop := match (s.die s.cur).run with
    | some k => unhandled s k (trapAt 0 .machine 0)
    | none => []
  let sets := (s.nodes.filter fun e => e.2.kind == .part).map fun e => Upd.node e.1 fun n =>
    { n with dieSets := n.dieSets.map fun x => if x.1 == diePkg s.cur then (x.1, x.2 &&& ~~~(1#6 <<< diePhys s.cur)) else x }
  let off : Die → Die := fun k =>
    { k with service := false, run := none, chan0 := [], chan1 := [], encQ := [], streams := [], spine := [], walks := [] }
  let mark : Pkg → Pkg := fun k => k.setHealth fun h => h ||| (1#64 <<< (20 + diePhys s.cur))
  have hgo : (6 ≤ diePhys s.cur || !(s.die s.cur).service) = false := by
    rw [hs]
    simp [hi]
  have hexec : exec .computeDieFailure s = .next (((s.commit (stop ++ sets)).apply (.die s.cur off)).apply (.pkg (diePkg s.cur) mark)) := by
    refine (if_neg (by rw [hgo]; exact Bool.false_ne_true)).trans ?_
    exact congrArg Host.Outcome.next (State.commit_append s (stop ++ sets) [.die s.cur off, .pkg (diePkg s.cur) mark])
  have hsets : ∀ u : State, (u.commit sets).mem = u.mem ∧ (u.commit sets).slots = u.slots := fun u =>
    State.commit_keeps (P := fun t => t.mem = u.mem ∧ t.slots = u.slots) (fun c hc t h => by
      obtain ⟨e, -, rfl⟩ := List.mem_map.mp hc
      exact h) ⟨rfl, rfl⟩
  have hdie := (State.die_apply_die (s.commit (stop ++ sets)) s.cur s.cur off).trans (if_pos rfl)
  have hpkg := (State.pkg_apply_pkg ((s.commit (stop ++ sets)).apply (.die s.cur off)) (diePkg s.cur) (diePkg s.cur) mark).trans (if_pos rfl)
  refine ⟨_, hexec, congrArg Die.service hdie, congrArg Die.run hdie, ?_, fun hrun => ?_⟩
  · rw [hpkg]
    exact (congrArg (BitVec.getLsbD · _) (setHealth_more _ _).1).trans (getLsbD_or_bit _ (by omega))
  · have hstop : stop = [] := by
      show (match (s.die s.cur).run with
        | some k => unhandled s k (trapAt 0 .machine 0)
        | none => []) = []
      rw [hrun]
    rw [hstop, List.nil_append]
    exact hsets s

/-! ## A fabric die that fails, and its failover (R207) -/

/-- A change that leaves the contexts, the timers and the registers of R207. -/
def Upd.OffFailover (u : Upd) : Prop := ∀ t : State, (t.apply u).slots = t.slots ∧ (t.apply u).timers = t.timers ∧
  ∀ q, ((t.apply u).pkg q).fdFailed = (t.pkg q).fdFailed ∧ ((t.apply u).pkg q).failover = (t.pkg q).failover ∧
    ((t.apply u).pkg q).health = (t.pkg q).health

theorem commit_offFailover {us : List Upd} (h : ∀ u ∈ us, u.OffFailover) (t : State) : (t.commit us).slots = t.slots ∧
    (t.commit us).timers = t.timers ∧ ∀ q, ((t.commit us).pkg q).fdFailed = (t.pkg q).fdFailed ∧
      ((t.commit us).pkg q).failover = (t.pkg q).failover ∧ ((t.commit us).pkg q).health = (t.pkg q).health :=
  State.commit_keeps (P := fun t' => t'.slots = t.slots ∧ t'.timers = t.timers ∧ ∀ q, (t'.pkg q).fdFailed = (t.pkg q).fdFailed ∧
      (t'.pkg q).failover = (t.pkg q).failover ∧ (t'.pkg q).health = (t.pkg q).health)
    (fun u hu t' ⟨hs, ht, hp⟩ => by
      obtain ⟨hs', ht', hp'⟩ := h u hu t'
      refine ⟨hs'.trans hs, ht'.trans ht, fun q => ?_⟩
      obtain ⟨ha, hb, hc⟩ := hp q
      obtain ⟨ha', hb', hc'⟩ := hp' q
      exact ⟨ha'.trans ha, hb'.trans hb, hc'.trans hc⟩)
    ⟨rfl, rfl, fun _ => ⟨rfl, rfl, rfl⟩⟩

theorem commits_offFailover : ∀ {fs : List (State → List Upd)} (_ : ∀ f ∈ fs, ∀ t, ∀ u ∈ f t, u.OffFailover) (t : State),
    (fs.foldl (fun s f => s.commit (f s)) t).slots = t.slots ∧ (fs.foldl (fun s f => s.commit (f s)) t).timers = t.timers ∧
    ∀ q, ((fs.foldl (fun s f => s.commit (f s)) t).pkg q).fdFailed = (t.pkg q).fdFailed ∧
      ((fs.foldl (fun s f => s.commit (f s)) t).pkg q).failover = (t.pkg q).failover ∧
      ((fs.foldl (fun s f => s.commit (f s)) t).pkg q).health = (t.pkg q).health
  | [], _, _ => ⟨rfl, rfl, fun _ => ⟨rfl, rfl, rfl⟩⟩
  | f :: fs, h, t => by
    obtain ⟨hs, ht, hp⟩ := commit_offFailover (h f List.mem_cons_self t) t
    obtain ⟨hs', ht', hp'⟩ := commits_offFailover (fun g hg => h g (List.mem_cons_of_mem _ hg)) (t.commit (f t))
    refine ⟨hs'.trans hs, ht'.trans ht, fun q => ?_⟩
    obtain ⟨ha, hb, hc⟩ := hp q
    obtain ⟨ha', hb', hc'⟩ := hp' q
    exact ⟨ha'.trans ha, hb'.trans hb, hc'.trans hc⟩

theorem offFailover_pkg (p : PkgId) {f : Pkg → Pkg} (h : ∀ k, (f k).fdFailed = k.fdFailed ∧ (f k).failover = k.failover ∧ (f k).health = k.health) :
    (Upd.pkg p f).OffFailover := fun t => ⟨rfl, rfl, fun q => by
  rw [State.pkg_apply_pkg]
  split
  · next he => exact he ▸ h _
  · exact ⟨rfl, rfl, rfl⟩⟩

theorem offFailover_node (r : Rid) (f : Node → Node) : (Upd.node r f).OffFailover := fun _ => ⟨rfl, rfl, fun _ => ⟨rfl, rfl, rfl⟩⟩
theorem offFailover_req (i : Nat) (f : Req → Req) : (Upd.req i f).OffFailover := fun _ => ⟨rfl, rfl, fun _ => ⟨rfl, rfl, rfl⟩⟩
theorem offFailover_plane (k : Nat) (f : Option Plane → Option Plane) : (Upd.plane k f).OffFailover := fun _ => ⟨rfl, rfl, fun _ => ⟨rfl, rfl, rfl⟩⟩

theorem offFailover_writeBytes (a : Nat) (bs : List Byte) : ∀ u ∈ writeBytes a bs, u.OffFailover := by
  intro u hu
  rcases List.mem_cons.mp hu with rfl | hu
  · exact fun _ => ⟨rfl, rfl, fun _ => ⟨rfl, rfl, rfl⟩⟩
  · obtain ⟨d, f, rfl⟩ : ∃ d f, u = .die d f := by
      split at hu
      · exact ⟨_, _, List.mem_singleton.mp hu⟩
      · split at hu
        · exact ⟨_, _, List.mem_singleton.mp hu⟩
        · exact absurd hu List.not_mem_nil
    exact fun _ => ⟨rfl, rfl, fun _ => ⟨rfl, rfl, rfl⟩⟩

theorem offFailover_notice (s : State) (dom : Rid) : ∀ u ∈ notice s dom, u.OffFailover := by
  simp only [notice, List.forall_mem_append, List.forall_mem_cons]
  refine ⟨⟨offFailover_node _ _, offFailover_writeBytes _ _⟩, ?_⟩
  split
  · rw [List.forall_mem_singleton]
    exact offFailover_pkg _ fun _ => ⟨rfl, rfl, rfl⟩
  · exact fun _ h => absurd h List.not_mem_nil

/-- The package of a fabric die that fails is marked (R207, R266). -/
def Pkg.fabricLost (f : Nat) (k : Pkg) : Pkg :=
  { k with fdFailed := k.fdFailed ||| (1#2 <<< f), failover := k.failover ||| (1#2 <<< f), failAt := k.gtc }.setHealth
    (fun h => h ||| (1#64 <<< (26 + f)))

theorem fabricLost_fields {f : Nat} (hf : f < 2) (k : Pkg) : (k.fabricLost f).fdFailed = k.fdFailed ||| (1#2 <<< f) ∧
    (k.fabricLost f).failover = k.failover ||| (1#2 <<< f) ∧ (k.fabricLost f).health.getLsbD (26 + f) = true := by
  obtain ⟨hh, -, hfd, hfo⟩ := setHealth_more { k with fdFailed := k.fdFailed ||| (1#2 <<< f), failover := k.failover ||| (1#2 <<< f), failAt := k.gtc }
    (fun h => h ||| (1#64 <<< (26 + f)))
  refine ⟨hfd, hfo, ?_⟩
  rw [Pkg.fabricLost, hh]
  exact getLsbD_or_bit _ (by omega)

/-- The allocations that a failure moves or loses, in the packages' tables. -/
def State.failUpds (s : State) (pkg f : Nat) : List Upd := s.pkgs.map fun e => .pkg e.1 fun k =>
  { k with allocs := if (mfind f k.allocs).isSome then mmod k.allocs f [] (fun l => l.map (Alloc.failed pkg e.1)) else k.allocs }

theorem offFailover_before (s : State) (pkg f : Nat) : ∀ u ∈ s.uncharge pkg f ++ s.failUpds pkg f, u.OffFailover := by
  rw [List.forall_mem_append]
  refine ⟨fun u hu => ?_, fun u hu => ?_⟩
  · obtain ⟨e, -, hu⟩ := List.mem_flatMap.mp hu
    obtain ⟨a, -, rfl⟩ := List.mem_map.mp hu
    exact offFailover_node _ _
  · obtain ⟨e, -, rfl⟩ := List.mem_map.mp hu
    exact offFailover_pkg _ fun _ => ⟨rfl, rfl, rfl⟩

/-- What follows the mark: requests, planes and operations that the failure reaches, the rings, and the notices. -/
def State.failAfter (s : State) (pkg f : Nat) : List (State → List Upd) :=
  [fun t => (t.reqs.filter fun r =>
      r.open_ && s.destPkg r.part (diePkg r.die) r.ptr != t.destPkg r.part (diePkg r.die) r.ptr).map fun r =>
      .req r.id fun x => { x with way := none },
    fun s => (s.planes.filter fun e => s.planeLost (e.1 / 64) e.2).map fun e =>
      .plane e.1 (Option.map fun x => { x with frozen := true }), fun s => s.lostAtoms, fun _ => [.pkg pkg (darkPlanes f)]] ++
  (s.failedParts pkg f).map fun p s => notice s p

theorem offFailover_after (s : State) (pkg f : Nat) : ∀ g ∈ s.failAfter pkg f, ∀ t, ∀ u ∈ g t, u.OffFailover := by
  simp only [State.failAfter, List.forall_mem_append, List.forall_mem_cons, List.forall_mem_map]
  refine ⟨⟨fun t _ _ => offFailover_req _ _, fun t _ _ => offFailover_plane _ _, fun t u hu => ?_, fun t => ⟨?_, ?_⟩, ?_⟩, fun p _ t => offFailover_notice t p⟩
  · obtain ⟨r, -, hu⟩ := List.mem_flatMap.mp hu
    exact List.mem_singleton.mp hu ▸ offFailover_req _ _
  · exact offFailover_pkg _ fun _ => ⟨rfl, rfl, rfl⟩
  · exact fun _ h => absurd h List.not_mem_nil
  · exact fun _ h => absurd h List.not_mem_nil

/-- What marks the failure, and when its failover ends. -/
def State.failMark (s : State) (pkg f : Nat) : List Upd :=
  [.pkg pkg (Pkg.fabricLost f), .addTimer { pkg := pkg, tick := s.gtc pkg + 200000, ev := .failoverComplete pkg f }]

theorem exec_fabricDieFailed {s : State} {p f : Nat} (hf : f < 2) (hok : (s.pkg p).fdFailed.getLsbD f = false) (hpres : (s.pkg p).present = true) :
    exec (.fabricDieFailed p f) s = .next ((s.failAfter p f).foldl (fun s f => s.commit (f s))
      (s.commit (s.uncharge p f ++ s.failUpds p f ++ s.failMark p f))) := by
  have hgo : ((s.pkg p).fdFailed.getLsbD (f % 2) || !(s.pkg p).present) = false := by rw [Nat.mod_eq_of_lt hf, hok, hpres]; rfl
  have hexec : exec (.fabricDieFailed p f) s = .next (s.commit (seqUpds s ((fun _ => s.uncharge p (f % 2) ++ s.failUpds p (f % 2) ++ s.failMark p (f % 2)) ::
      s.failAfter p (f % 2)))) := if_neg (by rw [hgo]; exact Bool.false_ne_true)
  rw [hexec, Nat.mod_eq_of_lt hf, commit_seqUpds, List.foldl_cons]

theorem fabric_die_fails (s : State) (p f : Nat) (hf : f < 2) (hok : (s.pkg p).fdFailed.getLsbD f = false) (hpres : (s.pkg p).present = true) :
    ∃ t, exec (.fabricDieFailed p f) s = .next t ∧
    (t.pkg p).fdFailed = (s.pkg p).fdFailed ||| (1#2 <<< f) ∧ (t.pkg p).failover = (s.pkg p).failover ||| (1#2 <<< f) ∧
    (t.pkg p).health.getLsbD (26 + f) = true ∧ t.slots = s.slots ∧
    (⟨p, (s.pkg p).gtc + 200000, .failoverComplete p f⟩ : Timer) ∈ t.timers := by
  obtain ⟨hs, -, hp⟩ := commit_offFailover (offFailover_before s p f) s
  obtain ⟨hs', ht', hp'⟩ := commits_offFailover (offFailover_after s p f) (s.commit (s.uncharge p f ++ s.failUpds p f ++ s.failMark p f))
  rw [State.commit_append] at hs' ht' hp'
  have hexec := exec_fabricDieFailed hf hok hpres
  rw [State.commit_append] at hexec
  have hmark : ∀ u : State, (u.commit (s.failMark p f)).pkg p = (u.pkg p).fabricLost f ∧ (u.commit (s.failMark p f)).slots = u.slots ∧
      (⟨p, (s.pkg p).gtc + 200000, .failoverComplete p f⟩ : Timer) ∈ (u.commit (s.failMark p f)).timers := fun u =>
    ⟨(State.pkg_apply_pkg u p p _).trans (if_pos rfl), rfl, List.mem_append_right _ (List.mem_singleton.mpr rfl)⟩
  generalize s.commit (s.uncharge p f ++ s.failUpds p f) = u at *
  obtain ⟨hu, hus, hut⟩ := hmark u
  obtain ⟨hfd, hfo, hh⟩ := fabricLost_fields hf (u.pkg p)
  obtain ⟨hpfd, hpfo, -⟩ := hp p
  obtain ⟨hpfd', hpfo', hph'⟩ := hp' p
  refine ⟨_, hexec, ?_, ?_, ?_, hs'.trans (hus.trans hs), ?_⟩
  · rw [hpfd', hu, hfd, hpfd]
  · rw [hpfo', hu, hfo, hpfo]
  · rw [hph', hu, hh]
  · rw [ht']
    exact hut

/-- What the end of a failover changes beside its mark: requests begin again, and results stay on. -/
def State.failoverRest (s : State) (p f : Nat) : List Upd :=
  let after := s.commit [.pkg p fun k => { k with failover := k.failover &&& ~~~(1#2 <<< f) }, .dropTimer (.failoverComplete p f)]
  ((s.reqs.filter fun r => s.held (diePkg r.die) r.part r.ptr && !after.held (diePkg r.die) r.part r.ptr).map fun r => .req r.id fun x =>
      { x with sent := s.gtc (diePkg x.die), issued := s.gtc (diePkg x.die), resends := 0 }) ++
    (s.packages.filter s.keepsCache).map fun q => .pkg q fun k => { k with cache := k.cache.map fun e => { e with tick := k.gtc, lasting := true } }

/-- A change of requests, or of a package's result cache. -/
theorem failoverRest_leaves (s : State) (p f : Nat) (t : State) : (t.commit (s.failoverRest p f)).mem = t.mem ∧
    (t.commit (s.failoverRest p f)).slots = t.slots ∧ ∀ q, ((t.commit (s.failoverRest p f)).pkg q).failover = (t.pkg q).failover :=
  State.commit_keeps (P := fun t' => t'.mem = t.mem ∧ t'.slots = t.slots ∧ ∀ q, (t'.pkg q).failover = (t.pkg q).failover)
    (fun u hu t' ⟨hm, hs, hp⟩ => by
      rcases List.mem_append.mp hu with hu | hu
      · obtain ⟨r, -, rfl⟩ := List.mem_map.mp hu
        exact ⟨hm, hs, hp⟩
      · obtain ⟨x, -, rfl⟩ := List.mem_map.mp hu
        refine ⟨hm, hs, fun q => Eq.trans ?_ (hp q)⟩
        rw [State.pkg_apply_pkg]
        split
        · next h => rw [h]
        · rfl)
    ⟨rfl, rfl, fun _ => rfl⟩

theorem failover_completes (s : State) (p f : Nat) (hf : f < 2) (h : (s.pkg p).failover.getLsbD f = true) :
    ∃ t, exec (.failoverComplete p f) s = .next t ∧ (t.pkg p).failover = (s.pkg p).failover &&& ~~~(1#2 <<< f) ∧ t.slots = s.slots ∧ t.mem = s.mem := by
  let clear : List Upd := [.pkg p fun k => { k with failover := k.failover &&& ~~~(1#2 <<< f) }, .dropTimer (.failoverComplete p f)]
  have hgo : (!(s.pkg p).failover.getLsbD (f % 2)) = false := by rw [Nat.mod_eq_of_lt hf, h]; rfl
  have hexec : exec (.failoverComplete p f) s = .next ((s.commit clear).commit (s.failoverRest p f)) := by
    rw [← State.commit_append]
    show execFailoverComplete p f s = _
    unfold execFailoverComplete
    rw [Nat.mod_eq_of_lt hf] at hgo ⊢
    rw [if_neg (by rw [hgo]; exact Bool.false_ne_true)]
    exact congrArg (fun l => Host.Outcome.next (s.commit l)) (List.append_assoc _ _ _)
  obtain ⟨hm, hs, hp⟩ := failoverRest_leaves s p f (s.commit clear)
  refine ⟨_, hexec, (hp p).trans ?_, hs, hm⟩
  exact congrArg Pkg.failover ((State.pkg_apply_pkg s p p fun k => { k with failover := k.failover &&& ~~~(1#2 <<< f) }).trans (if_pos rfl))

/-! ## The standby Milliner (R52) -/

/-- A change of each of several nodes. -/
theorem node_commit_map {β : Type} (g : Rid → Node → Node) : ∀ (l : List (Rid × β)) (s : State), (l.map (·.1)).Nodup → ∀ r,
    (s.commit (l.map fun e => .node e.1 (g e.1))).node r = if r ∈ l.map (·.1) then g r (s.node r) else s.node r
  | [], _, _, _ => rfl
  | e :: l, s, hn, r => by
    rw [List.map_cons, List.nodup_cons] at hn
    rw [List.map_cons, State.commit_cons, node_commit_map g l _ hn.2, State.node_apply_node, List.map_cons]
    by_cases hr : r = e.1
    · subst hr
      rw [if_neg hn.1, if_pos rfl, if_pos List.mem_cons_self]
    · by_cases hl : r ∈ l.map (·.1)
      · rw [if_pos hl, if_neg hr, if_pos (List.mem_cons_of_mem _ hl)]
      · rw [if_neg hl, if_neg hr, if_neg (by simp [hr, hl])]

/-- The nodes of a package whose stop has not begun. -/
def State.lateStops (s : State) (p : PkgId) : List (Rid × Node) :=
  s.nodes.filter fun e => ridPkg e.1 == p && e.2.stopping.isSome && !s.stopBegun e.2 e.1

/-- The stop of a node takes place after the takeover. -/
def Node.stopAfter (tick : Nat) (n : Node) : Node := { n with stopping := n.stopping.map fun t => max t tick }

theorem mem_lateStops {s : State} (hc : s.Canon) (p : PkgId) (r : Rid) : r ∈ (s.lateStops p).map (·.1) ↔
    ridPkg r = p ∧ (s.node r).stopping.isSome = true ∧ s.stopBegun (s.node r) r = false := by
  constructor
  · intro h
    obtain ⟨⟨r', n⟩, he, rfl⟩ := List.mem_map.mp h
    obtain ⟨hmem, hcond⟩ := List.mem_filter.mp he
    have hn : s.node r' = n := congrArg (Option.getD · Node.blank) (mfind_of_mem hc.nodes hmem)
    simp only [Bool.and_eq_true, beq_iff_eq, Bool.not_eq_true'] at hcond
    obtain ⟨⟨hp, hs⟩, hb⟩ := hcond
    exact ⟨hp, by rw [hn]; exact hs, by rw [hn]; exact hb⟩
  · rintro ⟨hp, hs, hb⟩
    obtain ⟨n, hn⟩ : ∃ n, mfind r s.nodes = some n := by
      refine Option.ne_none_iff_exists'.mp fun hnone => ?_
      rw [show s.node r = Node.blank from congrArg (Option.getD · Node.blank) hnone] at hs
      exact absurd hs Bool.false_ne_true
    have hnode : s.node r = n := congrArg (Option.getD · Node.blank) hn
    rw [hnode] at hs hb
    refine List.mem_map.mpr ⟨(r, n), List.mem_filter.mpr ⟨mem_of_mfind hn, ?_⟩, rfl⟩
    simp only [hp, hs, hb, beq_self_eq_true, Bool.not_false, Bool.and_self]

theorem takeover_completes {s : State} {p : Nat} (hc : s.Canon) (h : (s.pkg p).takeover = true) : ∃ t, exec (.takeoverComplete p) s = .next t ∧
    t = { s.withPkg p { s.pkg p with takeover := false, heldWork := [] } with micro := (s.pkg p).heldWork ++ s.micro, nodes := t.nodes } ∧
    ∀ r, (t.node r).stopping = if ridPkg r = p ∧ s.stopBegun (s.node r) r = false
      then (s.node r).stopping.map fun x => max x (s.soon r) else (s.node r).stopping := by
  have hgo : (!(s.pkg p).takeover) = false := by rw [h]; rfl
  let late := (s.lateStops p).map fun e => Upd.node e.1 (Node.stopAfter (s.soon e.1))
  have hexec : exec (.takeoverComplete p) s = .next ((s.commit late).commit
      [.pkg p (fun k => { k with takeover := false, heldWork := [] }), .micro (s.pkg p).heldWork]) := by
    rw [← State.commit_append]
    exact if_neg (by rw [hgo]; exact Bool.false_ne_true)
  have hlate : s.commit late = { s with nodes := (s.commit late).nodes } :=
    State.commit_keeps (P := fun t => t = { s with nodes := t.nodes }) (fun u hu t ht => by
      obtain ⟨e, -, rfl⟩ := List.mem_map.mp hu
      rw [ht]
      rfl) rfl
  have hnode := node_commit_map (fun r => Node.stopAfter (s.soon r)) (s.lateStops p) s (keysFrom_nodup_filter hc.nodes _)
  refine ⟨_, hexec, ?_, fun r => ?_⟩
  · rw [hlate]
    rfl
  · refine (congrArg Node.stopping (hnode r)).trans ?_
    simp only [mem_lateStops hc]
    by_cases hr : ridPkg r = p ∧ s.stopBegun (s.node r) r = false
    · rw [if_pos hr]
      by_cases hs : (s.node r).stopping.isSome = true
      · rw [if_pos ⟨hr.1, hs, hr.2⟩]
        rfl
      · rw [if_neg fun h => hs h.2.1, Option.not_isSome_iff_eq_none.mp hs]
        rfl
    · rw [if_neg hr, if_neg fun h => hr ⟨h.1, h.2.2⟩]

end Sys2Proof.Machine
end

section
open Sys2Proof Sys2Proof.Machine

/-- Settles O54: a busy consumer's grant begins with its own part; a part that fails is marked in its package's registers,
and what follows the mark leaves them; only nodes wait for the end of a takeover. -/
theorem powerAndFailures : Obligations.PowerAndFailures := by
  unfold Obligations.PowerAndFailures
  intro s p k
  refine ⟨fun demands hk => ?_, fun n hn => ?_, fun d b => bank_retires s d b, ?_, fun f => fabric_die_fails s p f,
    fun f => failover_completes s p f, fun ht hs => ?_, fun hc => takeover_completes hc⟩
  · obtain ⟨t, hexec, ht, hp, hd⟩ := exec_powerGrant demands hk
    refine ⟨t, hexec, ht, by rw [hp], fun c _ => ?_, fun i hi => ⟨_, hd i hi, (grant_of_die s p demands hi).1, (grant_of_die s p demands hi).2⟩⟩
    rw [hp]
    simp only [List.getD_eq_getElem?_getD, List.getElem?_drop]
  · let f : Pkg → Pkg := fun k => { k with hbmOut := k.hbmOut ||| (1#12 <<< n) }.setHealth fun h => h ||| (1#64 <<< (28 + n))
    refine ⟨f k, if_neg (by omega), ?_, ?_⟩
    · exact (setHealth_more _ _).2.1
    · exact (setHealth_more _ _).1
  · rintro rfl
    exact compute_die_fails s
  · refine if_neg ?_
    rw [show (s.pkg p).takeover = false from ht, show (s.pkg p).standby = false from hs]
    exact Bool.false_ne_true

end

section
/-! SUPPORT. Time between packages (R57–R59): what a sync makes of a clock. -/

namespace Sys2Proof.Machine

theorem clamp_slew (v : Int) : -100 ≤ clampInt (-slewMax) slewMax v ∧ clampInt (-slewMax) slewMax v ≤ 100 := by
  rw [slewMax, clampInt_eq (by omega)]
  omega

/-! ## What a sync makes of a clock (R58) -/

section
variable (ofs rate held drift : Int) (jump : Nat) (k : Pkg)

/-- The runs of good and of bad intervals that end with a sync. -/
def Pkg.goodNow : Nat := goodRun k.syncNo (k.gtc / syncInterval) k.inside (-10 ≤ ofs && ofs ≤ 10)
def Pkg.badNow : Nat := badRun k.syncNo (k.gtc / syncInterval) k.outside k.before (ofs < -20 || 20 < ofs)
/-- The clock with what a sync has measured, in the state that it was in. -/
def Pkg.heard : Pkg :=
  { k with
    ofs := ofs, inside := k.goodNow ofs, outside := k.badNow ofs
    before := badBefore k.syncNo (k.gtc / syncInterval) k.outside k.before
    lastSync := k.gtc + jump, gtc := k.gtc + jump, syncNo := (k.gtc + jump) / syncInterval
    drift := drift, slew := if k.disc == 3 then k.slew else rate, stepped := k.stepped || jump != 0 }
/-- It locks; or it leaves the lock, and goes on at the rate that has been applied. -/
def Pkg.locks (k : Pkg) : Pkg := { k with disc := 2, outside := 0, before := 0, stepped := true }
def Pkg.unlocks (held : Int) (k : Pkg) : Pkg := { k with disc := 3, holdAt := k.gtc, slew := held }

theorem heard_fields : (k.heard ofs rate drift jump).ofs = ofs ∧ (k.heard ofs rate drift jump).inside = k.goodNow ofs ∧
    (k.heard ofs rate drift jump).outside = k.badNow ofs ∧ (k.heard ofs rate drift jump).lastSync = k.gtc + jump ∧
    (k.heard ofs rate drift jump).gtc = k.gtc + jump ∧ (k.heard ofs rate drift jump).syncNo = (k.gtc + jump) / syncInterval ∧
    (k.heard ofs rate drift jump).slew = (if k.disc == 3 then k.slew else rate) ∧ (k.heard ofs rate drift jump).disc = k.disc ∧
    (k.heard ofs rate drift jump).intstat = k.intstat ∧ (k.heard ofs rate drift jump).stepped = (k.stepped || jump != 0) :=
  ⟨rfl, rfl, rfl, rfl, rfl, rfl, rfl, rfl, rfl, rfl⟩

theorem sync_eq : k.sync ofs rate held drift jump =
    if (k.disc == 1 || k.disc == 3) && 16 ≤ k.goodNow ofs then (k.heard ofs rate drift jump).locks
    else if k.disc == 2 && 4 ≤ k.badNow ofs then (k.heard ofs rate drift jump).unlocks held
    else k.heard ofs rate drift jump := rfl

variable {ofs k}

theorem sync_locks (h : k.disc = 1 ∨ k.disc = 3) (hg : 16 ≤ k.goodNow ofs) :
    k.sync ofs rate held drift jump = (k.heard ofs rate drift jump).locks := by
  rw [sync_eq, if_pos]
  simp only [hg, decide_true, Bool.and_true, Bool.or_eq_true, beq_iff_eq]
  exact h
theorem sync_waits (h : k.disc = 1 ∨ k.disc = 3) (hg : k.goodNow ofs < 16) :
    k.sync ofs rate held drift jump = k.heard ofs rate drift jump := by
  rw [sync_eq, if_neg, if_neg]
  · simp only [Bool.and_eq_true, beq_iff_eq, decide_eq_true_eq]
    omega
  · simp only [Bool.and_eq_true, decide_eq_true_eq]
    omega
theorem sync_unlocks (h : k.disc = 2) (hb : 4 ≤ k.badNow ofs) :
    k.sync ofs rate held drift jump = (k.heard ofs rate drift jump).unlocks held := by
  rw [sync_eq, h, if_neg, if_pos]
  · simp only [hb, decide_true, Bool.and_true, beq_self_eq_true]
  · simp
theorem sync_holds (h : k.disc = 2) (hb : k.badNow ofs < 4) : k.sync ofs rate held drift jump = k.heard ofs rate drift jump := by
  rw [sync_eq, h, if_neg, if_neg]
  · simp only [Bool.and_eq_true, decide_eq_true_eq]
    omega
  · simp

/-- What every sync leaves of a clock. -/
theorem sync_fields : (k.sync ofs rate held drift jump).ofs = ofs ∧ (k.sync ofs rate held drift jump).inside = k.goodNow ofs ∧
    (k.sync ofs rate held drift jump).lastSync = k.gtc + jump ∧ (k.sync ofs rate held drift jump).gtc = k.gtc + jump ∧
    (k.sync ofs rate held drift jump).syncNo = (k.gtc + jump) / syncInterval ∧ (k.sync ofs rate held drift jump).intstat = k.intstat := by
  rw [sync_eq]
  split
  · exact ⟨rfl, rfl, rfl, rfl, rfl, rfl⟩
  · split <;> exact ⟨rfl, rfl, rfl, rfl, rfl, rfl⟩

end

/-! ## PTP_SYNC -/

/-- The time interrupt when a locked package leaves the lock. -/
def Pkg.alarmed (b : Bool) (k : Pkg) : Pkg := if b then { k with intstat := k.intstat ||| 2 } else k
theorem alarmed_true (k : Pkg) : k.alarmed true = { k with intstat := k.intstat ||| 2 } := rfl
theorem alarmed_false (k : Pkg) : k.alarmed false = k := rfl

/-- A change of a package, free values, and its time interrupt where one is due. -/
theorem commit_clock (s : State) (p : PkgId) (f : Pkg → Pkg) (n : Nat) (b : Bool) :
    s.commit ([.pkg p f, .drawn n] ++ (if b then [interrupt p 1] else [])) =
    { s.withPkg p ((f (s.pkg p)).alarmed b) with fresh := s.fresh + n } := by
  cases b with
  | false => rfl
  | true =>
    have hw := withPkg_apply_pkg s p (f (s.pkg p)) fun k => { k with intstat := k.intstat ||| (1#64 <<< 1) }
    exact congrArg (fun t : State => { t with fresh := s.fresh + n }) hw

section
variable {s : State} {p offset : Nat}

/-- The offset that a sync records, its forward step, and the clock that it makes. -/
def State.syncOfs (s : State) (p offset : Nat) : Int := s.gtcDiff p (s.grandmaster p) + signed 63 (offset / 2)
def State.syncJump (s : State) (p offset : Nat) : Nat :=
  if bit offset 0 && (s.pkg p).disc == 1 && !(s.pkg p).stepped && s.syncOfs p offset < 0 then (-s.syncOfs p offset).toNat else 0
def State.synced (s : State) (p offset : Nat) : Pkg → Pkg :=
  Pkg.sync (s.syncOfs p offset) (clampInt (-slewMax) slewMax (s.freeWord 0).toInt) (s.rate p) (driftOf (s.freeWord 1)) (s.syncJump p offset)

theorem exec_ptpSync : exec (.ptpSync p offset) s =
    if (s.pkg p).ptp == 0 || (s.pkg p).disc == 0 then .next s
    else if (s.pkg p).disc != 2 && (s.synced p offset (s.pkg p)).disc == 2 && !s.nearLocked p (s.syncJump p offset) then .next s
    else .next (s.commit ([.pkg p (s.synced p offset), .drawn 2] ++
      (if (s.synced p offset (s.pkg p)).disc != (s.pkg p).disc then timeAlarm p (s.pkg p).disc else []))) := rfl

theorem exec_ptpSync_off (h : (s.pkg p).disc ≠ 2) (hlock : (s.synced p offset (s.pkg p)).disc = 2)
    (hnear : s.nearLocked p (s.syncJump p offset) = false) : exec (.ptpSync p offset) s = .next s := by
  rw [exec_ptpSync, hlock, hnear, bne_iff_ne.mpr h]
  split <;> rfl

/-- The state after a sync that has an effect. -/
def State.afterSync (s : State) (p offset : Nat) : State :=
  { s.withPkg p ((s.synced p offset (s.pkg p)).alarmed ((s.pkg p).disc == 2 && (s.synced p offset (s.pkg p)).disc != 2)) with fresh := s.fresh + 2 }

theorem exec_ptpSync_on (hptp : (s.pkg p).ptp ≠ 0) (hdisc : (s.pkg p).disc ≠ 0)
    (h : (s.pkg p).disc = 2 ∨ s.nearLocked p (s.syncJump p offset) = true) : exec (.ptpSync p offset) s = .next (s.afterSync p offset) := by
  have hnone : ¬((s.pkg p).ptp == 0 || (s.pkg p).disc == 0) = true := by
    rw [beq_false_of_ne hptp, beq_false_of_ne hdisc]
    exact Bool.false_ne_true
  have hok : ¬((s.pkg p).disc != 2 && (s.synced p offset (s.pkg p)).disc == 2 && !s.nearLocked p (s.syncJump p offset)) = true := by
    rcases h with h | h
    · rw [h]
      exact Bool.false_ne_true
    · rw [h, Bool.not_true, Bool.and_false]
      exact Bool.false_ne_true
  have hus : (if (s.synced p offset (s.pkg p)).disc != (s.pkg p).disc then timeAlarm p (s.pkg p).disc else []) =
      if (s.pkg p).disc == 2 && (s.synced p offset (s.pkg p)).disc != 2 then [interrupt p 1] else [] := by
    by_cases h2 : (s.pkg p).disc = 2
    · rw [h2]
      rfl
    · rw [timeAlarm, beq_false_of_ne h2, Bool.false_and, if_neg Bool.false_ne_true, ite_self]
  rw [exec_ptpSync, if_neg hnone, if_neg hok, hus, commit_clock]
  rfl
end

/-! ## The runs of intervals -/

section
variable {k : Pkg} {ofs : Int}

theorem goodNow_bad (h : ¬(-10 ≤ ofs ∧ ofs ≤ 10)) : k.goodNow ofs = 0 := by
  rw [Pkg.goodNow, goodRun, if_pos]
  simp only [Bool.not_eq_true', Bool.and_eq_false_iff, decide_eq_false_iff_not]
  omega
theorem goodNow_good (h : -10 ≤ ofs ∧ ofs ≤ 10) : k.goodNow ofs =
    if k.gtc / syncInterval = k.syncNo then k.inside else if k.gtc / syncInterval = k.syncNo + 1 then k.inside + 1 else 1 := by
  rw [Pkg.goodNow, goodRun, if_neg]
  · simp only [beq_iff_eq]
  · simp [h]
theorem badNow_bad (h : ofs < -20 ∨ 20 < ofs) : k.badNow ofs = badBefore k.syncNo (k.gtc / syncInterval) k.outside k.before + 1 := by
  rw [Pkg.badNow, badRun, if_pos]
  simpa only [Bool.or_eq_true, decide_eq_true_eq] using h
theorem badNow_good (h : ¬(ofs < -20 ∨ 20 < ofs)) (hm : k.gtc / syncInterval ≠ k.syncNo) : k.badNow ofs = 0 := by
  rw [Pkg.badNow, badRun, if_neg (by simpa only [Bool.or_eq_true, decide_eq_true_eq] using h), if_neg (by simpa only [beq_iff_eq] using hm)]
theorem badBefore_same {last m run before : Nat} (h : m = last) : badBefore last m run before = before := if_pos (beq_iff_eq.mpr h)
theorem badBefore_next {last m run before : Nat} (h : m = last + 1) : badBefore last m run before = run := by
  rw [badBefore, if_neg (by simp only [beq_iff_eq]; omega), if_pos (beq_iff_eq.mpr h)]

end

/-! ## A sync without a step -/

section
variable (s : State) (p o : Nat)

theorem syncOfs_even : s.syncOfs p (2 * o) = s.gtcDiff p (s.grandmaster p) + signed 63 o := by
  rw [State.syncOfs, Nat.mul_div_cancel_left o (by omega)]
theorem syncJump_even : s.syncJump p (2 * o) = 0 := by
  have hb : bit (2 * o) 0 = false := by
    rw [bit, beq_eq_false_iff_ne]
    omega
  rw [State.syncJump, hb]
  rfl

theorem alarmed_fields (b : Bool) (k : Pkg) : (k.alarmed b).ofs = k.ofs ∧ (k.alarmed b).inside = k.inside ∧ (k.alarmed b).lastSync = k.lastSync ∧
    (k.alarmed b).gtc = k.gtc ∧ (k.alarmed b).syncNo = k.syncNo ∧ (k.alarmed b).slew = k.slew ∧ (k.alarmed b).disc = k.disc ∧
    (k.alarmed b).holdAt = k.holdAt ∧ (k.alarmed b).outside = k.outside ∧ (k.alarmed b).stepped = k.stepped := by
  cases b <;> exact ⟨rfl, rfl, rfl, rfl, rfl, rfl, rfl, rfl, rfl, rfl⟩

/-- The rate that a sync leaves, and the state that it leads to from states 1 and 3. -/
theorem sync_rate {ofs rate held drift : Int} {jump : Nat} {k : Pkg} (h : 1 ≤ k.disc ∧ k.disc ≤ 3) :
    (k.disc = 3 → (k.sync ofs rate held drift jump).slew = k.slew) ∧
    (k.disc ≠ 3 → (k.sync ofs rate held drift jump).disc ≠ 3 → (k.sync ofs rate held drift jump).slew = rate) ∧
    (k.disc ≠ 2 → (k.sync ofs rate held drift jump).disc = if 16 ≤ k.goodNow ofs then 2 else k.disc) := by
  obtain ⟨-, -, -, -, -, -, hslew, hdisc, -, -⟩ := heard_fields ofs rate drift jump k
  by_cases h2 : k.disc = 2
  · refine ⟨fun h3 => absurd (h2.symm.trans h3) (by omega), fun _ hd => ?_, fun h => absurd h2 h⟩
    by_cases hb : 4 ≤ k.badNow ofs
    · rw [sync_unlocks rate held drift jump h2 hb] at hd
      exact absurd rfl hd
    · rw [sync_holds rate held drift jump h2 (by omega), hslew, h2]
      rfl
  · have h13 : k.disc = 1 ∨ k.disc = 3 := by omega
    by_cases hg : 16 ≤ k.goodNow ofs
    · rw [sync_locks rate held drift jump h13 hg]
      refine ⟨fun h3 => hslew.trans ?_, fun h3 _ => hslew.trans ?_, fun _ => (if_pos hg).symm⟩
      · rw [h3]
        rfl
      · exact if_neg (by simpa only [beq_iff_eq] using h3)
    · rw [sync_waits rate held drift jump h13 (by omega), if_neg hg]
      refine ⟨fun h3 => hslew.trans ?_, fun h3 _ => hslew.trans ?_, fun _ => hdisc⟩
      · rw [h3]
        rfl
      · exact if_neg (by simpa only [beq_iff_eq] using h3)

/-- A locked clock leaves the lock with the fourth bad interval. -/
theorem lock_breaks {k : Pkg} {ofs rate held drift : Int} {jump : Nat} (h : k.disc = 2) (hb : 4 ≤ k.badNow ofs) :
    let x := (k.sync ofs rate held drift jump).alarmed (k.disc == 2 && (k.sync ofs rate held drift jump).disc != 2)
    x.disc = 3 ∧ x.holdAt = k.gtc + jump ∧ x.intstat = k.intstat ||| 2 ∧ x.slew = held := by
  intro x
  have hx : x = ((k.heard ofs rate drift jump).unlocks held).alarmed true := by
    show (k.sync ofs rate held drift jump).alarmed (k.disc == 2 && (k.sync ofs rate held drift jump).disc != 2) = _
    rw [sync_unlocks rate held drift jump h hb, h]
    rfl
  rw [hx]
  exact ⟨rfl, rfl, rfl, rfl⟩

/-- Before that it stays locked. -/
theorem lock_stays {k : Pkg} {ofs rate held drift : Int} {jump : Nat} (h : k.disc = 2) (hb : k.badNow ofs < 4) :
    let x := (k.sync ofs rate held drift jump).alarmed (k.disc == 2 && (k.sync ofs rate held drift jump).disc != 2)
    x.disc = 2 ∧ x.outside = k.badNow ofs ∧ x.intstat = k.intstat := by
  intro x
  have hx : x = k.heard ofs rate drift jump := by
    show (k.sync ofs rate held drift jump).alarmed (k.disc == 2 && (k.sync ofs rate held drift jump).disc != 2) = _
    rw [sync_holds rate held drift jump h hb, h, show (k.heard ofs rate drift jump).disc = k.disc from rfl, h]
    rfl
  rw [hx]
  exact ⟨h, rfl, rfl⟩

end

section
variable (s : State) (p : Nat)

/-- The enabled ports after PTP_PORT_ENABLE. -/
def State.portsAfter (s : State) (p port enable : Nat) : BitVec 2 :=
  if enable % 2 == 0 then (s.pkg p).ptp &&& ~~~(1#2 <<< port) else (s.pkg p).ptp ||| (1#2 <<< port)
/-- A clock that runs free, and one whose first port is enabled (T3.1). -/
def Pkg.portsOff (ptp : BitVec 2) (prio : Nat) (k : Pkg) : Pkg := { k with ptp := ptp, ptpPrio := prio, disc := 0, slew := 0 }
def Pkg.firstPort (ptp : BitVec 2) (prio : Nat) (drift : Int) (k : Pkg) : Pkg :=
  { k with ptp := ptp, ptpPrio := prio, disc := 1, drift := drift, inside := 0, outside := 0, before := 0, lastSync := k.gtc, syncNo := k.gtc / syncInterval }
def Pkg.portOn (ptp : BitVec 2) (prio : Nat) (drift : Int) (k : Pkg) : Pkg :=
  let k' := { k with ptp := ptp, ptpPrio := prio }
  if k'.disc == 0 then { k' with disc := 1, drift := drift, inside := 0, outside := 0, before := 0, lastSync := k'.gtc, syncNo := k'.gtc / syncInterval }
  else k'

theorem portOn_first {k : Pkg} (h : k.disc = 0) (ptp : BitVec 2) (prio : Nat) (drift : Int) : k.portOn ptp prio drift = k.firstPort ptp prio drift :=
  if_pos (beq_iff_eq.mpr h)

theorem exec_ptpPortEnable (port enable : Nat) : exec (.ptpPortEnable p port enable) s =
    if 2 ≤ port || (s.pkg p).minimal then .next s
    else if s.portsAfter p port enable == 0 then
      .next (s.commit (.pkg p (Pkg.portsOff (s.portsAfter p port enable) (enable / 2)) :: timeAlarm p (s.pkg p).disc))
    else .next (s.commit [.drawn 1, .pkg p (Pkg.portOn (s.portsAfter p port enable) (enable / 2) (driftOf (s.freeWord 0)))]) := rfl

theorem ptpPortEnable_first (port prio : Nat) (hport : port < 2) (hmin : (s.pkg p).minimal = false) (hdisc : (s.pkg p).disc = 0) :
    exec (.ptpPortEnable p port (2 * prio + 1)) s = .next { s.withPkg p ((s.pkg p).firstPort ((s.pkg p).ptp ||| (1#2 <<< port)) prio (driftOf (s.freeWord 0)))
      with fresh := s.fresh + 1 } := by
  have hafter : s.portsAfter p port (2 * prio + 1) = (s.pkg p).ptp ||| (1#2 <<< port) := if_neg (by simp only [beq_iff_eq]; omega)
  have hptp : ((s.pkg p).ptp ||| (1#2 <<< port) == 0) = false := by
    refine beq_false_of_ne fun h => ?_
    have hb := congrArg (BitVec.getLsbD · port) h
    simp [hport] at hb
  rw [exec_ptpPortEnable, if_neg (by simp [hmin, hport]), hafter, if_neg (by rw [hptp]; exact Bool.false_ne_true), show (2 * prio + 1) / 2 = prio by omega]
  refine congrArg (fun k => Host.Outcome.next ({ s.withPkg p k with fresh := s.fresh + 1 } : State)) ?_
  exact portOn_first hdisc _ _ _

theorem ptpPortEnable_last (port prio : Nat) (hport : port < 2) (hmin : (s.pkg p).minimal = false)
    (hptp : (s.pkg p).ptp &&& ~~~(1#2 <<< port) = 0) (hdisc : (s.pkg p).disc = 2) :
    exec (.ptpPortEnable p port (2 * prio)) s = .next (s.withPkg p (((s.pkg p).portsOff 0 prio).alarmed true)) := by
  have hafter : s.portsAfter p port (2 * prio) = 0 := (if_pos (by simp)).trans hptp
  rw [exec_ptpPortEnable, if_neg (by simp [hmin, hport]), hafter, if_pos (beq_self_eq_true _), hdisc, show 2 * prio / 2 = prio by omega]
  exact congrArg Host.Outcome.next (withPkg_apply_pkg s p ((s.pkg p).portsOff 0 prio) fun k => { k with intstat := k.intstat ||| (1#64 <<< 1) })

/-- A locked clock whose syncs have stopped (R58). -/
def Pkg.timesOut (rate drift : Int) (k : Pkg) : Pkg :=
  { k with disc := 3, holdAt := k.gtc, inside := 0, outside := 0, before := 0, slew := rate, drift := drift }

theorem syncTimeout_holds (hdisc : (s.pkg p).disc = 2) (hlate : (s.pkg p).lastSync + 62500000 ≤ (s.pkg p).gtc) :
    exec (.syncTimeout p) s = .next { s.withPkg p (((s.pkg p).timesOut (s.rate p) (driftOf (s.freeWord 0))).alarmed true) with fresh := s.fresh + 1 } := by
  have hb : s.syncLate p = true := by
    simp only [State.syncLate, hdisc, beq_self_eq_true, Bool.true_and, decide_eq_true_eq]
    exact hlate
  have hexec : exec (.syncTimeout p) s = .next (s.commit ([.pkg p (Pkg.timesOut (s.rate p) (driftOf (s.freeWord 0))), .drawn 1] ++
      (if true then [interrupt p 1] else []))) := if_pos hb
  rw [hexec, commit_clock]

theorem sync_stepped {ofs rate held drift : Int} {jump : Nat} {k : Pkg} (h : jump ≠ 0) : (k.sync ofs rate held drift jump).stepped = true := by
  have hheard : (k.heard ofs rate drift jump).stepped = true := by
    show (k.stepped || jump != 0) = true
    rw [bne_iff_ne.mpr h, Bool.or_true]
  rw [sync_eq]
  split
  · rfl
  · split
    · exact hheard
    · exact hheard

theorem ptpSync_steps (o : Nat) (hptp : (s.pkg p).ptp ≠ 0) (hdisc : (s.pkg p).disc = 1) (hst : (s.pkg p).stepped = false)
    (hneg : s.gtcDiff p (s.grandmaster p) + signed 63 o < 0)
    (hnear : s.nearLocked p (-(s.gtcDiff p (s.grandmaster p) + signed 63 o)).toNat = true) : ∃ x,
    exec (.ptpSync p (2 * o + 1)) s = .next { s.withPkg p x with fresh := s.fresh + 2 } ∧
    x.gtc = (s.pkg p).gtc + (-(s.gtcDiff p (s.grandmaster p) + signed 63 o)).toNat ∧ x.stepped = true := by
  have hofs : s.syncOfs p (2 * o + 1) = s.gtcDiff p (s.grandmaster p) + signed 63 o := by
    rw [State.syncOfs, show (2 * o + 1) / 2 = o by omega]
  have hjump : s.syncJump p (2 * o + 1) = (-(s.gtcDiff p (s.grandmaster p) + signed 63 o)).toNat := by
    rw [State.syncJump, hofs, if_pos]
    have hb : bit (2 * o + 1) 0 = true := by
      rw [bit, beq_iff_eq]
      omega
    rw [hb, hdisc, hst, decide_eq_true hneg]
    rfl
  refine ⟨_, exec_ptpSync_on hptp (by omega) (Or.inr (by rw [hjump]; exact hnear)), ?_, ?_⟩
  · obtain ⟨-, -, -, hgtc, -⟩ := alarmed_fields ((s.pkg p).disc == 2 && (s.synced p (2 * o + 1) (s.pkg p)).disc != 2) (s.synced p (2 * o + 1) (s.pkg p))
    rw [hgtc, ← hjump]
    exact (sync_fields _ _ _ _).2.2.2.1
  · obtain ⟨-, -, -, -, -, -, -, -, -, hstep⟩ := alarmed_fields ((s.pkg p).disc == 2 && (s.synced p (2 * o + 1) (s.pkg p)).disc != 2) (s.synced p (2 * o + 1) (s.pkg p))
    rw [hstep]
    have hne : s.syncJump p (2 * o + 1) ≠ 0 := by
      rw [hjump]
      omega
    exact sync_stepped hne

/-- What the statement says of a sync without a step. -/
theorem sync_spec {k : Pkg} {ofs rate held drift : Int} (h : 1 ≤ k.disc ∧ k.disc ≤ 3) (hclamp : -100 ≤ rate ∧ rate ≤ 100) :
    let m := k.gtc / syncInterval
    let good := -10 ≤ ofs ∧ ofs ≤ 10
    let bad := ofs < -20 ∨ 20 < ofs
    let x := (k.sync ofs rate held drift 0).alarmed (k.disc == 2 && (k.sync ofs rate held drift 0).disc != 2)
    x.ofs = ofs ∧ x.gtc = k.gtc ∧ x.lastSync = k.gtc ∧ x.syncNo = m ∧ (k.disc = 3 → x.slew = k.slew) ∧
    (k.disc ≠ 3 → x.disc ≠ 3 → -100 ≤ x.slew ∧ x.slew ≤ 100) ∧
    (¬ good → x.inside = 0) ∧ (good → m = k.syncNo + 1 → x.inside = k.inside + 1) ∧
    (good → m = k.syncNo → x.inside = k.inside) ∧ (good → k.syncNo + 1 < m → x.inside = 1) ∧
    (k.disc ≠ 2 → x.disc = if 16 ≤ x.inside then 2 else k.disc) ∧
    (k.disc = 2 →
      let leaves := x.disc = 3 ∧ x.holdAt = k.gtc ∧ x.intstat = k.intstat ||| 2 ∧ x.slew = held
      (bad → m = k.syncNo + 1 → 3 ≤ k.outside → leaves) ∧
      (bad → m = k.syncNo + 1 → k.outside < 3 → x.disc = 2 ∧ x.outside = k.outside + 1 ∧ x.intstat = k.intstat) ∧
      (bad → m = k.syncNo → 3 ≤ k.before → leaves) ∧
      (bad → m = k.syncNo → k.before < 3 → x.disc = 2 ∧ x.outside = k.before + 1 ∧ x.intstat = k.intstat) ∧
      (¬ bad → m ≠ k.syncNo → x.disc = 2 ∧ x.outside = 0 ∧ x.intstat = k.intstat)) := by
  intro m good bad x
  obtain ⟨aofs, ains, alast, agtc, ano, aslew, adisc, -⟩ := alarmed_fields (k.disc == 2 && (k.sync ofs rate held drift 0).disc != 2)
    (k.sync ofs rate held drift 0)
  obtain ⟨fofs, fins, flast, fgtc, fno, -⟩ := sync_fields (ofs := ofs) rate held drift 0 (k := k)
  obtain ⟨rheld, rrate, rdisc⟩ := sync_rate (ofs := ofs) (rate := rate) (held := held) (drift := drift) (jump := 0) h
  have hins : x.inside = k.goodNow ofs := ains.trans fins
  refine ⟨aofs.trans fofs, agtc.trans fgtc, alast.trans flast, ano.trans fno, fun h => aslew.trans (rheld h), fun h hx => ?_, ?_, ?_, ?_, ?_, ?_, ?_⟩
  · rw [show x.slew = rate from aslew.trans (rrate h (adisc ▸ hx))]
    exact hclamp
  · exact fun hg => hins.trans (goodNow_bad hg)
  · intro hg hm
    rw [hins, goodNow_good hg, if_neg (show m ≠ k.syncNo by omega), if_pos hm]
  · intro hg hm
    rw [hins, goodNow_good hg, if_pos hm]
  · intro hg hm
    rw [hins, goodNow_good hg, if_neg (show m ≠ k.syncNo by omega), if_neg (show m ≠ k.syncNo + 1 by omega)]
  · intro h
    rw [hins]
    exact adisc.trans (rdisc h)
  · intro h2 leaves
    refine ⟨fun hb hm hrun => ?_, fun hb hm hrun => ?_, fun hb hm hrun => ?_, fun hb hm hrun => ?_, fun hb hm => ?_⟩
    · exact lock_breaks h2 (by rw [badNow_bad hb, badBefore_next hm]; omega)
    · have hnow : k.badNow ofs = k.outside + 1 := by rw [badNow_bad hb, badBefore_next hm]
      rw [← hnow]
      exact lock_stays h2 (by omega)
    · exact lock_breaks h2 (by rw [badNow_bad hb, badBefore_same hm]; omega)
    · have hnow : k.badNow ofs = k.before + 1 := by rw [badNow_bad hb, badBefore_same hm]
      rw [← hnow]
      exact lock_stays h2 (by omega)
    · have hnow : k.badNow ofs = 0 := badNow_good hb hm
      rw [← hnow]
      exact lock_stays h2 (by omega)

theorem exec_ptpSync_even (o : Nat) (hptp : (s.pkg p).ptp ≠ 0) (h1 : 1 ≤ (s.pkg p).disc) (hor : (s.pkg p).disc = 2 ∨ s.nearLocked p 0 = true) :
    ∃ rate drift, (-100 ≤ rate ∧ rate ≤ 100) ∧ ∀ ofs, ofs = s.gtcDiff p (s.grandmaster p) + signed 63 o →
      exec (.ptpSync p (2 * o)) s = .next { s.withPkg p (((s.pkg p).sync ofs rate (s.rate p) drift 0).alarmed
        ((s.pkg p).disc == 2 && ((s.pkg p).sync ofs rate (s.rate p) drift 0).disc != 2)) with fresh := s.fresh + 2 } := by
  refine ⟨_, driftOf (s.freeWord 1), clamp_slew (s.freeWord 0).toInt, ?_⟩
  rintro _ rfl
  have hexec := exec_ptpSync_on (s := s) (p := p) (offset := 2 * o) hptp (Nat.one_le_iff_ne_zero.mp h1) (by rw [syncJump_even]; exact hor)
  rw [State.afterSync, State.synced, syncOfs_even, syncJump_even] at hexec
  exact hexec

theorem ptpSync_too_far (o : Nat) (hdisc : (s.pkg p).disc = 1 ∨ (s.pkg p).disc = 3)
    (hlo : -10 ≤ s.gtcDiff p (s.grandmaster p) + signed 63 o) (hhi : s.gtcDiff p (s.grandmaster p) + signed 63 o ≤ 10)
    (hm : (s.pkg p).gtc / syncInterval = (s.pkg p).syncNo + 1) (hin : 15 ≤ (s.pkg p).inside) (hnear : s.nearLocked p 0 = false) :
    exec (.ptpSync p (2 * o)) s = .next s := by
  refine exec_ptpSync_off (by omega) ?_ (by rw [syncJump_even]; exact hnear)
  rw [State.synced, syncOfs_even, syncJump_even, sync_locks _ _ _ _ hdisc]
  · rfl
  · rw [goodNow_good ⟨hlo, hhi⟩, if_neg (by omega), if_pos hm]
    omega

end

end Sys2Proof.Machine
end

section
open Sys2Proof Sys2Proof.Machine

/-- Settles O55: by what a sync makes of a clock, which locks, waits, holds or unlocks. -/
theorem timeBetweenPackages : Obligations.TimeBetweenPackages := by
  unfold Obligations.TimeBetweenPackages
  intro s p k m from_
  refine ⟨ptpPortEnable_first s p, ptpPortEnable_last s p, fun o hptp h1 h3 hor => ?_, ptpSync_too_far s p, ptpSync_steps s p,
    syncTimeout_holds s p, fun hdisc hlate => ?_⟩
  · intro ofs good bad
    obtain ⟨rate, drift, hclamp, hexec⟩ := exec_ptpSync_even s p o hptp h1 hor
    exact ⟨_, hexec ofs rfl, sync_spec ⟨h1, h3⟩ hclamp⟩
  · refine if_pos ?_
    simp only [State.holdoverLate, show (s.pkg p).disc = 3 from hdisc, beq_self_eq_true, Bool.true_and, decide_eq_true_eq]
    exact hlate

end

section
/-! SUPPORT. Writes of a node's record, and the validation of launches (R23, R26, R30, R53). -/

namespace Sys2Proof.Machine

/-! ## Writes of memory, and the errors that they mend -/

/-- A change of a die that leaves all but its armed injections and its bad locations. -/
def ErrorsOnly (f : Die → Die) : Prop := ∀ k, ∃ inject bad, f k = { k with inject := inject, badLines := bad }

theorem errorsOnly_wrote (arr line : Nat) (whole : Bool) : ErrorsOnly (Die.wrote arr line whole) := fun k => by
  unfold Die.wrote
  dsimp only
  split
  · exact ⟨_, _, rfl⟩
  · split
    · exact ⟨k.inject, _, rfl⟩
    · exact ⟨k.inject, k.badLines, rfl⟩
theorem ErrorsOnly.comp {f g : Die → Die} (hf : ErrorsOnly f) (hg : ErrorsOnly g) : ErrorsOnly fun k => g (f k) := fun k => by
  obtain ⟨inject, bad, h⟩ := hf k
  obtain ⟨inject', bad', h'⟩ := hg (f k)
  exact ⟨inject', bad', h'.trans (by rw [h])⟩
theorem errorsOnly_wroteWords (arr base off n : Nat) : ErrorsOnly (Die.wroteWords arr base off n) := fun k => by
  unfold Die.wroteWords
  generalize wordsAt off n = l
  induction l generalizing k with
  | nil => exact ⟨k.inject, k.badLines, rfl⟩
  | cons w l ih => exact ((errorsOnly_wrote arr (base + w) _).comp ih) k
theorem errorsOnly_zeroed (arr lo hi : Nat) : ErrorsOnly (Die.zeroed arr lo hi) := fun k => by
  unfold Die.zeroed
  dsimp only
  split
  · obtain ⟨inject, bad, h⟩ := errorsOnly_wrote arr (mget k.inject arr .blank).addr.toNat true
      { k with badLines := k.badLines.filter fun e => e.1 < errKey arr lo || errKey arr hi <= e.1 }
    exact ⟨inject, bad, h⟩
  · exact ⟨k.inject, _, rfl⟩

theorem sameButErrors_refl {s t : State} (h : t.dies = s.dies) : SameButErrors s t := fun d => by
  rw [show t.die d = s.die d from congrArg (fun m => mget m d Die.blank) h]
theorem SameButErrors.trans {s t u : State} (h : SameButErrors s t) (h' : SameButErrors t u) : SameButErrors s u := fun d => by
  rw [h' d, h d]
theorem sameButErrors_apply (s : State) (d : DieId) {f : Die → Die} (hf : ErrorsOnly f) : SameButErrors s (s.apply (.die d f)) := fun x => by
  rw [State.die_apply_die]
  split
  · next h =>
    obtain ⟨inject, bad, he⟩ := hf (s.die x)
    rw [← h, he]
  · rfl

theorem pkg_of_pkgs {s t : State} (h : t.pkgs = s.pkgs) (p : PkgId) : t.pkg p = s.pkg p := congrArg (fun m => mget m p Pkg.blank) h
theorem node_of_nodes {s t : State} (h : t.nodes = s.nodes) (r : Rid) : t.node r = s.node r := congrArg (fun m => mget m r Node.blank) h

/-- Changes that write memory, and mend or leave errors there. -/
def WritesMem (M : Memory → Memory) (us : List Upd) : Prop := ∀ s : State, ∃ dies,
  s.commit us = { s with mem := M s.mem, dies := dies } ∧ SameButErrors s (s.commit us)

theorem WritesMem.append {M M' : Memory → Memory} {us vs : List Upd} (h : WritesMem M us) (h' : WritesMem M' vs) :
    WritesMem (fun m => M' (M m)) (us ++ vs) := fun s => by
  obtain ⟨dies, hc, hs⟩ := h s
  obtain ⟨dies', hc', hs'⟩ := h' (s.commit us)
  rw [State.commit_append]
  exact ⟨dies', by rw [hc', hc], hs.trans hs'⟩

theorem WritesMem.mem {M : Memory → Memory} {us : List Upd} (h : WritesMem M us) (s : State) : (s.commit us).mem = M s.mem := by
  obtain ⟨dies, hc, -⟩ := h s
  rw [hc]

/-- A write of memory with a mark on at most one die. -/
theorem writesMem_mark {M : Memory → Memory} {u : Upd} (hu : ∀ s : State, s.apply u = { s with mem := M s.mem }) {us : List Upd}
    (h : us = [] ∨ ∃ d f, us = [.die d f] ∧ ErrorsOnly f) : WritesMem M (u :: us) := fun s => by
  rcases h with rfl | ⟨d, f, rfl, hf⟩
  · exact ⟨s.dies, hu s, sameButErrors_refl (by rw [State.commit_cons, hu]; rfl)⟩
  · rw [State.commit_cons, hu]
    exact ⟨_, rfl, sameButErrors_apply { s with mem := M s.mem } d hf⟩

theorem writesMem_writeBytes (a : Nat) (bs : List Byte) : WritesMem (memWrite a bs) (writeBytes a bs) := by
  refine writesMem_mark (fun _ => rfl) ?_
  split
  · exact Or.inr ⟨_, _, rfl, errorsOnly_wrote _ _ _⟩
  · split
    · exact Or.inr ⟨_, _, rfl, errorsOnly_wroteWords _ _ _ _⟩
    · exact Or.inl rfl
theorem writesMem_zeroBytes (a n : Nat) : WritesMem (memClear a n) (zeroBytes a n) := by
  refine writesMem_mark (fun _ => rfl) ?_
  split
  · exact Or.inr ⟨_, _, rfl, errorsOnly_zeroed _ _ _⟩
  · exact Or.inl rfl

/-- A change of a node, and then writes. -/
theorem commit_node_writes {M : Memory → Memory} {us : List Upd} (h : WritesMem M us) (u : State) (r : Rid) (f : Node → Node) :
    ∃ dies, u.commit (.node r f :: us) = { u with nodes := mput r (f (u.node r)) u.nodes, mem := M u.mem, dies := dies } ∧
    SameButErrors u (u.commit (.node r f :: us)) ∧ ∀ x, (u.commit (.node r f :: us)).node x = if x = r then f (u.node r) else u.node x := by
  rw [State.commit_cons]
  have hnode : ∀ x, (u.apply (.node r f)).node x = if x = r then f (u.node r) else u.node x := fun x => State.node_apply_node u r x f
  have happly : u.apply (.node r f) = { u with nodes := mput r (f (u.node r)) u.nodes } := rfl
  have hsame : SameButErrors u (u.apply (.node r f)) := sameButErrors_refl rfl
  have hmem : (u.apply (.node r f)).mem = u.mem := rfl
  generalize u.apply (.node r f) = v at *
  obtain ⟨dies, hc, hs⟩ := h v
  refine ⟨dies, hc.trans (by rw [happly]), hsame.trans hs, fun x => ?_⟩
  rw [← hnode x, hc]
  rfl

/-! ## The record of a launch (R23) -/

/-- Memory once the Milliner has written the words of a fresh record. -/
def freshMem (a : Nat) (r : Rid) (m : Memory) : Memory :=
  memClear (a + 0x0D0) 0x130 (memWrite (a + 0x0C8) (toBytes 8 0) (memWrite (a + 0x010) (toBytes 8 0) (memWrite (a + 0x008) (rcbState r 0 1) m)))
theorem writesMem_rcbFresh (a : Nat) (r : Rid) : WritesMem (freshMem a r) (rcbFresh a r) :=
  (((writesMem_writeBytes _ _).append (writesMem_writeBytes _ _)).append (writesMem_writeBytes _ _)).append (writesMem_zeroBytes _ _)

/-- STATE, and then DONE, of a record. -/
def endMem (a : Nat) (r : Rid) (reason st done : Nat) (m : Memory) : Memory :=
  memWrite (a + 0x010) (toBytes 8 done) (memWrite (a + 0x008) (rcbState r reason st) m)
theorem writesMem_ends (a : Nat) (r : Rid) (reason st done : Nat) : WritesMem (endMem a r reason st done)
    (writeBytes (a + 0x008) (rcbState r reason st) ++ writeBytes (a + 0x010) (toBytes 8 done)) :=
  (writesMem_writeBytes _ _).append (writesMem_writeBytes _ _)

/-! ## Validation -/

section
variable {s : State} {p : Nat} {l : Launch} {q : List Launch} (hq : (s.pkg p).launchQ = l :: q) (hup : (s.pkg p).up = true)

theorem milliner_works (hup : (s.pkg p).up = true) (ht : (s.pkg p).takeover = false) (i : Instr) (us : List Upd) :
    s.milliner p i us = .next (s.commit us) := by
  rw [State.milliner, hup, ht]
  rfl
theorem milliner_keeps (hup : (s.pkg p).up = true) (ht : (s.pkg p).takeover = true) (i : Instr) (us : List Upd) :
    s.milliner p i us = .next (s.withPkg p { s.pkg p with heldWork := (s.pkg p).heldWork ++ [i] }) := by
  rw [State.milliner, hup, ht]
  rfl

include hq hup

theorem exec_launchValidate_kept (ht : (s.pkg p).takeover = true) : exec (.launchValidate p) s =
    .next (s.withPkg p { s.pkg p with heldWork := (s.pkg p).heldWork ++ [.launchValidate p] }) := by
  show execLaunchValidate p s = _
  rw [execLaunchValidate, hq]
  exact milliner_keeps hup ht _ _
theorem exec_launchValidate (ht : (s.pkg p).takeover = false) : exec (.launchValidate p) s = .next (s.commit (s.validate p l)) := by
  show execLaunchValidate p s = _
  rw [execLaunchValidate, hq]
  exact milliner_works hup ht _ _

end

/-- The post leaves the queue. -/
def popLaunch (p : PkgId) : Upd := .pkg p fun k => { k with launchQ := k.launchQ.drop 1 }
theorem apply_popLaunch {s : State} {p : Nat} {l : Launch} {q : List Launch} (hq : (s.pkg p).launchQ = l :: q) :
    s.apply (popLaunch p) = s.withPkg p { s.pkg p with launchQ := q } := by
  have h : (s.pkg p).launchQ.drop 1 = q := by rw [hq]; rfl
  show s.withPkg p { s.pkg p with launchQ := (s.pkg p).launchQ.drop 1 } = _
  rw [h]

/-- The package once a post has been taken, and a region identifier with it. -/
def Pkg.taken (q : List Launch) (k : Pkg) : Pkg := { k with launchQ := q, nextRid := (k.nextRid + 1) % 2 ^ 22 }
def takeUpds (p : PkgId) : List Upd := [popLaunch p, .pkg p fun k => { k with nextRid := (k.nextRid + 1) % 2 ^ 22 }]
theorem commit_takeUpds {s : State} {p : Nat} {l : Launch} {q : List Launch} (hq : (s.pkg p).launchQ = l :: q) :
    s.commit (takeUpds p) = s.withPkg p ((s.pkg p).taken q) := by
  rw [takeUpds, State.commit_cons, apply_popLaunch hq]
  exact withPkg_apply_pkg s p { s.pkg p with launchQ := q } fun k => { k with nextRid := (k.nextRid + 1) % 2 ^ 22 }


/-- The effective parent of a launch, its parent or the root, and the node that the launch would be. -/
def State.launchPar (s : State) (p : PkgId) (l : Launch) (a : Nat) : Option (Rid × Node) :=
  s.parentOf p l (bits (s.num a 8) 1 0) (word (s.num (a + 0x18) 8))
def State.launchUp (s : State) (p : PkgId) (l : Launch) (a : Nat) : Rid × Node :=
  (s.launchPar p l a <|> s.deadParent p l (word (s.num (a + 0x18) 8))).getD (0, rootNode)
def State.launchRid (s : State) (p : PkgId) : Rid := p * 2 ^ 22 + (s.pkg p).nextRid
def State.launchNode (s : State) (p : PkgId) (l : Launch) (a : Nat) : Node :=
  s.nodeAt a l.ptr (s.launchRid p) (s.launchUp p l a).1 (s.launchUp p l a).2 (if l.fromKey.isSome then l.tbase else 0)

/-- The verdict on a launch (R26, R51, R53). -/
def State.verdict (s : State) (p : PkgId) (l : Launch) (a : Nat) : List Upd :=
  let ends := fun st reason done =>
    writeBytes (a + 0x008) (rcbState (s.launchRid p) reason st) ++ writeBytes (a + 0x010) (toBytes 8 done)
  if bits (s.num (a + 0x78) 8) 63 32 != 0 then ends 8 0 4
  else
    match s.launchStopped l (s.launchUp p l a) (s.launchNode p l a), s.refusal p l a (s.launchRid p) (s.launchPar p l a) (s.launchNode p l a) with
    | some x, _ => ends x.1 0 x.2
    | none, some reason => ends 7 reason 3
    | none, none => s.accept p l a (s.launchRid p) (s.launchNode p l a)

section
variable {s : State} {p : Nat} {l : Launch} {q : List Launch} (hq : (s.pkg p).launchQ = l :: q)

theorem validate_bad (h : spaceOf l.ptr ≠ 2 ∨ l.ptr.toNat % 512 ≠ 0 ∨ s.launchAddr p l.part l.ptr = none) :
    s.validate p l = popLaunch p :: (match l.fromKey with
      | some k => notice s (s.domainOf (keyRid k))
      | none => [interrupt p 0]) := by
  have hnone : (if spaceOf l.ptr == 2 && l.ptr.toNat % 512 == 0 then s.launchAddr p l.part l.ptr else none) = none := by
    split
    · next hc =>
      rw [Bool.and_eq_true, beq_iff_eq, beq_iff_eq] at hc
      exact h.elim (absurd hc.1) fun h => h.elim (absurd hc.2) id
    · rfl
  rw [State.validate, hnone]
  rfl

variable {a : Nat} (hsp : spaceOf l.ptr = 2) (hal : l.ptr.toNat % 512 = 0) (ha : s.launchAddr p l.part l.ptr = some a)
include hsp hal ha

theorem validate_live (h : (s.nodeByRcb a).isSome = true) : s.validate p l = [popLaunch p] := by
  rw [State.validate, if_pos (by rw [hsp, hal]; rfl), ha]
  exact if_pos h
theorem validate_fresh (h : s.nodeByRcb a = none) :
    s.validate p l = takeUpds p ++ rcbFresh a (s.launchRid p) ++ s.verdict p l a := by
  rw [State.validate, if_pos (by rw [hsp, hal]; rfl), ha]
  exact if_neg (by rw [h]; exact Bool.false_ne_true)
end


/-- The node of a launch that is accepted. -/
def State.acceptNode (s : State) (p : PkgId) (l : Launch) (a : Nat) (r : Rid) (n : Node) : Node :=
  let table := n.kind == .timetable
  let image := (s.launchAddr p l.part (word (s.num (a + 0x20) 8))).getD 0
  { n with
    st := if table then 2 else 3
    preds := if table then (s.predWords a).filterMap (s.launchAddr p l.part) else []
    image := image
    entries := if table then (List.range n.slots).map (s.imageEntry image) else []
    dieSets := if n.kind == .part then (n.on r).map fun q => (q, s.freeDies q n.dmask) else []
    admitted := if table && n.server.isSome then (n.on r).flatMap fun q => (s.admitPlace r n q).getD [] else []
    readyAt := s.gtc p }

theorem acceptNode_fields (s : State) (p : PkgId) (l : Launch) (a : Nat) (r : Rid) (n : Node) :
    (s.acceptNode p l a r n).st = (if n.kind = .timetable then 2 else 3) ∧ (s.acceptNode p l a r n).rcb = n.rcb ∧
    (s.acceptNode p l a r n).part = n.part ∧ (s.acceptNode p l a r n).parent = n.parent := by
  refine ⟨?_, rfl, rfl, rfl⟩
  show (if n.kind == .timetable then 2 else 3) = _
  simp only [beq_iff_eq]

/-- The state once a post has been taken and its record is fresh. -/
theorem commit_taken {s : State} {p : Nat} {l : Launch} {q : List Launch} (hq : (s.pkg p).launchQ = l :: q) (a : Nat) (r : Rid) :
    ∃ u, s.commit (takeUpds p ++ rcbFresh a r) = u ∧ u = { s with pkgs := u.pkgs, mem := freshMem a r s.mem, dies := u.dies } ∧
    u.pkg p = (s.pkg p).taken q ∧ (∀ x, u.node x = s.node x) ∧ SameButErrors s u := by
  rw [State.commit_append, commit_takeUpds hq]
  have hpkg : (s.withPkg p ((s.pkg p).taken q)).pkg p = (s.pkg p).taken q := withPkg_pkg s p _
  have hv : s.withPkg p ((s.pkg p).taken q) = { s with pkgs := (s.withPkg p ((s.pkg p).taken q)).pkgs } := rfl
  generalize s.withPkg p ((s.pkg p).taken q) = v at *
  obtain ⟨dies, hc, hs⟩ := writesMem_rcbFresh a r v
  have hvd : v.dies = s.dies := by rw [hv]
  have hvm : v.mem = s.mem := by rw [hv]
  have hvn : v.nodes = s.nodes := by rw [hv]
  have hcp : (v.commit (rcbFresh a r)).pkgs = v.pkgs := by rw [hc]
  have hcn : (v.commit (rcbFresh a r)).nodes = v.nodes := by rw [hc]
  refine ⟨_, rfl, ?_, (pkg_of_pkgs hcp p).trans hpkg, node_of_nodes (hcn.trans hvn), (sameButErrors_refl hvd).trans hs⟩
  rw [hc, hvm, hv]

section
variable {s : State} {p : Nat} {l : Launch} {q : List Launch} {a : Nat} (hq : (s.pkg p).launchQ = l :: q)
  (hexec : exec (.launchValidate p) s = .next (s.commit (takeUpds p ++ rcbFresh a (s.launchRid p) ++ s.verdict p l a)))
include hq hexec

/-- A launch that ends at its validation. -/
theorem launch_ends {reason st done : Nat} (hv : s.verdict p l a =
      writeBytes (a + 0x008) (rcbState (s.launchRid p) reason st) ++ writeBytes (a + 0x010) (toBytes 8 done)) :
    ∃ t, exec (.launchValidate p) s = .next t ∧ SameButErrors s t ∧ t = { s.withPkg p ((s.pkg p).taken q) with
      dies := t.dies, mem := endMem a (s.launchRid p) reason st done (freshMem a (s.launchRid p) s.mem) } := by
  rw [hv, List.append_assoc, State.commit_append, commit_takeUpds hq] at hexec
  have hu : SameButErrors s (s.withPkg p ((s.pkg p).taken q)) ∧ (s.withPkg p ((s.pkg p).taken q)).mem = s.mem := ⟨sameButErrors_refl rfl, rfl⟩
  generalize s.withPkg p ((s.pkg p).taken q) = u at *
  obtain ⟨husame, humem⟩ := hu
  obtain ⟨dies, hc, hs⟩ := ((writesMem_rcbFresh a (s.launchRid p)).append (writesMem_ends a (s.launchRid p) reason st done)) u
  refine ⟨_, hexec, husame.trans hs, ?_⟩
  rw [hc, humem]

/-- A launch that is accepted. -/
theorem launch_stands {n : Node} (hv : s.verdict p l a = s.accept p l a (s.launchRid p) n) : ∃ t, exec (.launchValidate p) s = .next t ∧
    t = { s with nodes := t.nodes, pkgs := t.pkgs, mem := t.mem, dies := t.dies } ∧ SameButErrors s t ∧ t.pkg p = (s.pkg p).taken q ∧
    (∀ x, x ≠ s.launchRid p → t.node x = s.node x) ∧ t.node (s.launchRid p) = s.acceptNode p l a (s.launchRid p) n ∧
    t.mem = memWrite (a + 0x008) (rcbState (s.launchRid p) 0 (s.acceptNode p l a (s.launchRid p) n).st) (freshMem a (s.launchRid p) s.mem) := by
  have hacc : s.accept p l a (s.launchRid p) n = .node (s.launchRid p) (fun _ => s.acceptNode p l a (s.launchRid p) n) ::
      writeBytes (a + 0x008) (rcbState (s.launchRid p) 0 (s.acceptNode p l a (s.launchRid p) n).st) := rfl
  obtain ⟨u, hu, hframe, hpkg, hnode, hsame⟩ := commit_taken hq a (s.launchRid p)
  rw [hv, hacc, State.commit_append, hu] at hexec
  generalize s.acceptNode p l a (s.launchRid p) n = m at *
  generalize s.launchRid p = r at *
  obtain ⟨dies, hc, hs, hn⟩ := commit_node_writes (writesMem_writeBytes (a + 0x008) (rcbState r 0 m.st)) u r fun _ => m
  have hum : u.mem = freshMem a r s.mem := by rw [hframe]
  have hcp : (u.commit (.node r (fun _ => m) :: writeBytes (a + 0x008) (rcbState r 0 m.st))).pkgs = u.pkgs := by rw [hc]
  refine ⟨_, hexec, ?_, hsame.trans hs, ?_, fun x hx => ((hn x).trans (if_neg hx)).trans (hnode x), (hn r).trans (if_pos rfl), ?_⟩
  · rw [hc, hframe]
  · exact (pkg_of_pkgs hcp p).trans hpkg
  · rw [hc, hum]

end

section
variable {s : State} {p : Nat} {l : Launch} {a : Nat}

/-- The verdict in each case. -/
theorem verdict_cancelled (h : bits (s.num (a + 0x78) 8) 63 32 ≠ 0) : s.verdict p l a =
    writeBytes (a + 0x008) (rcbState (s.launchRid p) 0 8) ++ writeBytes (a + 0x010) (toBytes 8 4) := if_pos (bne_iff_ne.mpr h)
theorem verdict_of (h : bits (s.num (a + 0x78) 8) 63 32 = 0) : s.verdict p l a =
    match s.launchStopped l (s.launchUp p l a) (s.launchNode p l a), s.refusal p l a (s.launchRid p) (s.launchPar p l a) (s.launchNode p l a) with
    | some x, _ => writeBytes (a + 0x008) (rcbState (s.launchRid p) 0 x.1) ++ writeBytes (a + 0x010) (toBytes 8 x.2)
    | none, some reason => writeBytes (a + 0x008) (rcbState (s.launchRid p) reason 7) ++ writeBytes (a + 0x010) (toBytes 8 3)
    | none, none => s.accept p l a (s.launchRid p) (s.launchNode p l a) := by
  rw [State.verdict, if_neg (by rw [bne_iff_ne, not_not]; exact h)] <;> rfl

variable (h : bits (s.num (a + 0x78) 8) 63 32 = 0)
include h

theorem verdict_stopped {x : Nat × Nat} (hs : s.launchStopped l (s.launchUp p l a) (s.launchNode p l a) = some x) : s.verdict p l a =
    writeBytes (a + 0x008) (rcbState (s.launchRid p) 0 x.1) ++ writeBytes (a + 0x010) (toBytes 8 x.2) := by
  rw [verdict_of h, hs]
theorem verdict_refused (hs : s.launchStopped l (s.launchUp p l a) (s.launchNode p l a) = none) {reason : Nat}
    (hr : s.refusal p l a (s.launchRid p) (s.launchPar p l a) (s.launchNode p l a) = some reason) : s.verdict p l a =
    writeBytes (a + 0x008) (rcbState (s.launchRid p) reason 7) ++ writeBytes (a + 0x010) (toBytes 8 3) := by
  rw [verdict_of h, hs, hr]
theorem verdict_accepted (hs : s.launchStopped l (s.launchUp p l a) (s.launchNode p l a) = none)
    (hr : s.refusal p l a (s.launchRid p) (s.launchPar p l a) (s.launchNode p l a) = none) : s.verdict p l a =
    s.accept p l a (s.launchRid p) (s.launchNode p l a) := by
  rw [verdict_of h, hs, hr]

end

end Sys2Proof.Machine
end

section
open Sys2Proof Sys2Proof.Machine

/-- Settles O56: a launch takes its post and a region identifier, writes a fresh record, and what follows is the verdict on
it. -/
theorem launchesAreValidated : Obligations.LaunchesAreValidated := by
  unfold Obligations.LaunchesAreValidated
  intro s p l q k r hq hup
  refine ⟨exec_launchValidate_kept hq hup, fun ht hbad => ⟨fun hfrom => ?_, fun x hfrom => ?_⟩, fun a ht hsp hal ha => ⟨fun hlive => ?_, fun hfresh => ?_⟩⟩
  · rw [exec_launchValidate hq hup ht, validate_bad hbad, hfrom, State.commit_cons, apply_popLaunch hq]
    exact congrArg Host.Outcome.next (withPkg_apply_pkg s p { k with launchQ := q } fun k => { k with intstat := k.intstat ||| (1#64 <<< 0) })
  · rw [exec_launchValidate hq hup ht, validate_bad hbad, hfrom, State.commit_cons, apply_popLaunch hq]
  · rw [exec_launchValidate hq hup ht, validate_live hsp hal ha hlive]
    exact congrArg Host.Outcome.next (apply_popLaunch hq)
  · have hexec := exec_launchValidate hq hup ht
    rw [validate_fresh hsp hal ha hfresh] at hexec
    have hmem : (s.commit (rcbFresh a (s.launchRid p))).mem = freshMem a (s.launchRid p) s.mem := (writesMem_rcbFresh a (s.launchRid p)).mem s
    have hended : ∀ {reason st done : Nat}, s.verdict p l a =
        writeBytes (a + 0x008) (rcbState (s.launchRid p) reason st) ++ writeBytes (a + 0x010) (toBytes 8 done) → _ :=
      fun hv => launch_ends hq hexec hv
    have hstands := fun hv => launch_stands (n := s.launchNode p l a) hq hexec hv
    rw [← hmem] at hended hstands
    refine ⟨fun hc => hended (verdict_cancelled hc), fun hc => ⟨fun x hx => hended (verdict_stopped hc hx),
      fun hs reason hr => hended (verdict_refused hc hs hr), fun hs hr => ?_⟩⟩
    obtain ⟨t, hexec, ht, hsame, hpkg, hother, hnode, hm⟩ := hstands (verdict_accepted hc hs hr)
    obtain ⟨hst, hrcb, hpart, hparent⟩ := acceptNode_fields s p l a (s.launchRid p) (s.launchNode p l a)
    refine ⟨t, hexec, ht, hsame, hpkg, hother, ?_, ?_, ?_, ?_, ?_⟩
    · exact (congrArg Node.st hnode).trans hst
    · exact (congrArg Node.rcb hnode).trans hrcb
    · exact (congrArg Node.part hnode).trans hpart
    · exact (congrArg Node.parent hnode).trans hparent
    · rw [hm, ← hnode]
      rfl

end

section
/-! SUPPORT. Starts of regions (R36–R40, R44, R45). -/

namespace Sys2Proof.Machine

/-! ## Records -/

theorem memRead_rcbState (a : Nat) (r : Rid) (reason st : Nat) {m : Memory} (h : Memory.wf m = true) :
    memRead (memWrite a (rcbState r reason st) m) a 8 = rcbState r reason st := by
  have hl : (rcbState r reason st).length = 8 := toBytes_length 8 _
  have hm := memRead_memWrite (rcbState r reason st) a h
  rwa [hl] at hm
theorem memRead_toBytes (a n v : Nat) {m : Memory} (h : Memory.wf m = true) : memRead (memWrite a (toBytes n v) m) a n = toBytes n v := by
  have hm := memRead_memWrite (toBytes n v) a h
  rwa [toBytes_length] at hm

/-- STATE of a node, in its field and in its record. -/
theorem commit_setState (s u : State) (hu : u.Canon) (r : Rid) (st : Nat) :
    let t := u.commit (setState s r st)
    (∀ x, t.node x = if x = r then { u.node r with st := st } else u.node x) ∧ t.slots = u.slots ∧ SameButErrors u t ∧
    memRead t.mem ((s.node r).rcb + 0x008) 8 = rcbState r 0 st := by
  intro t
  obtain ⟨dies, ht, hs, hn⟩ := commit_node_writes (writesMem_writeBytes ((s.node r).rcb + 0x008) (rcbState r 0 st)) u r fun n => { n with st := st }
  refine ⟨hn, ?_, hs, ?_⟩
  · rw [show t = _ from ht]
  · rw [show t = _ from ht]
    exact memRead_rcbState _ r 0 st hu.mem

/-- STATE and DONE of a node. -/
theorem commit_setDone (s u : State) (hu : u.Canon) (r : Rid) (reason st done : Nat) :
    let t := u.commit (setDone s r reason st done)
    (∀ x, t.node x = if x = r then { u.node r with st := st, done := done } else u.node x) ∧ t.slots = u.slots ∧ SameButErrors u t ∧
    memRead t.mem ((s.node r).rcb + 0x010) 8 = toBytes 8 done := by
  intro t
  obtain ⟨dies, ht, hs, hn⟩ := commit_node_writes (writesMem_ends (s.node r).rcb r reason st done) u r fun n => { n with st := st, done := done }
  refine ⟨hn, ?_, hs, ?_⟩
  · rw [show t = _ from ht]
  · rw [show t = _ from ht]
    exact memRead_toBytes _ 8 done (wf_memWrite _ _ hu.mem)

/-! ## The start of a gang (R39, R40) -/

/-- A slot that has just started. -/
def Ctx.Begun (r : Rid) (tb : Nat) (c : Ctx) : Prop := c.mode = .run ∧ c.rid = r ∧ c.tbase = tb ∧ c.startAt = tb
/-- A region that has just started. -/
def Begins (r : Rid) (rcb : Nat) (l : List Place) (tb : Nat) (t : State) : Prop :=
  (t.node r).st = 3 ∧ (t.node r).placed = l ∧ (t.node r).tbase = tb ∧ memRead t.mem (rcb + 0x008) 8 = rcbState r 0 3 ∧
  ∀ x ∈ l, (t.slot (slotKey r x.pkg x.slot)).Begun r tb

/-- The node of a gang that has been placed. -/
def Node.placedAt (l : List Place) (tb : Nat) (n : Node) : Node := { n with placed := l, tbase := tb, quantumAt := tb, readyAt := tb, admitted := [] }

section
variable (s : State) (r : Rid) (tb : Nat)

/-- What the start of one slot changes. -/
def State.beginSlot (x : Place) : List Upd :=
  [.slot (slotKey r x.pkg x.slot) (fun _ => s.startCtx r (s.node r) x tb),
     .die (dieId x.pkg x.phys) fun d => { d with run := some (slotKey r x.pkg x.slot) }] ++ s.loadStream r (s.node r) x

theorem startCtx_begun (n : Node) (x : Place) : (s.startCtx r n x tb).Begun r tb := ⟨rfl, rfl, rfl, rfl⟩

theorem commit_beginSlot (u : State) (x : Place) : (u.commit (s.beginSlot r tb x)).nodes = u.nodes ∧
    ∀ k, (u.commit (s.beginSlot r tb x)).slot k = if k = slotKey r x.pkg x.slot then s.startCtx r (s.node r) x tb else u.slot k :=
  ⟨rfl, fun k => State.slot_apply_slot u (slotKey r x.pkg x.slot) k fun _ => s.startCtx r (s.node r) x tb⟩

theorem commit_beginSlots : ∀ (l : List Place) (u : State), (u.commit (l.flatMap (s.beginSlot r tb))).nodes = u.nodes ∧
    ∀ k, (u.slot k).Begun r tb ∨ k ∈ l.map (fun x => slotKey r x.pkg x.slot) → ((u.commit (l.flatMap (s.beginSlot r tb))).slot k).Begun r tb
  | [], u => ⟨rfl, fun k h => h.elim id fun h => absurd h List.not_mem_nil⟩
  | x :: l, u => by
    obtain ⟨hn, hs⟩ := commit_beginSlot s r tb u x
    obtain ⟨hn', hs'⟩ := commit_beginSlots l (u.commit (s.beginSlot r tb x))
    rw [List.flatMap_cons, State.commit_append]
    refine ⟨hn'.trans hn, fun k h => hs' k ?_⟩
    rw [hs k]
    by_cases hk : k = slotKey r x.pkg x.slot
    · rw [if_pos hk]
      exact Or.inl (startCtx_begun s r tb _ x)
    · rw [if_neg hk]
      exact h.imp_right fun h => (List.mem_cons.mp h).resolve_left hk

/-- A change of nodes that leaves a placement and its TBASE. -/
def Upd.KeepsPlaced (u : Upd) : Prop := ∃ v f, u = .node v f ∧ ∀ n, (f n).placed = n.placed ∧ (f n).tbase = n.tbase

theorem commit_keepsPlaced {us : List Upd} (h : ∀ u ∈ us, u.KeepsPlaced) (u : State) : (u.commit us).slots = u.slots ∧
    ((u.commit us).node r).placed = (u.node r).placed ∧ ((u.commit us).node r).tbase = (u.node r).tbase :=
  State.commit_keeps (P := fun t => t.slots = u.slots ∧ (t.node r).placed = (u.node r).placed ∧ (t.node r).tbase = (u.node r).tbase)
    (fun c hc t ⟨hs, hp, ht⟩ => by
      obtain ⟨v, f, rfl, hf⟩ := h c hc
      refine ⟨hs, Eq.trans ?_ hp, Eq.trans ?_ ht⟩
      · rw [State.node_apply_node]
        split
        · next he => exact he ▸ (hf _).1
        · rfl
      · rw [State.node_apply_node]
        split
        · next he => exact he ▸ (hf _).2
        · rfl)
    ⟨rfl, rfl, rfl⟩

theorem startContract_keeps (n : Node) : ∀ u ∈ startContract n r tb, u.KeepsPlaced := by
  rw [startContract]
  cases n.server with
  | none => exact fun _ h => absurd h List.not_mem_nil
  | some v =>
    simp only [List.forall_mem_cons]
    refine ⟨⟨_, _, rfl, fun _ => ⟨rfl, rfl⟩⟩, ⟨_, _, rfl, fun m => ?_⟩, fun _ h => absurd h List.not_mem_nil⟩
    split <;> exact ⟨rfl, rfl⟩

/-- The slots run, the node is placed, and its record says so. -/
theorem start_begins (hc : s.Canon) (l : List Place) : Begins r (s.node r).rcb l tb (s.commit (s.start r l tb)) := by
  have hstart : s.start r l tb = l.flatMap (s.beginSlot r tb) ++ ([.node r (Node.placedAt l tb)] ++
      (startContract (s.node r) r tb ++ setState s r 3)) := by
    simp only [State.start, List.append_assoc]
    rfl
  rw [hstart, State.commit_append, State.commit_append, State.commit_append]
  obtain ⟨-, hslots⟩ := commit_beginSlots s r tb l s
  have hcu : (s.commit (l.flatMap (s.beginSlot r tb))).Canon := Canon.commit hc _
  generalize s.commit (l.flatMap (s.beginSlot r tb)) = u at *
  have hplaced := (State.node_apply_node u r r (Node.placedAt l tb)).trans (if_pos rfl)
  have hvs : (u.commit [.node r (Node.placedAt l tb)]).slots = u.slots := rfl
  have hvp : ((u.commit [.node r (Node.placedAt l tb)]).node r).placed = l :=
    congrArg Node.placed hplaced
  have hvt : ((u.commit [.node r (Node.placedAt l tb)]).node r).tbase = tb :=
    congrArg Node.tbase hplaced
  have hcv := Canon.commit hcu [.node r (Node.placedAt l tb)]
  generalize u.commit [.node r (Node.placedAt l tb)] = v at *
  obtain ⟨hws, hwp, hwt⟩ := commit_keepsPlaced r (startContract_keeps r tb (s.node r)) v
  have hcw := Canon.commit hcv (startContract (s.node r) r tb)
  generalize v.commit (startContract (s.node r) r tb) = w at *
  obtain ⟨hn, hs, -, hm⟩ := commit_setState s w hcw r 3
  have hr := (hn r).trans (if_pos rfl)
  generalize w.commit (setState s r 3) = t at *
  refine ⟨congrArg Node.st hr, (congrArg Node.placed hr).trans (hwp.trans hvp), (congrArg Node.tbase hr).trans (hwt.trans hvt), hm, fun x hx => ?_⟩
  have hslot : t.slot (slotKey r x.pkg x.slot) = u.slot (slotKey r x.pkg x.slot) :=
    congrArg (fun m => mget m (slotKey r x.pkg x.slot) Ctx.blank) (hs.trans (hws.trans hvs))
  rw [hslot]
  exact hslots _ (Or.inr (List.mem_map.mpr ⟨x, hx, rfl⟩))

end

/-! ## Regions that end before they start (R37) -/

/-- A notice leaves the contexts, and of each node all but its count. -/
theorem commit_notice (s u : State) (dom : Rid) : (u.commit (notice s dom)).slots = u.slots ∧
    ∀ r, ∃ k, (u.commit (notice s dom)).node r = { u.node r with fnotice := k } := by
  have hcases : ∀ c ∈ notice s dom, c = .node dom (fun n => { n with fnotice := n.fnotice + 1 }) ∨ ∀ t : State, (t.apply c).slots = t.slots ∧ (t.apply c).nodes = t.nodes := by
    simp only [notice, List.forall_mem_append, List.forall_mem_cons]
    refine ⟨⟨Or.inl trivial, fun c hc => Or.inr ?_⟩, fun c hc => Or.inr ?_⟩
    · rcases List.mem_cons.mp hc with rfl | hc
      · exact fun _ => ⟨rfl, rfl⟩
      · split at hc
        · exact List.mem_singleton.mp hc ▸ fun _ => ⟨rfl, rfl⟩
        · split at hc
          · exact List.mem_singleton.mp hc ▸ fun _ => ⟨rfl, rfl⟩
          · exact absurd hc List.not_mem_nil
    · split at hc
      · exact List.mem_singleton.mp hc ▸ fun _ => ⟨rfl, rfl⟩
      · exact absurd hc List.not_mem_nil
  refine State.commit_keeps (P := fun t => t.slots = u.slots ∧ ∀ r, ∃ k, t.node r = { u.node r with fnotice := k })
    (fun c hc t ⟨hs, hn⟩ => ?_) ⟨rfl, fun r => ⟨(u.node r).fnotice, rfl⟩⟩
  rcases hcases c hc with rfl | hkeep
  · refine ⟨hs, fun r => ?_⟩
    obtain ⟨k, hk⟩ := hn r
    rw [State.node_apply_node]
    split
    · next he => exact ⟨k + 1, by rw [← he, hk]⟩
    · exact ⟨k, hk⟩
  · refine ⟨(hkeep t).1.trans hs, fun r => ?_⟩
    obtain ⟨k, hk⟩ := hn r
    exact ⟨k, (node_of_nodes (hkeep t).2 r).trans hk⟩

theorem neverStarts_ends {s : State} (hc : s.Canon) (r : Rid) (cause : Cause) (addr : Nat) :
    let t := s.commit (s.neverStarts r cause addr)
    (t.node r).st = 6 ∧ (t.node r).done = 2 ∧ t.slots = s.slots := by
  intro t
  have ht : t = ((s.commit (writeBytes ((s.node r).rcb + 0x0D0)
      (faultRecord { Ctx.blank with pkg := ridPkg r, tguard := (s.node r).tguard } (trapAt 0 cause addr) (s.nodeTick r)))).commit (setDone s r 0 6 2)).commit
        (notice s (s.domainOf (s.node r).parent)) := by
    rw [← State.commit_append, ← State.commit_append, ← List.append_assoc]
    rfl
  have hus := commit_aside_slots (writeBytes_aside ((s.node r).rcb + 0x0D0)
    (faultRecord { Ctx.blank with pkg := ridPkg r, tguard := (s.node r).tguard } (trapAt 0 cause addr) (s.nodeTick r))) s
  have hcu := Canon.commit hc (writeBytes ((s.node r).rcb + 0x0D0)
    (faultRecord { Ctx.blank with pkg := ridPkg r, tguard := (s.node r).tguard } (trapAt 0 cause addr) (s.nodeTick r)))
  rw [ht]
  generalize s.commit (writeBytes ((s.node r).rcb + 0x0D0)
      (faultRecord { Ctx.blank with pkg := ridPkg r, tguard := (s.node r).tguard } (trapAt 0 cause addr) (s.nodeTick r))) = u at *
  obtain ⟨hn, hs, -, -⟩ := commit_setDone s u hcu r 0 6 2
  have hr := (hn r).trans (if_pos rfl)
  generalize u.commit (setDone s r 0 6 2) = v at *
  obtain ⟨hs', hn'⟩ := commit_notice s v (s.domainOf (s.node r).parent)
  obtain ⟨k, hk⟩ := hn' r
  exact ⟨(congrArg Node.st hk).trans (congrArg Node.st hr), (congrArg Node.done hk).trans (congrArg Node.done hr), hs'.trans (hs.trans hus)⟩

/-! ## The Milliner's starts -/

/-- A held region whose predecessors are done is ready. -/
theorem ready_of_done {s : State} {r : Nat} (hk : (s.node r).kind = .timetable) (hst : (s.node r).st = 2) (hstart : (s.node r).start = 0)
    (hpred : ∀ d ∈ s.predsDone (s.node r), d = 1) (hh : (s.node r).halting = false) : s.ready r = true := by
  have hall : (s.predsDone (s.node r)).all (· == 1) = true := List.all_eq_true.mpr fun d hd => beq_iff_eq.mpr (hpred d hd)
  simp only [State.ready, hk, hst, hstart, hh, hall, beq_self_eq_true, Bool.not_false, Bool.and_self, if_true, Bool.true_or]

theorem predFailed_of_done {s : State} {r : Nat} (hpred : ∀ d ∈ s.predsDone (s.node r), d = 1) : s.predFailed r = false := by
  have hany : ((s.predsDone (s.node r)).any fun d => 2 ≤ d && d ≤ 4) = false := by
    rw [List.any_eq_false]
    intro d hd
    rw [hpred d hd]
    decide
  rw [State.predFailed, hany, Bool.and_false]

theorem findIdx?_of_done {s : State} {n : Node} (hpred : ∀ d ∈ s.predsDone n, d = 1) : (s.predsDone n).findIdx? (· != 1) = none := by
  rw [List.findIdx?_eq_none_iff]
  intro d hd
  rw [hpred d hd]
  rfl

section
variable {s : State} {r c : Nat} (hc : s.Canon)
  (ht : (s.pkg (ridPkg r)).takeover = false) (hu : (s.pkg (ridPkg r)).up = true)

include ht hu

theorem exec_gangStart {us : List Upd} (h : s.tryStart r c = us) : exec (.gangStart r c) s = .next (s.commit us) :=
  h ▸ milliner_works hu ht _ _

include hc

theorem gangStart_begins {l : List Place} (hk : (s.node r).kind = .timetable) (hst : (s.node r).st = 2) (hstart : (s.node r).start = 0)
    (hpred : ∀ d ∈ s.predsDone (s.node r), d = 1) (hh : (s.node r).halting = false) (hout : s.outranked r = false)
    (hl : s.freePlaces r c (s.keptAhead r) = some l) :
    ∃ t, exec (.gangStart r c) s = .next t ∧ Begins r (s.node r).rcb l (s.soon r) t := by
  refine ⟨_, exec_gangStart ht hu ?_, start_begins s r (s.soon r) hc l⟩
  simp only [State.tryStart, hst, hk, predFailed_of_done hpred, ready_of_done hk hst hstart hpred hh, hout, hl, bne_self_eq_false, Bool.or_self,
    Bool.false_eq_true, if_false, Bool.not_true]

theorem gangStart_refuses {d : Nat} (hk : (s.node r).kind = .timetable) (hst : (s.node r).st = 2) (hstart : (s.node r).start = 0) (hd : d ∈ s.predsDone (s.node r))
    (h2 : 2 ≤ d) (h4 : d ≤ 4) : ∃ t, exec (.gangStart r c) s = .next t ∧
      ((t.node r).st = 7 ∧ (t.node r).done = 3 ∧ t.slots = s.slots) ∧ memRead t.mem ((s.node r).rcb + 0x010) 8 = toBytes 8 3 := by
  have hfail : s.predFailed r = true := by
    have hany : ((s.predsDone (s.node r)).any fun d => 2 ≤ d && d ≤ 4) = true := List.any_eq_true.mpr ⟨d, hd, by simp [h2, h4]⟩
    rw [State.predFailed, hk, hst, hstart, hany]
    rfl
  obtain ⟨hn, hs, -, hm⟩ := commit_setDone s s hc r 0x0B 7 3
  have hr := (hn r).trans (if_pos rfl)
  refine ⟨_, exec_gangStart ht hu ?_, ⟨congrArg Node.st hr, congrArg Node.done hr, hs⟩, hm⟩
  simp only [State.tryStart, hst, hk, hfail, bne_self_eq_false, Bool.or_self, Bool.false_eq_true, if_false, if_true]

theorem dispatch_begins {l : List Place} (hst : (s.node r).st = 2) 
    (hhead : (s.byRank (s.rids.filter s.ready)).head? = some r) (hon : ((s.node r).on r).contains (ridPkg r) = true)
    (hl : s.freePlaces r c = some l) : ∃ t, exec (.dispatch (ridPkg r) c) s = .next t ∧ Begins r (s.node r).rcb l (s.soon r) t := by
  obtain ⟨rest, hrest⟩ : ∃ rest, s.byRank (s.rids.filter s.ready) = r :: rest := by
    cases hb : s.byRank (s.rids.filter s.ready) with
    | nil => rw [hb] at hhead; exact absurd hhead (Option.some_ne_none r).symm
    | cons v rest => rw [hb] at hhead; exact ⟨rest, by rw [Option.some.inj hhead]⟩
  have hupds : s.dispatchUpds (ridPkg r) c = s.start r l (s.soon r) := by
    rw [State.dispatchUpds, hrest, State.dispatchFrom, hon, hl]
    simp only [hst, Bool.not_true, Bool.false_eq_true, if_false]
    rfl
  refine ⟨_, milliner_works hu ht _ _, ?_⟩
  rw [hupds, State.commit_append]
  exact start_begins s r (s.soon r) hc l

/-- The node of a region whose start tick has come. -/
def Node.dueNow (tick : Nat) (n : Node) : Node := { n with due := true, readyAt := tick }

omit hc in
theorem exec_startTick (hdue : s.startTickDue r = true) : exec (.startTick r c) s = .next (s.commit
    (match (s.predsDone (s.node r)).findIdx? (· != 1) with
     | some i => s.neverStarts r .predecessorLate (at0 (s.predWords (s.node r).rcb) i 0).toNat
     | none =>
       if (s.node r).start + (s.node r).tguard < s.gangTick r then s.neverStarts r .startLate (s.node r).start else
       match (if (s.apply (.node r (Node.dueNow (s.nodeTick r)))).outranked r then none
          else (s.apply (.node r (Node.dueNow (s.nodeTick r)))).freePlaces r c ((s.apply (.node r (Node.dueNow (s.nodeTick r)))).keptAhead r)) with
       | some l => .node r (Node.dueNow (s.nodeTick r)) :: (s.apply (.node r (Node.dueNow (s.nodeTick r)))).start r l
          (if s.gangTick r <= (s.node r).start + 1 then (s.node r).start else s.soon r)
       | none => [.node r (Node.dueNow (s.nodeTick r))])) := by
  have hexec : exec (.startTick r c) s = s.milliner (ridPkg r) (.startTick r c) _ := if_neg (by rw [hdue]; exact Bool.false_ne_true)
  rw [hexec, milliner_works hu ht]
  rfl

theorem startTick_begins {l : List Place} (hdue : s.startTickDue r = true) (hpred : ∀ d ∈ s.predsDone (s.node r), d = 1)
    (hout : (s.apply (.node r (Node.dueNow (s.nodeTick r)))).outranked r = false)
    (hl : (s.apply (.node r (Node.dueNow (s.nodeTick r)))).freePlaces r c ((s.apply (.node r (Node.dueNow (s.nodeTick r)))).keptAhead r) = some l)
    (h1 : s.gangTick r ≤ (s.node r).start + 1) (hg : s.gangTick r ≤ (s.node r).start + (s.node r).tguard) :
    ∃ t, exec (.startTick r c) s = .next t ∧ Begins r (s.node r).rcb l (s.node r).start t := by
  have hexec := exec_startTick (c := c) ht hu hdue
  rw [findIdx?_of_done hpred, hout, if_neg (by omega), if_neg Bool.false_ne_true, hl, if_pos h1] at hexec
  have hb := start_begins (s.apply (.node r (Node.dueNow (s.nodeTick r)))) r (s.node r).start (Canon.apply hc _) l
  have hn := (State.node_apply_node s r r (Node.dueNow (s.nodeTick r))).trans (if_pos rfl)
  have hrcb : ((s.apply (.node r (Node.dueNow (s.nodeTick r)))).node r).rcb = (s.node r).rcb := by
    rw [hn]
    rfl
  rw [hrcb] at hb
  exact ⟨_, hexec, hb⟩

theorem startTick_late (hdue : s.startTickDue r = true)
    (h : (∃ d ∈ s.predsDone (s.node r), d ≠ 1) ∨ (s.node r).start + (s.node r).tguard < s.gangTick r) :
    ∃ t, exec (.startTick r c) s = .next t ∧ (t.node r).st = 6 ∧ (t.node r).done = 2 ∧ t.slots = s.slots := by
  have hexec := exec_startTick (c := c) ht hu hdue
  cases hi : (s.predsDone (s.node r)).findIdx? (· != 1) with
  | some i =>
    rw [hi] at hexec
    exact ⟨_, hexec, neverStarts_ends hc r _ _⟩
  | none =>
    rw [List.findIdx?_eq_none_iff] at hi
    have hlate : (s.node r).start + (s.node r).tguard < s.gangTick r := h.resolve_left fun ⟨d, hd, hne⟩ =>
      hne (by simpa using hi d hd)
    rw [List.findIdx?_eq_none_iff.mpr hi, if_pos hlate] at hexec
    exact ⟨_, hexec, neverStarts_ends hc r _ _⟩

theorem startLate_ends (hdue : s.startLateDue r = true) :
    ∃ t, exec (.startLate r) s = .next t ∧ (t.node r).st = 6 ∧ (t.node r).done = 2 ∧ t.slots = s.slots :=
  ⟨_, (if_pos hdue).trans (milliner_works hu ht _ _), neverStarts_ends hc r _ _⟩

end

end Sys2Proof.Machine
end

section
open Sys2Proof Sys2Proof.Machine

/-- Settles O57: every start is one and the same change, and every end before a start too. -/
theorem regionsStart : Obligations.RegionsStart := by
  unfold Obligations.RegionsStart
  intro s r c n running ends hc hk ht hu
  exact ⟨fun l hst hstart hpred hh hout hl => gangStart_begins hc ht hu hk hst hstart hpred hh hout hl,
    fun l hst hstart hh hpred hhead hon hl => dispatch_begins hc ht hu hst hhead hon hl,
    fun d hst hstart hd h2 h4 => gangStart_refuses hc ht hu hk hst hstart hd h2 h4,
    fun l hdue hpred hout hl h1 hg => startTick_begins hc ht hu hdue hpred hout hl h1 hg,
    fun hdue hpred => startTick_late hc ht hu hdue (Or.inl hpred),
    fun hdue hlate => startTick_late hc ht hu hdue (Or.inr hlate),
    fun hdue => startLate_ends hc ht hu hdue⟩

end

section
/-! SUPPORT. Contracts and quanta (R42–R44). -/

namespace Sys2Proof.Machine

section
variable {s : State} {r : Nat} (hc : s.Canon) (ht : (s.pkg (ridPkg r)).takeover = false) (hu : (s.pkg (ridPkg r)).up = true)

/-! ## Periods (R42, R43) -/

/-- What a period start makes of its server's node. -/
def Node.nextPeriod (late : Bool) (n m : Node) : Node :=
  { m with
    nextAt := n.nextAt + n.period, dueAt := n.nextAt + n.deadline
    used := if late then m.used.map fun e => (e.1, e.2 - n.budget) else [] }
/-- What it makes of a region under the contract. -/
def Node.nextActivation (tick : Nat) (m : Node) : Node :=
  if m.active then { m with spent := false, missed := false }
  else if m.st == 4 then { m with active := true, spent := false, missed := false, newAct := true, readyAt := tick }
  else m

theorem nextActivation_keeps (tick : Nat) (m : Node) : (m.nextActivation tick).nextAt = m.nextAt ∧ (m.nextActivation tick).dueAt = m.dueAt ∧
    (m.nextActivation tick).used = m.used := by
  unfold Node.nextActivation
  split
  · exact ⟨rfl, rfl, rfl⟩
  · split <;> exact ⟨rfl, rfl, rfl⟩
theorem nextActivation_active (tick : Nat) {m : Node} (h : m.active = true ∨ m.st = 4) : (m.nextActivation tick).active = true ∧
    (m.nextActivation tick).spent = false ∧ (m.nextActivation tick).missed = false := by
  unfold Node.nextActivation
  split
  · next ha => exact ⟨ha, rfl, rfl⟩
  · next ha =>
    rw [if_pos (beq_iff_eq.mpr (h.resolve_left ha))]
    exact ⟨rfl, rfl, rfl⟩
theorem nextActivation_begins (tick : Nat) {m : Node} (ha : m.active = false) (h : m.st = 4) : (m.nextActivation tick).newAct = true := by
  rw [Node.nextActivation, ha, if_neg Bool.false_ne_true, if_pos (beq_iff_eq.mpr h)]
theorem nextActivation_none (tick : Nat) {m : Node} (ha : m.active = false) (h : m.st ≠ 4) : (m.nextActivation tick).active = false := by
  rw [Node.nextActivation, ha, if_neg Bool.false_ne_true, if_neg (by simpa only [beq_iff_eq] using h), ha]

/-- The changes of a period start. -/
def State.periodUpds (s : State) (r : Rid) : List Upd :=
  .node r (fun m => (s.node r).nextPeriod ((s.under r).any fun v => (s.node v).active) m) ::
    (s.under r).map fun v => .node v (Node.nextActivation (s.node r).nextAt)

theorem node_periodUpds {s : State} (hc : s.Canon) (r x : Rid) : (s.commit (s.periodUpds r)).node x =
    if x ∈ s.under r then ((s.apply (.node r (Node.nextPeriod ((s.under r).any fun v => (s.node v).active) (s.node r)))).node x).nextActivation (s.node r).nextAt
    else (s.apply (.node r (Node.nextPeriod ((s.under r).any fun v => (s.node v).active) (s.node r)))).node x := by
  have hmap := node_commit_map (fun _ => Node.nextActivation (s.node r).nextAt)
    (s.nodes.filter fun e => e.2.server == some r && e.2.kind == .timetable && e.2.done == 0)
    (s.apply (.node r (Node.nextPeriod ((s.under r).any fun v => (s.node v).active) (s.node r)))) (keysFrom_nodup_filter hc.nodes _) x
  refine Eq.trans (congrArg (State.node · x) ?_) hmap
  rw [State.periodUpds, State.commit_cons, State.under, List.map_map]
  rfl

include ht hu in
theorem exec_periodStart (hdue : s.periodDue r = true) : exec (.periodStart r) s = .next (s.commit (s.periodUpds r)) := by
  have hexec : exec (.periodStart r) s = s.milliner (ridPkg r) (.periodStart r) _ := if_neg (by rw [hdue]; exact Bool.false_ne_true)
  rw [hexec, milliner_works hu ht]
  rfl

include hc ht hu

theorem period_starts (hdue : s.periodDue r = true) : ∃ t, exec (.periodStart r) s = .next t ∧ t = { s with nodes := t.nodes } ∧
    (t.node r).nextAt = (s.node r).nextAt + (s.node r).period ∧ (t.node r).dueAt = (s.node r).nextAt + (s.node r).deadline ∧
    ((∀ v ∈ s.under r, (s.node v).active = false) → (t.node r).used = []) ∧
    ∀ v ∈ s.under r,
      ((s.node v).active = true ∨ (s.node v).st = 4 →
        (t.node v).active = true ∧ (t.node v).spent = false ∧ (t.node v).missed = false) ∧
      ((s.node v).active = false → (s.node v).st = 4 → (t.node v).newAct = true) ∧
      ((s.node v).active = false → (s.node v).st ≠ 4 → (t.node v).active = false) := by
  refine ⟨_, exec_periodStart ht hu hdue, ?_, ?_⟩
  · refine State.commit_keeps (P := fun t => t = { s with nodes := t.nodes }) (fun c hc t h => ?_) rfl
    rcases List.mem_cons.mp hc with rfl | hc
    · rw [h]
      rfl
    · obtain ⟨v, -, rfl⟩ := List.mem_map.mp hc
      rw [h]
      rfl
  have hnode := node_periodUpds hc r
  generalize hlate : ((s.under r).any fun v => (s.node v).active) = late at *
  generalize s.commit (s.periodUpds r) = t at *
  have hown : ∀ x, (s.apply (.node r (Node.nextPeriod late (s.node r)))).node x = if x = r then (s.node r).nextPeriod late (s.node r) else s.node x :=
    fun x => State.node_apply_node s r x _
  have hr : (t.node r).nextAt = (s.node r).nextAt + (s.node r).period ∧ (t.node r).dueAt = (s.node r).nextAt + (s.node r).deadline ∧
      (t.node r).used = ((s.node r).nextPeriod late (s.node r)).used := by
    rw [hnode r, hown r, if_pos rfl]
    split
    · obtain ⟨h1, h2, h3⟩ := nextActivation_keeps (s.node r).nextAt ((s.node r).nextPeriod late (s.node r))
      exact ⟨h1, h2, h3⟩
    · exact ⟨rfl, rfl, rfl⟩
  obtain ⟨hnext, hdueAt, hused⟩ := hr
  refine ⟨hnext, hdueAt, fun hnone => hused.trans ?_, fun v hv => ?_⟩
  · have hl : late = false := by
      rw [← hlate, List.any_eq_false]
      exact fun v hv => by rw [hnone v hv]; exact Bool.false_ne_true
    rw [hl]
    rfl
  · have hv' : ∃ m : Node, t.node v = m.nextActivation (s.node r).nextAt ∧ m.active = (s.node v).active ∧ m.st = (s.node v).st := by
      refine ⟨_, (hnode v).trans (if_pos hv), ?_⟩
      rw [hown v]
      split
      · next h => exact h ▸ ⟨rfl, rfl⟩
      · exact ⟨rfl, rfl⟩
    obtain ⟨m, hm, hact, hst⟩ := hv'
    rw [hm, ← hact, ← hst]
    exact ⟨nextActivation_active _, nextActivation_begins _, nextActivation_none _⟩

/-! ## Budgets, deadlines, quanta (R43, R44) -/

omit hc in
theorem budget_exhausts (hdue : s.budgetDue r = true) : ∃ t, exec (.budgetExhausted r) s = .next t ∧
    t = { s with nodes := t.nodes, mem := memWrite ((s.node r).rcb + 0x100) (toBytes 4 (((s.node r).bover + 1) % 2 ^ 32)) s.mem, dies := t.dies } ∧
    SameButErrors s t ∧
    t.node r = { s.node r with spent := true, bover := ((s.node r).bover + 1) % 2 ^ 32, quantumAt := s.nodeTick r } := by
  have hexec : exec (.budgetExhausted r) s = s.milliner (ridPkg r) (.budgetExhausted r) _ := if_neg (by rw [hdue]; exact Bool.false_ne_true)
  rw [milliner_works hu ht] at hexec
  obtain ⟨dies, hcm, hs, hn⟩ := commit_node_writes (writesMem_writeBytes ((s.node r).rcb + 0x100) (toBytes 4 (((s.node r).bover + 1) % 2 ^ 32))) s r
    fun n => { n with spent := true, bover := ((s.node r).bover + 1) % 2 ^ 32, quantumAt := s.nodeTick r }
  refine ⟨_, hexec, ?_, hs, (hn r).trans (if_pos rfl)⟩
  rw [hcm]

/-- A node whose deadline is missed; one whose quantum has run out, or begins again. -/
def Node.misses (d : Nat) (n : Node) : Node := { n with missed := true, dmiss := d }
def Node.expires (tick : Nat) (n : Node) : Node := { n with stopping := some tick, expired := true }
def Node.requantum (tick : Nat) (n : Node) : Node := { n with quantumAt := tick }

/-- The state with one node changed. -/
def State.withNode (s : State) (r : Rid) (n : Node) : State := { s with nodes := mput r n s.nodes }

omit hc in
theorem deadline_misses (hdue : s.deadlineDue r = true) : ∃ t, exec (.deadlineMiss r) s = .next t ∧ (t.node r).missed = true ∧
    (t.node r).dmiss = ((s.node r).dmiss + 1) % 2 ^ 32 ∧ (t.node r).st = (s.node r).st ∧ t.slots = s.slots := by
  have hexec : exec (.deadlineMiss r) s = s.milliner (ridPkg r) (.deadlineMiss r)
      ((.node r (Node.misses (((s.node r).dmiss + 1) % 2 ^ 32)) :: writeBytes ((s.node r).rcb + 0x108) (toBytes 4 (((s.node r).dmiss + 1) % 2 ^ 32))) ++
        notice s (s.domainOf r)) := if_neg (by rw [hdue]; exact Bool.false_ne_true)
  rw [milliner_works hu ht, State.commit_append] at hexec
  obtain ⟨dies, hcm, -, hn⟩ := commit_node_writes (writesMem_writeBytes ((s.node r).rcb + 0x108) (toBytes 4 (((s.node r).dmiss + 1) % 2 ^ 32))) s r
    (Node.misses (((s.node r).dmiss + 1) % 2 ^ 32))
  have hr := (hn r).trans (if_pos rfl)
  have hslots := congrArg State.slots hcm
  refine ⟨_, hexec, ?_⟩
  generalize s.commit (.node r (Node.misses (((s.node r).dmiss + 1) % 2 ^ 32)) ::
    writeBytes ((s.node r).rcb + 0x108) (toBytes 4 (((s.node r).dmiss + 1) % 2 ^ 32))) = u at *
  obtain ⟨hs, hnode⟩ := commit_notice s u (s.domainOf r)
  obtain ⟨k, hk⟩ := hnode r
  rw [hk, hr]
  exact ⟨rfl, rfl, rfl, hs.trans hslots⟩

omit hc in
theorem quantum_expires (hdue : s.quantumDue r = true) : exec (.quantumExpiry r) s = .next (s.withNode r
    (if s.rids.any fun v => v != r && s.ready v && s.wants v r && !s.preempts r v then (s.node r).expires (s.soon r)
     else (s.node r).requantum (s.nodeTick r))) := by
  have hexec : exec (.quantumExpiry r) s = s.milliner (ridPkg r) (.quantumExpiry r) _ := if_neg (by rw [hdue]; exact Bool.false_ne_true)
  rw [hexec, milliner_works hu ht]
  rfl

end

end Sys2Proof.Machine
end

section
open Sys2Proof Sys2Proof.Machine

/-- Settles O58: a period start changes its server's node, and each region under the contract once. -/
theorem contractsAndQuanta : Obligations.ContractsAndQuanta := by
  unfold Obligations.ContractsAndQuanta
  intro s r hc ht hu n
  refine ⟨period_starts hc ht hu, budget_exhausts ht hu, deadline_misses ht hu, fun hdue => ?_⟩
  intro waits becomes
  have hw : (s.rids.any fun v => v != r && s.ready v && s.wants v r && !s.preempts r v) = true ↔ waits := by
    rw [List.any_eq_true]
    simp only [Bool.and_eq_true, bne_iff_ne, Bool.not_eq_true', and_assoc]
    exact Iff.rfl
  have hexec := quantum_expires ht hu hdue
  refine ⟨fun h => ?_, fun h => ?_⟩
  · rw [if_pos (hw.mpr h)] at hexec
    exact hexec
  · rw [if_neg fun hb => h (hw.mp hb)] at hexec
    exact hexec

end

section
/-! SUPPORT. Stops, resumption, ends and cancellations of regions (R33, R34, R46, R53, R252, R253). -/

namespace Sys2Proof.Machine

/-! ## A slot that stops (R252) -/

theorem abandonSteps_eq (s : State) (c : Ctx) : ∃ m land q, c.abandonSteps s = { c with matrix := m, land := land, nextSeq := q } := by
  unfold Ctx.abandonSteps
  dsimp only
  rw [pushAll_eq]
  exact ⟨_, _, _, rfl⟩

/-- A slot that stops, not at a YIELD. -/
def Ctx.parked (s : State) (tick : Nat) (c : Ctx) : Ctx := (c.abandonSteps s).stop tick false

/-- What a stop leaves of a slot that runs. -/
theorem parked_fields (s : State) (tick : Nat) {c : Ctx} (h : c.mode = .run) :
    (c.parked s tick).mode = .stopped ∧ (c.parked s tick).pc = c.pc ∧ (c.parked s tick).die = c.die ∧ SameRegisters c (c.parked s tick) := by
  obtain ⟨m, land, q, he⟩ := abandonSteps_eq s c
  rw [Ctx.parked, he]
  refine ⟨?_, rfl, rfl, ⟨rfl, rfl, rfl, rfl, rfl⟩⟩
  show (if c.mode == .ended then Mode.ended else .stopped) = .stopped
  rw [h]
  rfl

/-- A change that leaves memory, the contexts, the dies, and of the nodes all but their YIELDs. -/
def Upd.AsideStop (u : Upd) : Prop := ∀ t : State, (t.apply u).slots = t.slots ∧ (t.apply u).dies = t.dies ∧
  ∀ r, ∃ y, (t.apply u).node r = { t.node r with yieldS := y }

theorem commit_asideStop {us : List Upd} (h : ∀ u ∈ us, u.AsideStop) (t : State) : (t.commit us).slots = t.slots ∧ (t.commit us).dies = t.dies ∧
    ∀ r, ∃ y, (t.commit us).node r = { t.node r with yieldS := y } :=
  State.commit_keeps (P := fun t' => t'.slots = t.slots ∧ t'.dies = t.dies ∧ ∀ r, ∃ y, t'.node r = { t.node r with yieldS := y })
    (fun u hu t' ⟨hs, hd, hn⟩ => by
      obtain ⟨hs', hd', hn'⟩ := h u hu t'
      refine ⟨hs'.trans hs, hd'.trans hd, fun r => ?_⟩
      obtain ⟨y, hy⟩ := hn r
      obtain ⟨y', hy'⟩ := hn' r
      exact ⟨y', by rw [hy', hy]⟩)
    ⟨rfl, rfl, fun r => ⟨(t.node r).yieldS, rfl⟩⟩

theorem asideStop_of_nodes {u : Upd} (h : ∀ t : State, (t.apply u).slots = t.slots ∧ (t.apply u).dies = t.dies ∧ (t.apply u).nodes = t.nodes) : u.AsideStop := fun t => by
  obtain ⟨hs, hd, hn⟩ := h t
  exact ⟨hs, hd, fun r => ⟨(t.node r).yieldS, node_of_nodes hn r⟩⟩

/-- What a stop changes beside its slot and its die. -/
def State.stopBeside (s : State) (k : SlotKey) : List Upd :=
  dropAsked s k ++ (if (s.node (s.slot k).rid).forced then overrunUpds s (· == k) else []) ++ [(s.slot k).unyield]

theorem overrunUpds_aside (s : State) (of : SlotKey → Bool) : ∀ u ∈ overrunUpds s of, u.AsideStop := by
  intro u hu
  obtain ⟨e, -, rfl⟩ := List.mem_map.mp hu
  exact asideStop_of_nodes fun _ => ⟨rfl, rfl, rfl⟩

theorem stopBeside_aside (s : State) (k : SlotKey) : ∀ u ∈ s.stopBeside k, u.AsideStop := by
  simp only [State.stopBeside, List.forall_mem_append, List.forall_mem_singleton]
  refine ⟨⟨fun u hu => ?_, ?_⟩, fun t => ⟨rfl, rfl, fun r => ?_⟩⟩
  · obtain ⟨q, -, rfl⟩ := List.mem_map.mp hu
    exact asideStop_of_nodes fun _ => ⟨rfl, rfl, rfl⟩
  · split
    · exact overrunUpds_aside s _
    · exact fun _ h => absurd h List.not_mem_nil
  · rw [Ctx.unyield, State.node_apply_node]
    split
    · next h => exact h ▸ ⟨_, rfl⟩
    · exact ⟨(t.node r).yieldS, rfl⟩

/-- A die whose slot has stopped. -/
def Die.parked (k : SlotKey) (d : Die) : Die := { d with run := none, shadow := d.shadow ++ [k] }

theorem stopSlot_eq {s : State} {k : SlotKey} (hm : (s.slot k).mode = .run) (hl : (s.slot k).land = []) : s.stopSlot false k =
    s.stopBeside k ++ [.slot k (Ctx.parked s (s.dieTick (s.slot k).die)), .die (s.slot k).die (Die.parked k)] := by
  have hdrain : ∀ n, drainUpdsFrom k n s = [] := fun n => by
    cases n with
    | zero => rfl
    | succ n =>
      rw [drainUpdsFrom, hl]
      rfl
  have hrun : ((s.slot k).mode == .run) = true := by rw [hm]; rfl
  simp only [State.stopSlot, hdrain, hrun, State.stopBeside, if_true, State.commit_nil, List.nil_append, List.append_assoc]
  rfl

/-- The state once a slot has stopped. -/
theorem commit_stopSlot {s : State} {k : SlotKey} (hm : (s.slot k).mode = .run) (hl : (s.slot k).land = []) :
    let v := s.commit (s.stopSlot false k)
    v.slot k = (s.slot k).parked s (s.dieTick (s.slot k).die) ∧
    v.die (s.slot k).die = (s.die (s.slot k).die).parked k ∧ ∀ r, ∃ y, v.node r = { s.node r with yieldS := y } := by
  intro v
  obtain ⟨hs, hd, hn⟩ := commit_asideStop (stopBeside_aside s k) s
  have hv : v = ((s.commit (s.stopBeside k)).apply (.slot k (Ctx.parked s (s.dieTick (s.slot k).die)))).apply
      (.die (s.slot k).die (Die.parked k)) := by
    show s.commit (s.stopSlot false k) = _
    rw [stopSlot_eq hm hl, State.commit_append]
    rfl
  rw [hv]
  generalize s.commit (s.stopBeside k) = u at *
  have hsu : u.slot k = s.slot k := congrArg (fun m => mget m k Ctx.blank) hs
  have hdu : u.die (s.slot k).die = s.die (s.slot k).die := congrArg (fun m => mget m (s.slot k).die Die.blank) hd
  refine ⟨?_, ?_, hn⟩
  · have h := (State.slot_apply_slot u k k (Ctx.parked s (s.dieTick (s.slot k).die))).trans (if_pos rfl)
    rw [hsu] at h
    exact h
  · have h := (State.die_apply_die (u.apply (.slot k (Ctx.parked s (s.dieTick (s.slot k).die)))) (s.slot k).die (s.slot k).die (Die.parked k)).trans (if_pos rfl)
    exact h.trans (congrArg (Die.parked k) hdu)

/-! ## A gang of one slot that is pre-empted (R252) -/

/-- The node of a region that has stopped. -/
def Node.preempted (tick ready : Nat) (n : Node) : Node :=
  { n with stopping := none, stopWin := false, forced := false, expired := false, stopTick := tick, readyAt := ready }

theorem commit_becomeStopped {v : State} (hv : v.Canon) (r : Rid) (tick : Nat) :
    let t := v.commit (becomeStopped v r tick)
    (t.node r).st = 4 ∧ (t.node r).stopping = none ∧ t.slots = v.slots ∧ SameButErrors v t ∧ memRead t.mem ((v.node r).rcb + 0x008) 8 = rcbState r 0 4 := by
  intro t
  have ht : t = (v.apply (.node r (Node.preempted tick (v.nodeTick r)))).commit (setState v r 4) := rfl
  obtain ⟨hn, hs, hd, hm⟩ := commit_setState v (v.apply (.node r (Node.preempted tick (v.nodeTick r)))) (Canon.apply hv _) r 4
  rw [← ht] at hn hs hd hm
  have hr := (hn r).trans (if_pos rfl)
  have hown := (State.node_apply_node v r r (Node.preempted tick (v.nodeTick r))).trans (if_pos rfl)
  rw [hown] at hr
  exact ⟨congrArg Node.st hr, congrArg Node.stopping hr, hs, (sameButErrors_refl rfl).trans hd, hm⟩

section
variable {s : State} {r : Nat}

/-- The stop that the last slot of a gang of one completes. -/
theorem exec_preemptStop_one {x : Place} (hp : (s.node r).placed = [x]) (hst : (s.node r).st = 3) (hh : (s.node r).halting = false)
    (ht : (s.pkg (ridPkg r)).takeover = false) (hu : (s.pkg (ridPkg r)).up = true)
    (hm : (s.slot (slotKey r x.pkg x.slot)).mode = .run) (hd : s.defers r (s.node r) = false)
    (hnow : s.stopsNow (s.node r) (slotKey r x.pkg x.slot) = true) :
    exec (.preemptStop r) s = .next ((s.commit (s.stopSlot false (slotKey r x.pkg x.slot))).commit
      (if (s.commit (s.stopSlot false (slotKey r x.pkg x.slot))).allStopped r (s.node r)
       then becomeStopped (s.commit (s.stopSlot false (slotKey r x.pkg x.slot))) r ((s.node r).stopping.getD 0) else [])) := by
  have hkeys : (s.node r).keys r = [slotKey r x.pkg x.slot] := by rw [Node.keys, hp]; rfl
  have hyield : s.gangYielded r (s.node r) = false := by
    rw [State.gangYielded, hkeys, List.any_cons, hm]
    simp
  have hdue : s.preemptDue r = true := by
    simp only [State.preemptDue, hst, hh, hkeys, List.any_cons, hnow, beq_self_eq_true, Bool.not_false, Bool.true_and, Bool.true_or, Bool.or_true]
  have hbegun : s.stopBegun (s.node r) r = false := by
    rw [State.stopBegun, hkeys, List.any_cons, hm]
    simp
  show execPreemptStop r s = _
  rw [execPreemptStop]
  simp only [hdue, hyield, hd, hbegun, hkeys, Bool.not_true, Bool.false_eq_true, if_false]
  rw [milliner_works hu ht, commit_seqUpds]
  simp only [List.map_cons, List.map_nil, List.cons_append, List.nil_append, List.foldl_cons, List.foldl_nil, hnow, if_true]

/-- What it leaves. -/
theorem preempts_one {x : Place} (hc : s.Canon) (hp : (s.node r).placed = [x])
    (hm : (s.slot (slotKey r x.pkg x.slot)).mode = .run) (hl : (s.slot (slotKey r x.pkg x.slot)).land = [])
    (hexec : exec (.preemptStop r) s = .next ((s.commit (s.stopSlot false (slotKey r x.pkg x.slot))).commit
      (if (s.commit (s.stopSlot false (slotKey r x.pkg x.slot))).allStopped r (s.node r)
       then becomeStopped (s.commit (s.stopSlot false (slotKey r x.pkg x.slot))) r ((s.node r).stopping.getD 0) else []))) :
    ∃ t, exec (.preemptStop r) s = .next t ∧ (t.node r).st = 4 ∧ (t.node r).stopping = none ∧
      (t.slot (slotKey r x.pkg x.slot)).mode = .stopped ∧ (t.slot (slotKey r x.pkg x.slot)).pc = (s.slot (slotKey r x.pkg x.slot)).pc ∧
      SameRegisters (s.slot (slotKey r x.pkg x.slot)) (t.slot (slotKey r x.pkg x.slot)) ∧ (t.die (s.slot (slotKey r x.pkg x.slot)).die).run = none ∧
      slotKey r x.pkg x.slot ∈ (t.die (s.slot (slotKey r x.pkg x.slot)).die).shadow ∧ memRead t.mem ((s.node r).rcb + 0x008) 8 = rcbState r 0 4 := by
  have hkeys : (s.node r).keys r = [slotKey r x.pkg x.slot] := by rw [Node.keys, hp]; rfl
  generalize slotKey r x.pkg x.slot = k at *
  obtain ⟨hslot, hdie, hnode⟩ := commit_stopSlot hm hl
  obtain ⟨hmode, hpc, hcd, hregs⟩ := parked_fields s (s.dieTick (s.slot k).die) hm
  have hcv := Canon.commit hc (s.stopSlot false k)
  generalize s.commit (s.stopSlot false k) = v at *
  generalize (s.slot k).parked s (s.dieTick (s.slot k).die) = c' at *
  have hall : v.allStopped r (s.node r) = true := by
    rw [State.allStopped, hkeys, List.all_cons, hslot, hcd, hdie]
    rfl
  rw [hall, if_pos rfl] at hexec
  obtain ⟨y, hy⟩ := hnode r
  obtain ⟨hst, hstop, hs, hd, hmem⟩ := commit_becomeStopped hcv r ((s.node r).stopping.getD 0)
  have hrcb : (v.node r).rcb = (s.node r).rcb := by rw [hy]
  rw [hrcb] at hmem
  refine ⟨_, hexec, hst, hstop, ?_⟩
  generalize v.commit (becomeStopped v r ((s.node r).stopping.getD 0)) = t at *
  have htk : t.slot k = c' := (congrArg (fun m => mget m k Ctx.blank) hs).trans hslot
  have htd := hd (s.slot k).die
  rw [hdie] at htd
  rw [htk]
  refine ⟨hmode, hpc, hregs, ?_, ?_, hmem⟩
  · rw [htd]
    rfl
  · rw [htd]
    exact List.mem_append_right _ (List.mem_singleton.mpr rfl)

end

/-! ## A window at its limit (R46) -/

/-- A node whose stop is forced. -/
def Node.forceStop (w : Nat) (n : Node) : Node := { n with forced := true, wover := w }

section
variable {s : State} {r : Nat} (ht : (s.pkg (ridPkg r)).takeover = false) (hu : (s.pkg (ridPkg r)).up = true)
include ht hu

theorem window_overruns (hdue : s.overrunDue r = true) : ∃ t, exec (.windowOverrun r) s = .next t ∧
    (t.node r).forced = true ∧ (t.node r).wover = ((s.node r).wover + 1) % 2 ^ 32 ∧ (t.node r).stopping = (s.node r).stopping ∧
    t.slots = s.slots := by
  have hexec : exec (.windowOverrun r) s = s.milliner (ridPkg r) (.windowOverrun r)
      ((.node r (Node.forceStop (((s.node r).wover + 1) % 2 ^ 32)) :: writeBytes ((s.node r).rcb + 0x104) (toBytes 4 (((s.node r).wover + 1) % 2 ^ 32))) ++
        overrunUpds s (keyRid · == r) ++ notice s (s.domainOf r)) := if_neg (by rw [hdue]; exact Bool.false_ne_true)
  rw [milliner_works hu ht, State.commit_append, State.commit_append] at hexec
  obtain ⟨dies, hcm, -, hn⟩ := commit_node_writes (writesMem_writeBytes ((s.node r).rcb + 0x104) (toBytes 4 (((s.node r).wover + 1) % 2 ^ 32))) s r
    (Node.forceStop (((s.node r).wover + 1) % 2 ^ 32))
  have hr := (hn r).trans (if_pos rfl)
  have hslots := congrArg State.slots hcm
  refine ⟨_, hexec, ?_⟩
  generalize s.commit (.node r (Node.forceStop (((s.node r).wover + 1) % 2 ^ 32)) ::
    writeBytes ((s.node r).rcb + 0x104) (toBytes 4 (((s.node r).wover + 1) % 2 ^ 32))) = u at *
  obtain ⟨hs, -, hnode⟩ := commit_asideStop (overrunUpds_aside s (keyRid · == r)) u
  obtain ⟨y, hy⟩ := hnode r
  generalize u.commit (overrunUpds s (keyRid · == r)) = v at *
  obtain ⟨hs', hnode'⟩ := commit_notice s v (s.domainOf r)
  obtain ⟨k, hk⟩ := hnode' r
  rw [hk, hy, hr]
  exact ⟨rfl, rfl, rfl, hs'.trans (hs.trans hslots)⟩

end

/-! ## Resumption where it was (R253) -/

/-- A node that runs again. -/
def Node.resumed (l : List Place) (at_ : Nat) (n : Node) : Node :=
  { n with placed := l, tbase := if n.newAct then at_ else n.tbase + (at_ - n.stopTick)
           quantumAt := at_, readyAt := at_, expired := false }
/-- A slot that runs again where it was. -/
def Ctx.resumedIn (stopTick at_ : Nat) (phys : Nat) (c : Ctx) : Ctx := { c.resumeAt stopTick at_ false with phys := phys, rows := c.rows, placegen := c.placegen }

theorem resumedIn_fields (stopTick at_ phys : Nat) {c : Ctx} (h : c.mode = .stopped) : (c.resumedIn stopTick at_ phys).mode = .run ∧
    (c.resumedIn stopTick at_ phys).tbase = c.tbase + (at_ - stopTick) ∧ SameRegisters c (c.resumedIn stopTick at_ phys) := by
  refine ⟨?_, rfl, rfl, rfl, rfl, rfl, rfl⟩
  show (if c.mode == .stopped then Mode.run else c.mode) = .run
  rw [h]
  rfl

/-- What a resumption makes of a slot. -/
def State.resumeSlot (s : State) (r : Rid) (x : Place) (moved : Bool) (c : Ctx) : Ctx :=
  let rows := if c.phys == x.phys then c.rows else (s.rowsFree r (dieId x.pkg x.phys)).take (s.node r).brows
  { c.resumeAt (s.node r).stopTick (s.soon r) (s.node r).newAct with
    phys := x.phys, rows := rows, placegen := if moved then (c.placegen + 1) % 2 ^ 32 else c.placegen }

theorem resumeSlot_same {s : State} {r : Rid} {x : Place} {c : Ctx} (hp : c.phys = x.phys) (hn : (s.node r).newAct = false) :
    s.resumeSlot r x false c = c.resumedIn (s.node r).stopTick (s.soon r) x.phys := by
  rw [State.resumeSlot, hn, beq_iff_eq.mpr hp]
  rfl

section
variable {s : State} {r : Nat} {x : Place}

/-- The changes of a slot's resumption where it was. -/
def State.resumeOne (s : State) (r : Rid) (x : Place) : List Upd :=
  [.die (s.slot (slotKey r x.pkg x.slot)).die (fun d => { d with shadow := d.shadow.erase (slotKey r x.pkg x.slot) }),
    .die (dieId x.pkg x.phys) (fun d => { d with run := some (slotKey r x.pkg x.slot) }), .slot (slotKey r x.pkg x.slot) (s.resumeSlot r x false),
    .node r (Node.resumed [x] (s.soon r))]

theorem resumeOn_one (hp : (s.slot (slotKey r x.pkg x.slot)).phys = x.phys) : s.resumeOn r [x] = s.resumeOne r x ++ setState s r 3 := by
  have hmoved : ([x].any fun x => (s.slot (slotKey r x.pkg x.slot)).phys != x.phys) = false := by
    rw [List.any_cons, hp, bne_self_eq_false]
    rfl
  rw [State.resumeOn]
  simp only [hmoved, List.flatMap_cons, List.flatMap_nil, List.append_nil, hp, beq_self_eq_true, if_true]
  rfl

theorem commit_resumeOne (s : State) (r : Rid) (x : Place) :
    (s.commit (s.resumeOne r x)).slot (slotKey r x.pkg x.slot) = s.resumeSlot r x false (s.slot (slotKey r x.pkg x.slot)) ∧
    ((s.commit (s.resumeOne r x)).die (dieId x.pkg x.phys)).run = some (slotKey r x.pkg x.slot) ∧
    (s.commit (s.resumeOne r x)).node r = (s.node r).resumed [x] (s.soon r) := by
  refine ⟨?_, ?_, ?_⟩
  · exact (State.slot_apply_slot s (slotKey r x.pkg x.slot) (slotKey r x.pkg x.slot) (s.resumeSlot r x false)).trans (if_pos rfl)
  · have h := (State.die_apply_die (s.apply (.die (s.slot (slotKey r x.pkg x.slot)).die fun d => { d with shadow := d.shadow.erase (slotKey r x.pkg x.slot) }))
      (dieId x.pkg x.phys) (dieId x.pkg x.phys) fun d => { d with run := some (slotKey r x.pkg x.slot) }).trans (if_pos rfl)
    exact congrArg Die.run h
  · exact (State.node_apply_node s r r (Node.resumed [x] (s.soon r))).trans (if_pos rfl)

theorem resumes_one (hc : s.Canon) {c : Nat} (hst : (s.node r).st = 4) (hready : s.ready r = true) (hout : s.outranked r = false)
    (hfree : s.freePlaces r c (s.keptAhead r) = some [x]) (ht : (s.pkg (ridPkg r)).takeover = false) (hu : (s.pkg (ridPkg r)).up = true)
    (hact : (s.node r).newAct = false) (hp : (s.slot (slotKey r x.pkg x.slot)).phys = x.phys) (hm : (s.slot (slotKey r x.pkg x.slot)).mode = .stopped) :
    ∃ t, exec (.resume r c) s = .next t ∧ (t.node r).st = 3 ∧ (t.node r).tbase = (s.node r).tbase + (s.soon r - (s.node r).stopTick) ∧
      (t.slot (slotKey r x.pkg x.slot)).mode = .run ∧
      (t.slot (slotKey r x.pkg x.slot)).tbase = (s.slot (slotKey r x.pkg x.slot)).tbase + (s.soon r - (s.node r).stopTick) ∧
      SameRegisters (s.slot (slotKey r x.pkg x.slot)) (t.slot (slotKey r x.pkg x.slot)) ∧
      (t.die (dieId x.pkg x.phys)).run = some (slotKey r x.pkg x.slot) := by
  have hupds : s.tryResume r c = s.resumeOne r x ++ setState s r 3 := by
    rw [State.tryResume, hst, hready, hout, hfree]
    exact resumeOn_one hp
  have hexec : exec (.resume r c) s = .next (s.commit (s.tryResume r c)) := milliner_works hu ht _ _
  rw [hupds, State.commit_append] at hexec
  obtain ⟨hslot, hrun, hnode⟩ := commit_resumeOne s r x
  have hcv := Canon.commit hc (s.resumeOne r x)
  rw [resumeSlot_same hp hact] at hslot
  obtain ⟨hmode, htb, hregs⟩ := resumedIn_fields (s.node r).stopTick (s.soon r) x.phys hm
  generalize slotKey r x.pkg x.slot = k at *
  generalize s.commit (s.resumeOne r x) = v at *
  obtain ⟨hn, hs, hd, -⟩ := commit_setState s v hcv r 3
  have hr := (hn r).trans (if_pos rfl)
  refine ⟨_, hexec, ?_⟩
  generalize v.commit (setState s r 3) = t at *
  have htk : t.slot k = v.slot k := congrArg (fun m => mget m k Ctx.blank) hs
  rw [htk, hslot, hd, hr, hnode]
  refine ⟨rfl, ?_, hmode, htb, hregs, hrun⟩
  rw [Node.resumed, hact]
  rfl

end

/-! ## The end of a region (R33) -/

theorem release_release (c : Ctx) : c.release.release = c.release := rfl
theorem release_registers (c : Ctx) : SameRegisters c c.release := ⟨rfl, rfl, rfl, rfl, rfl⟩

/-- A change that leaves memory, the contexts, and of the nodes what says how they have ended. -/
def Upd.AsideEnd (u : Upd) : Prop := ∀ t : State, (t.apply u).mem = t.mem ∧ (t.apply u).slots = t.slots ∧
  ∀ r, ((t.apply u).node r).st = (t.node r).st ∧ ((t.apply u).node r).done = (t.node r).done

theorem commit_asideEnd {us : List Upd} (h : ∀ u ∈ us, u.AsideEnd) (t : State) : (t.commit us).mem = t.mem ∧ (t.commit us).slots = t.slots ∧
    ∀ r, ((t.commit us).node r).st = (t.node r).st ∧ ((t.commit us).node r).done = (t.node r).done :=
  State.commit_keeps (P := fun t' => t'.mem = t.mem ∧ t'.slots = t.slots ∧ ∀ r, (t'.node r).st = (t.node r).st ∧ (t'.node r).done = (t.node r).done)
    (fun u hu t' ⟨hm, hs, hn⟩ => by
      obtain ⟨hm', hs', hn'⟩ := h u hu t'
      exact ⟨hm'.trans hm, hs'.trans hs, fun r => ⟨(hn' r).1.trans (hn r).1, (hn' r).2.trans (hn r).2⟩⟩)
    ⟨rfl, rfl, fun _ => ⟨rfl, rfl⟩⟩

theorem asideEnd_node (v : Rid) {f : Node → Node} (h : ∀ n, (f n).st = n.st ∧ (f n).done = n.done) : (Upd.node v f).AsideEnd := fun t => ⟨rfl, rfl, fun r => by
  rw [State.node_apply_node]
  split
  · next he => exact he ▸ h _
  · exact ⟨rfl, rfl⟩⟩
theorem asideEnd_map {α : Type} {l : List α} {f : α → Upd}
    (h : ∀ x, ∀ t : State, (t.apply (f x)).mem = t.mem ∧ (t.apply (f x)).slots = t.slots ∧ (t.apply (f x)).nodes = t.nodes) : ∀ u ∈ l.map f, u.AsideEnd := by
  intro u hu t
  obtain ⟨x, -, rfl⟩ := List.mem_map.mp hu
  obtain ⟨hm, hs, hn⟩ := h x t
  exact ⟨hm, hs, fun r => ⟨congrArg Node.st (node_of_nodes hn r), congrArg Node.done (node_of_nodes hn r)⟩⟩

theorem readied_aside (s : State) (r : Rid) : ∀ u ∈ s.readied r, u.AsideEnd := by
  intro u hu
  obtain ⟨e, -, rfl⟩ := List.mem_map.mp hu
  exact asideEnd_node _ fun _ => ⟨rfl, rfl⟩

/-- The contexts of a list of slots are released. -/
theorem commit_releases : ∀ (l : List SlotKey) (u : State), (u.commit (l.map fun k => .slot k Ctx.release)).mem = u.mem ∧
    (u.commit (l.map fun k => .slot k Ctx.release)).nodes = u.nodes ∧
    ∀ k, (u.commit (l.map fun k => .slot k Ctx.release)).slot k = if k ∈ l then (u.slot k).release else u.slot k
  | [], u => ⟨rfl, rfl, fun _ => (if_neg List.not_mem_nil).symm⟩
  | j :: l, u => by
    obtain ⟨hm, hn, hs⟩ := commit_releases l (u.apply (.slot j Ctx.release))
    rw [List.map_cons, State.commit_cons]
    refine ⟨hm, hn, fun k => ?_⟩
    rw [hs k, State.slot_apply_slot]
    by_cases hj : k = j
    · subst hj
      rw [if_pos rfl, if_pos List.mem_cons_self, release_release, ite_self]
    · rw [if_neg hj]
      exact if_congr (by simp [hj]) rfl rfl

/-- What a region's end changes of its dies, and of what waits for it elsewhere. -/
def State.freeDiesUpds (s : State) (r : Rid) : List Upd := s.dies.map fun e => .die e.1 fun d =>
    { d with
      run := if d.run.any ((s.node r).keys r).contains then none else d.run
      shadow := d.shadow.filter fun k => !((s.node r).keys r).contains k
      cuffIn := d.cuffIn.filter fun x => keyRid (x.1 / 4) != r }
def State.freeRest (s : State) (r : Rid) (stopped : Bool) : List Upd :=
  ((s.reqs.filter fun q => keyRid q.key == r && q.owner.isNone).map fun q => .dropReq q.id) ++ unbindUpds s r stopped
def Node.freed (n : Node) : Node := { n with placed := [], endedS := [], yieldS := [], halting := false, stopping := none }

theorem freeRest_aside (s : State) (r : Rid) (stopped : Bool) : ∀ u ∈ s.freeRest r stopped, u.AsideEnd := by
  rw [State.freeRest, List.forall_mem_append]
  exact ⟨asideEnd_map fun _ _ => ⟨rfl, rfl, rfl⟩, asideEnd_map fun _ _ => ⟨rfl, rfl, rfl⟩⟩

theorem commit_free (s u : State) (r : Rid) (stopped : Bool) (hu : u.slots = s.slots) :
    let t := u.commit (s.free r stopped)
    t.mem = u.mem ∧ (t.node r).st = (u.node r).st ∧ (t.node r).done = (u.node r).done ∧ (t.node r).placed = [] ∧
    ∀ k ∈ (s.node r).keys r, t.slot k = (s.slot k).release := by
  intro t
  have ht : t = (((u.commit (s.freeDiesUpds r)).commit (((s.node r).keys r).map fun k => .slot k Ctx.release)).commit (s.freeRest r stopped)).apply
      (.node r Node.freed) := by
    show u.commit (s.free r stopped) = _
    simp only [State.free, State.commit_append, State.freeRest, State.freeDiesUpds]
    rfl
  obtain ⟨hm1, hs1, hn1⟩ := commit_asideEnd (us := s.freeDiesUpds r) (asideEnd_map fun _ _ => ⟨rfl, rfl, rfl⟩) u
  rw [ht]
  generalize u.commit (s.freeDiesUpds r) = v at *
  obtain ⟨hm2, hn2, hs2⟩ := commit_releases ((s.node r).keys r) v
  generalize v.commit (((s.node r).keys r).map fun k => .slot k Ctx.release) = w at *
  obtain ⟨hm3, hs3, hn3⟩ := commit_asideEnd (freeRest_aside s r stopped) w
  generalize w.commit (s.freeRest r stopped) = y at *
  have hfreed := (State.node_apply_node y r r Node.freed).trans (if_pos rfl)
  have hw := node_of_nodes hn2 r
  refine ⟨hm3.trans (hm2.trans hm1), ?_, ?_, congrArg Node.placed hfreed, fun k hk => ?_⟩
  · exact (congrArg Node.st hfreed).trans ((hn3 r).1.trans ((congrArg Node.st hw).trans (hn1 r).1))
  · exact (congrArg Node.done hfreed).trans ((hn3 r).2.trans ((congrArg Node.done hw).trans (hn1 r).2))
  · have hyk : y.slot k = w.slot k := congrArg (fun m => mget m k Ctx.blank) hs3
    have hvk : v.slot k = s.slot k := congrArg (fun m => mget m k Ctx.blank) (hs1.trans hu)
    refine Eq.trans (b := y.slot k) rfl ?_
    rw [hyk, hs2 k, if_pos hk, hvk]

section
variable {s : State} {r : Nat} (hc : s.Canon) (ht : (s.pkg (ridPkg r)).takeover = false) (hu : (s.pkg (ridPkg r)).up = true)
include hc ht hu

theorem region_ends (hdue : s.doneDue r = true) (hst : (s.node r).st = 3) : ∃ t, exec (.regionDone r) s = .next t ∧
    (t.node r).st = 5 ∧ (t.node r).done = 1 ∧ (t.node r).placed = [] ∧
    (∀ k ∈ (s.node r).keys r, t.slot k = (s.slot k).release ∧ SameRegisters (s.slot k) (t.slot k)) ∧
    memRead t.mem ((s.node r).rcb + 0x010) 8 = toBytes 8 1 := by
  have hexec : exec (.regionDone r) s = .next (((s.commit (setDone s r 0 5 1)).commit (s.readied r)).commit (s.free r false)) := by
    show execRegionDone r s = _
    rw [execRegionDone, hdue, milliner_works hu ht, hst, ← State.commit_append, ← State.commit_append, ← List.append_assoc]
    rfl
  obtain ⟨hn, hs, -, hm⟩ := commit_setDone s s hc r 0 5 1
  have hr := (hn r).trans (if_pos rfl)
  refine ⟨_, hexec, ?_⟩
  generalize s.commit (setDone s r 0 5 1) = u at *
  obtain ⟨hm', hs', hn'⟩ := commit_asideEnd (readied_aside s r) u
  generalize u.commit (s.readied r) = v at *
  obtain ⟨hm2, hst2, hdone2, hplaced, hslots⟩ := commit_free s v r false (hs'.trans hs)
  rw [hst2, hdone2, (hn' r).1, (hn' r).2, hr, hm2, hm']
  exact ⟨rfl, rfl, hplaced, fun k hk => ⟨hslots k hk, sameRegisters_of_eq (hslots k hk) (release_registers _)⟩, hm⟩

/-! ## Cancellation (R53) -/

theorem cancel_completes (hdue : s.cancelDue r = true) : ∃ t, exec (.cancelComplete r) s = .next t ∧
    (t.node r).st = 8 ∧ (t.node r).done = 4 ∧ memRead t.mem ((s.node r).rcb + 0x010) 8 = toBytes 8 4 := by
  obtain ⟨us, hexec⟩ : ∃ us, exec (.cancelComplete r) s = .next (s.commit (us ++ setDone s r 0 8 4)) := by
    refine ⟨_, (if_neg ?_).trans (milliner_works hu ht _ _)⟩
    rw [hdue]
    exact Bool.false_ne_true
  rw [State.commit_append] at hexec
  obtain ⟨hn, -, -, hm⟩ := commit_setDone s (s.commit us) (Canon.commit hc us) r 0 8 4
  have hr := (hn r).trans (if_pos rfl)
  exact ⟨_, hexec, congrArg Node.st hr, congrArg Node.done hr, hm⟩

end

/-- A node that a cancellation has reached, by the STATE that it had. -/
def Node.Cancelled (n m : Node) : Prop :=
  (n.kind = .timetable → n.st ≤ 2 → m.st = 8 ∧ m.done = 4) ∧
  (n.kind = .timetable → 3 ≤ n.st → m.cancel = true ∧ m.halting = true) ∧ (n.kind ≠ .timetable → m.cancel = true)

/-- A change that leaves every node but one. -/
def Upd.OfNode (v : Rid) (u : Upd) : Prop := ∀ t : State, ∀ x, x ≠ v → (t.apply u).node x = t.node x

theorem commit_ofNode {v : Rid} {us : List Upd} (h : ∀ u ∈ us, u.OfNode v) (t : State) {x : Rid} (hx : x ≠ v) : (t.commit us).node x = t.node x :=
  State.commit_keeps (P := fun t' => t'.node x = t.node x) (fun u hu t' ht => (h u hu t' x hx).trans ht) rfl

theorem ofNode_node (v : Rid) (f : Node → Node) : (Upd.node v f).OfNode v := fun t x hx => (State.node_apply_node t v x f).trans (if_neg hx)
theorem ofNode_writeBytes (v a : Nat) (bs : List Byte) : ∀ u ∈ writeBytes a bs, u.OfNode v := by
  intro u hu
  rcases List.mem_cons.mp hu with rfl | hu
  · exact fun _ _ _ => rfl
  · split at hu
    · exact List.mem_singleton.mp hu ▸ fun _ _ _ => rfl
    · split at hu
      · exact List.mem_singleton.mp hu ▸ fun _ _ _ => rfl
      · exact absurd hu List.not_mem_nil

theorem cancelOne_ofNode (s : State) (v : Rid) : ∀ u ∈ s.cancelOne v, u.OfNode v := by
  unfold State.cancelOne
  dsimp only
  split
  · simp only [setDone, List.forall_mem_cons, List.forall_mem_append]
    exact ⟨ofNode_node _ _, ofNode_writeBytes _ _ _, ofNode_writeBytes _ _ _⟩
  · split
    · simp only [stopGang, List.forall_mem_append, List.forall_mem_map, List.forall_mem_singleton]
      exact ⟨⟨fun _ _ _ _ _ => rfl, ofNode_node _ _⟩, ofNode_node _ _⟩
    · rw [List.forall_mem_singleton]
      exact ofNode_node _ _

/-- A node whose gang halts, and one that is cancelled. -/
def Node.haltsAt (now : Nat) (n : Node) : Node := { n with halting := true, haltAt := if n.halting then n.haltAt else now }
def Node.cancels (n : Node) : Node := { n with cancel := true, stopping := none }

theorem commit_cancelGang (s u : State) (v : Rid) :
    (u.commit (stopGang s v ++ [.node v Node.cancels])).node v = ((u.node v).haltsAt s.now).cancels := by
  have hslots : ∀ (l : List SlotKey) (u : State), (u.commit (l.map fun k => Upd.slot k Ctx.halt)).nodes = u.nodes := fun l u =>
    State.commit_keeps (P := fun t => t.nodes = u.nodes) (fun c hc t h => by
      obtain ⟨k, -, rfl⟩ := List.mem_map.mp hc
      exact h) rfl
  rw [stopGang, State.commit_append, State.commit_append]
  have hw := node_of_nodes (hslots (((s.node v).keys v).filter fun k => !s.onDie k) u) v
  generalize u.commit ((((s.node v).keys v).filter fun k => !s.onDie k).map fun k => Upd.slot k Ctx.halt) = w at *
  have h1 := (State.node_apply_node w v v (Node.haltsAt s.now)).trans (if_pos rfl)
  have h2 := (State.node_apply_node (w.apply (.node v (Node.haltsAt s.now))) v v Node.cancels).trans (if_pos rfl)
  rw [h1, hw] at h2
  exact h2

theorem cancelOne_cancelled (s u : State) (v : Rid) : (s.node v).Cancelled ((u.commit (s.cancelOne v)).node v) := by
  by_cases hk : (s.node v).kind = .timetable
  · by_cases hst : (s.node v).st ≤ 2
    · have hone : s.cancelOne v = setDone s v 0 8 4 := if_pos (by simp [hk, hst])
      obtain ⟨-, -, -, hn⟩ := commit_node_writes (writesMem_ends (s.node v).rcb v 0 8 4) u v fun n => { n with st := 8, done := 4 }
      have hv := (hn v).trans (if_pos rfl)
      rw [hone, setDone, hv]
      exact ⟨fun _ _ => ⟨rfl, rfl⟩, fun _ h => absurd hst (by omega), fun h => absurd hk h⟩
    · have hone : s.cancelOne v = stopGang s v ++ [.node v Node.cancels] :=
        (if_neg (by simp [hst])).trans (if_pos (by rw [hk]; rfl))
      rw [hone, commit_cancelGang]
      exact ⟨fun _ h => absurd h hst, fun _ _ => ⟨rfl, rfl⟩, fun h => absurd hk h⟩
  · have hone : s.cancelOne v = [.node v fun n => { n with cancel := true }] :=
      (if_neg (by simp [hk])).trans (if_neg (by simpa only [beq_iff_eq] using hk))
    have hv := (State.node_apply_node u v v fun n => { n with cancel := true }).trans (if_pos rfl)
    rw [hone]
    exact ⟨fun h => absurd h hk, fun h => absurd h hk, fun _ => congrArg Node.cancel hv⟩

theorem commit_cancels (s : State) {v : Rid} : ∀ (l : List Rid) (u : State), (s.node v).Cancelled (u.node v) ∨ v ∈ l →
    (s.node v).Cancelled ((u.commit (l.flatMap s.cancelOne)).node v)
  | [], _, h => h.resolve_right List.not_mem_nil
  | x :: l, u, h => by
    rw [List.flatMap_cons, State.commit_append]
    refine commit_cancels s l (u.commit (s.cancelOne x)) ?_
    by_cases hx : v = x
    · exact Or.inl (hx ▸ cancelOne_cancelled s u v)
    · rw [commit_ofNode (cancelOne_ofNode s x) u hx]
      exact h.imp_right fun h => (List.mem_cons.mp h).resolve_left hx

theorem cancel_observed {s : State} {r : Nat} (ht : (s.pkg (ridPkg r)).takeover = false) (hu : (s.pkg (ridPkg r)).up = true)
    (hseen : s.cancelSeen r = true) : ∃ t, exec (.cancelObserved r) s = .next t ∧ ∀ v ∈ s.cancelled r, (s.node v).Cancelled (t.node v) := by
  have hexec : exec (.cancelObserved r) s = .next (s.commit ((s.cancelled r).flatMap s.cancelOne ++
      hitQueues s (if (s.node r).kind == .part then (2, r) else (1, s.domainOf r)))) := by
    show execCancelObserved r s = _
    rw [execCancelObserved, hseen, milliner_works hu ht]
    rfl
  have hhits : ∀ (h : Nat × Rid) (u : State), (u.commit (hitQueues s h)).nodes = u.nodes := fun h u =>
    State.commit_keeps (P := fun t => t.nodes = u.nodes) (fun c hc t ht => by
      obtain ⟨e, -, rfl⟩ := List.mem_map.mp hc
      exact ht) rfl
  rw [State.commit_append] at hexec
  refine ⟨_, hexec, fun v hv => ?_⟩
  rw [node_of_nodes (hhits _ _) v]
  exact commit_cancels s (s.cancelled r) s (Or.inr hv)

end Sys2Proof.Machine
end

section
open Sys2Proof Sys2Proof.Machine

/-- Settles O59: a stop parks its slot, a resumption shifts its times, an end releases its slots, and each node that a
cancellation reaches is changed by its own changes alone. -/
theorem regionsStop : Obligations.RegionsStop := by
  unfold Obligations.RegionsStop
  intro s r hc n works
  refine ⟨fun x hp hst hh => ?_, fun hdue hw => window_overruns hw.1 hw.2 hdue, fun x c hk hst hready hout hfree hw hact hphys hm =>
    resumes_one hc hst hready hout hfree hw.1 hw.2 hact hphys hm, fun hdue hst hw => region_ends hc hw.1 hw.2 hdue hst,
    fun hseen hw => cancel_observed hw.1 hw.2 hseen, fun hdue hw => cancel_completes hc hw.1 hw.2 hdue⟩
  intro k c hw hm hl hd hnow
  exact preempts_one hc hp hm hl (exec_preemptStop_one hp hst hh hw.1 hw.2 hm hd hnow)

end

section
/-! SUPPORT. Floating-point results (R109, R110): codes fit their format, sums and products are exact, and a number's
code rounds to itself; elements of floating-point instructions and of conversions. -/

namespace Sys2Proof.Machine

/-! ## Codes fit their format -/

theorem width_ffmt {ty : Nat} (h : ty ≤ 4) : (ffmt ty).w = width ty := by
  interval_cases ty <;> rfl

theorem not_int_of_le {ty : Nat} (h : ty ≤ 4) : ¬isIntTy ty = true := fun hi => by
  have := isIntTy_iff.mp hi
  omega

section
variable {t : FFmt} (ht : t.Sound)
include ht

theorem two_pow_w : 2 ^ t.w = 2 ^ (t.w - 1) * 2 := by
  have := ht.fw
  rw [← Nat.pow_succ]
  congr 1
  omega

theorem signed_lt {c : Nat} (neg : Bool) (h : c < 2 ^ (t.w - 1)) : t.signed neg c < 2 ^ t.w := by
  have hw := two_pow_w ht
  unfold FFmt.signed
  split <;> omega

theorem maxCode_succ_lt (hi : t.ieee = true) : t.maxCode + 1 < 2 ^ (t.w - 1) := by
  have h := two_pow_f ht
  have hf := Nat.two_pow_pos t.f
  simp only [FFmt.maxCode, hi, if_true]
  omega

theorem nanCode_lt : t.nanCode < 2 ^ t.w := by
  have hw := two_pow_w ht
  have h := two_pow_f ht
  have hf := Nat.two_pow_pos t.f
  have hq : 2 ^ (t.f - 1) ≤ 2 ^ t.f := Nat.pow_le_pow_right (by omega) (by omega)
  unfold FFmt.nanCode
  cases hi : t.ieee with
  | true =>
    simp only [if_true]
    omega
  | false =>
    simp [ht.f8 hi]

theorem roundFin_lt (mode : Nat) (ftz neg : Bool) (m : Nat) (e : Int) : (t.roundFin mode ftz neg m e).1 < 2 ^ t.w := by
  have hz : 0 < 2 ^ (t.w - 1) := Nat.two_pow_pos _
  have hm := maxCode_lt t
  unfold FFmt.roundFin
  dsimp only
  split
  · exact signed_lt ht neg hz
  · split
    · refine signed_lt ht neg ?_
      split
      · exact hm
      · next hmax =>
        refine maxCode_succ_lt ht ?_
        cases hi : t.ieee with
        | true => rfl
        | false => simp [hi] at hmax
    · next hfit =>
      split
      · exact signed_lt ht neg hz
      · exact signed_lt ht neg (lt_of_le_of_lt (Nat.not_lt.mp hfit) hm)

theorem round_lt (mode : Nat) (ftz : Bool) (v : FVal) : (t.round mode ftz v).1 < 2 ^ t.w := by
  cases v with
  | nan _ => exact nanCode_lt ht
  | inf neg =>
    simp only [FFmt.round]
    split
    · next hi => exact signed_lt ht neg (maxCode_succ_lt ht hi)
    · exact signed_lt ht neg (maxCode_lt t)
  | fin neg m e => exact roundFin_lt ht mode ftz neg m e

/-! ## A number's code rounds to itself -/

/-- A code of a format has its sign bit and its magnitude. -/
theorem signed_of_code {x : Nat} (h : x < 2 ^ t.w) (h80 : t.ieee = false → x ≠ 0x80) :
    t.signed (bit x (t.w - 1)) (x % 2 ^ (t.w - 1)) = x := by
  have hw := two_pow_w ht
  have hd : x / 2 ^ (t.w - 1) < 2 := Nat.div_lt_of_lt_mul (by rw [← hw]; exact h)
  have hx := Nat.div_add_mod x (2 ^ (t.w - 1))
  unfold FFmt.signed bit
  rcases Nat.lt_or_ge (x / 2 ^ (t.w - 1)) 1 with h0 | h1
  · have h0 : x / 2 ^ (t.w - 1) = 0 := Nat.lt_one_iff.mp h0
    simp [h0] at hx ⊢
    exact hx
  · have h1 : x / 2 ^ (t.w - 1) = 1 := Nat.le_antisymm (Nat.lt_succ_iff.mp hd) h1
    rw [h1, Nat.mul_one] at hx
    have hc : (((1 % 2 == 1) : Bool) && (t.ieee || x % 2 ^ (t.w - 1) != 0)) = true := by
      cases hi : t.ieee with
      | true => rfl
      | false =>
        have h80 := h80 hi
        rw [ht.f8 hi] at hx ⊢
        simp
        omega
    rw [h1, if_pos hc]
    exact hx

/-- The magnitude above the largest finite one whose fraction is 0 is the infinity's. -/
theorem magnitude_of_inf {m : Nat} (hi : t.ieee = true) (hm : m < 2 ^ (t.w - 1)) (hlt : t.maxCode < m)
    (hf : m % 2 ^ t.f = 0) : m = t.maxCode + 1 := by
  have hw := ht.fw
  have hsplit : 2 ^ (t.w - 1) = 2 ^ t.f * 2 ^ (t.w - 1 - t.f) := by
    rw [← Nat.pow_add]
    congr 1
    omega
  obtain ⟨q, rfl⟩ := Nat.dvd_of_mod_eq_zero hf
  obtain ⟨K, hK⟩ := Nat.exists_eq_succ_of_ne_zero (Nat.two_pow_pos (t.w - 1 - t.f)).ne'
  have hp := Nat.two_pow_pos t.f
  have hmax : t.maxCode + 1 = 2 ^ t.f * K := by
    have h2 := two_pow_f ht
    simp only [FFmt.maxCode, hi, if_true]
    rw [hsplit, hK, Nat.mul_succ] at h2 ⊢
    omega
  have hq : q ≤ K := Nat.lt_succ_iff.mp (Nat.lt_of_mul_lt_mul_left (by rw [hsplit, hK] at hm; exact hm))
  have hqK : K ≤ q := Nat.le_of_mul_le_mul_left (by omega) hp
  rw [hmax, Nat.le_antisymm hq hqK]

omit ht in
theorem roundFin_of_holds {M k : Nat} (h : t.Holds M k) (mode : Nat) (neg : Bool) :
    t.roundFin mode false neg M (t.low + k) = (t.signed neg (t.code M k), 0) := by
  rcases Nat.eq_zero_or_pos M with rfl | h0
  · have hk : k = 0 := h.norm.resolve_right (Nat.not_le.mpr (Nat.two_pow_pos _))
    simp [FFmt.roundFin, FFmt.code, hk]
  · exact roundFin_exact h h0.ne' (.inl ⟨le_refl _, by simp⟩) mode neg

/-- A code that is no NaN rounds to itself in every mode (R109, R110). -/
theorem round_val {x : Nat} (h : x < 2 ^ t.w) (hn : (t.val x).isNan = false) (mode : Nat) :
    t.round mode false (t.val x) = (x, 0) := by
  have hp := Nat.two_pow_pos (t.w - 1)
  have hf := Nat.two_pow_pos t.f
  have hm := Nat.mod_lt x hp
  have hd := Nat.div_add_mod (x % 2 ^ (t.w - 1)) (2 ^ t.f)
  have hr := Nat.mod_lt (x % 2 ^ (t.w - 1)) hf
  have h80 : t.ieee = false → x ≠ 0x80 := fun hi he => by simp [FFmt.val, hi, he, FVal.isNan] at hn
  have hs := signed_of_code ht h h80
  have hc80 : ¬(!t.ieee && x == 0x80) = true := fun hc => by
    simp only [Bool.and_eq_true, Bool.not_eq_true', beq_iff_eq] at hc
    exact h80 hc.1 hc.2
  by_cases hinf : (t.ieee && decide (t.maxCode < x % 2 ^ (t.w - 1))) = true
  · obtain ⟨hi, hlt⟩ := (Bool.and_eq_true _ _).mp hinf |>.imp_right of_decide_eq_true
    simp only [FFmt.val, if_neg hc80, if_pos hinf] at hn ⊢
    split at hn
    · next hfr =>
      rw [if_pos hfr]
      have he := magnitude_of_inf ht hi hm hlt (beq_iff_eq.mp hfr)
      rw [FFmt.round, if_pos hi, ← he, hs]
    · cases hn
  · have hfit : x % 2 ^ (t.w - 1) ≤ t.maxCode := by
      cases hi : t.ieee with
      | true => simpa [hi] using hinf
      | false =>
        simp only [FFmt.maxCode, hi]
        exact Nat.le_sub_one_of_lt hm
    simp only [FFmt.val, if_neg hc80, if_neg hinf]
    split
    · next hex =>
      have hex := beq_iff_eq.mp hex
      rw [hex, Nat.mul_zero, Nat.zero_add] at hd
      have hh : t.Holds (x % 2 ^ (t.w - 1) % 2 ^ t.f) 0 :=
        ⟨by rw [Nat.pow_succ]; omega, .inl rfl, by rw [hd]; simpa using hfit⟩
      have hround := roundFin_of_holds hh mode (bit x (t.w - 1))
      rw [Nat.cast_zero, Int.add_zero] at hround
      rw [FFmt.round, hround, FFmt.code, hd, Nat.zero_mul, Nat.add_zero, hs]
    · next hex =>
      have hex : x % 2 ^ (t.w - 1) / 2 ^ t.f ≠ 0 := fun h => hex (beq_iff_eq.mpr h)
      obtain ⟨k, hk⟩ := Nat.exists_eq_succ_of_ne_zero hex
      have hcode : t.code (2 ^ t.f + x % 2 ^ (t.w - 1) % 2 ^ t.f) k = x % 2 ^ (t.w - 1) := by
        rw [hk, Nat.mul_succ] at hd
        rw [FFmt.code, Nat.mul_comm k]
        omega
      have hh : t.Holds (2 ^ t.f + x % 2 ^ (t.w - 1) % 2 ^ t.f) k :=
        ⟨by rw [Nat.pow_succ]; omega, .inr (Nat.le_add_right _ _), hcode.le.trans hfit⟩
      have hround := roundFin_of_holds hh mode (bit x (t.w - 1))
      rw [hcode, hs] at hround
      rw [hk, FFmt.round]
      exact hround

end

/-! ## Sums and products lose nothing -/

/-- A number as an integer multiple of a lower power of two. -/
theorem scaled_lower {k e : Int} (hk : k ≤ e) (neg : Bool) (m : Nat) {l : Int} (hl : l ≤ k) :
    scaled neg m e l = scaled neg m e k * 2 ^ (k - l).toNat := by
  have hsum : (e - l).toNat = (e - k).toNat + (k - l).toNat := by omega
  unfold scaled
  simp only [hsum, pow_add]
  split <;> ring

/-- The sign and the magnitude of an integer. -/
theorem scaled_of_int {neg : Bool} {z : Int} (h : z ≠ 0 → neg = decide (z < 0)) (k l : Int) :
    scaled neg z.natAbs k l = z * 2 ^ (k - l).toNat := by
  rcases eq_or_ne z 0 with rfl | h0
  · cases neg <;> simp [scaled]
  · rw [h h0, scaled]
    simp only [decide_eq_true_eq]
    split
    · rw [Int.ofNat_natAbs_of_nonpos (by omega)]
      ring
    · rw [Int.natAbs_of_nonneg (by omega)]

theorem add_fin_exact (na : Bool) (ma : Nat) (ea : Int) (nb : Bool) (mb : Nat) (eb : Int) :
    ∃ n' m', ((FVal.fin na ma ea).add (.fin nb mb eb)).1 = .fin n' m' (min ea eb) ∧
      ∀ k, k ≤ ea → k ≤ eb → scaled n' m' (min ea eb) k = scaled na ma ea k + scaled nb mb eb k := by
  refine ⟨_, _, rfl, fun k ha hb => ?_⟩
  rw [scaled_of_int fun h0 => if_neg fun h => h0 (beq_iff_eq.mp h), Int.add_mul,
    ← scaled_lower (Int.min_le_left ea eb) na ma (le_min ha hb), ← scaled_lower (Int.min_le_right ea eb) nb mb (le_min ha hb)]

theorem mul_fin_exact (na : Bool) (ma : Nat) (ea : Int) (nb : Bool) (mb : Nat) (eb : Int) :
    ∃ n' m', ((FVal.fin na ma ea).mul (.fin nb mb eb)).1 = .fin n' m' (ea + eb) ∧
      ∀ j ≤ ea, ∀ k ≤ eb, scaled n' m' (ea + eb) (j + k) = scaled na ma ea j * scaled nb mb eb k := by
  refine ⟨_, _, rfl, fun j hj k hk => ?_⟩
  have hsum : (ea + eb - (j + k)).toNat = (ea - j).toNat + (eb - k).toNat := by omega
  simp only [scaled, hsum, pow_add, Nat.cast_mul]
  cases na <;> cases nb <;> simp <;> ring

/-! ## Floating-point instructions, element by element -/

section
variable {f : VF} {o : VOps} (hty : tyOf f ≤ 4)
include hty

theorem wOf_eq_ffmt : wOf f = (ffmt (tyOf f)).w := (width_ffmt hty).symm

theorem fp_width_dvd : wOf f ∣ 4096 := width_dvd (show f.ty.toNat ≤ 14 from le_trans (b := 4) hty (by omega))

theorem ffmt_round_lt (mode : Nat) (ftz : Bool) (v : FVal) : ((ffmt (tyOf f)).round mode ftz v).1 < 2 ^ wOf f := by
  rw [wOf_eq_ffmt hty]
  exact round_lt (ffmt_sound _) mode ftz v

variable (ha : o.a.length = f.span)
include ha

/-- An operation on the elements of two spans whose results are rounded. -/
theorem elems_fp2 {g h : Nat → Nat → Nat × Nat} (hfm : f.fm = 0) (hl : f.long = none) (hb : o.b.length = f.span)
    (hh : ∀ x y, (h x y).1 < 2 ^ wOf f) :
    elemsOf (wOf f) (lift2 f o false (if isIntTy (tyOf f) then g else h)).vals =
      List.zipWith (fun x y => (h x y).1) (elemsOf (wOf f) o.a) (elemsOf (wOf f) o.b) := by
  rw [if_neg (not_int_of_le hty)]
  exact elems_lift2 ha (fp_width_dvd hty) hfm hl hb fun x _ y _ => hh x y

/-- An operation on the elements of one span whose results are rounded. -/
theorem elems_fp1 {g h : Nat → Nat × Nat} (hh : ∀ x, (h x).1 < 2 ^ wOf f) :
    elemsOf (wOf f) (lift1 f o (if isIntTy (tyOf f) then g else h)).vals =
      (elemsOf (wOf f) o.a).map fun x => (h x).1 := by
  rw [if_neg (not_int_of_le hty)]
  exact elems_lift1 ha (fp_width_dvd hty) fun x _ => hh x

/-- The fused operations read the three elements of a number and round once. -/
theorem elems_fused (hfm : f.fm = 0) (hl : f.long = none) (hb : o.b.length = f.span) (hc : o.c.length = f.span) (sub : Bool)
    {e : Nat} (he : e < nOf f) :
    (elemsOf (wOf f) (fused f o sub).vals).getD e 0 =
      let rd := (ffmt (tyOf f)).read o.ftz
      let q := rd ((elemsOf (wOf f) o.c).getD e 0)
      ((ffmt (tyOf f)).round 0 o.ftz ((rd ((elemsOf (wOf f) o.a).getD e 0)).fma (rd ((elemsOf (wOf f) o.b).getD e 0))
        (if sub then q.neg else q)).1).1 := by
  have hw : wOf f ∣ 4096 := fp_width_dvd hty
  have hla : (aElems f o).length = nOf f := aElems_length ha
  have hlb : (elemsOf (wOf f) o.b).length = nOf f := by rw [elemsOf_length, hb, nOf]
  have hlc : (elemsOf (wOf f) o.c).length = nOf f := by rw [elemsOf_length, hc, nOf]
  have hfm1 : ¬(f.fm == 1) = true := by simp [hfm]
  unfold fused
  simp only [hl, if_neg hfm1]
  rw [elems_masked hw]
  · have hea : e < (aElems f o).length := by omega
    have heb : e < (elemsOf (wOf f) o.b).length := by omega
    have hec : e < (elemsOf (wOf f) o.c).length := by omega
    have hea' : e < (elemsOf (wOf f) o.a).length := hea
    simp [List.getD_eq_getElem?_getD, hea', heb, hec, aElems]
  · rw [List.length_map, List.length_zip, List.length_zip, hla, hlb, hlc, Nat.min_self, Nat.min_self, nOf]
  · intro r hr
    obtain ⟨x, -, rfl⟩ := List.mem_map.mp hr
    exact ffmt_round_lt hty 0 o.ftz _

end

end Sys2Proof.Machine
end

section
/-! SUPPORT. Shifts, comparisons, conversions, dot products and permutations, element by element (R122, R123, R153, R154,
R395, R397, R410, R420). -/

namespace Sys2Proof.Machine

/-! ## Shifts (R122) -/

theorem shl_eq (b x n : Nat) : shl b x n = x * 2 ^ n % 2 ^ b := by
  unfold shl
  split
  · next h => exact (Nat.mod_eq_zero_of_dvd ((Nat.pow_dvd_pow 2 h).mul_left x)).symm
  · rfl

theorem shr_eq {b x : Nat} (h : x < 2 ^ b) (n : Nat) : shr b x n = x / 2 ^ n := by
  unfold shr
  split
  · next hn => exact (Nat.div_eq_of_lt (h.trans_le (Nat.pow_le_pow_right (by omega) hn))).symm
  · rw [Nat.mod_eq_of_lt h]

/-- A shift by the width or more fills with the sign. -/
theorem sra_eq {b x : Nat} (hb : 0 < b) (h : x < 2 ^ b) (n : Nat) : sra b x n = wrap b (signed b x / 2 ^ n) := by
  unfold sra
  split
  · next hn =>
    have hw : 2 ^ b = 2 ^ (b - 1) * 2 := by rw [← Nat.pow_succ]; congr 1; omega
    have hle : 2 ^ b ≤ 2 ^ n := Nat.pow_le_pow_right (by omega) hn
    have hp := Nat.two_pow_pos (b - 1)
    have hn0 : (0 : Int) < 2 ^ n := by positivity
    have hle' : (2 : Int) ^ b ≤ 2 ^ n := by exact_mod_cast hle
    unfold signed bit
    rw [Nat.mod_eq_of_lt h]
    rcases Nat.lt_or_ge x (2 ^ (b - 1)) with hx | hx
    · rw [if_pos hx, Nat.div_eq_of_lt hx, Int.ediv_eq_zero_of_lt (by omega) (by exact_mod_cast h.trans_le hle)]
      simp [wrap]
    · have h1 : x / 2 ^ (b - 1) = 1 := by
        refine Nat.div_eq_of_lt_le (by omega) ?_
        omega
      have hneg : ((x : Int) - 2 ^ b) / 2 ^ n = -1 := by
        have hx' : (x : Int) < 2 ^ b := by exact_mod_cast h
        refine Int.ediv_eq_neg_one_of_neg_of_le ?_ ?_ <;> omega
      rw [if_neg (Nat.not_lt.mpr hx), h1, hneg, wrap]
      have hpos : (0 : Int) < 2 ^ b := by positivity
      have hm : (-1 : Int) % 2 ^ b = 2 ^ b - 1 := by
        rw [Int.neg_emod_eq_sub_emod, Int.emod_eq_of_lt] <;> omega
      rw [hm]
      simp
      have : ((2 : Int) ^ b) = ((2 ^ b : Nat) : Int) := by push_cast; rfl
      omega
  · rfl

theorem zipWith_congr_mem {α β γ : Type} {g h : α → β → γ} {l : List α} {m : List β}
    (H : ∀ x ∈ l, ∀ y ∈ m, g x y = h x y) : List.zipWith g l m = List.zipWith h l m := by
  rw [← List.map_uncurry_zip_eq_zipWith, ← List.map_uncurry_zip_eq_zipWith]
  refine List.map_congr_left fun p hp => ?_
  obtain ⟨hx, hy⟩ := List.of_mem_zip (a := p.1) (b := p.2) hp
  exact H _ hx _ hy

theorem width_pos {ty : Nat} (h : ty ≤ 14) : 0 < width ty := by
  interval_cases ty <;> decide

section
variable {f : VF} {o : VOps} (hty : tyOf f ≤ 14) (ha : o.a.length = f.span) (hl : f.long = none)
include hty ha hl

/-- An operation on the elements of two spans, in another spelling. -/
theorem elems_lift2_eq {raw : Bool} {op : Nat → Nat → Nat × Nat} {g : Nat → Nat → Nat} (hfm : f.fm = 0)
    (hb : o.b.length = f.span) (hop : ∀ x < 2 ^ wOf f, ∀ y, (op x y).1 = g x y ∧ g x y < 2 ^ wOf f) :
    elemsOf (wOf f) (lift2 f o raw op).vals = List.zipWith g (elemsOf (wOf f) o.a) (elemsOf (wOf f) o.b) := by
  refine (elems_lift2 ha (width_dvd hty) hfm hl hb fun x hx y _ => ?_).trans ?_
  · rw [(hop x hx y).1]
    exact (hop x hx y).2
  · exact zipWith_congr_mem fun x hx y _ => (hop x (elemsOf_lt hx) y).1

theorem elems_shifts (hfm : f.fm = 0) (hb : o.b.length = f.span) :
    let a := elemsOf (wOf f) o.a
    let b := elemsOf (wOf f) o.b
    let m := fun (y : Nat) => if wOf f = 4 then y % 16 else y % 256
    elemsOf (wOf f) (vshlRes f o).vals = List.zipWith (fun x y => x * 2 ^ m y % 2 ^ wOf f) a b ∧
    elemsOf (wOf f) (vshrRes f o).vals = List.zipWith (fun x y => x / 2 ^ m y) a b ∧
    elemsOf (wOf f) (vsraRes f o).vals = List.zipWith (fun x y => wrap (wOf f) (signed (wOf f) x / 2 ^ m y)) a b := by
  have hm : ∀ y, (if wOf f = 4 then y % 16 else y % 256) = shiftAmt (wOf f) y := fun y => by
    simp only [shiftAmt, beq_iff_eq]
  simp only [hm]
  exact ⟨elems_lift2_eq hty ha hl hfm hb fun x hx y => ⟨shl_eq _ _ _, Nat.mod_lt _ (Nat.two_pow_pos _)⟩,
    elems_lift2_eq hty ha hl hfm hb fun x hx y => ⟨shr_eq hx _, (Nat.div_le_self _ _).trans_lt hx⟩,
    elems_lift2_eq hty ha hl hfm hb fun x hx y => ⟨sra_eq (width_pos hty) hx _, wrap_lt _ _⟩⟩

end

/-! ## Comparisons (R395, T19.3) -/

/-- A condition of T19.3 on the sign of a difference. -/
def relOf (cond : Nat) (d : Int) : Bool := [d == 0, d != 0, decide (d < 0), decide (d ≤ 0), decide (0 < d), decide (0 ≤ d)].getD cond false

theorem vcond_int {ty : Nat} (h : isIntTy ty = true) (cond : Nat) (ftz : Bool) (x y : Nat) :
    (vcond ty cond ftz x y).1 = relOf cond (intVal ty x - intVal ty y) := by
  simp only [vcond, h, if_true, beq_iff_eq]
  split_ifs with hlt heq <;>
  match cond with
  | 0 | 1 | 2 | 3 | 4 | 5 => simp [relOf]; omega
  | _ + 6 => rfl

theorem vcond_nan {ty : Nat} (h : ¬isIntTy ty = true) {ftz : Bool} {x y : Nat} (cond : Nat)
    (hn : (((ffmt ty).read ftz x).isNan || ((ffmt ty).read ftz y).isNan) = true) :
    (vcond ty cond ftz x y).1 = (cond == 1 || cond == 6) := by
  simp only [vcond, if_neg h, if_pos hn]

theorem vcond_numbers {ty : Nat} (h : ¬isIntTy ty = true) {ftz : Bool} {x y : Nat} (cond : Nat)
    (hn : (((ffmt ty).read ftz x).isNan || ((ffmt ty).read ftz y).isNan) = false) :
    (vcond ty cond ftz x y).1 = relOf cond (((ffmt ty).read ftz x).cmp ((ffmt ty).read ftz y)) := by
  simp only [vcond, if_neg h, hn]
  match cond with
  | 0 | 1 | 2 | 3 | 4 | 5 => rfl
  | _ + 6 => rfl

/-- VCMP's mask and the bits of it that are written. -/
theorem vcmp_mask {f : VF} {o : VOps} (ha : o.a.length = f.span) (hl : f.long = none) (hb : o.b.length = f.span)
    (hn : nOf f ≤ 1024) : ∃ m en, (vcmpRes f o).mask = some (f.d.toNat % 16, m, en) ∧
      ∀ e < 1024, en.getLsbD e = (decide (nOf f ≤ e) || o.km.getLsbD e) ∧ (nOf f ≤ e → m.getLsbD e = false) ∧
        (e < nOf f → m.getLsbD e = (vcond (tyOf f) (f.c.toNat % 16) o.ftz ((elemsOf (wOf f) o.a).getD e 0)
          ((elemsOf (wOf f) o.b).getD e 0)).1) := by
  have hla : (elemsOf (wOf f) o.a).length = nOf f := aElems_length ha
  have hlb : (elemsOf (wOf f) o.b).length = nOf f := by rw [elemsOf_length, hb, nOf]
  have hlen : (List.zipWith (vcond (tyOf f) (f.c.toNat % 16) o.ftz) (aElems f o) (elemsOf (wOf f) o.b)).length = nOf f := by
    rw [List.length_zipWith, hlb, aElems_length ha, Nat.min_self]
  refine ⟨_, _, rfl, fun e he => ⟨?_, fun hge => ?_, fun hlt => ?_⟩⟩
  · rw [getLsbD_maskOf _ (by simp)]
    simp [List.getD_eq_getElem?_getD, he]
  · simp only [hl]
    rw [getLsbD_maskOf _ (by rw [List.length_map, hlen]; exact hn), List.getD_eq_default _ _ (by rw [List.length_map, hlen]; exact hge)]
  · have hea : e < (elemsOf (wOf f) o.a).length := by omega
    have heb : e < (elemsOf (wOf f) o.b).length := by omega
    simp only [hl]
    rw [getLsbD_maskOf _ (by rw [List.length_map, hlen]; exact hn)]
    simp [List.getD_eq_getElem?_getD, hea, heb, aElems]

/-! ## Conversions (R111, R397, R410) -/

/-- A number as an integer type: rounded, then clamped. -/
def limited (ty mode : Nat) (neg : Bool) (m : Nat) (e : Int) : Nat :=
  wrap (width ty) (max (tyMin ty) (min (tyMax ty) (FVal.toInt mode neg m e).1))

theorem toIntTy_fin (ty mode : Nat) (neg : Bool) (m : Nat) (e : Int) :
    (toIntTy ty mode (.fin neg m e)).1 = limited ty mode neg m e := by
  have h := tyMin_le_tyMax ty
  simp only [toIntTy, limited]
  split_ifs with h1 h2 hx
  · rw [min_eq_right (by omega), max_eq_left (by omega)]
  · rw [min_eq_left (by omega), max_eq_right h]
  all_goals rw [min_eq_right (by omega), max_eq_right (by omega)]

theorem toIntTy_lt (ty mode : Nat) (v : FVal) : (toIntTy ty mode v).1 < 2 ^ width ty := by
  cases v with
  | nan _ => exact Nat.two_pow_pos _
  | inf _ => exact wrap_lt _ _
  | fin neg m e =>
    rw [toIntTy_fin]
    exact wrap_lt _ _

theorem le_four_of_not_int {ty : Nat} (h : ty ≤ 14) (hi : ¬isIntTy ty = true) : ty ≤ 4 := by
  have := mt isIntTy_iff.mpr hi
  omega

theorem convert_lt {dst : Nat} (h : dst ≤ 14) (src mode : Nat) (sat ftz : Bool) (x : Nat) :
    (convert src dst mode sat ftz x).1 < 2 ^ width dst := by
  have hf : ∀ hi : ¬isIntTy dst = true, ∀ v, ((ffmt dst).round mode ftz v).1 < 2 ^ width dst := fun hi v => by
    rw [← width_ffmt (le_four_of_not_int h hi)]
    exact round_lt (ffmt_sound _) mode ftz v
  unfold convert
  dsimp only
  split_ifs with hs hd hd
  · exact intRes_lt _ _ _
  · exact hf hd _
  · exact toIntTy_lt _ _ _
  · exact hf hd _

/-- The value of a conversion (T6.4): an integer wrapped or clamped, a number rounded, NaN as 0. -/
def convValue (src dst mode : Nat) (sat ftz : Bool) (x : Nat) : Nat :=
  if isIntTy src then
    if isIntTy dst then wrap (width dst) (if sat then max (tyMin dst) (min (tyMax dst) (intVal src x)) else intVal src x)
    else ((ffmt dst).round mode ftz (ofIntVal (intVal src x))).1
  else if isIntTy dst then
    match (ffmt src).read ftz x with
    | .nan _ => 0
    | .inf neg => wrap (width dst) (if neg then tyMin dst else tyMax dst)
    | .fin neg m e => limited dst mode neg m e
  else ((ffmt dst).round mode ftz ((ffmt src).read ftz x)).1

theorem convert_fst (src dst mode : Nat) (sat ftz : Bool) (x : Nat) :
    (convert src dst mode sat ftz x).1 = convValue src dst mode sat ftz x := by
  unfold convert convValue
  dsimp only
  split
  · split
    · exact intRes_fst _ _ _
    · rfl
  · split
    · cases (ffmt src).read ftz x with
      | nan _ => rfl
      | inf _ => rfl
      | fin neg m e => exact toIntTy_fin _ _ _ _ _
    · rfl

/-- A conversion into registers that hold all its elements. -/
theorem getD_convertRes {f : VF} {o : VOps} (ha : o.a.length = f.span) (hd : f.dst ≤ 14) {regs : Nat}
    (hr : nOf f = regs * (4096 / width f.dst)) {e : Nat} (he : e < nOf f) :
    (elemsOf (width f.dst) (convertRes f o regs).vals).getD e 0 =
      convValue (tyOf f) f.dst f.rmode f.cvtSat o.ftz ((elemsOf (wOf f) o.a).getD e 0) := by
  rw [← convert_fst]
  have hla : (elemsOf (wOf f) o.a).length = nOf f := aElems_length ha
  have hea : e < (elemsOf (wOf f) o.a).length := by omega
  rw [convertRes, elems_masked (width_dvd hd) o.km (by rw [List.length_map, aElems_length ha, hr])]
  · simp [List.getD_eq_getElem?_getD, hea, aElems]
  · intro r hr
    obtain ⟨x, -, rfl⟩ := List.mem_map.mp hr
    exact convert_lt hd _ _ _ _ _

theorem width_ratio_up : ∀ ty ≤ 14, ∀ dst ≤ 14, width dst = 2 * width ty ∨ width dst = 4 * width ty →
    width dst / width ty * (4096 / width dst) = 4096 / width ty := by decide

theorem width_ratio_down : ∀ ty ≤ 14, ∀ dst ≤ 14, width ty = 2 * width dst ∨ width ty = 4 * width dst →
    (width ty / width dst = 2 ^ 1 ∨ width ty / width dst = 2 ^ 2) ∧
      4096 / width dst = width ty / width dst * (4096 / width ty) := by decide

theorem nOf_vwid {f : VF} (hty : tyOf f ≤ 14) (hd : f.dst ≤ 14) (h : width f.dst = 2 * wOf f ∨ width f.dst = 4 * wOf f) :
    nOf f = widRegs f * (4096 / width f.dst) := by
  rw [nOf, widRegs, Nat.mul_assoc]
  exact congrArg (f.span * ·) (width_ratio_up _ hty _ hd h).symm

theorem nOf_vnar {f : VF} (hty : tyOf f ≤ 14) (hd : f.dst ≤ 14) (h : wOf f = 2 * width f.dst ∨ wOf f = 4 * width f.dst)
    (hs : wOf f / width f.dst ≤ f.span) : nOf f = narRegs f * (4096 / width f.dst) := by
  obtain ⟨hk, hn⟩ := width_ratio_down _ hty _ hd h
  have hdvd : wOf f / width f.dst ∣ f.span := by
    have hs : wOf f / width f.dst ≤ 2 ^ f.sp.toNat := hs
    rcases hk with hk | hk <;> (rw [show wOf f / width f.dst = _ from hk] at hs ⊢)
    · exact Nat.pow_dvd_pow 2 ((Nat.pow_le_pow_iff_right (by omega)).mp hs)
    · exact Nat.pow_dvd_pow 2 ((Nat.pow_le_pow_iff_right (by omega)).mp hs)
  rw [nOf, narRegs, hn, ← Nat.mul_assoc]
  exact congrArg (· * _) (Nat.div_mul_cancel hdvd).symm

/-! ## Dot products (R154) -/

/-- The pairs of elements of group j of a dot product. -/
def dotPairs (f : VF) (o : VOps) (j : Nat) : List (Nat × Nat) :=
  (List.range (32 / wOf f)).map fun i => ((elemsOf (wOf f) o.a).getD (32 / wOf f * j + i) 0,
    (elemsOf (wOf f) o.b).getD (32 / wOf f * j + i) 0)

/-- The sum of a group of integer products and the addend. -/
def dotInt (ty : Nat) (ps : List (Nat × Nat)) (c : Nat) : Nat :=
  wrap 32 (ps.foldl (fun acc p => acc + intVal ty p.1 * intVal ty p.2) (signed 32 c))

/-- The exact sum of a group of floating-point products and the addend, with flags. -/
def dotSum (ty : Nat) (ftz : Bool) (ps : List (Nat × Nat)) (c : Nat) : FVal × Nat :=
  ps.foldl (fun (acc : FVal × Nat) p =>
    let m := ((ffmt ty).read ftz p.1).mul ((ffmt ty).read ftz p.2)
    let s := acc.1.add m.1
    (s.1, acc.2 ||| m.2 ||| s.2)) ((ffmt 0).read ftz c, sigFlag ((ffmt 0).read ftz c))

/-- An element of a dot product. -/
def dotElem (f : VF) (o : VOps) (j c : Nat) : Nat :=
  if isIntTy (tyOf f) then dotInt (tyOf f) (dotPairs f o j) c
  else ((ffmt 0).round 0 o.ftz (dotSum (tyOf f) o.ftz (dotPairs f o j) c).1).1

theorem getD_vdot {f : VF} {o : VOps} (hc : o.c.length = f.span) {j : Nat} (hj : j < f.span * 128) :
    (elemsOf 32 (vdotRes f o).vals).getD j 0 = dotElem f o j ((elemsOf 32 o.c).getD j 0) := by
  have hlc : (elemsOf 32 o.c).length = f.span * 128 := by rw [elemsOf_length, hc]
  unfold vdotRes
  dsimp only
  rw [elems_masked (by decide), zipIdx_eq_range hlc, List.map_map, List.map_map, List.getD_eq_getElem?_getD, List.getElem?_map,
    List.getElem?_range hj]
  · simp only [Option.map_some, Option.getD_some, Function.comp_def, dotElem, dotInt, dotSum, dotPairs, aElems]
    split <;> simp
  · rw [List.length_map, List.length_zipIdx, hlc]
  · intro r hr
    obtain ⟨x, -, rfl⟩ := List.mem_map.mp hr
    split
    · exact wrap_lt _ _
    · exact round_lt (ffmt_sound 0) _ _ _

theorem dotInt_eq (ty c : Nat) (ps : List (Nat × Nat)) :
    dotInt ty ps c = wrap 32 (signed 32 c + (ps.map fun p => intVal ty p.1 * intVal ty p.2).sum) := by
  rw [dotInt]
  congr 1
  generalize signed 32 c = z
  induction ps generalizing z with
  | nil => simp
  | cons p ps ih => simp [ih, Int.add_assoc]

theorem dotSum_fst (ty c : Nat) (ftz : Bool) (ps : List (Nat × Nat)) :
    (dotSum ty ftz ps c).1 = ps.foldl (fun v p =>
      (v.add (((ffmt ty).read ftz p.1).mul ((ffmt ty).read ftz p.2)).1).1) ((ffmt 0).read ftz c) := by
  rw [dotSum]
  generalize sigFlag _ = fl
  generalize (ffmt 0).read ftz c = v
  induction ps generalizing v fl with
  | nil => rfl
  | cons p ps ih => exact ih _ _

theorem dotElem_int {f : VF} (h : isIntTy (tyOf f) = true) (o : VOps) (j c : Nat) :
    let z := fun e => intVal (tyOf f) e
    let g := 32 / wOf f
    dotElem f o j c = wrap 32 (signed 32 c + ((List.range g).map fun i =>
      z ((elemsOf (wOf f) o.a).getD (g * j + i) 0) * z ((elemsOf (wOf f) o.b).getD (g * j + i) 0)).sum) := by
  rw [dotElem, if_pos h, dotInt_eq, dotPairs, List.map_map]
  rfl

theorem dotElem_fp {f : VF} (h : ¬isIntTy (tyOf f) = true) (o : VOps) (j c : Nat) :
    let rd := (ffmt (tyOf f)).read o.ftz
    let g := 32 / wOf f
    dotElem f o j c = ((ffmt 0).round 0 o.ftz ((List.range g).foldl (fun v i =>
      (v.add ((rd ((elemsOf (wOf f) o.a).getD (g * j + i) 0)).mul (rd ((elemsOf (wOf f) o.b).getD (g * j + i) 0))).1).1)
        ((ffmt 0).read o.ftz c))).1 := by
  rw [dotElem, if_neg h, dotSum_fst, dotPairs, List.foldl_map]

/-! ## VPERM (R153) -/

theorem elems_vperm {f : VF} {o : VOps} (hty : tyOf f ≤ 14)
    (hb : o.b.length = (nOf f + 255) / 256) : elemsOf (wOf f) (vpermRes f o).vals = (List.range (nOf f)).map fun e =>
      if (elemsOf 16 o.b).getD e 0 < nOf f then (elemsOf (wOf f) o.a).getD ((elemsOf 16 o.b).getD e 0) 0 else 0 := by
  have hlb : nOf f ≤ (elemsOf 16 o.b).length := by
    rw [elemsOf_length, hb]
    omega
  refine elemsOf_regsOf_eq (width_dvd hty) (fun e he => ?_) fun e _ => ?_
  · have he : e < nOf f := he
    have heb : e < (elemsOf 16 o.b).length := by omega
    simp [List.getD_eq_getElem?_getD, he, heb, aElems]
  · split
    · exact getD_elemsOf_lt _ _ _
    · exact Nat.two_pow_pos _

end Sys2Proof.Machine
end

section
/-! SUPPORT. Reductions, scans and the largest magnitude, in element order (R149, R392, R418). -/

namespace Sys2Proof.Machine

/-! ## Steps and identities (R149) -/

theorem redStep_lt {ty : Nat} (h : isIntTy ty = true ∨ ty ≤ 2) (op : Nat) (ftz : Bool) (x y : Nat) :
    (redStep ty op ftz x y).1 < 2 ^ width ty := by
  have hf : ¬isIntTy ty = true → ∀ z v, ((ffmt ty).round 0 z v).1 < 2 ^ width ty := fun hi z v => by
    rw [← width_ffmt ((h.resolve_left hi).trans (by omega))]
    exact round_lt (ffmt_sound _) 0 z v
  unfold redStep
  split
  · exact wrap_lt _ _
  · next hi =>
    split
    · exact hf hi _ _
    · exact hf hi _ _

theorem redIdentity_lt {ty : Nat} (h : isIntTy ty = true ∨ ty ≤ 2) (op : Nat) : redIdentity ty op < 2 ^ width ty := by
  unfold redIdentity
  split_ifs with h0 hi
  · exact Nat.two_pow_pos _
  · exact wrap_lt _ _
  · exact wrap_lt _ _
  · have h2 := h.resolve_left hi
    rw [← width_ffmt (h2.trans (by omega))]
    refine signed_lt (ffmt_sound _) _ (maxCode_succ_lt (ffmt_sound _) ?_)
    interval_cases ty <;> rfl

/-- A step of a reduction, as R149 states it. -/
theorem redStep_fst (ty op : Nat) (ftz : Bool) (x y : Nat) : (redStep ty op ftz x y).1 =
    if isIntTy ty then wrap (width ty) (if op = 0 then intVal ty x + intVal ty y
      else if op = 1 then max (intVal ty x) (intVal ty y) else min (intVal ty x) (intVal ty y))
    else if op = 0 then ((ffmt ty).round 0 ftz (((ffmt ty).read ftz x).add ((ffmt ty).read ftz y)).1).1
    else ((ffmt ty).round 0 false (FVal.minmax (op == 1) ((ffmt ty).read ftz x) ((ffmt ty).read ftz y)).1).1 := by
  unfold redStep
  simp only [beq_iff_eq]
  split_ifs <;> rfl

theorem redIdentity_eq (ty op : Nat) : redIdentity ty op = if op = 0 then 0
    else if isIntTy ty then wrap (width ty) (if op = 1 then tyMin ty else tyMax ty)
    else (ffmt ty).signed (op == 1) ((ffmt ty).maxCode + 1) := by
  unfold redIdentity
  simp only [beq_iff_eq]

/-! ## VRED (R418) -/

/-- The elements that the mask enables. -/
def enabledElems (f : VF) (o : VOps) : List Nat :=
  ((elemsOf (wOf f) o.a).zipIdx.filter fun x => maskBit o.km x.2).map (·.1)

theorem foldl_fst {α β γ : Type} (g : α → β → α) (h : α × γ → β → γ) (l : List β) (a : α) (c : γ) :
    (l.foldl (fun (acc : α × γ) x => (g acc.1 x, h acc x)) (a, c)).1 = l.foldl g a := by
  induction l generalizing a c with
  | nil => rfl
  | cons x l ih => exact ih _ _

/-- What a one-element result leaves in its register. -/
theorem getD_elemsOf_single {w : Nat} (hw : w ∣ 4096) {x : Nat} (hx : x < 2 ^ w) (e : Nat) :
    (elemsOf w (regsOf w 1 [x])).getD e 0 = if e = 0 then x else 0 := by
  have h0 : 0 < 4096 / w := Nat.div_pos (Nat.le_of_dvd (by omega) hw) (Nat.pos_of_dvd_of_pos hw (by omega))
  rw [elemsOf_regsOf_getD hw, List.getD_eq_getElem?_getD, List.getElem?_map]
  rcases Nat.lt_or_ge e (1 * (4096 / w)) with he | he
  · rw [List.getElem?_range he]
    cases e with
    | zero => exact Nat.mod_eq_of_lt hx
    | succ e => simp
  · rw [List.getElem?_eq_none (by simpa using he), if_neg (by omega)]
    rfl

section
variable {f : VF} {o : VOps} (hty : tyOf f ≤ 14) (hk : isIntTy (tyOf f) = true ∨ tyOf f ≤ 2)
include hty hk

theorem getD_vred (e : Nat) : (elemsOf (wOf f) (vredRes f o).vals).getD e 0 = if e = 0 then
    (enabledElems f o).foldl (fun x y => (redStep (tyOf f) (f.c.toNat % 4) o.ftz x y).1)
      (redIdentity (tyOf f) (f.c.toNat % 4)) else 0 := by
  have hlt : (enabledElems f o).foldl (fun x y => (redStep (tyOf f) (f.c.toNat % 4) o.ftz x y).1)
      (redIdentity (tyOf f) (f.c.toNat % 4)) < 2 ^ wOf f :=
    List.foldlRecOn (motive := (· < 2 ^ wOf f)) _ _ (redIdentity_lt hk _) fun x _ y _ => redStep_lt hk _ _ x y
  have hval : (vredRes f o).vals = regsOf (wOf f) 1 [(enabledElems f o).foldl
      (fun x y => (redStep (tyOf f) (f.c.toNat % 4) o.ftz x y).1) (redIdentity (tyOf f) (f.c.toNat % 4))] :=
    congrArg (fun x => regsOf (wOf f) 1 [x]) (foldl_fst (fun x y => (redStep (tyOf f) (f.c.toNat % 4) o.ftz x y).1)
      (fun acc x => acc.2 ||| (redStep (tyOf f) (f.c.toNat % 4) o.ftz acc.1 x).2) _ _ _)
  rw [hval, getD_elemsOf_single (w := wOf f) (width_dvd hty) hlt]

end

/-! ## SCAN (R149) -/

/-- A scan starts anew at an element: at the first one, and with segments at an enabled one. -/
def scanStarts (f : VF) (o : VOps) (e : Nat) : Bool := e == 0 || (f.c.getLsbD 3 && maskBit o.km e)

/-- What a scan holds after k elements. -/
def scanState (f : VF) (o : VOps) : Nat → Nat
  | 0 => 0
  | k + 1 => (redStep (tyOf f) (f.c.toNat % 4) o.ftz
      (if scanStarts f o k then redIdentity (tyOf f) (f.c.toNat % 4) else scanState f o k) ((elemsOf (wOf f) o.a).getD k 0)).1

/-- What a scan holds before element e is combined with it. -/
def scanIn (f : VF) (o : VOps) (e : Nat) : Nat :=
  if scanStarts f o e then redIdentity (tyOf f) (f.c.toNat % 4) else scanState f o e

/-- Element e of a scan. -/
def scanOut (f : VF) (o : VOps) (e : Nat) : Nat := if f.c.getLsbD 2 then scanIn f o e else scanState f o (e + 1)

/-- One step of SCAN over the elements and their numbers: the results so far, what it holds, the flags. -/
def scanStep (f : VF) (o : VOps) (s : List Nat × Nat × Nat) (x : Nat × Nat) : List Nat × Nat × Nat :=
  let acc := if scanStarts f o x.2 then redIdentity (tyOf f) (f.c.toNat % 4) else s.2.1
  let n := redStep (tyOf f) (f.c.toNat % 4) o.ftz acc x.1
  ((if f.c.getLsbD 2 then acc else n.1) :: s.1, n.1, s.2.2 ||| n.2)

theorem foldl_scanStep (f : VF) (o : VOps) (k : Nat) : ∃ fl,
    ((List.range k).map fun e => ((elemsOf (wOf f) o.a).getD e 0, e)).foldl (scanStep f o) ([], 0, 0) =
      (((List.range k).map (scanOut f o)).reverse, scanState f o k, fl) := by
  induction k with
  | zero => exact ⟨0, rfl⟩
  | succ k ih =>
    obtain ⟨fl, ih⟩ := ih
    refine ⟨fl ||| (redStep (tyOf f) (f.c.toNat % 4) o.ftz (scanIn f o k) ((elemsOf (wOf f) o.a).getD k 0)).2, ?_⟩
    rw [List.range_succ, List.map_append, List.foldl_append, ih, List.map_append, List.reverse_append]
    rfl

section
variable {f : VF} {o : VOps} (hty : tyOf f ≤ 14) (hk : isIntTy (tyOf f) = true ∨ tyOf f ≤ 2)
include hk

theorem scanState_lt (k : Nat) : scanState f o k < 2 ^ wOf f := by
  cases k with
  | zero => exact Nat.two_pow_pos _
  | succ k => exact redStep_lt hk _ _ _ _

theorem scanOut_lt (e : Nat) : scanOut f o e < 2 ^ wOf f := by
  unfold scanOut scanIn
  split_ifs
  · exact redIdentity_lt hk _
  · exact scanState_lt hk _
  · exact scanState_lt hk _

include hty

theorem getD_scan (ha : o.a.length = f.span) {e : Nat} (he : e < nOf f) :
    (elemsOf (wOf f) (scanRes f o).vals).getD e 0 = scanOut f o e := by
  obtain ⟨fl, hfold⟩ := foldl_scanStep f o (nOf f)
  have hz : (aElems f o).zipIdx = (List.range (nOf f)).map fun e => ((elemsOf (wOf f) o.a).getD e 0, e) :=
    zipIdx_eq_range (aElems_length ha)
  have hvals : (scanRes f o).vals = regsOf (wOf f) f.span ((List.range (nOf f)).map (scanOut f o)) := by
    show regsOf (wOf f) f.span (((aElems f o).zipIdx.foldl (scanStep f o) ([], 0, 0)).1.reverse) = _
    rw [hz, hfold, List.reverse_reverse]
  rw [hvals, elemsOf_regsOf_eq (w := wOf f) (g := scanOut f o) (width_dvd hty) (fun i hi => ?_) fun i _ => scanOut_lt hk i]
  · have he : e < f.span * (4096 / wOf f) := he
    simp [List.getD_eq_getElem?_getD, he]
  · have hi : i < nOf f := hi
    simp [List.getD_eq_getElem?_getD, hi]

omit hty hk in
theorem scanStarts_iff (e : Nat) :
    scanStarts f o e = true ↔ e = 0 ∨ (f.c.getLsbD 3 = true ∧ maskBit o.km e = true) := by
  simp [scanStarts]

/-- SCAN, inclusive and exclusive, one element from the one before. -/
theorem scan_elements (ha : o.a.length = f.span) {e : Nat} (he : e < nOf f) :
    let comb := fun x y => (redStep (tyOf f) (f.c.toNat % 4) o.ftz x y).1
    let first := redIdentity (tyOf f) (f.c.toNat % 4)
    let a := elemsOf (wOf f) o.a
    let starts := e = 0 ∨ (f.c.getLsbD 3 = true ∧ maskBit o.km e = true)
    let r := elemsOf (wOf f) (scanRes f o).vals
    (f.c.getLsbD 2 = false → r.getD e 0 = comb (if starts then first else r.getD (e - 1) 0) (a.getD e 0)) ∧
    (f.c.getLsbD 2 = true →
      r.getD e 0 = if starts then first else comb (r.getD (e - 1) 0) (a.getD (e - 1) 0)) := by
  have he' : e - 1 < nOf f := by omega
  have hpred : ¬scanStarts f o e = true → e - 1 + 1 = e := fun hs => by
    have : e ≠ 0 := fun h => hs ((scanStarts_iff e).mpr (.inl h))
    omega
  simp only [← scanStarts_iff (f := f) (o := o) e]
  refine ⟨fun hx => ?_, fun hx => ?_⟩
  · rw [getD_scan hty hk ha he, getD_scan hty hk ha he', scanOut, scanOut, hx, if_neg Bool.false_ne_true,
      if_neg Bool.false_ne_true, scanState]
    split
    · rfl
    · next hs => rw [hpred hs]
  · rw [getD_scan hty hk ha he, getD_scan hty hk ha he', scanOut, scanOut, hx, if_pos rfl, if_pos rfl]
    conv => lhs; rw [scanIn]
    split
    · rfl
    · next hs =>
      conv => lhs; rw [← hpred hs, scanState]
      rfl

end

/-! ## The largest magnitude (R392) -/

/-- A magnitude as a rational number, or as infinity. -/
def FVal.magnitude : FVal → WithTop ℚ
  | .fin _ m e => ((m * 2 ^ e : ℚ) : WithTop ℚ)
  | _ => ⊤

theorem scaled_magnitude (m : Nat) {e k : Int} (h : k ≤ e) : ((scaled false m e k : Int) : ℚ) = m * 2 ^ e * 2 ^ (-k) := by
  have hz : (2 : ℚ) ^ (e - k).toNat = 2 ^ e * 2 ^ (-k) := by
    rw [← zpow_natCast, Int.toNat_of_nonneg (by omega), ← zpow_add₀ (by norm_num)]
    rfl
  simp [scaled, hz, mul_assoc]

theorem cmp_fin_magnitude (ma mb : Nat) (ea eb : Int) :
    ((FVal.fin false ma ea).cmp (.fin false mb eb) < 0 ↔ (ma * 2 ^ ea : ℚ) < mb * 2 ^ eb) ∧
      ((FVal.fin false ma ea).cmp (.fin false mb eb) ≤ 0 ↔ (ma * 2 ^ ea : ℚ) ≤ mb * 2 ^ eb) := by
  have hp : (0 : ℚ) < 2 ^ (-(min ea eb)) := by positivity
  have ha := scaled_magnitude ma (Int.min_le_left ea eb)
  have hb := scaled_magnitude mb (Int.min_le_right ea eb)
  have hlt : scaled false ma ea (min ea eb) < scaled false mb eb (min ea eb) ↔ (ma * 2 ^ ea : ℚ) < mb * 2 ^ eb := by
    rw [← Int.cast_lt (R := ℚ), ha, hb, mul_lt_mul_iff_left₀ hp]
  have hle : scaled false ma ea (min ea eb) ≤ scaled false mb eb (min ea eb) ↔ (ma * 2 ^ ea : ℚ) ≤ mb * 2 ^ eb := by
    rw [← Int.cast_le (R := ℚ), ha, hb, mul_le_mul_iff_left₀ hp]
  rw [← hlt, ← hle]
  simp only [FVal.cmp, beq_iff_eq]
  split_ifs <;> omega

/-- Magnitudes compare as their rational numbers do. -/
theorem cmp_abs_magnitude {x y : FVal} (hx : x.isNan = false) (hy : y.isNan = false) :
    (x.abs.cmp y.abs < 0 ↔ x.magnitude < y.magnitude) ∧ (x.abs.cmp y.abs ≤ 0 ↔ x.magnitude ≤ y.magnitude) := by
  cases x with
  | nan _ => cases hx
  | inf nx =>
    cases y with
    | nan _ => cases hy
    | inf ny => simp [FVal.abs, FVal.cmp, FVal.magnitude]
    | fin ny my ey =>
      exact ⟨iff_of_false (by simp [FVal.abs, FVal.cmp]) not_top_lt,
        iff_of_false (by simp [FVal.abs, FVal.cmp]) (not_le.mpr (WithTop.coe_lt_top _))⟩
  | fin nx mx ex =>
    cases y with
    | nan _ => cases hy
    | inf ny =>
      exact ⟨iff_of_true (by simp [FVal.abs, FVal.cmp]) (WithTop.coe_lt_top _),
        iff_of_true (by simp [FVal.abs, FVal.cmp]) le_top⟩
    | fin ny my ey =>
      obtain ⟨hlt, hle⟩ := cmp_fin_magnitude mx my ex ey
      exact ⟨hlt.trans WithTop.coe_lt_coe.symm, hle.trans WithTop.coe_le_coe.symm⟩

/-- VAMAX's step: the larger magnitude, NaNs left out. -/
def largerMag (a x : FVal) : FVal := if !x.isNan && decide (a.cmp x.abs < 0) then x.abs else a

/-- A value that is its own magnitude. -/
def FVal.IsMag (m : FVal) : Prop := m.isNan = false ∧ m.abs = m

theorem isMag_abs {x : FVal} (h : x.isNan = false) : x.abs.IsMag := by
  cases x with
  | nan _ => cases h
  | inf _ => exact ⟨rfl, rfl⟩
  | fin _ _ _ => exact ⟨rfl, rfl⟩

theorem magnitude_abs (x : FVal) : x.abs.magnitude = x.magnitude := by cases x <;> rfl

theorem largerMag_spec {a x : FVal} (ha : a.IsMag) (hx : x.isNan = false) : (largerMag a x = a ∨ largerMag a x = x.abs) ∧
    (largerMag a x).IsMag ∧ a.magnitude ≤ (largerMag a x).magnitude ∧ x.magnitude ≤ (largerMag a x).magnitude := by
  have hc : a.cmp x.abs < 0 ↔ a.magnitude < x.magnitude := by
    rw [← (cmp_abs_magnitude ha.1 hx).1, ha.2]
  unfold largerMag
  simp only [hx, Bool.not_false, Bool.true_and, decide_eq_true_eq, hc]
  split
  · next h =>
    rw [magnitude_abs]
    exact ⟨.inr rfl, isMag_abs hx, h.le, le_refl _⟩
  · next h => exact ⟨.inl rfl, ha, le_refl _, not_lt.mp h⟩

theorem foldl_largerMag : ∀ {xs : List FVal} {a : FVal}, a.IsMag → xs.any FVal.isNan = false →
    (xs.foldl largerMag a = a ∨ ∃ x ∈ xs, xs.foldl largerMag a = x.abs) ∧ (xs.foldl largerMag a).IsMag ∧
      a.magnitude ≤ (xs.foldl largerMag a).magnitude ∧ ∀ x ∈ xs, x.magnitude ≤ (xs.foldl largerMag a).magnitude
  | [], a, ha, _ => ⟨.inl rfl, ha, le_refl _, by simp⟩
  | x :: xs, a, ha, hn => by
    obtain ⟨hx, hxs⟩ := Bool.or_eq_false_iff.mp (List.any_cons.symm.trans hn)
    obtain ⟨hstep, hmag, hle, hlex⟩ := largerMag_spec ha hx
    obtain ⟨hres, hmag', hle', hall⟩ := foldl_largerMag hmag hxs
    refine ⟨?_, hmag', hle.trans hle', List.forall_mem_cons.mpr ⟨hlex.trans hle', hall⟩⟩
    rcases hres with hres | ⟨y, hy, hres⟩
    · rcases hstep with hstep | hstep
      · exact .inl (hres.trans hstep)
      · exact .inr ⟨x, List.mem_cons_self, hres.trans hstep⟩
    · exact .inr ⟨y, List.mem_cons_of_mem _ hy, hres⟩

theorem getD_vamax (f : VF) (o : VOps) :
    let xs := (enabledElems f o).map ((ffmt (tyOf f)).read o.ftz)
    (elemsOf 32 (vamaxRes f o).vals).getD 0 0 = if xs.any FVal.isNan then 0x7FC00000
      else ((ffmt 0).round 0 false (xs.foldl largerMag (.fin false 0 0))).1 := by
  intro xs
  have hxs : ((aElems f o).zipIdx.filter fun x => maskBit o.km x.2).map (fun x => (ffmt (tyOf f)).read o.ftz x.1) = xs := by
    simp only [xs, enabledElems, List.map_map]
    rfl
  unfold vamaxRes whole
  dsimp only
  rw [hxs, getD_elemsOf_single (by decide) ?_, if_pos rfl]
  · rfl
  · split
    · decide
    · exact round_lt (ffmt_sound 0) _ _ _

/-- The largest magnitude of the enabled elements (R392). -/
theorem vamax_spec (f : VF) (o : VOps) :
    let d := (elemsOf 32 (vamaxRes f o).vals).getD 0 0
    let xs := (enabledElems f o).map ((ffmt (tyOf f)).read o.ftz)
    (xs.any FVal.isNan = true → d = 0x7FC00000) ∧
    (xs.any FVal.isNan = false → ∃ m, (m = .fin false 0 0 ∨ ∃ x ∈ xs, m = x.abs) ∧ d = ((ffmt 0).round 0 false m).1 ∧
      ∀ x ∈ xs, x.abs.cmp m ≤ 0) := by
  intro d xs
  have hd : d = _ := getD_vamax f o
  refine ⟨fun hn => hd.trans (if_pos hn), fun hn => ?_⟩
  obtain ⟨hres, hmag, -, hall⟩ := foldl_largerMag (a := .fin false 0 0) ⟨rfl, rfl⟩ hn
  refine ⟨_, hres, hd.trans (if_neg (by rw [hn]; exact Bool.false_ne_true)), fun x hx => ?_⟩
  have hxn : x.isNan = false := by
    cases h : x.isNan with
    | false => rfl
    | true => rw [List.any_eq_true.mpr ⟨x, hx, h⟩] at hn; cases hn
  have := (cmp_abs_magnitude hxn hmag.1).2.mpr (hall x hx)
  rwa [hmag.2] at this

end Sys2Proof.Machine
end

section
/-! SUPPORT. The sort unit (R150, R151): the stable sort, SORTK's groups and SELK's ranks. -/

namespace Sys2Proof.Machine

/-! ## The stable sort -/

section
variable {α : Type} {lt : α → α → Bool}

theorem insertBy_perm (x : α) (l : List α) : (insertBy lt x l).Perm (x :: l) := by
  induction l with
  | nil => exact .refl _
  | cons y l ih =>
    unfold insertBy
    split
    · exact (ih.cons y).trans (.swap x y l)
    · exact .refl _

theorem sortBy_perm (l : List α) : (sortBy lt l).Perm l := by
  induction l with
  | nil => exact .refl _
  | cons x l ih => exact (insertBy_perm x _).trans (ih.cons x)

/-- Insertion keeps an order under which what is less goes before, and the rest after. -/
theorem insertBy_pairwise {R : α → α → Prop} {x : α} {l : List α} (hlt : ∀ y, lt y x = true → R y x)
    (hge : ∀ y ∈ l, lt y x = false → R x y) (htrans : ∀ y ∈ l, ∀ z ∈ l, lt y x = false → R y z → R x z)
    (hl : l.Pairwise R) : (insertBy lt x l).Pairwise R := by
  induction l with
  | nil => exact List.pairwise_singleton _ _
  | cons y l ih =>
    obtain ⟨hy, hl'⟩ := List.pairwise_cons.mp hl
    unfold insertBy
    split
    · next hyx =>
      refine List.pairwise_cons.mpr ⟨fun z hz => ?_, ih (fun z hz => hge z (.tail _ hz))
        (fun u hu v hv => htrans u (.tail _ hu) v (.tail _ hv)) hl'⟩
      rcases List.mem_cons.mp ((insertBy_perm x l).mem_iff.mp hz) with rfl | hz
      · exact hlt y hyx
      · exact hy z hz
    · next hyx =>
      have hyx : lt y x = false := by simpa using hyx
      refine List.pairwise_cons.mpr ⟨fun z hz => ?_, hl⟩
      rcases List.mem_cons.mp hz with rfl | hz'
      · exact hge z hz hyx
      · exact htrans y List.mem_cons_self z hz hyx (hy z hz')

/-- Insertion leaves in their order the elements of a class that x is in and nothing less than x is in. -/
theorem filter_insertBy {p : α → Bool} {x : α} (h : p x = true → ∀ y, lt y x = true → p y = false) (l : List α) :
    (insertBy lt x l).filter p = (x :: l).filter p := by
  induction l with
  | nil => rfl
  | cons y l ih =>
    unfold insertBy
    split
    · next hyx =>
      rw [List.filter_cons, ih]
      cases hx : p x with
      | true => simp [h hx y hyx, hx]
      | false => simp [List.filter_cons, hx]
    · rfl

theorem filter_sortBy {p : α → Bool} (h : ∀ x y, p x = true → lt y x = true → p y = false) (l : List α) :
    (sortBy lt l).filter p = l.filter p := by
  induction l with
  | nil => rfl
  | cons x l ih =>
    show (insertBy lt x (sortBy lt l)).filter p = _
    rw [filter_insertBy fun hx y => h x y hx, List.filter_cons, List.filter_cons, ih]

variable {k : α → Int} (hk : ∀ x y, lt x y = decide (k x < k y))
include hk

theorem sortBy_sorted (l : List α) : (sortBy lt l).Pairwise fun x y => k x ≤ k y := by
  induction l with
  | nil => exact .nil
  | cons x l ih =>
    refine insertBy_pairwise (fun y h => ?_) (fun y _ h => ?_) (fun y _ z _ h => ?_) ih
    all_goals simp only [hk, decide_eq_true_eq, decide_eq_false_iff_not] at h
    · exact h.le
    · exact not_lt.mp h
    · exact (not_lt.mp h).trans

/-- Elements with equal keys stay in the order of their numbers. -/
theorem sortBy_sorted_stable {i : α → Nat} {l : List α} (hl : l.Pairwise fun x y => i x < i y) :
    (sortBy lt l).Pairwise fun x y => k x < k y ∨ (k x = k y ∧ i x < i y) := by
  induction l with
  | nil => exact .nil
  | cons x l ih =>
    obtain ⟨hx, hl'⟩ := List.pairwise_cons.mp hl
    have hx' : ∀ y ∈ sortBy lt l, i x < i y := fun y hy => hx y ((sortBy_perm l).mem_iff.mp hy)
    refine insertBy_pairwise (fun y h => ?_) (fun y hy h => ?_) (fun y _ z hz h hr => ?_) (ih hl')
    all_goals simp only [hk, decide_eq_true_eq, decide_eq_false_iff_not] at h
    · exact .inl h
    · rcases lt_or_eq_of_le (not_lt.mp h) with h | h
      · exact .inl h
      · exact .inr ⟨h, hx' y hy⟩
    · have hxz := hx' z hz
      omega

end

/-! ## Groups -/

theorem flatMap_groups_perm {α : Type} {F : List α → List α} (hF : ∀ l, (F l).Perm l) (g : Nat) :
    ∀ (m : Nat) {l : List α}, l.length = m * g → ((groupsOf g m l).flatMap F).Perm l
  | 0, l, h => by
    rw [Nat.zero_mul, List.length_eq_zero_iff] at h
    rw [h]
    exact .refl _
  | m + 1, l, h => by
    have ih := flatMap_groups_perm hF g m (l := l.drop g) (by rw [List.length_drop, h, Nat.succ_mul]; omega)
    exact ((hF (l.take g)).append ih).trans (.of_eq (List.take_append_drop g l))

/-- What is done group by group stands group by group. -/
theorem group_of_flatMap {α : Type} {F : List α → List α} (hF : ∀ l, (F l).Perm l) (g : Nat) : ∀ (m : Nat) {l : List α},
    l.length = m * g → ∀ j < m, (((groupsOf g m l).flatMap F).drop (j * g)).take g = F ((l.drop (j * g)).take g)
  | m + 1, l, h, j, hj => by
    have hlen : (F (l.take g)).length = g := by
      rw [(hF _).length_eq, List.length_take, h, Nat.succ_mul]
      omega
    have hcons : (groupsOf g (m + 1) l).flatMap F = F (l.take g) ++ (groupsOf g m (l.drop g)).flatMap F := rfl
    rw [hcons]
    cases j with
    | zero => rw [Nat.zero_mul, List.drop_zero, List.drop_zero, List.take_left' hlen]
    | succ j =>
      have ih := group_of_flatMap hF g m (l := l.drop g) (by rw [List.length_drop, h, Nat.succ_mul]; omega) j (by omega)
      rw [Nat.succ_mul, Nat.add_comm (j * g), ← List.drop_drop, List.drop_left' hlen, ih, List.drop_drop]

/-- An entry of lists of one length, one after the other. -/
theorem getD_flatMap_uniform {K : Nat} : ∀ {L : List (List Nat)}, (∀ l ∈ L, l.length = K) → ∀ (j : Nat) {i : Nat}, i < K →
    (L.flatMap id).getD (j * K + i) 0 = (L.getD j []).getD i 0
  | [], _, j, i, _ => by simp
  | l :: L, h, j, i, hi => by
    have hl : l.length = K := h l List.mem_cons_self
    have hcons : (l :: L).flatMap id = l ++ L.flatMap id := rfl
    rw [hcons]
    cases j with
    | zero =>
      rw [Nat.zero_mul, Nat.zero_add, List.getD_append _ _ _ _ (by omega)]
      rfl
    | succ j =>
      have ih := getD_flatMap_uniform (fun l' h' => h l' (.tail _ h')) j hi
      rw [Nat.succ_mul, List.getD_append_right _ _ _ _ (by omega), hl,
        show j * K + K + i - K = j * K + i by omega, ih]
      rfl

/-! ## SORTK (R151) -/

/-- The order of SORTK on integer keys: downwards under bit 4. -/
def sortOrder (f : VF) (p : Nat × Nat) : Int := if f.c.getLsbD 4 then -intVal (tyOf f) p.1 else intVal (tyOf f) p.1

/-- SORTK's comparison. -/
def sortLt (f : VF) (o : VOps) : Nat × Nat → Nat × Nat → Bool :=
  let lt := fun (a b : Nat × Nat) => keyBelow (tyOf f) o.ftz false a.1 b.1
  if f.c.getLsbD 4 then fun a b => lt b a else lt

theorem sortLt_int {f : VF} {o : VOps} (h : isIntTy (tyOf f) = true) (p q : Nat × Nat) :
    sortLt f o p q = decide (sortOrder f p < sortOrder f q) := by
  unfold sortLt sortOrder keyBelow
  cases hd : f.c.getLsbD 4 <;> simp [h]

/-- SORTK's pairs, sorted group by group. -/
def sortedPairs (f : VF) (o : VOps) : List (Nat × Nat) :=
  (groupsOf f.sortG (nOf f / f.sortG) ((elemsOf (wOf f) o.a).zip (elemsOf (wOf f) o.b))).flatMap (sortBy (sortLt f o))

/-- Elements that fill their registers read back. -/
theorem elemsOf_regsOf_full {w n : Nat} (hw : w ∣ 4096) {l : List Nat} (hl : l.length = n * (4096 / w)) (h : ∀ x ∈ l, x < 2 ^ w) :
    elemsOf w (regsOf w n l) = l :=
  (elemsOf_regsOf hw n l hl).trans ((List.map_congr_left fun x hx => Nat.mod_eq_of_lt (h x hx)).trans (List.map_id' l))

section
variable {f : VF} {o : VOps} (hint : isIntTy (tyOf f) = true) (ha : o.a.length = f.span) (hb : o.b.length = f.span)
include ha hb

theorem length_pairs : ((elemsOf (wOf f) o.a).zip (elemsOf (wOf f) o.b)).length = nOf f := by
  rw [List.length_zip, elemsOf_length, elemsOf_length, ha, hb, Nat.min_self, nOf]

theorem sortedPairs_perm (hg : f.sortG ∣ nOf f) :
    (sortedPairs f o).Perm ((elemsOf (wOf f) o.a).zip (elemsOf (wOf f) o.b)) :=
  flatMap_groups_perm sortBy_perm _ _ ((length_pairs ha hb).trans (Nat.div_mul_cancel hg).symm)

include hint

/-- The keys and the values of SORTK, pair by pair. -/
theorem sortk_pairs (hg : f.sortG ∣ nOf f) : (elemsOf (wOf f) ((sortkRes f o).vals.take f.span)).zip
    (elemsOf (wOf f) ((sortkRes f o).vals.drop f.span)) = sortedPairs f o := by
  have hw : wOf f ∣ 4096 := width_dvd (isIntTy_iff.mp hint).2
  have hperm := sortedPairs_perm ha hb hg
  have hlen : (sortedPairs f o).length = f.span * (4096 / wOf f) := hperm.length_eq.trans (length_pairs ha hb)
  have hvals : (sortkRes f o).vals = regsOf (wOf f) f.span ((sortedPairs f o).map (·.1)) ++
      regsOf (wOf f) f.span ((sortedPairs f o).map (·.2)) := by
    simp only [sortkRes, hint, if_true]
    rfl
  have hmem : ∀ p ∈ sortedPairs f o, p.1 < 2 ^ wOf f ∧ p.2 < 2 ^ wOf f := fun p hp => by
    obtain ⟨h1, h2⟩ := List.of_mem_zip (a := p.1) (b := p.2) (hperm.mem_iff.mp hp)
    exact ⟨elemsOf_lt h1, elemsOf_lt h2⟩
  rw [hvals, List.take_left' (regsOf_length _ _ _), List.drop_left' (regsOf_length _ _ _),
    elemsOf_regsOf_full hw (by rw [List.length_map, hlen]), elemsOf_regsOf_full hw (by rw [List.length_map, hlen]),
    List.zip_map', List.map_id']
  · intro x hx
    obtain ⟨p, hp, rfl⟩ := List.mem_map.mp hx
    exact (hmem p hp).2
  · intro x hx
    obtain ⟨p, hp, rfl⟩ := List.mem_map.mp hx
    exact (hmem p hp).1

theorem sortk_spec (hg : f.sortG ∣ nOf f) {g : Nat} (hlt : g < nOf f / f.sortG) :
    let v := (sortkRes f o).vals
    let group := fun (keys rest : List Nat) => ((keys.zip rest).drop (g * f.sortG)).take f.sortG
    let out := group (elemsOf (wOf f) (v.take f.span)) (elemsOf (wOf f) (v.drop f.span))
    let z := intVal (tyOf f)
    let src := group (elemsOf (wOf f) o.a) (elemsOf (wOf f) o.b)
    out.Perm src ∧ out.Pairwise (fun p q => if f.c.getLsbD 4 then z q.1 ≤ z p.1 else z p.1 ≤ z q.1) ∧
      ∀ key : Nat, (out.filter fun p => p.1 == key) = src.filter fun p => p.1 == key := by
  intro v group out z src
  have hout : out = sortBy (sortLt f o) src := by
    show ((((elemsOf (wOf f) (v.take f.span)).zip (elemsOf (wOf f) (v.drop f.span))).drop (g * f.sortG)).take f.sortG) = _
    rw [sortk_pairs hint ha hb hg]
    exact group_of_flatMap sortBy_perm _ _ ((length_pairs ha hb).trans (Nat.div_mul_cancel hg).symm) g hlt
  rw [hout]
  refine ⟨sortBy_perm _, (sortBy_sorted (sortLt_int hint) src).imp fun {p q} h => ?_, fun key => filter_sortBy (fun p q hp hq => ?_) _⟩
  · unfold sortOrder at h
    split at h <;> rename_i hd
    · rw [if_pos hd]
      exact neg_le_neg_iff.mp h
    · rw [if_neg hd]
      exact h
  · rw [sortLt_int hint, decide_eq_true_eq] at hq
    have hp := beq_iff_eq.mp hp
    refine beq_eq_false_iff_ne.mpr fun hq' => ?_
    simp [sortOrder, hp, hq'] at hq

end

/-! ## SELK (R150) -/

/-- The rows of column j with their numbers. -/
def selColumn (f : VF) (o : VOps) (j : Nat) : List (Nat × Nat) :=
  (((elemsOf (wOf f) o.a).drop (j * f.selR)).take f.selR).zipIdx

/-- SELK's comparison: what is larger goes first. -/
def selLt (f : VF) (o : VOps) (a b : Nat × Nat) : Bool := keyBelow (tyOf f) o.ftz true b.1 a.1

/-- The rows of column j that SELK picks, largest first. -/
def selPicks (f : VF) (o : VOps) (j : Nat) : List Nat :=
  ((sortBy (selLt f o) (selColumn f o j)).take f.selK).map (·.2)

/-- Row p of column j goes before row q. -/
def selAhead (f : VF) (o : VOps) (j p q : Nat) : Prop :=
  let x := fun row => intVal (tyOf f) ((elemsOf (wOf f) o.a).getD (j * f.selR + row) 0)
  x q < x p ∨ (x q = x p ∧ p < q)

theorem selR_lt (f : VF) : f.selR ≤ 2 ^ 15 := Nat.pow_le_pow_right (by omega) (by omega)

section
variable {f : VF} {o : VOps} (ha : o.a.length = f.span)
include ha

/-- The rows of a column are its elements, in order. -/
theorem selColumn_eq {j : Nat} (hj : j < nOf f / f.selR) :
    selColumn f o j = (List.range f.selR).map fun row => ((elemsOf (wOf f) o.a).getD (j * f.selR + row) 0, row) := by
  have hlen : (elemsOf (wOf f) o.a).length = nOf f := aElems_length ha
  have hend : (j + 1) * f.selR ≤ nOf f := (Nat.mul_le_mul_right _ hj).trans (Nat.div_mul_le_self _ _)
  rw [Nat.succ_mul] at hend
  have hl : (((elemsOf (wOf f) o.a).drop (j * f.selR)).take f.selR).length = f.selR := by
    rw [List.length_take, List.length_drop, hlen]
    omega
  rw [selColumn, zipIdx_eq_range hl]
  refine List.map_congr_left fun row hrow => ?_
  have hrow := List.mem_range.mp hrow
  simp [List.getD_eq_getElem?_getD, hrow]

theorem selColumn_sorted (hint : isIntTy (tyOf f) = true) {j : Nat} (hj : j < nOf f / f.selR) :
    (sortBy (selLt f o) (selColumn f o j)).Pairwise fun p q => selAhead f o j p.2 q.2 := by
  have hlt : ∀ p q : Nat × Nat, selLt f o p q = decide (-intVal (tyOf f) p.1 < -intVal (tyOf f) q.1) := fun p q => by
    simp [selLt, keyBelow, hint]
  have hrows : (selColumn f o j).Pairwise fun p q => p.2 < q.2 := by
    rw [selColumn_eq ha hj, List.pairwise_map]
    exact List.pairwise_lt_range
  have hmem : ∀ p ∈ sortBy (selLt f o) (selColumn f o j), p.1 = (elemsOf (wOf f) o.a).getD (j * f.selR + p.2) 0 := fun p hp => by
    rw [(sortBy_perm _).mem_iff, selColumn_eq ha hj, List.mem_map] at hp
    obtain ⟨row, -, rfl⟩ := hp
    rfl
  refine (sortBy_sorted_stable hlt hrows).imp_of_mem fun {p q} hp hq h => ?_
  unfold selAhead
  dsimp only
  rw [← hmem p hp, ← hmem q hq]
  rcases h with h | ⟨h, hn⟩
  · exact .inl (neg_lt_neg_iff.mp h)
  · exact .inr ⟨(neg_inj.mp h).symm, hn⟩

theorem selPicks_spec (hint : isIntTy (tyOf f) = true) (hk : f.selK ≤ f.selR) {j : Nat} (hj : j < nOf f / f.selR) :
    (selPicks f o j).length = f.selK ∧ (∀ p ∈ selPicks f o j, p < f.selR) ∧ (selPicks f o j).Pairwise (selAhead f o j) ∧
      ∀ q < f.selR, q ∉ selPicks f o j → ∀ p ∈ selPicks f o j, selAhead f o j p q := by
  have hperm : (sortBy (selLt f o) (selColumn f o j)).Perm (selColumn f o j) := sortBy_perm _
  have hsorted := selColumn_sorted ha hint hj
  have hpicks : selPicks f o j = ((sortBy (selLt f o) (selColumn f o j)).take f.selK).map (·.2) := rfl
  generalize sortBy (selLt f o) (selColumn f o j) = rows at hperm hsorted hpicks
  have hlen : rows.length = f.selR := by
    rw [hperm.length_eq, selColumn_eq ha hj, List.length_map, List.length_range]
  have hmem : ∀ q, q < f.selR ↔ ∃ v, (v, q) ∈ rows := fun q => by
    simp only [hperm.mem_iff, selColumn_eq ha hj, List.mem_map, List.mem_range, Prod.mk.injEq]
    exact ⟨fun h => ⟨_, q, h, rfl, rfl⟩, fun ⟨_, _, h, _, hq⟩ => hq ▸ h⟩
  rw [← List.take_append_drop f.selK rows, List.pairwise_append] at hsorted
  obtain ⟨htake, -, hcross⟩ := hsorted
  rw [hpicks]
  refine ⟨by rw [List.length_map, List.length_take, hlen, Nat.min_eq_left hk], fun p hp => ?_,
    List.pairwise_map.mpr htake, fun q hq hqn p hp => ?_⟩
  · obtain ⟨⟨v, r⟩, hr, rfl⟩ := List.mem_map.mp hp
    exact (hmem r).mpr ⟨v, List.mem_of_mem_take hr⟩
  · obtain ⟨v, hv⟩ := (hmem q).mp hq
    rw [← List.take_append_drop f.selK rows, List.mem_append] at hv
    obtain ⟨r, hr, rfl⟩ := List.mem_map.mp hp
    rcases hv with hv | hv
    · exact absurd (List.mem_map.mpr ⟨_, hv, rfl⟩) hqn
    · exact hcross r hr (v, q) hv

/-- The entries of SELK's registers, column by column. -/
theorem getD_selk (hint : isIntTy (tyOf f) = true) (hk : f.selK ≤ f.selR) {j : Nat} (hj : j < nOf f / f.selR) {i : Nat}
    (hi : i < f.selK) : (elemsOf 16 (selkRes f o).vals).getD (j * f.selK + i) 0 = (selPicks f o j).getD i 0 := by
  have huni : ∀ l ∈ (List.range (nOf f / f.selR)).map (selPicks f o), l.length = f.selK := fun l hl => by
    obtain ⟨j', hj', rfl⟩ := List.mem_map.mp hl
    exact (selPicks_spec ha hint hk (List.mem_range.mp hj')).1
  have hspan : f.selSpan = (nOf f / f.selR * f.selK + 255) / 256 := rfl
  have hin : j * f.selK + i < f.selSpan * (4096 / 16) := by
    have hle : (j + 1) * f.selK ≤ nOf f / f.selR * f.selK := Nat.mul_le_mul_right _ hj
    rw [Nat.succ_mul] at hle
    rw [hspan]
    omega
  show (elemsOf 16 (regsOf 16 f.selSpan (((List.range (nOf f / f.selR)).map (selPicks f o)).flatMap id))).getD _ 0 = _
  rw [elemsOf_regsOf_getD (by decide), List.getD_eq_getElem?_getD, List.getElem?_map, List.getElem?_range hin]
  show (List.flatMap id _).getD _ 0 % 2 ^ 16 = _
  have hcol : ((List.range (nOf f / f.selR)).map (selPicks f o)).getD j [] = selPicks f o j := by
    simp [List.getD_eq_getElem?_getD, hj]
  rw [getD_flatMap_uniform huni j hi, hcol]
  have hlen := (selPicks_spec ha hint hk hj).1
  have hmem : (selPicks f o j).getD i 0 ∈ selPicks f o j := by
    rw [List.getD_eq_getElem _ _ (by omega)]
    exact List.getElem_mem _
  exact Nat.mod_eq_of_lt ((selPicks_spec ha hint hk hj).2.1 _ hmem |>.trans_le ((selR_lt f).trans (by decide)))

/-- The mask that SELK leaves: the picked rows of every column. -/
theorem selk_mask (hint : isIntTy (tyOf f) = true) (hk : f.selK ≤ f.selR) (hr : 0 < f.selR) :
    ∃ m, (selkRes f o).mask = some (f.km.toNat, m, BitVec.allOnes 1024) ∧
      ∀ e < 1024, m.getLsbD e = decide (e / f.selR < nOf f / f.selR ∧ e % f.selR ∈ selPicks f o (e / f.selR)) := by
  refine ⟨_, rfl, fun e he => ?_⟩
  rw [getLsbD_maskOf _ (by simp)]
  rw [List.getD_eq_getElem?_getD, List.getElem?_map, List.getElem?_range he]
  show (List.contains _ e) = _
  rw [Bool.eq_iff_iff, List.contains_iff_mem, decide_eq_true_eq, List.mem_flatMap]
  show (∃ p ∈ ((List.range (nOf f / f.selR)).map (selPicks f o)).zipIdx, e ∈ p.1.map fun r => p.2 * f.selR + r) ↔ _
  constructor
  · rintro ⟨⟨l, j⟩, hl, hmem⟩
    obtain ⟨r, hrl, rfl⟩ := List.mem_map.mp hmem
    rw [List.mem_zipIdx_iff_getElem?] at hl
    simp only [List.getElem?_map, Option.map_eq_some_iff, List.getElem?_eq_some_iff, List.length_range, List.getElem_range] at hl
    obtain ⟨_, ⟨hj, rfl⟩, rfl⟩ := hl
    have hlt : r < f.selR := (selPicks_spec ha hint hk hj).2.1 r hrl
    dsimp only
    rw [Nat.add_comm, Nat.add_mul_div_right _ _ hr, Nat.div_eq_of_lt hlt, Nat.add_mul_mod_self_right, Nat.mod_eq_of_lt hlt,
      Nat.zero_add]
    exact ⟨hj, hrl⟩
  · rintro ⟨hj, hmem⟩
    refine ⟨(selPicks f o (e / f.selR), e / f.selR), ?_, List.mem_map.mpr ⟨_, hmem, ?_⟩⟩
    · rw [List.mem_zipIdx_iff_getElem?]
      simp [hj]
    · show e / f.selR * f.selR + e % f.selR = e
      rw [Nat.mul_comm]
      exact Nat.div_add_mod e f.selR

end

end Sys2Proof.Machine
end

section
/-! SUPPORT. VQUANT's blocks (R112–R115, R416): exponents, codes, and the registers that hold them. -/

namespace Sys2Proof.Machine

/-! ## Blocks (R115) -/

/-- The code of a number in a block with exponents EA and EB: at EB where its magnitude fits, else clamped at EA. -/
def kbCode (w ea eb : Nat) (x : FVal) : Nat :=
  let m := if kbMag w eb x ≤ 2 ^ w - 1 then kbMag w eb x else min (kbMag w ea x) (2 ^ w - 1)
  (if x.isNeg then 2 ^ (w + 1) else 0) + (if kbMag w eb x ≤ 2 ^ w - 1 then 2 ^ w else 0) + m

theorem kbQuant_nan {xs : List FVal} (h : xs.any FVal.isNan = true) (k gap : Nat) :
    (kbQuant k gap xs).1 = 255 ∧ (kbQuant k gap xs).2.1 = 255 ∧ (kbQuant k gap xs).2.2.1 = xs.map fun _ => 0 := by
  simp only [kbQuant, if_pos h]
  exact ⟨trivial, trivial, trivial⟩

theorem kbQuant_numbers {xs : List FVal} (h : xs.any FVal.isNan = false) (k gap : Nat) : ∃ ea ≤ 254,
    (kbQuant k gap xs).1 = ea ∧ (kbQuant k gap xs).2.1 = ea - (if gap = 0 then kbW k else gap) ∧
      (kbQuant k gap xs).2.2.1 = xs.map (kbCode (kbW k) ea (ea - (if gap = 0 then kbW k else gap))) := by
  have hn : ¬xs.any FVal.isNan = true := by rw [h]; exact Bool.false_ne_true
  simp only [kbQuant, if_neg hn, beq_iff_eq, List.map_map]
  refine ⟨_, ?_, rfl, rfl, ?_⟩
  · split
    · exact Nat.zero_le _
    · rw [clampInt_eq (by omega)]
      omega
  · refine List.map_congr_left fun x _ => ?_
    simp only [kbCode, Function.comp]

/-- The fields of a code: two bits above a magnitude. -/
theorem code_fields (w : Nat) (s b : Bool) {m : Nat} (hm : m < 2 ^ w) :
    let code := (if s then 2 ^ (w + 1) else 0) + (if b then 2 ^ w else 0) + m
    code < 2 ^ (w + 2) ∧ bit code (w + 1) = s ∧ bit code w = b ∧ code % 2 ^ w = m := by
  have hp := Nat.two_pow_pos w
  have hlt : ∀ q < 4, q * 2 ^ w + m < 2 ^ (w + 2) := fun q h => by
    have hle : (q + 1) * 2 ^ w ≤ 4 * 2 ^ w := Nat.mul_le_mul_right _ h
    rw [Nat.succ_mul] at hle
    rw [Nat.pow_add, Nat.mul_comm _ (2 ^ 2)]
    omega
  have hdiv : ∀ q, (q * 2 ^ w + m) / 2 ^ w = q := fun q => by
    rw [Nat.add_comm, Nat.add_mul_div_right _ _ hp, Nat.div_eq_of_lt hm, Nat.zero_add]
  have hdiv2 : ∀ q, (q * 2 ^ w + m) / 2 ^ (w + 1) = q / 2 := fun q => by
    rw [Nat.pow_succ, ← Nat.div_div_eq_div_mul, hdiv]
  have hmod : ∀ q, (q * 2 ^ w + m) % 2 ^ w = m := fun q => by
    rw [Nat.add_comm, Nat.add_mul_mod_self_right, Nat.mod_eq_of_lt hm]
  have hq : (if s then 2 ^ (w + 1) else 0) + (if b then 2 ^ w else 0) + m =
      ((if s then 2 else 0) + if b then 1 else 0) * 2 ^ w + m := by
    cases s <;> cases b <;> simp [Nat.pow_succ] <;> omega
  dsimp only
  rw [hq, hmod]
  simp only [bit, hdiv, hdiv2]
  refine ⟨hlt _ ?_, ?_, ?_, trivial⟩ <;> cases s <;> cases b <;> decide

/-- Sign, exponent and magnitude of a code. -/
theorem kbCode_fields (w ea eb : Nat) (x : FVal) :
    let code := kbCode w ea eb x
    code < 2 ^ (w + 2) ∧ bit code (w + 1) = x.isNeg ∧
      (kbMag w eb x < 2 ^ w → bit code w = true ∧ code % 2 ^ w = kbMag w eb x) ∧
      (2 ^ w ≤ kbMag w eb x → bit code w = false ∧ code % 2 ^ w = min (kbMag w ea x) (2 ^ w - 1)) := by
  have hp := Nat.two_pow_pos w
  dsimp only
  rcases Nat.lt_or_ge (kbMag w eb x) (2 ^ w) with hlt | hge
  · have hc : kbCode w ea eb x = (if x.isNeg then 2 ^ (w + 1) else 0) + (if true then 2 ^ w else 0) + kbMag w eb x := by
      simp only [kbCode, if_pos (Nat.le_sub_one_of_lt hlt), if_true]
    obtain ⟨h1, h2, h3, h4⟩ := code_fields w x.isNeg true hlt
    rw [hc]
    exact ⟨h1, h2, fun _ => ⟨h3, h4⟩, fun h => absurd hlt (Nat.not_lt.mpr h)⟩
  · have hn : ¬kbMag w eb x ≤ 2 ^ w - 1 := by omega
    have hc : kbCode w ea eb x = (if x.isNeg then 2 ^ (w + 1) else 0) + (if false then 2 ^ w else 0) +
        min (kbMag w ea x) (2 ^ w - 1) := by
      simp only [kbCode, if_neg hn, Bool.false_eq_true, if_false]
    obtain ⟨h1, h2, h3, h4⟩ := code_fields w x.isNeg false (m := min (kbMag w ea x) (2 ^ w - 1)) (by omega)
    rw [hc]
    exact ⟨h1, h2, fun h => absurd h (Nat.not_lt.mpr hge), fun _ => ⟨h3, h4⟩⟩

theorem kbQuant_bounds (k gap : Nat) (xs : List FVal) : (kbQuant k gap xs).1 < 256 ∧ (kbQuant k gap xs).2.1 < 256 ∧
    (kbQuant k gap xs).2.2.1.length = xs.length ∧ ∀ c ∈ (kbQuant k gap xs).2.2.1, c < 2 ^ (kbW k + 2) := by
  cases h : xs.any FVal.isNan with
  | true =>
    obtain ⟨h1, h2, h3⟩ := kbQuant_nan h k gap
    rw [h1, h2, h3]
    refine ⟨by omega, by omega, List.length_map _, fun c hc => ?_⟩
    obtain ⟨x, -, rfl⟩ := List.mem_map.mp hc
    exact Nat.two_pow_pos _
  | false =>
    obtain ⟨ea, hea, h1, h2, h3⟩ := kbQuant_numbers h k gap
    rw [h1, h2, h3]
    refine ⟨by omega, by omega, List.length_map _, fun c hc => ?_⟩
    obtain ⟨x, -, rfl⟩ := List.mem_map.mp hc
    exact (kbCode_fields _ _ _ _).1

/-- Exponents and codes of a block (R115). -/
theorem kbQuant_spec (k gap : Nat) (xs : List FVal) :
    let q := kbQuant k gap xs
    (xs.any FVal.isNan = true → q.1 = 255 ∧ q.2.1 = 255 ∧ q.2.2.1 = xs.map fun _ => 0) ∧
    (xs.any FVal.isNan = false → q.1 ≤ 254 ∧ q.2.1 = q.1 - (if gap = 0 then kbW k else gap) ∧
      ∀ i < xs.length,
        let x := xs.getD i (.nan false)
        let code := q.2.2.1.getD i 0
        bit code (kbW k + 1) = x.isNeg ∧
        (kbMag (kbW k) q.2.1 x < 2 ^ kbW k → bit code (kbW k) = true ∧ code % 2 ^ kbW k = kbMag (kbW k) q.2.1 x) ∧
        (2 ^ kbW k ≤ kbMag (kbW k) q.2.1 x → bit code (kbW k) = false ∧
          code % 2 ^ kbW k = min (kbMag (kbW k) q.1 x) (2 ^ kbW k - 1))) := by
  refine ⟨fun h => kbQuant_nan h k gap, fun h => ?_⟩
  obtain ⟨ea, hea, h1, h2, h3⟩ := kbQuant_numbers h k gap
  rw [h1, h2, h3]
  refine ⟨hea, rfl, fun i hi => ?_⟩
  have hcode : (xs.map (kbCode (kbW k) ea (ea - (if gap = 0 then kbW k else gap)))).getD i 0 =
      kbCode (kbW k) ea (ea - (if gap = 0 then kbW k else gap)) (xs.getD i (.nan false)) := by
    simp [List.getD_eq_getElem?_getD, hi]
  dsimp only
  rw [hcode]
  exact (kbCode_fields _ _ _ _).2

/-! ## VQUANT (R416) -/

/-- The 32 numbers of block j. -/
def quantBlock (xs : List FVal) (j : Nat) : List FVal := (xs.drop (32 * j)).take 32

/-- The scale bytes and the codes of the blocks stand block by block. -/
theorem quantBlocks_getD (k gap : Nat) : ∀ (n : Nat) {xs : List FVal}, xs.length = 32 * n → ∀ j < n,
    (quantBlocks k gap n xs).2.1.getD (2 * j) 0 = (kbQuant k gap (quantBlock xs j)).1 ∧
    (quantBlocks k gap n xs).2.1.getD (2 * j + 1) 0 = (kbQuant k gap (quantBlock xs j)).2.1 ∧
    ∀ i < 32, (quantBlocks k gap n xs).1.getD (32 * j + i) 0 = (kbQuant k gap (quantBlock xs j)).2.2.1.getD i 0
  | n + 1, xs, h, j, hj => by
    have hlen : (kbQuant k gap (xs.take 32)).2.2.1.length = 32 := by
      rw [(kbQuant_bounds k gap _).2.2.1, List.length_take]
      omega
    cases j with
    | zero =>
      refine ⟨rfl, rfl, fun i hi => ?_⟩
      rw [Nat.mul_zero, Nat.zero_add, quantBlocks, List.getD_append _ _ _ _ (by omega)]
      rfl
    | succ j =>
      have hblock : quantBlock xs (j + 1) = quantBlock (xs.drop 32) j := by
        rw [quantBlock, quantBlock, List.drop_drop]
        congr 2
        omega
      obtain ⟨h1, h2, h3⟩ := quantBlocks_getD k gap n (xs := xs.drop 32) (by rw [List.length_drop]; omega) j (by omega)
      rw [hblock]
      refine ⟨h1, h2, fun i hi => ?_⟩
      rw [← h3 i hi, quantBlocks, List.getD_append_right _ _ _ _ (by omega), hlen]
      congr 1
      omega

/-- An element of registers, whatever list they were built from. -/
theorem getD_elemsOf_regsOf {w : Nat} (hw : w ∣ 4096) {n : Nat} (l : List Nat) {e : Nat} (he : e < n * (4096 / w)) :
    (elemsOf w (regsOf w n l)).getD e 0 = l.getD e 0 % 2 ^ w := by
  rw [elemsOf_regsOf_getD hw, List.getD_eq_getElem?_getD, List.getElem?_map, List.getElem?_range he]
  rfl

theorem quantBlock_map {f : VF} {o : VOps} (ha : o.a.length = f.span) (rd : Nat → FVal) {j : Nat} (hj : j < nOf f / 32) :
    quantBlock ((elemsOf (wOf f) o.a).map rd) j =
      (List.range 32).map fun i => rd ((elemsOf (wOf f) o.a).getD (32 * j + i) 0) := by
  have hla : (elemsOf (wOf f) o.a).length = nOf f := aElems_length ha
  refine List.ext_getElem ?_ fun i h1 h2 => ?_
  · simp only [quantBlock, List.length_take, List.length_drop, List.length_map, List.length_range, hla]
    omega
  · have hi : i < 32 := by simpa using h2
    have hin : 32 * j + i < (elemsOf (wOf f) o.a).length := by omega
    simp [quantBlock, hin]

/-- VQUANT's codes, scale bytes and flags. -/
def quantOut (f : VF) (o : VOps) : List Nat × List Nat × Nat :=
  quantBlocks ((o.tid.extractLsb' 256 5).toNat - 16) (o.tid.extractLsb' 280 4).toNat (nOf f / 32)
    ((elemsOf (wOf f) o.a).map ((ffmt (tyOf f)).read o.ftz))

theorem quantRegs_hold (f : VF) : nOf f ≤ (quantRegs f 18).1 * 512 ∧ nOf f ≤ (quantRegs f 16).1 * 1024 ∧
    nOf f ≤ (quantRegs f 17).1 * 1024 ∧ nOf f ≤ (quantRegs f 17).2.1 * 2048 := by
  show nOf f ≤ (nOf f * 8 + 4095) / 4096 * 512 ∧ nOf f ≤ (nOf f * 4 + 4095) / 4096 * 1024 ∧
    nOf f ≤ (nOf f * 4 + 4095) / 4096 * 1024 ∧ nOf f ≤ (nOf f + 2047) / 2048 * 2048
  omega

section
variable {f : VF} {o : VOps} {fmt : Nat} (hfmt : (o.tid.extractLsb' 256 5).toNat = fmt)
include hfmt

/-- VQUANT's registers: the codes, their low bits, the scale bytes. -/
theorem vquant_vals :
    let r := quantRegs f fmt
    let v := (vquantRes f o).vals
    (v.take r.1 = if fmt = 18 then regsOf 8 r.1 (quantOut f o).1
      else regsOf 4 r.1 ((quantOut f o).1.map fun c => if fmt = 17 then c / 4 else c)) ∧
    (v.drop r.1).take r.2.1 = regsOf 2 r.2.1 ((quantOut f o).1.map (· % 4)) ∧
      v.drop (r.1 + r.2.1) = regsOf 8 1 (quantOut f o).2.1 := by
  have hv : (vquantRes f o).vals = (if fmt = 18 then regsOf 8 (quantRegs f fmt).1 (quantOut f o).1
      else regsOf 4 (quantRegs f fmt).1 ((quantOut f o).1.map fun c => if fmt = 17 then c / 4 else c)) ++
      (regsOf 2 (quantRegs f fmt).2.1 ((quantOut f o).1.map (· % 4)) ++ regsOf 8 1 (quantOut f o).2.1) := by
    subst hfmt
    rw [← List.append_assoc]
    simp only [vquantRes, beq_iff_eq]
    rfl
  have hp : (if fmt = 18 then regsOf 8 (quantRegs f fmt).1 (quantOut f o).1
      else regsOf 4 (quantRegs f fmt).1 ((quantOut f o).1.map fun c => if fmt = 17 then c / 4 else c)).length =
      (quantRegs f fmt).1 := by
    split <;> exact regsOf_length _ _ _
  dsimp only
  rw [hv]
  refine ⟨List.take_left' hp, ?_, ?_⟩
  · rw [List.drop_left' hp, List.take_left' (regsOf_length _ _ _)]
  · rw [← List.drop_drop, List.drop_left' hp, List.drop_left' (regsOf_length _ _ _)]

/-- The numbers of block j, as VQUANT reads them. -/
def quantInput (f : VF) (o : VOps) (j : Nat) : List FVal :=
  (List.range 32).map fun i => (ffmt (tyOf f)).read o.ftz ((elemsOf (wOf f) o.a).getD (32 * j + i) 0)

variable (ha : o.a.length = f.span) (hty : tyOf f ≤ 2)
include ha hty

omit hfmt ha in
theorem dvd_nOf : 32 ∣ nOf f := by
  have h : ∀ ty ≤ 2, 32 ∣ 4096 / width ty := by decide
  exact (h _ hty).mul_left f.span

/-- Block j of VQUANT's bytes and codes. -/
theorem quantOut_getD {j : Nat} (hj : j < nOf f / 32) :
    let q := kbQuant (fmt - 16) (o.tid.extractLsb' 280 4).toNat (quantInput f o j)
    (quantOut f o).2.1.getD (2 * j) 0 = q.1 ∧ (quantOut f o).2.1.getD (2 * j + 1) 0 = q.2.1 ∧
      ∀ i < 32, (quantOut f o).1.getD (32 * j + i) 0 = q.2.2.1.getD i 0 ∧ q.2.2.1.getD i 0 < 2 ^ (kbW (fmt - 16) + 2) := by
  subst hfmt
  have h32 := Nat.div_mul_cancel (dvd_nOf (f := f) hty)
  have hlen : ((elemsOf (wOf f) o.a).map ((ffmt (tyOf f)).read o.ftz)).length = 32 * (nOf f / 32) := by
    rw [List.length_map, show (elemsOf (wOf f) o.a).length = nOf f from aElems_length ha]
    omega
  obtain ⟨hs1, hs2, hcodes⟩ := quantBlocks_getD ((o.tid.extractLsb' 256 5).toNat - 16) (o.tid.extractLsb' 280 4).toNat
    (nOf f / 32) hlen j hj
  rw [quantBlock_map ha _ hj] at hs1 hs2 hcodes
  obtain ⟨-, -, hql, hbc⟩ := kbQuant_bounds ((o.tid.extractLsb' 256 5).toNat - 16) (o.tid.extractLsb' 280 4).toNat
    (quantInput f o j)
  rw [quantInput, List.length_map, List.length_range] at hql
  refine ⟨hs1, hs2, fun i hi => ⟨hcodes i hi, hbc _ ?_⟩⟩
  rw [List.getD_eq_getElem _ _ (by rw [quantInput, hql]; exact hi)]
  exact List.getElem_mem _

/-- The scale bytes of block j (R115). -/
theorem vquant_scales (hn : nOf f ≤ 4096) {j : Nat} (hj : j < nOf f / 32) :
    let sc := elemsOf 8 ((vquantRes f o).vals.drop ((quantRegs f fmt).1 + (quantRegs f fmt).2.1))
    let q := kbQuant (fmt - 16) (o.tid.extractLsb' 280 4).toNat (quantInput f o j)
    sc.getD (2 * j) 0 = q.1 ∧ sc.getD (2 * j + 1) 0 = q.2.1 := by
  obtain ⟨-, -, hsc⟩ := vquant_vals (f := f) hfmt
  obtain ⟨hs1, hs2, -⟩ := quantOut_getD hfmt ha hty hj
  obtain ⟨hb1, hb2, -⟩ := kbQuant_bounds (fmt - 16) (o.tid.extractLsb' 280 4).toNat (quantInput f o j)
  dsimp only
  rw [hsc, getD_elemsOf_regsOf (by decide) _ (by omega), getD_elemsOf_regsOf (by decide) _ (by omega), hs1, hs2]
  exact ⟨Nat.mod_eq_of_lt hb1, Nat.mod_eq_of_lt hb2⟩

/-- The codes of block j: KB8 whole, KB4 in halves of a byte, KB6 with its low bits apart. -/
theorem vquant_codes {j i : Nat} (hj : j < nOf f / 32) (hi : i < 32) :
    let v := (vquantRes f o).vals
    let r := quantRegs f fmt
    let code := (kbQuant (fmt - 16) (o.tid.extractLsb' 280 4).toNat (quantInput f o j)).2.2.1.getD i 0
    (fmt = 18 → (elemsOf 8 (v.take r.1)).getD (32 * j + i) 0 = code) ∧
    (fmt = 16 → (elemsOf 4 (v.take r.1)).getD (32 * j + i) 0 = code) ∧
    (fmt = 17 → (elemsOf 4 (v.take r.1)).getD (32 * j + i) 0 = code / 4 ∧
      (elemsOf 2 ((v.drop r.1).take r.2.1)).getD (32 * j + i) 0 = code % 4) := by
  obtain ⟨hp, hp2, -⟩ := vquant_vals (f := f) hfmt
  obtain ⟨hcode, hlt⟩ := (quantOut_getD hfmt ha hty hj).2.2 i hi
  obtain ⟨h18, h16, h17, h17'⟩ := quantRegs_hold f
  have hmap : ∀ g : Nat → Nat, g 0 = 0 → ((quantOut f o).1.map g).getD (32 * j + i) 0 =
      g ((quantOut f o).1.getD (32 * j + i) 0) := fun g hg => by
    simp only [List.getD_eq_getElem?_getD, List.getElem?_map]
    cases (quantOut f o).1[32 * j + i]? with
    | none => exact hg.symm
    | some x => rfl
  dsimp only
  rw [hp, hp2]
  generalize (kbQuant (fmt - 16) (o.tid.extractLsb' 280 4).toNat (quantInput f o j)).2.2.1.getD i 0 = code at hcode hlt ⊢
  refine ⟨fun h => ?_, fun h => ?_, fun h => ⟨?_, ?_⟩⟩ <;> clear hp hp2 hfmt <;> subst h
  · rw [if_pos rfl, getD_elemsOf_regsOf (by decide) _ (by omega), hcode]
    exact Nat.mod_eq_of_lt hlt
  · rw [if_neg (by decide), getD_elemsOf_regsOf (by decide) _ (by omega), hmap _ rfl, hcode]
    exact Nat.mod_eq_of_lt hlt
  · have hlt : code < 64 := hlt
    rw [if_neg (by decide), getD_elemsOf_regsOf (by decide) _ (by omega), hmap _ rfl, hcode]
    exact Nat.mod_eq_of_lt (show code / 4 < 2 ^ 4 by omega)
  · have hlt : code < 64 := hlt
    rw [getD_elemsOf_regsOf (by decide) _ (by omega), hmap _ rfl, hcode]
    exact Nat.mod_eq_of_lt (show code % 4 < 2 ^ 2 by omega)

end

end Sys2Proof.Machine
end

section
/-! SUPPORT. The special functions (R148, R400, T8.2): their elements, the arguments that Table 8.2 names, the two codes
of R148; and the flags of an instruction of which no element is enabled (R96). -/

namespace Sys2Proof.Machine

/-! ## Elements -/

theorem special_lt {ty : Nat} (h : ty ≤ 2) (op : SfOp) (ftz : Bool) (x : Nat) : (special op ty ftz x).1 < 2 ^ width ty := by
  have hr : ∀ v, ((ffmt ty).round 0 ftz v).1 < 2 ^ width ty := fun v => by
    rw [← width_ffmt (h.trans (by omega))]
    exact round_lt (ffmt_sound _) 0 ftz v
  unfold special
  dsimp only
  split
  · split
    · exact hr _
    · exact hr _
  · exact hr _

theorem elems_sf {f : VF} {o : VOps} (ha : o.a.length = f.span) (hty : tyOf f ≤ 2) (op : SfOp) :
    elemsOf (wOf f) (sfRes op f o).vals = (elemsOf (wOf f) o.a).map fun y => (special op (tyOf f) o.ftz y).1 :=
  elems_lift1 ha (fp_width_dvd (hty.trans (by omega))) fun x _ => special_lt hty op o.ftz x

/-! ## Arguments of Table 8.2 -/

theorem sfF32_nan (op : SfOp) (y : Nat) (sig : Bool) : sfF32 op y (.nan sig) = (0x7FC00000, if sig then 16 else 0) := by
  cases op <;> rfl

theorem sfF32_zero (y : Nat) (neg : Bool) (e : Int) :
    sfF32 .exp2 y (.fin neg 0 e) = (0x3F800000, 0) ∧ sfF32 .log2 y (.fin neg 0 e) = (0xFF800000, 8) ∧
      sfF32 .rcp y (.fin neg 0 e) = (if neg then 0xFF800000 else 0x7F800000, 8) ∧
      sfF32 .rsq y (.fin neg 0 e) = (if neg then 0xFF800000 else 0x7F800000, 8) ∧
      sfF32 .sqrt y (.fin neg 0 e) = (if neg then 0x80000000 else 0, 0) ∧
      sfF32 .tanh y (.fin neg 0 e) = (if neg then 0x80000000 else 0, 0) := by
  cases neg <;> exact ⟨rfl, rfl, rfl, rfl, rfl, rfl⟩

theorem sfF32_inf (y : Nat) (neg : Bool) : sfF32 .exp2 y (.inf neg) = (if neg then 0 else 0x7F800000, 0) ∧
    sfF32 .rcp y (.inf neg) = (if neg then 0x80000000 else 0, 0) ∧
    sfF32 .tanh y (.inf neg) = (if neg then 0xBF800000 else 0x3F800000, 0) := by
  cases neg <;> exact ⟨rfl, rfl, rfl⟩

theorem sfF32_negative {op : SfOp} (h : op ∈ [SfOp.log2, .rsq, .sqrt]) (y : Nat) {m : Nat} (e : Int) (hm : 0 < m) :
    sfF32 op y (.fin true m e) = (0x7FC00000, 16) := by
  have h0 : ¬(m == 0) = true := by simpa using hm.ne'
  simp only [List.mem_cons, List.not_mem_nil, or_false] at h
  rcases h with rfl | rfl | rfl
  · simp only [sfF32, if_neg h0]
    rfl
  · simp only [sfF32, if_neg h0]
    rfl
  · simp only [sfF32, if_neg h0]
    rfl

/-! ## The two codes of R148 -/

theorem sfRound_near (op : SfOp) (y : Nat) (v : FVal) (exact : Bool) :
    let d : Int := ((sfRound op y v exact).1 : Int) - ((ffmt 0).round 0 false v).1
    d.natAbs ≤ 2 ∧ (exact = true ∨ op = .sqrt → d = 0) := by
  have hoff : ∀ z, -2 ≤ clampInt (-2) 2 z ∧ clampInt (-2) 2 z ≤ 2 := fun z => by
    rw [clampInt_eq (by omega)]
    omega
  have hmod : ((ffmt 0).round 0 false v).1 % 2 ^ 31 ≤ ((ffmt 0).round 0 false v).1 := Nat.mod_le _ _
  obtain ⟨hlo, hhi⟩ := hoff (Config.sfuOffset op.code (BitVec.ofNat 32 y))
  unfold sfRound
  dsimp only
  generalize clampInt (-2) 2 _ = off at hlo hhi ⊢
  generalize (ffmt 0).round 0 false v = r at hmod ⊢
  split_ifs with hmoved
  · simp only [Bool.and_eq_true, Bool.not_eq_true', bne_iff_ne, ne_eq, decide_eq_true_eq] at hmoved
    obtain ⟨⟨⟨⟨⟨⟨⟨⟨hex, hop⟩, hpos⟩, -⟩, -⟩, -⟩, -⟩, -⟩, -⟩ := hmoved
    refine ⟨by omega, fun h => ?_⟩
    rcases h with h | h
    · rw [hex] at h
      cases h
    · exact absurd h hop
  · exact ⟨by simp, fun _ => by simp⟩

/-! ## The integer square root -/

theorem isqrtFrom_bounds (x : Nat) : ∀ (n r : Nat), r * r ≤ x → x < (r + 2 ^ n) * (r + 2 ^ n) →
    isqrtFrom x n r * isqrtFrom x n r ≤ x ∧ x < (isqrtFrom x n r + 1) * (isqrtFrom x n r + 1)
  | 0, _, hle, hlt => ⟨hle, hlt⟩
  | n + 1, r, hle, hlt => by
    unfold isqrtFrom
    dsimp only
    split
    · next hc =>
      refine isqrtFrom_bounds x n _ hc ?_
      rw [Nat.add_assoc, ← Nat.mul_two, ← Nat.pow_succ]
      exact hlt
    · next hc => exact isqrtFrom_bounds x n r hle (Nat.not_le.mp hc)

theorem isqrt_bounds (y : Nat) : isqrt y * isqrt y ≤ y ∧ y < (isqrt y + 1) * (isqrt y + 1) := by
  refine isqrtFrom_bounds y _ 0 (Nat.zero_le _) ?_
  rw [Nat.zero_add, ← Nat.pow_add]
  exact Nat.lt_log2_self.trans_le (Nat.pow_le_pow_right (by omega) (by omega))

/-! ## No element enabled -/

theorem filter_zero_mask {α : Type} (l : List (α × Nat)) : (l.filter fun x => maskBit 0 x.2) = [] := by
  simp [maskBit]

theorem flags_masked {w n : Nat} {km : Mask} (h : km = 0) (rs : List (Nat × Nat)) : (masked w n km rs).flags = 0 := by
  rw [h, masked, filter_zero_mask]
  rfl

/-- An instruction of which no element is enabled sets no flag. -/
theorem flags_of_none_enabled {f : VF} {o : VOps} (c : Ctx) (hkm : o.km = 0) : ∀ i ∈ [Instr.vadd f, .vsub f, .vmul f, .vmin f,
    .vmax f, .vabs f, .vneg f, .vfma f, .vfms f, .vcvt f, .vwid f, .vnar f, .vdot f, .vred f, .vamax f, .vcmp f, .vexp2 f,
    .vlog2 f, .vrcp f, .vrsq f, .vsqrt f, .vtanh f], (vresult i o c).flags = 0 := by
  have hred : (vredRes f o).flags = 0 := by
    simp only [vredRes, hkm, filter_zero_mask]
    rfl
  have hamax : (vamaxRes f o).flags = 0 := by
    simp only [vamaxRes, hkm, filter_zero_mask]
    rfl
  have hcmp : (vcmpRes f o).flags = 0 := by
    simp only [vcmpRes, hkm, filter_zero_mask]
    rfl
  have hmask : ∀ w n rs, (masked w n o.km rs).flags = 0 := fun _ _ => flags_masked hkm
  simp only [List.forall_mem_cons]
  exact ⟨hmask _ _ _, hmask _ _ _, hmask _ _ _, hmask _ _ _, hmask _ _ _, hmask _ _ _, hmask _ _ _, hmask _ _ _, hmask _ _ _,
    hmask _ _ _, hmask _ _ _, hmask _ _ _, hmask _ _ _, hred, hamax, hcmp,
    hmask _ _ _, hmask _ _ _, hmask _ _ _, hmask _ _ _, hmask _ _ _, hmask _ _ _, by simp⟩

end Sys2Proof.Machine
end

section
open Sys2Proof Sys2Proof.Machine

/-- Settles O60: each computation by the lemma about its elements, its sorted groups or its blocks; rounding gives back
what a format holds. -/
theorem vectorComputations : Obligations.VectorComputations := by
  unfold Obligations.VectorComputations
  intro f o c hl hty ha w ty int z t n a b rd rnd els op sel first comb
  have hw : wOf f ∣ 4096 := width_dvd hty
  refine ⟨fun hfm h4 hb => ?_, ⟨add_fin_exact, mul_fin_exact, fun x hx mode h4 hn => ?_⟩,
    fun hfm hint hb => elems_shifts hty ha hl hfm hb, fun hb hn => ?_, fun hd => ?_, fun hb hc j hj => ?_,
    fun hn hb => elems_vperm hty hb, fun hk => ?_, fun h4 => vamax_spec f o, fun hint hr hk => ?_,
    fun hint hb hg hdvd g hlt => sortk_spec hint ha hb hdvd hlt, ?_, fun k gap xs hk => kbQuant_spec k gap xs, fun h2 => ?_, ?_,
    flags_of_none_enabled c⟩
  · have hr : ∀ ftz v, ((ffmt (tyOf f)).round 0 ftz v).1 < 2 ^ wOf f := ffmt_round_lt h4 0
    exact ⟨elems_fp2 h4 ha hfm hl hb fun x y => hr _ _, elems_fp2 h4 ha hfm hl hb fun x y => hr _ _,
      elems_fp2 h4 ha hfm hl hb fun x y => hr _ _, elems_fp2 h4 ha hfm hl hb fun x y => hr _ _,
      elems_fp2 h4 ha hfm hl hb fun x y => hr _ _, elems_fp1 h4 ha fun x => hr _ _, elems_fp1 h4 ha fun x => hr _ _,
      fun hc e he => ⟨elems_fused h4 ha hfm hl hb hc false he, elems_fused h4 ha hfm hl hb hc true he⟩⟩
  · exact round_val (ffmt_sound _) (by rw [width_ffmt h4]; exact hx) hn mode
  · obtain ⟨m, en, hm, hbits⟩ := vcmp_mask ha hl hb hn
    refine ⟨m, en, hm, fun e he => ?_⟩
    obtain ⟨hen, hout, hin⟩ := hbits e he
    refine ⟨hen, hout, fun hlt => ⟨fun hint => ?_, fun hint hnan => ?_, fun hint hnan => ?_⟩⟩
    · exact (hin hlt).trans (vcond_int hint _ _ _ _)
    · exact (hin hlt).trans (vcond_nan (Bool.not_eq_true _ |>.mpr hint) _ hnan)
    · exact (hin hlt).trans (vcond_numbers (Bool.not_eq_true _ |>.mpr hint) _ hnan)
  · exact ⟨fun h e he => getD_convertRes ha hd (show f.span * (4096 / wOf f) = _ by rw [show wOf f = width f.dst from h.symm]) he,
      fun h e he => getD_convertRes ha hd (nOf_vwid hty hd h) he,
      fun h hs e he => getD_convertRes ha hd (nOf_vnar hty hd h hs) he⟩
  · exact ⟨fun hint _ => (getD_vdot hc hj).trans (dotElem_int hint o _ _),
      fun _ h4 => (getD_vdot hc hj).trans (dotElem_fp (not_int_of_le h4) o _ _)⟩
  · have hfirst : redIdentity ty op = first := redIdentity_eq ty op
    have hcomb : (fun x y => (redStep ty op o.ftz x y).1) = comb := funext fun x => funext fun y => redStep_fst ty op o.ftz x y
    rw [← hfirst, ← hcomb]
    exact ⟨⟨getD_vred hty hk 0, fun e he => (getD_vred hty hk e).trans (if_neg (by omega))⟩,
      fun e he => scan_elements hty hk ha he⟩
  · refine ⟨selPicks f o, fun j hj => ?_, selk_mask ha hint hk hr⟩
    obtain ⟨hlen, hin, hahead, hrest⟩ := selPicks_spec ha hint hk hj
    exact ⟨hlen, hin, hahead, hrest, fun i hi => getD_selk ha hint hk hj hi⟩
  · intro fmt v r h2 h16 h18 hn j hj
    obtain ⟨hs1, hs2⟩ := vquant_scales (fmt := fmt) rfl ha h2 hn hj
    exact ⟨hs1, hs2, fun i hi => vquant_codes (fmt := fmt) rfl ha h2 hj hi⟩
  · intro x hx
    fin_cases hx <;> exact elems_sf ha h2 _
  · exact ⟨sfF32_nan, sfF32_zero, fun y m e hm op hop => sfF32_negative hop y e hm, sfF32_inf, sfRound_near, isqrt_bounds⟩
end
